-- ==== Sys2Proof/Word.lean ====
section
/-! DEFINITION. The widths the manual names: 64-bit registers (R10), bytes, 128-bit bundles (R134). -/

namespace Sys2Proof

/-- One byte. -/
abbrev Byte := BitVec 8

/-- A 64-bit register or scalar value (R10, R136). -/
abbrev Word := BitVec 64

/-- A 128-bit task bundle (R134). -/
abbrev Bundle := BitVec 128

end Sys2Proof
end

