-- ==== Sys2Proof/Syntax.lean ====
section
/-! DEFINITION. The commands of the module: one constructor for each row of spec/opcode_table.json, with what the
command carries. A command is a host access, an arrival (packet, flit, frame, signal), the issue of one slot
instruction on a core, or the moment at which a timed or physical event comes about. Where an event's outcome is the
world's (a measurement, a test verdict, a reply from another module), the command carries what was observed. -/

namespace Sys2Proof

/-- Hardware context 0-127 (R70). -/
abbrev Ctx := Fin 128
/-- Compute die 0-3. -/
abbrev Die := Fin 4
/-- Cluster 8 × die + cluster (R29). -/
abbrev Cluster := Fin 32
/-- Logical core die × 128 + cluster × 16 + core, the number of RDSR CORE (R137). -/
abbrev LCore := Fin 512
/-- Optical port P0-P31. -/
abbrev Port := Fin 32
/-- Memory stack M0-M11. -/
abbrev Stack := Fin 12
/-- Partition 0-3 (R29). -/
abbrev Part := Fin 4
/-- Scalar register x0-x31. -/
abbrev XReg := Fin 32
/-- Vector register v0-v15. -/
abbrev VReg := Fin 16
/-- Address generator AG0-AG3. -/
abbrev AReg := Fin 4
/-- Token endpoint 0-7. -/
abbrev Endp := Fin 8
/-- Local group number 0-1,023. -/
abbrev Grp := Fin 1024
/-- Node ID: rack index [11:6], cube position [5:0]. -/
abbrev Node := BitVec 12

/-- A host access to one register: a read, or a write of a value (R12). -/
inductive HostAcc where
  | rd
  | wr (v : Word)
  deriving DecidableEq, Repr

/-- One read of a 64-byte line (R205, R207): whether the stack's on-die ECC reports an uncorrected error, and the words of which an
odd number of bits, parity bit included, comes changed. -/
structure LineRead where
  uncorrected : Bool
  flips : BitVec 16
  deriving DecidableEq, Repr

/-- What the world does to the reads of one line of a stack (R207): whether on-die ECC corrected it, and its first and repeated reads in
order; a read that is not listed comes unchanged. -/
structure LineObs where
  line : Nat
  onDie : Bool
  reads : List LineRead
  deriving DecidableEq, Repr

/-- What the world does to the read of one 64-byte line, by local address ÷ 64, of a core or cluster store (R205, R220, R221): the words
that come changed at the first read and at its repeat, and whether the fault is hard. -/
structure StoreLine where
  line : Nat
  first : BitVec 16
  second : BitVec 16
  hard : Bool
  deriving DecidableEq, Repr

/-- What an access of an engine meets: the answer of a home on another module, a status code of R13 and the bytes it returned, and what
the lines of this module's stacks show (R207). -/
structure FarReply where
  status : Byte
  bytes : List Byte
  lines : List LineObs
  deriving DecidableEq, Repr

/-- A stage that checks the parity of the words it receives and has them replayed (R205, R206, R382): on a trellis, a die-to-die or hub
link, the store port of a core or of a cluster, the encryption engine of a stack. -/
inductive PathRef where
  | trellis (n : Nat) | dieLink (n : Nat) | hubLink | storePort (core : Fin 576) | clusterPort (n : Cluster) | cipher (st : Stack)
  deriving DecidableEq, Repr

/-- The queue that a fetch or a disable acts on. -/
inductive QRef where
  | compute (c : Ctx) (q : Fin 16)
  | copy (c : Ctx) (q : Fin 4)
  | comm (g : Grp)
  deriving DecidableEq, Repr

/-- What a descriptor fetch met (R174): the host's bytes for a HOST ring, poisoned or not, or the failure. A MODULE ring's bytes are
the module's own memory; `far` is used when its page lies on another module. -/
inductive FetchObs where
  | mine (lines : List LineObs)
  | bytes (b : List Byte)
  | poisoned (b : List Byte)
  | far (r : FarReply)
  | pcieError
  deriving DecidableEq, Repr

/-- A 2-bit issue slot of a bundle (R134). -/
inductive Slot where
  | C | A | I
  deriving DecidableEq, Repr

/-- Result of one stack's training at MEMTRAIN (R216): lanes replaced and train_result of MEMC.STK.STATE. -/
structure TrainObs where
  stack : Stack
  lanes : BitVec 8
  result : Fin 4
  deriving DecidableEq, Repr

/-- A row or bank of a stack: pseudo-channel, bank, row (R203). -/
structure RowRef where
  stack : Stack
  pc : Fin 64
  bank : Fin 45
  row : Fin 16384
  deriving DecidableEq, Repr

/-- What a screen found (R215, R217, R218): rows and banks found bad, row remaps turned into post-package repair,
stacks whose defects exceed their spares, and the disturb count measured on each stack by a FULL screen. -/
structure ScreenObs where
  badRows : List RowRef
  badBanks : List RowRef
  repaired : List RowRef
  overCapacity : List Stack
  disturb : List (Stack × Nat)
  seconds : BitVec 16
  deriving DecidableEq, Repr

/-- Units that the start-up test of DEFECTS fails (R423): physical cores (R376 numbering), core-store rows
(core, row), cluster-store rows (cluster, row), hub adder lanes (R376) and optical lanes (R376). -/
structure DefectObs where
  cores : List (Fin 576)
  coreRows : List (Fin 576 × Fin 2048)
  clusterRows : List (Cluster × Fin 8192)
  adders : List (Fin 8)
  lanes : List (Fin 544)
  deriving DecidableEq, Repr

/-- A neighbour as a module hears of it (R328, R329): the port and the node, its hops to the hall root and to the master of its rack, its
fabric time. -/
structure TimePeer where
  port : Port
  node : Node
  hall : BitVec 16
  rack : Byte
  time : Word
  deriving DecidableEq, Repr

/-- What JOIN learns from the rack (R328, R331): the positions with a working port of each global dimension, the nodes of the hall that
have completed JOIN, the neighbours. -/
structure JoinObs where
  gateways : List Word
  joined : List Node
  peers : List TimePeer
  deriving DecidableEq, Repr

/-- A signal of this module on its way to an object: the context, the object, the value (R160-R163). -/
structure SigMsg where
  fromCtx : Option Ctx
  obj : BitVec 14
  value : Word
  deriving DecidableEq, Repr

/-- What SECDED finds on an object's state (R165). -/
inductive EccObs where
  | clean | single | double
  deriving DecidableEq, Repr

/-- A request packet at its home (R288): source node, issuing context and job tag, address, request identifier,
atomic operation, length of a READ, bytes of a WRITE or operands of an ATOMIC. -/
structure Req where
  src : Node
  ctx : Ctx
  job : BitVec 16
  gpa : BitVec 52
  id : BitVec 32
  op : Byte
  len : Nat
  data : List Byte
  deriving DecidableEq, Repr

/-- A reply packet (R288): echoed identifier, status, data or old value, and the offsets of 64-byte lines that are
marked poisoned. -/
structure Reply where
  id : BitVec 32
  status : Byte
  data : List Byte
  poisoned : List Nat
  deriving DecidableEq, Repr

/-- How a copy part's transfer went (R246-R248): what the far source or destination answered, whether the two digests
disagreed once or twice, and whether the digest record could be written. -/
structure PartObs where
  far : FarReply
  sink : FarReply
  disagree : Fin 3
  record : Bool
  deriving DecidableEq, Repr

/-- A packet (R287, R288): the fields of its header, and the bytes that follow it, cut or filled with zeros to `len` + 1 flits. The class is
the kind's, or request where a tunnelled edge carries a collective's flits (R307). `frame` stands for the frame of a reply's request (R293),
which the header does not carry; of other packets it is not used (log entry 98). -/
structure Pkt where
  src : Node
  dst : Node
  kind : Byte
  tunnel : Bool
  stage : Fin 8
  phase : Fin 4
  last : Fin 8
  sub : BitVec 7
  adv : Bool
  stamp : Byte
  len : Fin 64
  frame : BitVec 32
  body : List Byte
  deriving DecidableEq, Repr

/-- A signal that arrives: one of this module, or the SIGNAL packet of another (R163, R288). -/
inductive SigIn where
  | own (m : SigMsg)
  | packet (p : Pkt)
  deriving DecidableEq, Repr

/-- A ROUTE_UPDATE: origin position, its generation and, for each global dimension, whether its port works (R294). -/
structure RouteMsg where
  pos : BitVec 6
  gen : BitVec 16
  works : List Bool
  arrived : Port
  deriving DecidableEq, Repr

/-- What a leader knows of another module's routes when it builds a tree (R303): its working ports, gateway map and detour tables. -/
structure RouterObs where
  node : Node
  ports : BitVec 32
  gw : List Word
  locals : List (BitVec 32)
  globals : List (BitVec 32)
  deriving DecidableEq, Repr

/-- What a GROUP_SETUP packet says (R301, R302, R308): a member has joined; check and reserve a part; the answer to that; the group is
READY; formation failed; a member has left. -/
inductive SetupStep where
  | joined | check | answer | commit | fail | left
  deriving DecidableEq, Repr

/-- A GROUP_SETUP packet (R302, R303): the group key, who sent it, the context of a member there or here, the group's size, the rank and
the leader context's job tag, the part in the tree with its depth, and the reason of a failure. -/
structure SetupMsg where
  step : SetupStep
  key : BitVec 22
  sender : Node
  member : Option Ctx
  members : BitVec 13
  rank : BitVec 12
  tag : BitVec 16
  parent : Option Port
  children : List Port
  depth : Fin 32
  reason : Fin 16
  deriving DecidableEq, Repr

/-- Direction or use of a collective unit (R325). -/
inductive CollDir where
  | up | down | ctl
  deriving DecidableEq, Repr

/-- A unit of a collective as it arrives on a tree port (R325, R327): an express flit's content or a packet's body, and what no field of
either carries (log entry 104): the word and count under the seal (R314), a status that a member reports upwards, poisoned data. -/
structure CollIn where
  port : Port
  express : Bool
  bytes : List Byte
  w : Word
  count : BitVec 32
  status : Byte
  poisoned : Bool
  deriving DecidableEq, Repr

/-- What goes wrong where data is handled and digested (R317, R318): errors in the data at first and when recomputed, as places and amounts,
errors of the digest unit at both times, and the adder lane concerned. -/
structure DigestObs where
  lane : Fin 8
  first : List (Nat × Nat)
  second : List (Nat × Nat)
  unit1 : Word
  unit2 : Word
  deriving DecidableEq, Repr

/-- Nothing goes wrong. -/
def DigestObs.clean : DigestObs := ⟨0, [], [], 0#64, 0#64⟩

/-- Whose collective a timeout ends (R321): this module's member's, or that of a group whose tree only passes here. -/
inductive CollRef where
  | member (g : Grp)
  | transit (key : BitVec 22) (seq : BitVec 32)
  deriving DecidableEq, Repr

/-- A ring of records whose holdoff may run out (R184, R379): a result ring of a context, or the error ring. -/
inductive RingRef where
  | result (c : Ctx) (r : Fin 8)
  | errors
  deriving DecidableEq, Repr

/-- A comma word as it arrives on a lane (R256): the physical lane that receives it, its 40 levels, the first in the lowest two bits, and
where in the receiver's count of 43,560 symbols, one count for all lanes of a port, it begins. -/
structure CommaObs where
  lane : Fin 34
  levels : BitVec 80
  offset : Fin 43560
  deriving DecidableEq, Repr

/-- Tap settings in units of 1/64 of full swing (R270), as the signed bytes of TAP_STAT (R269). -/
structure Taps where
  pre2 : Byte
  pre1 : Byte
  main : Byte
  post1 : Byte
  deriving DecidableEq, Repr

/-- A step request for each tap, in the order pre2, pre1, main, post1: 0 hold, 1 up, 2 down, 3 preset (R269). -/
structure TapReq where
  num : Byte
  pre2 : Fin 4
  pre1 : Fin 4
  main : Fin 4
  post1 : Fin 4
  deriving DecidableEq, Repr

/-- One feed (R335). -/
inductive Feed where
  | A | B
  deriving DecidableEq, Repr

/-- Rail currents of one 50 ns sample, as the power controller's sliding averages (R346): the 2 µs and 200 ns
averages in A, how long the 2 µs average has stayed at the limit in ns, and how long below 90% in ns, the rail's voltage; of VOPT also what
each optical engine draws in A. -/
structure RailObs where
  rail : Fin 13
  avg2us : Nat
  avg200ns : Nat
  heldNs : Nat
  below90Ns : Nat
  mv : BitVec 12
  engines : List Nat
  deriving DecidableEq, Repr

/-- What the power controller predicts at one job frequency (R352): the module's input power and that of each partition in W, the 2 µs
peak current of each rail in A, the 5 ms forecast of the hottest point of each cluster of the die in 1/16 °C. -/
structure FreqPoint where
  power : Nat
  parts : List Nat
  rails : List Nat
  points : List Int
  deriving DecidableEq, Repr

/-- The predictions for a die (R352), at the job frequencies from 800 MHz on in steps of 25 MHz. -/
structure FreqObs where
  die : Die
  table : List FreqPoint
  deriving DecidableEq, Repr

/-- A check of the coolant sensors, all in 1/16 °C (R366): the readings of inlet and outlet and the model's estimates. -/
structure CoolObs where
  inlet : Int
  outlet : Int
  modelIn : Int
  modelOut : Int
  deriving DecidableEq, Repr

/-- A diode's reading of one 100 µs check, all in 1/16 °C (R364). -/
structure DiodeObs where
  core : Fin 576
  reading : Int
  model : Int
  deriving DecidableEq, Repr

/-- A management record as it arrives (R474), with the IPv6 address that it came from (R473). -/
structure MRec where
  magic : BitVec 32
  version : Byte
  kind : Byte
  flags : Byte
  reserved : Byte
  node : BitVec 16
  sender : BitVec 32
  tag : Word
  counter : Word
  body : List Byte
  hmac : List Byte
  from_ : BitVec 128
  deriving DecidableEq, Repr

/-- A power condition that holds for a warning of R362. -/
inductive CoolWarn where
  | inlet | outlet | flow | thermalLimit
  deriving DecidableEq, Repr

/-- A unit with a reset deadline (R412). -/
inductive RUnit where
  | engine (k : LCore) (e : Fin 4) | core (k : LCore) | cluster (n : Cluster) | domain (p : Part)
  deriving DecidableEq, Repr

/-- An SPDM transport of R436. -/
inductive SpdmPath where
  | doe | mgmt
  deriving DecidableEq, Repr

/-- The state sensors and numeric sensors of R488. -/
inductive Sensor where
  | inputPower | effectiveCap | inlet | outlet | flow | fjob (d : Die) | forecast (d : Die)
  deriving DecidableEq, Repr

/-- The state-sensor PDRs of R488. -/
inductive StateSensor where
  | power | leak | port (p : Port) | supervisor | fault | firmware
  deriving DecidableEq, Repr

/-- A service frame after its sync (R461); its length is the payload's. -/
structure SFrame where
  kind : Byte
  seq : Byte
  payload : List Byte
  crc : BitVec 32
  deriving DecidableEq, Repr

/-- A core that fails its tasting test in step 9 of a compute-domain reset, whether the repeat passes, and the item that failed
(R385, R410). -/
structure TasteFail where
  core : Fin 576
  passes : Bool
  item : Byte
  deriving DecidableEq, Repr

/-- What the world shows as a core store is copied by a move (R57): the cluster, and the lines that fail their parity, by the line's place
in the store (R220). -/
structure MoveCopy where
  cluster : Cluster
  lines : List StoreLine
  deriving DecidableEq, Repr

/-- What the world shows when a host write takes effect: the reply of a home on another module, the programs that unfetched descriptors
name in rings outside this module (R132), cores that do not answer and cores
that fail their test, results of training and screening, what the steps of bring-up meet (R421), the sweep of EYE_MARGIN (R281) and the
check of SENSOR_CHECK (R364, R366), what a leader knows of other routers (R303). A write uses the parts that its effect needs. -/
structure HostObs where
  far : FarReply
  queued : List (Fin 64)
  silent : List LCore
  failed : List TasteFail
  train : List TrainObs
  screen : ScreenObs
  flashOk : Bool
  rail : Option (Fin 13)
  locked : Bool
  defects : DefectObs
  rngOk : Bool
  keyOk : Bool
  join : JoinObs
  eye : List Byte
  diodes : List DiodeObs
  cool : CoolObs
  views : List RouterObs
  deriving DecidableEq, Repr

/-- A write of ERR.LEESCMD (R395): the word, and what the lines of the lees that it reads meet. -/
structure LeesGo where
  v : Word
  lines : List LineObs
  deriving DecidableEq, Repr

/-- Nothing to report: for writes whose effect the world does not enter. -/
def HostObs.plain : HostObs :=
  { far := ⟨0#8, [], []⟩, queued := [], silent := [], failed := [], train := [], screen := ⟨[], [], [], [], [], 0#16⟩, flashOk := true, rail := none
    locked := true, defects := ⟨[], [], [], [], []⟩, rngOk := true, keyOk := true, join := ⟨[], [], []⟩, eye := []
    diodes := [], cool := ⟨0, 0, 0, 0⟩, views := [] }

/-- The commands. -/
inductive Instr where
  -- Host interface
  | registerWrite (off : BitVec 26) (acc : HostAcc) (obs : HostObs)
  | bar0BadAccess (bar2 : Bool) (off : BitVec 26) (size : Nat) (acc : HostAcc)
  | reservedOffsetAccess (bar2 : Bool) (off : BitVec 26) (acc : HostAcc)
  | bar4Read (off : BitVec 36) (len : Nat) (resize : Option (Fin 7)) (far : FarReply)
  | bar4Write (off : BitVec 36) (data : List Byte) (resize : Option (Fin 7)) (far : FarReply)
  | zfHostwinWrite (v : Word)
  | cuveeDataWrite (v : Word)
  | cuveeClear (v : Word)
  | verify (v : Word)
  | verifyResult
  -- Bring-up
  | image (flashOk : Bool)
  | power (railFault : Option (Fin 13))
  | clocks (locked : Bool)
  | memtrain (obs : List TrainObs)
  | memscreen (obs : ScreenObs)
  | defects (obs : DefectObs)
  | links
  | cabling
  | secure (rngOk : Bool) (keyOk : Bool)
  | join (obs : JoinObs)
  | openStep
  | stepResult (ms : BitVec 32)
  -- Contexts, quotas, programs
  | ctxCreate (c : Ctx) (v : Word)
  | ctxDestroy (c : Ctx) (v : Word)
  | contextFree (c : Ctx)
  | qsyncLimitWrite (c : Ctx) (v : Word)
  | qpagesLimitWrite (c : Ctx) (v : Word)
  | qgroupsLimitWrite (c : Ctx) (v : Word)
  | qbwShareWrite (c : Ctx) (v : Word)
  | bind (v : Word) (far : FarReply)
  | unbind (v : Word) (queued : List (Fin 64))
  -- Queues and records
  | tailDoorbell (c : Ctx) (q : Fin 20) (acc : HostAcc)
  | headDoorbell (c : Ctx) (r : Fin 8) (acc : HostAcc)
  | queueEnable (c : Ctx) (q : Fin 20) (v : Word)
  | queueDisable (c : Ctx) (q : Fin 20) (v : Word)
  | ringEnable (c : Ctx) (r : Fin 8) (v : Word)
  | ringDisable (c : Ctx) (r : Fin 8) (v : Word)
  | descriptorFetch (q : QRef) (obs : FetchObs)
  | poolEntry (c : Ctx) (q : Fin 16)
  | taskPull (k : LCore)
  | taskCompletion (k : LCore)
  | recordWrite (c : Ctx) (r : Fin 8) (linkOk : Bool)
  | interruptHoldoff (r : RingRef)
  | shadowTimeout (k : LCore)
  | decantLoRead
  | decantHiRead
  | decantLostRead
  | decantSpillRead
  | decantBadAccess (off : BitVec 12) (size : Nat) (acc : HostAcc)
  | decantWrite (off : BitVec 12) (v : BitVec 32)
  -- Sync objects
  | syncAlloc (v : Word)
  | syncFree (v : Word)
  | syncArm (v : Word)
  | syncSignal (v : Word)
  | syncReset (v : Word)
  | syncRead (v : Word)
  | signal (m : SigIn) (ecc : EccObs)
  | pourWave (d : Die)
  | setpointReturn (d : Die)
  | tokenArrival (k : LCore) (e : Endp)
  -- Scalar and branch, slot C
  | nop (k : LCore) (sl : Slot)
  | add (k : LCore) (rd rs1 rs2 : XReg)
  | sub (k : LCore) (rd rs1 rs2 : XReg)
  | and (k : LCore) (rd rs1 rs2 : XReg)
  | or (k : LCore) (rd rs1 rs2 : XReg)
  | xor (k : LCore) (rd rs1 rs2 : XReg)
  | sll (k : LCore) (rd rs1 rs2 : XReg)
  | srl (k : LCore) (rd rs1 rs2 : XReg)
  | sra (k : LCore) (rd rs1 rs2 : XReg)
  | mul (k : LCore) (rd rs1 rs2 : XReg)
  | mulhu (k : LCore) (rd rs1 rs2 : XReg)
  | divu (k : LCore) (rd rs1 rs2 : XReg)
  | remu (k : LCore) (rd rs1 rs2 : XReg)
  | slt (k : LCore) (rd rs1 rs2 : XReg)
  | sltu (k : LCore) (rd rs1 rs2 : XReg)
  | min (k : LCore) (rd rs1 rs2 : XReg)
  | max (k : LCore) (rd rs1 rs2 : XReg)
  | addi (k : LCore) (rd rs1 : XReg) (imm : BitVec 24)
  | andi (k : LCore) (rd rs1 : XReg) (imm : BitVec 24)
  | ori (k : LCore) (rd rs1 : XReg) (imm : BitVec 24)
  | xori (k : LCore) (rd rs1 : XReg) (imm : BitVec 24)
  | lui (k : LCore) (rd : XReg) (imm : BitVec 24)
  | lhi (k : LCore) (rd rs1 : XReg) (imm : BitVec 24)
  | rdsr (k : LCore) (rd : XReg) (idx : BitVec 24)
  | beq (k : LCore) (rs1 rs2 : XReg) (off : BitVec 24)
  | bne (k : LCore) (rs1 rs2 : XReg) (off : BitVec 24)
  | blt (k : LCore) (rs1 rs2 : XReg) (off : BitVec 24)
  | bge (k : LCore) (rs1 rs2 : XReg) (off : BitVec 24)
  | bltu (k : LCore) (rs1 rs2 : XReg) (off : BitVec 24)
  | bgeu (k : LCore) (rs1 rs2 : XReg) (off : BitVec 24)
  | jal (k : LCore) (rd : XReg) (off : BitVec 24)
  | jalr (k : LCore) (rd rs1 : XReg) (imm : BitVec 24)
  -- Address and move, slot A
  | agbase (k : LCore) (ag : AReg) (rs1 : XReg)
  | agdim (k : LCore) (ag : AReg) (d : Fin 8) (rs1 rs2 : XReg)
  | agstep (k : LCore) (ag : AReg) (d : Fin 8)
  | agrd (k : LCore) (ag : AReg) (rd : XReg)
  | vld (k : LCore) (v : VReg) (ag : AReg) (w : Fin 4) (obs : List StoreLine)
  | vst (k : LCore) (v : VReg) (ag : AReg) (w : Fin 4)
  | sld (k : LCore) (rd rs1 : XReg) (imm : BitVec 24) (obs : List StoreLine)
  | sst (k : LCore) (rs rs1 : XReg) (imm : BitVec 24)
  | move (k : LCore) (rd rs1 rs2 : XReg) (obs : List StoreLine)
  | moveComplete (k : LCore) (i : Nat)
  | get (k : LCore) (rd rs1 rs2 : XReg)
  | put (k : LCore) (rd rs1 rs2 : XReg) (obs : List StoreLine)
  | puts (k : LCore) (rd rs1 rs2 rsig : XReg) (obs : List StoreLine)
  | fwait (k : LCore) (n : BitVec 5)
  | aadd (k : LCore) (rd rs1 rs2 : XReg)
  | amin (k : LCore) (rd rs1 rs2 : XReg)
  | amax (k : LCore) (rd rs1 rs2 : XReg)
  | aswp (k : LCore) (rd rs1 rs2 : XReg)
  | acas (k : LCore) (rd rs1 rs2 : XReg)
  | fabricReply (k : LCore) (i : Nat) (lines : List LineObs)
  -- Tile, slot I
  | tstart (k : LCore) (m1 n1 : Fin 128) (mode : Fin 4) (rk ra : XReg) (obs : List StoreLine)
  | tmma (k : LCore) (aga agb : AReg) (fa fb : Fin 16) (mx sparse : Bool) (rk rs : XReg) (obs : List StoreLine)
  | tfin (k : LCore) (ago : AReg) (ofmt : Fin 16) (sat sr ftz : Bool) (rx : XReg)
  | twait (k : LCore)
  | finishComplete (k : LCore)
  -- Vector, slot I
  | vadd (k : LCore) (vd vs1 vs2 : VReg)
  | vsub (k : LCore) (vd vs1 vs2 : VReg)
  | vmul (k : LCore) (vd vs1 vs2 : VReg)
  | vfma (k : LCore) (vd vs1 vs2 vs3 : VReg)
  | vdiv (k : LCore) (vd vs1 vs2 : VReg)
  | vsqrt (k : LCore) (vd vs1 : VReg)
  | vmax (k : LCore) (vd vs1 vs2 : VReg)
  | vmin (k : LCore) (vd vs1 vs2 : VReg)
  | vexp (k : LCore) (vd vs1 : VReg)
  | vlog (k : LCore) (vd vs1 : VReg)
  | vrsqrt (k : LCore) (vd vs1 : VReg)
  | vtanh (k : LCore) (vd vs1 : VReg)
  | vsig (k : LCore) (vd vs1 : VReg)
  | vbcast (k : LCore) (vd : VReg) (rs : XReg)
  | vlane (k : LCore) (vs1 : VReg) (rs : XReg) (lane : Fin 128)
  | vcvt (k : LCore) (vd vs1 : VReg) (rs : XReg) (frm dst : Fin 16) (sr sat : Bool)
  | vrsum (k : LCore) (vd vs1 : VReg)
  | vrmax (k : LCore) (vd vs1 : VReg)
  | vrmin (k : LCore) (vd vs1 : VReg)
  | vwred (k : LCore) (vd vs1 : VReg) (rs : XReg)
  | vwredr (k : LCore) (vd vs1 : VReg) (rs : XReg)
  | vradd (k : LCore) (vd vs1 vs2 : VReg)
  -- Sync, token, collective and end, slot C
  | ssig (k : LCore) (rs1 rs2 : XReg)
  | swait (k : LCore) (rd rs1 rs2 : XReg) (fn : BitVec 19)
  | srst (k : LCore) (rs1 : XReg)
  | srd (k : LCore) (rd rs1 : XReg)
  | tbind (k : LCore) (e : Endp) (rs1 : XReg)
  | tunbind (k : LCore) (e : Endp)
  | tsend (k : LCore) (e : Endp) (rs1 : XReg)
  | trecv (k : LCore) (rd : XReg) (e : Endp)
  | tstat (k : LCore) (rd : XReg) (e : Endp)
  | clnch (k : LCore) (rs1 rs2 : XReg) (obs : List StoreLine)
  | tend (k : LCore) (kind : Bool)
  -- Monitors, tasting, moves
  | stall (k : LCore)
  | hangProbe (silent : List LCore)
  | coreHang (k : LCore) (e : Option (Fin 4))
  | resetDeadline (u : RUnit)
  | tastingStart (n : Cluster)
  | tastingResult (n : Cluster) (pass : Bool) (item : Byte)
  | tasteOverdue (n : Cluster)
  | moveBegin (n : Cluster)
  | moveCompleteMap (o : MoveCopy)
  -- Memory
  | read (q : Req) (obs : List LineObs)
  | write (q : Req)
  | atomic (q : Req) (obs : List LineObs)
  | data (r : Reply)
  | ack (r : Reply)
  | old (r : Reply)
  | refused (r : Reply)
  | rowRemap (r : RowRef) (ok : Bool)
  | bankRemap (r : RowRef)
  | stackDead (st : Stack)
  | patrolScrub (st : Stack) (line : Nat) (obs : LineObs)
  | refresh (st : Stack)
  | stackTemperatureRead (st : Stack) (t : Int)
  | wordReplay (path : PathRef) (clean : Bool) (line : Nat)
  | map (v : Word)
  | unmap (v : Word)
  | protect (v : Word)
  | lookup (v : Word)
  | cacheDropComplete
  | copyStart (c : Ctx) (q : Fin 4)
  | copyPartEnd (c : Ctx) (q : Fin 4) (i : Nat) (part : Fin 32) (obs : PartObs)
  | partTimeout (c : Ctx) (q : Fin 4) (i : Nat) (part : Fin 32)
  | requestTimeout (id : BitVec 32)
  -- Routing and collectives
  | routerForward (p : Pkt) (fromPort : Option Port)
  | holdRelease
  | routeUpdate (m : RouteMsg)
  | groupCreate (v : Word) (rankMap : FarReply) (views : List RouterObs)
  | groupJoin (v : Word)
  | groupDestroy (v : Word)
  | groupSetup (m : SetupMsg)
  | formTimeout (g : Grp)
  | commQueueEnable (g : Grp) (v : Word)
  | commQueueDisable (g : Grp) (v : Word)
  | commDoorbell (c : Ctx) (acc : HostAcc)
  | collectiveStart (g : Grp) (far : FarReply) (hop end_ : DigestObs)
  | collUp (u : CollIn) (hop end_ : DigestObs)
  | collDown (u : CollIn) (hop end_ : DigestObs)
  | collCtrl (u : CollIn)
  | collectiveTimeout (r : CollRef)
  -- Optical links
  | expressFlit (p : Port) (cw : BitVec 5440)
  | blockReceive (p : Port) (cws : List (BitVec 5440))
  | comma (p : Port) (obs : CommaObs)
  | swapApply (p : Port)
  | swap (p : Port) (lane : Fin 16) (sub : Fin 34) (seq : BitVec 14)
  | swapAck (p : Port) (lane : Fin 16) (sub : Fin 34) (seq : BitVec 14)
  | narrow (p : Port) (w : BitVec 5) (seq : BitVec 14)
  | narrowAck (p : Port) (w : BitVec 5) (seq : BitVec 14)
  | disable (p : Port) (reason : Fin 16)
  | trainingSuperframe (p : Port) (lane : Fin 34) (msg : Word) (crc : BitVec 32) (rtt : BitVec 16)
  | tapReq (p : Port) (lane : Fin 34) (r : TapReq) (crc : BitVec 32)
  | tapStat (p : Port) (lane : Fin 34) (num : Byte) (t : Taps) (res : BitVec 8) (crc : BitVec 32)
  | laneDone (p : Port) (lanes : BitVec 34) (crc : BitVec 32)
  | ident (p : Port) (node : Node) (port : Port) (token echo : BitVec 12) (rtt : BitVec 16) (crc : BitVec 32)
  | width (p : Port) (w wmin : BitVec 5) (bad : BitVec 34) (crc : BitVec 32)
  | abort (p : Port) (reason : Byte) (crc : BitVec 32)
  | prbsCount (p : Port) (lane : Fin 34) (errors : Nat)
  | trainingTimeout (p : Port)
  | retrainTimer (p : Port)
  | eyeMarginSweep (oe : Fin 16) (w0 h0 w1 h1 : Byte)
  | portRetrain (v : Word)
  | deferredRetrainStart
  | hello (p : Port) (nonce : List Byte) (node : Node) (port : Port)
  | cert (p : Port) (off : BitVec 16) (frag : List Byte)
  | share (p : Port) (half : Fin 2) (bytes : List Byte)
  | proof (p : Port) (half : Fin 2) (bytes : List Byte)
  | finish (p : Port) (mac : List Byte)
  | refuse (p : Port) (reason : Fin 8)
  | attestTimeout (p : Port)
  | keySwitch (p : Port) (seq : BitVec 14) (rekey : Bool)
  | keySwitchAck (p : Port) (seq : BitVec 14) (rekey : Bool)
  | keySwitchBlock (p : Port) (tx : Bool)
  | rekey (p : Port) (half : Fin 2) (bytes : List Byte)
  | rekeyDue (p : Port)
  | rekeyRetry (p : Port)
  -- Fabric time
  | timeSyncTick
  | timeReq (p : Port) (t1 : Word)
  | timeRsp (p : Port) (t2 t3 : Word) (distance : BitVec 16) (root : Node)
  | upstreamTimeout (joined : List Node) (peers : List TimePeer)
  -- Power
  | pactBind (p : Part) (v : Word)
  | pactEpoch (k : Word)
  | pactResult (u : CollIn)
  | pactSwitch (k : Word)
  | freqCompute (obs : List FreqObs)
  | capCheck (watts : BitVec 16) (draws : List (BitVec 16)) (ampsA ampsB : Byte)
  | earlyBreakDeassert (f : Feed)
  | earlyBreakAssert (f : Feed)
  | feedVoltageFault (f : Feed) (tenths : BitVec 10)
  | feedValid (f : Feed) (tenths : BitVec 10)
  | stageFault (f : Feed)
  | prechargeDone (f : Feed)
  | revertTimer
  | shareReturn (f : Feed)
  | powerLoss
  | railSample (o : RailObs)
  | railFault (r : Fin 13)
  | phaseLoss (r : Fin 13)
  | droop (n : Cluster)
  | droopRelease (n : Cluster)
  -- Cooling
  | thermalForecast (n : Cluster) (forecast : BitVec 12) (sites : List Int)
  | diodeCheck (obs : List DiodeObs)
  | flowInference (p : Nat) (tin tout : Int)
  | coolantSensorCheck (obs : CoolObs)
  | coolingWarning (w : CoolWarn)
  | warningRepeat (code : Fin 16)
  | leakSample (loop : BitVec 16) (earth : List Nat)
  | leakShutdown
  | hostOrder (v : Word)
  | hostCap (v : Word)
  | ackOff (v : Word)
  | noticeEnd
  | budgetWrite (p : Part) (v : Word)
  -- Errors
  | summaryTimer (code : BitVec 16) (kind : Byte) (unit : BitVec 16)
  | errRingEnable (v : Word)
  | errRingDisable (v : Word)
  | errRingHeadWrite (v : Word)
  | recordResend
  | errCtlWrite (v : Word)
  | wave (v : Word)
  | waveArrival (p : Port) (origin : Node) (gen : BitVec 32) (dom code : BitVec 16) (hops : Byte)
  | leesCopy (o : LeesGo)
  -- Supervisor
  | heartbeatTimeout (i : Fin 3)
  | supDissent (i : Fin 3)
  | resyncDone (i : Fin 3)
  | duplexDisagree (fails : List (Fin 3))
  -- Resets
  | coldReset (sealClosed : Bool)
  | perstAssert
  | perstDeassert
  | hotReset
  | flr
  | auxDone (activeOk otherOk imagesOk : Bool) (badSectors : List (BitVec 32))
  | domain (v : Word) (silent : List LCore)
  | release (v : Word) (failed : List TasteFail)
  | module (v : Word)
  -- Requests
  | coreTest (v : Word)
  | eyeMargin (v : Word) (w0 h0 w1 h1 : Byte)
  | sensorCheck (v : Word) (obs : List DiodeObs) (cool : CoolObs)
  | memScreen (v : Word) (obs : ScreenObs)
  | memTrain (v : Word) (obs : List TrainObs) (screen : ScreenObs)
  | sensorCal (v : Word)
  | tstCancel
  | deferredTestStart (obs : List TrainObs) (screen : ScreenObs)
  -- SPDM and IDE
  | getVersion (t : SpdmPath)
  | getCapabilities (t : SpdmPath)
  | negotiateAlgorithms (t : SpdmPath) (ok : Bool)
  | getDigests (t : SpdmPath)
  | getCertificate (t : SpdmPath) (slot : Byte) (off len : BitVec 16)
  | challenge (t : SpdmPath) (slot : Byte) (nonce : List Byte)
  | getMeasurements (t : SpdmPath) (idx : Byte) (sign : Bool) (nonce : List Byte)
  | keyExchange (t : SpdmPath) (slot : Byte) (share : List Byte)
  | spdmFinish (t : SpdmPath) (session : Nat) (good : Bool)
  | heartbeat (t : SpdmPath) (session : Nat)
  | keyUpdate (t : SpdmPath) (session : Nat)
  | endSession (t : SpdmPath) (session : Nat)
  | ideKmKeyProg (session : Nat)
  | ideStreamLoss
  | rngHealth
  -- Owner commands and presence
  | enroll (blob : List Byte) (viaPort : Bool)
  | debugUnlock (blob : List Byte) (viaPort : Bool)
  | debugLock (blob : List Byte) (viaPort : Bool)
  | rollback (blob : List Byte) (viaPort : Bool)
  | recover (blob : List Byte) (viaPort : Bool)
  | policy (blob : List Byte) (viaPort : Bool)
  | presencePress
  | presenceExpire
  | sealSample (isOpen : Bool)
  -- Service port
  | svcHello (f : SFrame)
  | svcBegin (f : SFrame)
  | svcData (f : SFrame)
  | svcEnd (f : SFrame)
  | bundleStaged (ok : Bool)
  | svcAbandon (f : SFrame)
  | svcRun (f : SFrame)
  | svcDebug (f : SFrame) (obs : HostObs)
  | svcBadFrame (f : SFrame)
  | svcEnDeassert
  -- Management
  | powerOrder (m : MRec)
  | resetOrder (m : MRec)
  | config (m : MRec)
  | query (m : MRec)
  | mgmtSpdm (m : MRec)
  | mgmtOwnerCmd (m : MRec)
  | nonce (m : MRec)
  | reply (m : MRec)
  | badRecord (m : MRec)
  | telemetryTimer
  | mgmtLinkDown
  | mgmtDownTimer
  | mgmtLinkUp (fec : Bool) (addr : Option (BitVec 128))
  -- Side-band
  | entdaa (addr : BitVec 7)
  | setEndpointId (eid : Byte)
  | getSensorReading (x : Sensor)
  | getStateSensorReadings (x : StateSensor)
  | setStateEffecterStates (on : Bool)
  | pollForPlatformEventMessage
  | setManagementKey (key : List Byte)
  | locateHostWrite (v : Word)
  -- Added events
  | swaitTimeout (k : LCore)
  | resetReported (u : RUnit) (failed : List TasteFail)
  | vauxLoss
  | svcEnAssert
  | presenceRelease
  | blockSend (p : Port) (credits : List (BitVec 22 × Fin 17))
  | supHeartbeat (i : Fin 3)
  | restoreDone (i : Fin 3)
  | linksRecordDue
  deriving DecidableEq, Repr

end Sys2Proof
end

