-- ==== Sys2Proof/Decode.lean ====
section
/-! DEFINITION. The command that a word of the table spells. The table of this block gives no row any bits: commands are accesses,
arrivals and events, not encoded words. -/

namespace Sys2Proof

/-- The command that a word of so many bits spells: none, for no row of the table gives bits. -/
def decodeTableWord (_nbits _w : Nat) : Option Instr := none

end Sys2Proof
end

