-- ==== Sys2Proof/Config.lean ====
section
/-! DEFINITION. What the manual leaves open: free values, none of which has a body. A free value is a function of the
model's own counter `State.free` (so that two uses never share it) or of the operands it depends on. -/

namespace Sys2Proof

/-- A 64-bit free value: the n-th open value the machine meets (log entry 1). -/
opaque Config.freeWord : Nat → BitVec 64

/-- A free number without a bound (log entry 1). -/
opaque Config.freeNat : Nat → Nat

/-- A free byte at an address, for a range of memory whose contents the manual leaves undefined (log entry 2). -/
opaque Config.freeByte : Nat → Nat → BitVec 8

/-- A transcendental unit of R126 on finite operands that its special cases leave out: function number (0 exp, 1 log,
2 rsqrt, 3 tanh, 4 sigmoid) and FP32 operand bits. The manual bounds the result, and the model keeps that bound; the bits are those of
fixed tables it does not print (log entry 3). -/
opaque Config.transcendental : Nat → BitVec 32 → BitVec 32

/-- The running digest of outward operations after one more operation (R188): the manual names its width and what it runs
over, not its function (log entry 4). -/
opaque Config.digestStep : BitVec 64 → List Nat → BitVec 64

/-- The unique device secret in the fuses (R434), and the public key of the pair that DICE derives from a compound device identifier: the
manual names the layers, not the derivation (R435, log entry 8). -/
opaque Config.uds : List (BitVec 8)
opaque Config.derivedKey : List (BitVec 8) → List (BitVec 8)

/-- Conventions of the CRC-64 of R259 that the manual leaves out: the start value, what the result is combined with, and
whether each byte goes in lowest bit first (log entry 9). -/
opaque Config.crc64Init : Nat
opaque Config.crc64Out : Nat
opaque Config.crc64Low : Bool

/-- Where PRBS31 stands on a lane at its first training superframe (R268): the manual names no seed (log entry 97). -/
opaque Config.prbsSeed : Nat → Nat

/-- The trim of a die's VCORE in mV, fused (R351); the model takes it within 0–30 (log entry 13). -/
opaque Config.vcoreTrim : Nat → Nat

/-- Etuth's firmware signing key and the fused hash of it, the fused hash of Etuth's device CA key, and the family key, which is secret
(R434, R457, log entry 11). -/
opaque Config.firmwareKey : List (BitVec 8)
opaque Config.firmwareKeyHash : List (BitVec 8)
opaque Config.deviceCaKeyHash : List (BitVec 8)
opaque Config.familyKey : List (BitVec 8)

/-- The entries of the manifest of a plaintext body, as type, offset, length and SHA-384 (R457): the manual leaves the widths of its count
and of these fields out (log entry 14). -/
opaque Config.manifestEntries : List (BitVec 8) → List (Nat × Nat × Nat × List (BitVec 8))

/-- Measurements 1 and 11, which are fixed; measurements 2–6 of the vintage in a bank that came with the module (R437); the certificate
chain for CDI1 and the owner's key_id (R436, R441) and the signature by the Alias key derived from CDI1 (R435) (log entry 12). -/
opaque Config.fixedMeasure : Nat → List (BitVec 8)
opaque Config.measurement : Nat → Nat → List (BitVec 8)
opaque Config.certChain : List (BitVec 8) → BitVec 64 → List (BitVec 8)
opaque Config.aliasSign : List (BitVec 8) → List (BitVec 8) → List (BitVec 8)

/-- The key pair of that number in the key tables (R446, R447): 512 bits of the random generator (log entry 10). -/
opaque Config.keyPair : Nat → BitVec 512

/-- The DMTF secured-message format (R481), which the manual only names: the SPDM message within one, for a session's number and key
epoch, none where it does not open; and the other way (log entry 117). -/
opaque Config.securedOpen : Nat → Nat → List (BitVec 8) → Option (List (BitVec 8))
opaque Config.securedWrap : Nat → Nat → List (BitVec 8) → List (BitVec 8)

/-- What X.509 says of the DER bytes of a peer's DeviceID and Alias certificates (R440, R441): whether the chain leads to the Etuth device
CA, whose key's fused hash comes first, the Alias public key, measurement 8 and the owner's key_id. The manual does not lay the
certificates out (log entry 106). -/
opaque Config.certChainOk : List (BitVec 8) → List (BitVec 8) → Bool
opaque Config.certAliasKey : List (BitVec 8) → List (BitVec 8)
opaque Config.certMeasure8 : List (BitVec 8) → List (BitVec 8)
opaque Config.certOwner : List (BitVec 8) → BitVec 64

/-- Where in the module region the supervisor keeps the pool of page tables, in 2 MiB areas (R226, R227): the manual names the region
only (log entry 93). -/
opaque Config.tableArea : Nat

end Sys2Proof
end

