-- ==== Sys2Proof/Machine/Map.lean ====
section
/-! DEFINITION. Sparse tables: lists of (key, value) pairs with strictly rising keys, the canonical form of every table
of the state that is indexed by number. -/

namespace Sys2Proof.Machine

/-- The value listed at a key. -/
def lookupKey {α : Type} : List (Nat × α) → Nat → Option α
  | [], _ => none
  | (k, v) :: t, a => if k = a then some v else lookupKey t a

/-- List `v` at key `a`, keeping the keys strictly rising. -/
def insertKey {α : Type} : List (Nat × α) → Nat → α → List (Nat × α)
  | [], a, v => [(a, v)]
  | (k, w) :: t, a, v =>
    if a < k then (a, v) :: (k, w) :: t
    else if a = k then (a, v) :: t
    else (k, w) :: insertKey t a v

/-- List every pair of the second list in the first, in order. -/
def insertAll {α : Type} (l : List (Nat × α)) : List (Nat × α) → List (Nat × α)
  | [] => l
  | p :: t => insertAll (insertKey l p.1 p.2) t

/-- Take a key out of the list. -/
def eraseKey {α : Type} (l : List (Nat × α)) (a : Nat) : List (Nat × α) := l.filter (fun p => p.1 != a)

/-- Take every key of the second list out of the first. -/
def eraseAll {α : Type} (l : List (Nat × α)) : List Nat → List (Nat × α)
  | [] => l
  | a :: t => eraseAll (eraseKey l a) t

/-- The keys rise strictly. -/
def rising {α : Type} : List (Nat × α) → Bool
  | [] => true
  | [_] => true
  | (a, _) :: (b, w) :: t => decide (a < b) && rising ((b, w) :: t)

/-- The value at a key of a table whose unlisted keys have the value `d`. -/
def readKey {α : Type} (d : Nat → α) (l : List (Nat × α)) (a : Nat) : α := (lookupKey l a).getD (d a)

/-- Write a key of a table whose unlisted keys have the value `d`: a value equal to `d` is not listed. -/
def writeKey {α : Type} [DecidableEq α] (d : Nat → α) (l : List (Nat × α)) (a : Nat) (v : α) : List (Nat × α) :=
  if v = d a then eraseKey l a else insertKey l a v

/-- Canonical form: strictly rising keys and no entry equal to what an unlisted key reads as. -/
def canonical {α : Type} [DecidableEq α] (d : Nat → α) (l : List (Nat × α)) : Bool :=
  rising l && l.all (fun p => decide (p.2 ≠ d p.1))

/-- Replace element `i` of a list; a list too short stays as it is. -/
def setAt {α : Type} : List α → Nat → α → List α
  | [], _, _ => []
  | _ :: t, 0, v => v :: t
  | x :: t, n + 1, v => x :: setAt t n v

/-- Apply a function to element `i` of a list. -/
def modifyAt {α : Type} : List α → Nat → (α → α) → List α
  | [], _, _ => []
  | x :: t, 0, f => f x :: t
  | x :: t, n + 1, f => x :: modifyAt t n f

/-- Bytes of a number, lowest first. -/
def leBytes : Nat → Nat → List Byte
  | 0, _ => []
  | n + 1, v => BitVec.ofNat 8 v :: leBytes n (v / 256)

/-- The number that bytes spell, lowest first. -/
def fromLe : List Byte → Nat
  | [] => 0
  | b :: t => b.toNat + 256 * fromLe t

/-- The number that bytes spell, highest first. -/
def fromBe (l : List Byte) : Nat := l.foldl (fun a b => a * 256 + b.toNat) 0

/-- Bytes of a number, highest first. -/
def beBytes (n v : Nat) : List Byte := (leBytes n v).reverse

/-- Little-endian field of a byte string: `n` bytes at `off`; bytes beyond the string are zero. -/
def field (l : List Byte) (off n : Nat) : Nat := fromLe ((l.drop off).take n)

/-- Bits [hi:lo] of a number. -/
def bitsOf (v hi lo : Nat) : Nat := v / 2 ^ lo % 2 ^ (hi + 1 - lo)

/-- Bit `i` of a number. -/
def bitOf (v i : Nat) : Bool := v / 2 ^ i % 2 == 1

/-- The number whose ones are at the places of a list without repeats. -/
def maskOf (l : List Nat) : Nat := (l.map (2 ^ ·)).foldl (· + ·) 0

/-- 1 or 0. -/
def ofBool (b : Bool) : Nat := if b then 1 else 0

end Sys2Proof.Machine
end

