-- ==== Sys2Proof/Machine/Crypto.lean ====
section
/-! DEFINITION. The hash, signature and check functions that the manual names: SHA-384 and ECDSA P-384 (FIPS 180-4 and
186-5, R24, R510), HMAC over SHA-384, CRC-32 of IEEE 802.3 (R22). -/

namespace Sys2Proof.Machine

/-- CRC-32 of IEEE 802.3, one bit. -/
def crc32Bit (c : Nat) : Nat := if c % 2 = 1 then (c / 2) ^^^ 0xEDB88320 else c / 2

/-- CRC-32 of IEEE 802.3 over one byte. -/
def crc32Byte (c : Nat) (b : Byte) : Nat :=
  crc32Bit (crc32Bit (crc32Bit (crc32Bit (crc32Bit (crc32Bit (crc32Bit (crc32Bit (c ^^^ b.toNat))))))))

/-- CRC-32 of IEEE 802.3 of a byte string (R22). -/
def crc32 (l : List Byte) : Nat := (l.foldl crc32Byte 0xFFFFFFFF) ^^^ 0xFFFFFFFF

/-- The words of a number, `n` of them, the highest first. -/
def shaWords (n v : Nat) : List Word := (List.range n).map (fun i => BitVec.ofNat 64 (v / 2 ^ (64 * (n - 1 - i))))

/-- The round constants of SHA-384, four to a number. -/
def shaK : List Word :=
  (0x428a2f98d728ae227137449123ef65cdb5c0fbcfec4d3b2fe9b5dba58189dbbc
    :: 0x3956c25bf348b53859f111f1b605d019923f82a4af194f9bab1c5ed5da6d8118
    :: 0xd807aa98a303024212835b0145706fbe243185be4ee4b28c550c7dc3d5ffb4e2
    :: 0x72be5d74f27b896f80deb1fe3b1696b19bdc06a725c71235c19bf174cf692694
    :: 0xe49b69c19ef14ad2efbe4786384f25e30fc19dc68b8cd5b5240ca1cc77ac9c65
    :: 0x2de92c6f592b02754a7484aa6ea6e4835cb0a9dcbd41fbd476f988da831153b5
    :: 0x983e5152ee66dfaba831c66d2db43210b00327c898fb213fbf597fc7beef0ee4
    :: 0xc6e00bf33da88fc2d5a79147930aa72506ca6351e003826f142929670a0e6e70
    :: 0x27b70a8546d22ffc2e1b21385c26c9264d2c6dfc5ac42aed53380d139d95b3df
    :: 0x650a73548baf63de766a0abb3c77b2a881c2c92e47edaee692722c851482353b
    :: 0xa2bfe8a14cf10364a81a664bbc423001c24b8b70d0f89791c76c51a30654be30
    :: 0xd192e819d6ef5218d69906245565a910f40e35855771202a106aa07032bbd1b8
    :: 0x19a4c116b8d2d0c81e376c085141ab532748774cdf8eeb9934b0bcb5e19b48a8
    :: 0x391c0cb3c5c95a634ed8aa4ae3418acb5b9cca4f7763e373682e6ff3d6b2b8a3
    :: 0x748f82ee5defb2fc78a5636f43172f6084c87814a1f0ab728cc702081a6439ec
    :: 0x90befffa23631e28a4506cebde82bde9bef9a3f7b2c67915c67178f2e372532b
    :: 0xca273eceea26619cd186b8c721c0c207eada7dd6cde0eb1ef57d4f7fee6ed178
    :: 0x06f067aa72176fba0a637dc5a2c898a6113f9804bef90dae1b710b35131c471b
    :: 0x28db77f523047d8432caab7b40c724933c9ebe0a15c9bebc431d67c49c100d4c
    :: 0x4cc5d4becb3e42b6597f299cfc657e2a5fcb6fab3ad6faec6c44198c4a475817 :: []).flatMap (shaWords 4)

/-- The hash value that SHA-384 starts from. -/
def shaH : List Word := shaWords 8 0xcbbb9d5dc1059ed8629a292a367cd5079159015a3070dd17152fecd8f70e593967332667ffc00b318eb44a8768581511db0c2e0d64f98fa747b5481dbefa4fa4

/-- A word turned right by each of several amounts, combined. -/
def shaTurns (l : List Nat) (w : Word) : Word := l.foldl (fun acc n => acc ^^^ w.rotateRight n) 0#64

/-- The next word of the schedule from the last sixteen, oldest first. -/
def shaNext (w : List Word) : Word :=
  let old := w.getD 1 0#64
  let new := w.getD 14 0#64
  ((shaTurns [1, 8] old ^^^ old.ushiftRight 7) + (shaTurns [19, 61] new ^^^ new.ushiftRight 6)) + (w.headD 0#64 + w.getD 9 0#64)

/-- One round on the eight working variables: what enters is added in two places, the rest moves on. -/
def shaRound (h : List Word) (k w : Word) : List Word :=
  match h with
  | a :: b :: c :: d :: e :: f :: g :: [z] =>
    let enters := shaTurns [14, 18, 41] e + (g ^^^ e &&& (f ^^^ g)) + (k + w + z)
    (enters + shaTurns [28, 34, 39] a + (a &&& b ||| c &&& (a ||| b))) :: a :: b :: c :: (d + enters) :: e :: f :: [g]
  | l => l

/-- The rounds: constants left, the sixteen-word window of the schedule, the working variables. -/
def shaRounds : List Word → List Word → List Word → List Word
  | [], _, h => h
  | k :: ks, w, h => shaRounds ks (w.drop 1 ++ [shaNext w]) (shaRound h k (w.headD 0))

/-- One 128-byte block. -/
def shaBlock (h : List Word) (blk : List Byte) : List Word :=
  let w := (List.range 16).map (fun i => BitVec.ofNat 64 (fromBe ((blk.drop (8 * i)).take 8)))
  List.zipWith (· + ·) h (shaRounds shaK w h)

/-- All blocks of a padded message. -/
def shaBlocks : Nat → List Word → List Byte → List Word
  | 0, h, _ => h
  | n + 1, h, m => shaBlocks n (shaBlock h (m.take 128)) (m.drop 128)

/-- SHA-384: 48 bytes. -/
def sha384 (m : List Byte) : List Byte :=
  let pad := (239 - m.length % 128) % 128
  let p := m ++ [0x80#8] ++ List.replicate pad 0#8 ++ beBytes 16 (8 * m.length)
  ((shaBlocks (p.length / 128) shaH p).take 6).flatMap (fun w => beBytes 8 w.toNat)

/-- HMAC over SHA-384. -/
def hmac384 (key msg : List Byte) : List Byte :=
  let k0 := if key.length > 128 then sha384 key else key
  let k := k0 ++ List.replicate (128 - k0.length) 0#8
  sha384 (k.map (· ^^^ 0x5c#8) ++ sha384 (k.map (· ^^^ 0x36#8) ++ msg))

/-- CDI0 (R435): of the fused secret and the SHA-384 of the ROM, which is measurement 1 (R437). -/
def cdi0 : List Byte := hmac384 Config.uds (Config.fixedMeasure 1)

/-- The DeviceID public key, derived from CDI0: the same at every start (R26, R435). -/
def deviceKey : List Byte := Config.derivedKey cdi0

/-- The prime, order, coefficient and base point of P-384. -/
def p384p : Nat := 0xfffffffffffffffffffffffffffffffffffffffffffffffffffffffffffffffeffffffff0000000000000000ffffffff
/-- Group order of P-384. -/
def p384n : Nat := 0xffffffffffffffffffffffffffffffffffffffffffffffffc7634d81f4372ddf581a0db248b0a77aecec196accc52973
/-- Coefficient b of P-384. -/
def p384b : Nat := 0xb3312fa7e23ee7e4988e056be3f82d19181d9c6efe8141120314088f5013875ac656398d8a2ed19d2a85c8edd3ec2aef
/-- Base point of P-384. -/
def p384g : Nat × Nat := (0xaa87ca22be8b05378eb1c71ef320ad746e1d3b628ba79b9859f741e082542a385502f25dbf55296c3a545e3872760ab7, 0x3617de4a96262c6f5d9e98bf9292dc29f8f41dbd289a147ce9da3113b5f0b8c00a60b1ce1d7e819d7a431d7c90ea0e5f)

/-- b^e mod m over the low `f` bits of e. -/
def powMod : Nat → Nat → Nat → Nat → Nat
  | 0, _, _, _ => 1
  | f + 1, b, e, m => let h := powMod f (b * b % m) (e / 2) m; if e % 2 = 1 then h * b % m else h

/-- Inverse modulo a prime. -/
def invMod (a m : Nat) : Nat := powMod 384 (a % m) (m - 2) m

/-- Sum of two points of P-384; none is the point at infinity. -/
def p384Add : Option (Nat × Nat) → Option (Nat × Nat) → Option (Nat × Nat)
  | none, q => q
  | p, none => p
  | some (x1, y1), some (x2, y2) =>
    if x1 = x2 ∧ (y1 + y2) % p384p = 0 then none else
    let l := if x1 = x2 then (3 * x1 * x1 + (p384p - 3)) * invMod (2 * y1) p384p % p384p
      else (y2 + (p384p - y1)) * invMod (x2 + (p384p - x1)) p384p % p384p
    let x := (l * l + 2 * p384p - x1 - x2) % p384p
    some (x, (l * (x1 + (p384p - x)) + (p384p - y1)) % p384p)

/-- k times a point, over the low `f` bits of k. -/
def p384Mul : Nat → Nat → Option (Nat × Nat) → Option (Nat × Nat)
  | 0, _, _ => none
  | f + 1, k, p => let h := p384Mul f (k / 2) (p384Add p p); if k % 2 = 1 then p384Add h p else h

/-- ECDSA P-384 with SHA-384 over `msg`: the 96-byte key and signature of R510. -/
def ecdsaOk (key msg sig : List Byte) : Bool :=
  let x := fromBe (key.take 48)
  let y := fromBe ((key.drop 48).take 48)
  let r := fromBe (sig.take 48)
  let s := fromBe ((sig.drop 48).take 48)
  if key.length ≠ 96 ∨ sig.length ≠ 96 then false
  else if x ≥ p384p ∨ y ≥ p384p ∨ y * y % p384p ≠ (x * x * x + (p384p - 3) * x + p384b) % p384p then false
  else if r = 0 ∨ r ≥ p384n ∨ s = 0 ∨ s ≥ p384n then false
  else
    let z := fromBe (sha384 msg)
    let w := invMod s p384n
    match p384Add (p384Mul 384 (z * w % p384n) (some p384g)) (p384Mul 384 (r * w % p384n) (some (x, y))) with
    | none => false
    | some (vx, _) => vx % p384n == r

/-- First 8 bytes of SHA-384 of a public key, hash byte 0 in bits [7:0] (R510). -/
def keyTag (key : List Byte) : Word := BitVec.ofNat 64 (fromLe ((sha384 key).take 8))

end Sys2Proof.Machine
end

