-- ==== Sys2Proof/Machine/Aes.lean ====
section
/-! DEFINITION. The ciphers that the manual names: AES-256 (FIPS 197), its GCM mode (SP 800-38D), AES Key Wrap (RFC 3394), HKDF over
SHA-384 (RFC 5869), key agreement on P-384 (R259, R265, R441, R444, R457). -/

namespace Sys2Proof.Machine

/-! ### The field and the S-box -/

/-- Product in the field of AES, over the low `n` bits of b. -/
def aesMul : Nat → Nat → Nat → Nat
  | 0, _, _ => 0
  | n + 1, a, b =>
    let d := 2 * a
    (if b % 2 = 1 then a else 0) ^^^ aesMul n (if d ≥ 256 then d ^^^ 0x11B else d) (b / 2)

/-- The inverse in the field, 0 for 0: the product of the squares a^2, a^4, … a^128. -/
def aesInv (a : Nat) : Nat :=
  ((List.range 7).foldl (fun acc _ => let q := aesMul 8 acc.2 acc.2; (aesMul 8 acc.1 q, q)) (1, a)).1

/-- A byte turned left by k bits. -/
def turnByte (b k : Nat) : Nat := b * 2 ^ k % 256 ||| b / 2 ^ (8 - k)

/-- The S-box and its inverse. -/
def aesSub (a : Nat) : Nat :=
  let b := aesInv a
  b ^^^ turnByte b 1 ^^^ turnByte b 2 ^^^ turnByte b 3 ^^^ turnByte b 4 ^^^ 0x63
def aesUnsub (a : Nat) : Nat := aesInv (turnByte a 1 ^^^ turnByte a 3 ^^^ turnByte a 6 ^^^ 5)

/-! ### Rounds -/

/-- Byte-wise sum of two lists. -/
def xorNats (a b : List Nat) : List Nat := List.zipWith (· ^^^ ·) a b

/-- The sixty words of the key schedule. -/
def aesSchedule (key : List Nat) : List (List Nat) :=
  (List.range 52).foldl (fun w j =>
    let i := j + 8
    let t := w.getD (i - 1) []
    let u := if i % 8 = 0 then xorNats ((t.drop 1 ++ t.take 1).map aesSub) [2 ^ (i / 8 - 1), 0, 0, 0]
      else if i % 8 = 4 then t.map aesSub else t
    w ++ [xorNats (w.getD (i - 8) []) u])
    ((List.range 8).map (fun i => (key.drop (4 * i)).take 4))

/-- The round key of a round. -/
def aesRoundKey (w : List (List Nat)) (r : Nat) : List Nat := ((w.drop (4 * r)).take 4).flatten

/-- Rows of the state, kept by columns, turned: row r by r columns to the left, or back. -/
def aesRows (back : Bool) (s : List Nat) : List Nat :=
  (List.range 16).map (fun i => s.getD (i % 4 + 4 * ((i / 4 + (if back then 4 - i % 4 else i % 4)) % 4)) 0)

/-- Columns of the state multiplied by the fixed matrix whose first row is given. -/
def aesCols (m : List Nat) (s : List Nat) : List Nat :=
  (List.range 16).map (fun i => ((List.range 4).map (fun j => aesMul 8 (s.getD (4 * (i / 4) + j) 0) (m.getD ((j + 4 - i % 4) % 4) 0))).foldl (· ^^^ ·) 0)

/-- AES-256 of one block under a key schedule. -/
def aesBlock (w : List (List Nat)) (b : List Nat) : List Nat :=
  let s := (List.range 13).foldl (fun s r => xorNats (aesCols [2, 3, 1, 1] (aesRows false (s.map aesSub))) (aesRoundKey w (r + 1)))
    (xorNats b (aesRoundKey w 0))
  xorNats (aesRows false (s.map aesSub)) (aesRoundKey w 14)

/-- The inverse of AES-256. -/
def aesUnblock (w : List (List Nat)) (b : List Nat) : List Nat :=
  let s := (List.range 13).foldl (fun s r => aesCols [14, 11, 13, 9] (xorNats ((aesRows true s).map aesUnsub) (aesRoundKey w (13 - r))))
    (xorNats b (aesRoundKey w 14))
  xorNats ((aesRows true s).map aesUnsub) (aesRoundKey w 0)

/-- Bytes as numbers, and back. -/
def natsOf (l : List Byte) : List Nat := l.map BitVec.toNat
def bytesOf (l : List Nat) : List Byte := l.map (BitVec.ofNat 8)

/-! ### GCM -/

/-- Product of two blocks in the field of GHASH, their first bit being the highest. -/
def ghashMul (x y : Nat) : Nat :=
  ((List.range 128).foldl (fun zv i =>
    (if x.testBit (127 - i) then zv.1 ^^^ zv.2 else zv.1, if zv.2 % 2 = 1 then zv.2 / 2 ^^^ 0xE1 * 2 ^ 120 else zv.2 / 2)) (0, y)).1

/-- Bytes filled with zeros to whole blocks, as numbers. -/
def gcmBlocks (l : List Byte) : List Nat :=
  (List.range ((l.length + 15) / 16)).map (fun i => fromBe (((l.drop (16 * i)).take 16 ++ List.replicate 16 0#8).take 16))

/-- The stream block of a counter value under a 12-byte IV. -/
def gcmStream (w : List (List Nat)) (iv : List Byte) (n : Nat) : List Byte := bytesOf (aesBlock w (natsOf (iv ++ beBytes 4 n)))

/-- AES-256-GCM: the 16-byte tag over associated data and ciphertext. -/
def gcmTag (key iv aad ct : List Byte) : List Byte :=
  let w := aesSchedule (natsOf key)
  let h := fromBe (bytesOf (aesBlock w (List.replicate 16 0)))
  let s := (gcmBlocks aad ++ gcmBlocks ct ++ [8 * aad.length * 2 ^ 64 + 8 * ct.length]).foldl (fun a b => ghashMul (a ^^^ b) h) 0
  beBytes 16 (s ^^^ fromBe (gcmStream w iv 1))

/-- AES-256-GCM: bytes combined with the stream from the n-th block of the text on; encryption and decryption are the same. -/
def gcmCrypt (key iv : List Byte) (n : Nat) (b : List Byte) : List Byte :=
  let w := aesSchedule (natsOf key)
  List.zipWith (· ^^^ ·) b ((List.range ((b.length + 15) / 16)).flatMap (fun i => gcmStream w iv (2 + n + i)))

/-! ### XTS (R447) -/

/-- The next tweak: times x in the field of XTS, the first byte being the lowest. -/
def xtsNext (t : Nat) : Nat := if 2 * t < 2 ^ 128 then 2 * t else (2 * t) % 2 ^ 128 ^^^ 0x87

/-- AES-256-XTS of one 64-byte line under a pair of keys: `tweak` is its local physical address bits [39:6] (R447). The tweaks of its four
blocks follow one from the other. -/
def xtsLine (pair : List Byte) (tweak : Nat) (line : List Byte) : List Byte :=
  let w := aesSchedule (natsOf (pair.take 32))
  let t0 := fromLe (bytesOf (aesBlock (aesSchedule (natsOf (pair.drop 32))) (natsOf (leBytes 16 tweak))))
  ((List.range 4).foldl (fun (acc : Nat × List Byte) j =>
    let t := natsOf (leBytes 16 acc.1)
    (xtsNext acc.1, acc.2 ++ bytesOf (xorNats (aesBlock w (xorNats (natsOf ((line.drop (16 * j)).take 16)) t)) t))) (t0, [])).2

/-! ### Key Wrap, HKDF, key agreement -/

/-- Unwrap a 256-bit key wrapped in 40 bytes (RFC 3394); none where its check value fails. -/
def keyUnwrap (kek c : List Byte) : Option (List Byte) :=
  let w := aesSchedule (natsOf kek)
  let r := (List.range 24).foldl (fun (st : Nat × List (List Byte)) t =>
    let k := 24 - t
    let i := (k - 1) % 4
    let b := bytesOf (aesUnblock w (natsOf (beBytes 8 (st.1 ^^^ k) ++ st.2.getD i [])))
    (fromBe (b.take 8), setAt st.2 i (b.drop 8)))
    (fromBe (c.take 8), (List.range 4).map (fun i => (c.drop (8 + 8 * i)).take 8))
  if r.1 = 0xA6A6A6A6A6A6A6A6 then some r.2.flatten else none

/-- HKDF-SHA-384: up to 144 bytes from a secret, a salt and an info string. -/
def hkdf384 (secret salt info : List Byte) (n : Nat) : List Byte :=
  let prk := hmac384 salt secret
  let t1 := hmac384 prk (info ++ [1#8])
  let t2 := hmac384 prk (t1 ++ info ++ [2#8])
  (t1 ++ t2 ++ hmac384 prk (t2 ++ info ++ [3#8])).take n

/-- The flash key, derived from the fused secret with the label "flash" (R435); PRESUMED: an empty salt (log entry 10). -/
def flashKey : List Byte := hkdf384 Config.uds [] [0x66#8, 0x6C#8, 0x61#8, 0x73#8, 0x68#8] 32

/-- A point as the 96 bytes of R510. -/
def pointBytes (p : Option (Nat × Nat)) : List Byte := match p with
  | some (x, y) => beBytes 48 x ++ beBytes 48 y
  | none => List.replicate 96 0#8

/-- The public key of a private scalar. -/
def publicKey (d : Nat) : List Byte := pointBytes (p384Mul 384 d (some p384g))

/-- The shared secret of a private scalar and a peer's public key: the x coordinate (R441). -/
def sharedSecret (d : Nat) (peer : List Byte) : List Byte :=
  (pointBytes (p384Mul 384 d (some (fromBe (peer.take 48), fromBe ((peer.drop 48).take 48))))).take 48

end Sys2Proof.Machine
end

