-- ==== Sys2Proof/Machine/Image.lean ====
section
/-! DEFINITION. The structure image (R20–R43, R510, R511): its layout, the order of its checks and what it says. -/

namespace Sys2Proof.Machine

/-- One partition of PARTITIONS (R29). -/
structure PartCfg where
  clusters : BitVec 32
  composition : Nat
  ctxFirst : Nat
  ctxCount : Nat
  budget : Nat
  groupIds : Nat
  slotsH0 : Nat
  slotsH1 : Nat
  deriving DecidableEq, Repr

/-- One entry of QUOTAS (R40). -/
structure QuotaCfg where
  syncObjects : Nat
  pages : Nat
  groups : Nat
  bwShare : Nat
  deriving DecidableEq, Repr

/-- The settings of an accepted image (R26–R42). -/
structure Cuvee where
  serial : Nat
  digest : List Byte
  node : Node
  racks : Nat
  cabling : List (Option (Node × Nat))
  parts : List PartCfg
  granule : Nat
  scope : Nat
  key : Nat
  localMask : List (BitVec 32)
  globalMask : List (BitVec 32)
  widths : List Nat
  feedMode : Nat
  supMode : Nat
  inputCap : Nat
  maxFreq : Nat
  throttle : Nat
  inletWarn : Nat
  outletWarn : Nat
  flowWarn : Nat
  leakPolicy : Nat
  quotaDefault : QuotaCfg
  quotas : List (Nat × QuotaCfg)
  depth : Nat
  fullEvery : Nat
  deriving DecidableEq, Repr

/-- Dimension class of a port: 0–5, 6 the fold, 7 the global tier (R252). -/
def portClass (p : Nat) : Nat :=
  if p < 6 then 0 else if p < 12 then 1 else if p < 15 then 2 else if p < 18 then 3
  else if p < 21 then 4 else if p < 24 then 5 else if p < 28 then 6 else 7

/-- Global dimension that global port P(28 + g) serves at cube position p (R28). -/
def globalDim (pos g : Nat) : Nat := (4 * pos + g) % 7

/-- Rack reached over global dimension k; 6 is the global fold (R28). -/
def rackAcross (r k : Nat) : Nat := if k = 6 then r ^^^ 0x3F else r ^^^ 2 ^ k

/-- Peer rack and position that the folded cube gives a port (R28). The peer port is the same port. -/
def cubePeer (rack pos p : Nat) : Nat × Nat :=
  if p < 24 then (rack, pos ^^^ 2 ^ portClass p)
  else if p < 28 then (rack, pos ^^^ 0x3F)
  else (rackAcross rack (globalDim pos (p - 28)), pos)

/-- Reason codes of R49. -/
def rsnAccepted : Nat := 0x00
def rsnNoImage : Nat := 0x01
def rsnBadMagic : Nat := 0x02
def rsnBadLength : Nat := 0x03
def rsnFormat : Nat := 0x04
def rsnNoOwner : Nat := 0x05
def rsnKeyId : Nat := 0x06
def rsnSignature : Nat := 0x07
def rsnStale : Nat := 0x08
def rsnBinding : Nat := 0x09
def rsnSection : Nat := 0x0A
def rsnSectionCrc : Nat := 0x0B
def rsnNode : Nat := 0x0C
def rsnPlanTopology : Nat := 0x0D
def rsnPartition : Nat := 0x0E
def rsnGroupSlots : Nat := 0x0F
def rsnRouteOrder : Nat := 0x10
def rsnRange : Nat := 0x11

/-- A check: does it hold, and the reason and section on failure. -/
abbrev Chk := Bool × Nat × Nat

/-- The first failing check's reason and section. -/
def firstFail : List Chk → Option (Nat × Nat)
  | [] => none
  | (ok, r, sec) :: t => if ok then firstFail t else some (r, sec)

/-- A directory entry (R22). -/
structure DirEntry where
  typ : Nat
  skippable : Bool
  version : Nat
  off : Nat
  len : Nat
  crc : Nat
  deriving DecidableEq, Repr

/-- Entry i of the directory. -/
def dirEntry (b : List Byte) (i : Nat) : DirEntry :=
  let o := 32 + 16 * i
  { typ := field b o 2 % 0x8000, skippable := bitOf (field b o 2) 15, version := field b (o + 2) 2
    off := field b (o + 4) 4, len := field b (o + 8) 4, crc := field b (o + 12) 4 }

/-- The directory. -/
def directory (b : List Byte) : List DirEntry := (List.range (field b 12 2)).map (dirEntry b)

/-- One of the eleven section types (R23). -/
def knownType (t : Nat) : Bool := 1 ≤ t && t ≤ 11

/-- The length rule of R23 and R43 for a known type. -/
def lengthOk (t n : Nat) : Bool :=
  match t with
  | 1 => n == 16
  | 2 => n == 128
  | 3 => [40, 72, 104, 136].contains n
  | 5 => n == 1024
  | 10 => n % 16 == 8 && 24 ≤ n && n ≤ 8 + 16 * 129
  | _ => n == 8

/-- Do two byte ranges share a byte? -/
def overlap (a n b m : Nat) : Bool := decide (n ≠ 0) && decide (m ≠ 0) && decide (a < b + m) && decide (b < a + n)

/-- The checks of one directory entry after the earlier ones, in the order of R43. The version of an unknown skippable section is not
checked, for the manual names versions of the known types only (DESIGN CHOICE, log entry 31). -/
def entryOk (total count : Nat) (earlier : List DirEntry) (e : DirEntry) : Bool :=
  (if knownType e.typ then !e.skippable else e.skippable)
  && !(earlier.any (·.typ == e.typ))
  && (!knownType e.typ || e.version == 1)
  && (!knownType e.typ || lengthOk e.typ e.len)
  && e.off % 8 == 0 && decide (e.off + e.len ≤ total)
  && !overlap e.off e.len 0 (32 + 16 * count)
  && !overlap e.off e.len (total - 112) 112
  && !(earlier.any (fun x => overlap e.off e.len x.off x.len))

/-- The first failing entry's type. -/
def firstBadEntry (total count : Nat) : List DirEntry → List DirEntry → Option Nat
  | _, [] => none
  | earlier, e :: t => if entryOk total count earlier e then firstBadEntry total count (earlier ++ [e]) t else some e.typ

/-- Bytes of the section of a type; empty where the directory lacks it. -/
def sectionOf (b : List Byte) (t : Nat) : List Byte :=
  match (directory b).find? (·.typ == t) with
  | some e => (b.drop e.off).take e.len
  | none => []

/-- Are the bytes at [off, off + n) zero? -/
def zeros (l : List Byte) (off n : Nat) : Bool := ((l.drop off).take n).all (· == 0#8)

/-- A RANGE check of a section. -/
def rng (sec : Nat) (ok : Bool) : Chk := (ok, rsnRange, sec)

/-- Checks of IDENTITY (R26, R511). -/
def chkIdentity (s : List Byte) : List Chk :=
  [rng 1 (field s 0 2 / 0x1000 == 0), rng 1 (decide (1 ≤ field s 2 1 ∧ field s 2 1 ≤ 64)),
   (decide (field s 0 2 / 64 < field s 2 1), rsnNode, 1), rng 1 (decide (field s 3 1 ≤ 1)), rng 1 (zeros s 4 4),
   rng 1 (field s 3 1 == 1 || zeros s 8 8)]

/-- Checks of CABLING for the module at a node in a hall of `racks` (R27, R28, R511). -/
def chkCabling (node racks : Nat) (s : List Byte) : List Chk :=
  (List.range 32).flatMap (fun p =>
    let e := field s (4 * p) 4
    let used := bitOf e 31
    let pr := cubePeer (node / 64) (node % 64) p
    [rng 2 (bitsOf e 30 21 == 0 && bitsOf e 15 12 == 0 && (used || e == 0)),
     (!used || (e % 0x1000 == pr.1 * 64 + pr.2 && bitsOf e 20 16 == p && decide (pr.1 < racks)), rsnPlanTopology, 2)])

/-- Partition i of PARTITIONS (R29). -/
def partAt (s : List Byte) (i : Nat) : PartCfg :=
  let o := 8 + 32 * i
  { clusters := BitVec.ofNat 32 (field s o 4), composition := field s (o + 4) 1, ctxFirst := field s (o + 5) 1
    ctxCount := field s (o + 6) 1, budget := field s (o + 8) 2, groupIds := field s (o + 10) 2
    slotsH0 := field s (o + 12) 1, slotsH1 := field s (o + 13) 1 }

/-- Clusters that a mask names. -/
def maskClusters (m : BitVec 32) : List Nat := (List.range 32).filter (fun n => m.getLsbD n)

/-- The partitions of PARTITIONS, as many as its count byte says. -/
def partsOf (s : List Byte) : List PartCfg := (List.range (field s 0 1)).map (partAt s)

/-- Sum of a figure over partitions. -/
def sumOver (f : PartCfg → Nat) (l : List PartCfg) : Nat := (l.map f).foldl (· + ·) 0

/-- Checks of one partition entry after the earlier ones (R29–R31, R511). -/
def chkPart (s : List Byte) (i : Nat) : List Chk :=
  let p := partAt s i
  let earlier := (List.range i).map (partAt s)
  let upTo := earlier ++ [p]
  let o := 8 + 32 * i
  [(p.clusters != 0#32 && earlier.all (fun q => q.clusters &&& p.clusters == 0#32), rsnPartition, 3),
   rng 3 (decide (p.composition ≤ 2)),
   rng 3 (decide (1 ≤ p.ctxCount ∧ p.ctxCount ≤ 128)),
   (decide (p.ctxFirst + p.ctxCount ≤ 128) && earlier.all (fun q => !overlap p.ctxFirst p.ctxCount q.ctxFirst q.ctxCount),
     rsnPartition, 3),
   rng 3 (field s (o + 7) 1 == 0),
   rng 3 (p.budget % 25 == 0),
   (decide (50 * (maskClusters p.clusters).length ≤ p.budget), rsnPartition, 3),
   (decide (sumOver (·.groupIds) upTo ≤ 1024), rsnGroupSlots, 3),
   (decide (sumOver (·.slotsH0) upTo ≤ 64), rsnGroupSlots, 3),
   (decide (sumOver (·.slotsH1) upTo ≤ 64), rsnGroupSlots, 3),
   rng 3 (zeros s (o + 14) 18)]

/-- Checks of PARTITIONS (R29–R31, R511). -/
def chkPartitions (s : List Byte) : List Chk :=
  let n := field s 0 1
  [rng 3 (decide (1 ≤ n ∧ n ≤ 4)), rng 3 (zeros s 1 7), rng 3 (s.length == 8 + 32 * n)]
  ++ (if n ≤ 4 then (List.range n).flatMap (chkPart s) else [])
  ++ [((partsOf s).foldl (fun m p => m ||| p.clusters) 0#32 == 0xFFFFFFFF#32, rsnPartition, 3)]

/-- Checks of INTERLEAVE (R32). -/
def chkInterleave (s : List Byte) : List Chk :=
  [rng 4 (decide (field s 0 1 ≤ 3)), rng 4 (decide (field s 1 1 ≤ 1)), rng 4 (zeros s 2 2)]

/-- Checks of ROUTING for the module at a node (R33, R34, R295). -/
def chkRouting (node : Nat) (s : List Byte) : List Chk :=
  (List.range 128).flatMap (fun i =>
    let m := field s (8 * i) 4
    let own := if i < 64 then i == node % 64 else i - 64 == node / 64
    let named := if i < 64 then m / 2 ^ 28 == 0 else m % 2 ^ 28 == 0
    [(named && (!own || m == 0), rsnRouteOrder, 5), rng 5 (zeros s (8 * i + 4) 4)])

/-- Checks of WIDTHS (R35). -/
def chkWidths (s : List Byte) : List Chk := (List.range 8).map (fun i => rng 6 ([16, 12, 8, 4].contains (field s i 1)))

/-- Checks of MODES (R36). -/
def chkModes (s : List Byte) : List Chk :=
  [rng 7 (decide (field s 0 1 ≤ 1)), rng 7 (decide (field s 1 1 ≤ 1)), rng 7 (zeros s 2 6)]

/-- Checks of CAPS, with the budget sum of R30 at its field (R37, R511). -/
def chkCaps (budgets : Nat) (s : List Byte) : List Chk :=
  let c := field s 0 2
  let f := field s 2 2
  [rng 8 (decide (1800 ≤ c ∧ c ≤ 3600) && c % 25 == 0), (decide (budgets ≤ c), rsnPartition, 3),
   rng 8 (decide (800 ≤ f ∧ f ≤ 1900) && f % 25 == 0), rng 8 (zeros s 4 4)]

/-- Checks of SENSORS (R39). -/
def chkSensors (s : List Byte) : List Chk :=
  let f (i : Nat) := field s i 1
  [rng 9 (decide (85 ≤ f 0 ∧ f 0 ≤ 100)), rng 9 (decide (18 ≤ f 1 ∧ f 1 ≤ 45)), rng 9 (decide (25 ≤ f 2 ∧ f 2 ≤ 65)),
   rng 9 (decide (f 1 + 5 ≤ f 2)), rng 9 (decide (40 ≤ f 3 ∧ f 3 ≤ 80)), rng 9 (decide (f 4 ≤ 1)), rng 9 (zeros s 5 3)]

/-- Checks of one QUOTAS entry after the earlier ones (R40, R41). -/
def chkQuota (s : List Byte) (i : Nat) : List Chk :=
  let o := 8 + 16 * i
  let c := field s o 1
  [rng 10 ((decide (c ≤ 127) || c == 0xFF) && (List.range i).all (fun j => field s (8 + 16 * j) 1 != c)),
   rng 10 (field s (o + 1) 1 == 0), rng 10 (decide (field s (o + 2) 2 ≤ 16384)), rng 10 (decide (field s (o + 8) 2 ≤ 1024)),
   rng 10 (decide (1 ≤ field s (o + 10) 2 ∧ field s (o + 10) 2 ≤ 1000)), rng 10 (zeros s (o + 12) 4)]

/-- Checks of QUOTAS (R40, R41, R511). -/
def chkQuotas (s : List Byte) : List Chk :=
  let n := field s 0 2
  [rng 10 (decide (1 ≤ n ∧ n ≤ 129)), rng 10 (zeros s 2 6), rng 10 (s.length == 8 + 16 * n)]
  ++ (if n ≤ 129 then (List.range n).flatMap (chkQuota s) else [])
  ++ [rng 10 ((List.range n).any (fun i => field s (8 + 16 * i) 1 == 0xFF))]

/-- Checks of SCREEN (R42). -/
def chkScreen (s : List Byte) : List Chk := [rng 11 (decide (field s 0 1 ≤ 1)), rng 11 (zeros s 2 6)]

/-- Check 12: sections in order, fields in order (R43, R511). -/
def chkContent (b : List Byte) : List Chk :=
  let id := sectionOf b 1
  let node := field id 0 2
  chkIdentity id ++ chkCabling node (field id 2 1) (sectionOf b 2) ++ chkPartitions (sectionOf b 3)
  ++ chkInterleave (sectionOf b 4) ++ chkRouting node (sectionOf b 5) ++ chkWidths (sectionOf b 6)
  ++ chkModes (sectionOf b 7) ++ chkCaps (sumOver (·.budget) (partsOf (sectionOf b 3))) (sectionOf b 8)
  ++ chkSensors (sectionOf b 9) ++ chkQuotas (sectionOf b 10) ++ chkScreen (sectionOf b 11)

/-- What the checks compare an image with: the enrolled owner key, CUVEE.FLOOR and the module's own device tag. -/
structure ImageCtx where
  owner : Option (List Byte)
  floor : Nat
  tag : Word
  deriving DecidableEq, Repr

/-- The outcome of checks 1–12 of R43: reason and section. `src` is none where the source holds no bytes. No check names the reserved
bytes 8–15 of the trailer (R24), and none looks at them; check 10 covers the CRC of an unknown skippable section too, which R23 ignores,
and names its type (DESIGN CHOICE, log entry 31). -/
def checkImage (c : ImageCtx) (staged : Bool) (src : Option (List Byte)) : Nat × Nat :=
  match src with
  | none => (rsnNoImage, 0)
  | some b =>
    let len := field b 8 4
    let t := b.drop (len - 112)
    let count := field b 12 2
    let dir := directory b
    match firstFail
      [(b.take 4 == [0x43#8, 0x55#8, 0x56#8, 0x45#8], rsnBadMagic, 0),
       (decide (1024 ≤ len ∧ len ≤ 16384) && len % 8 == 0 && (!staged || len == b.length), rsnBadLength, 0),
       (field b 4 2 == 1 && field b 6 2 == 0 && field b 14 2 == 0 && zeros b 28 4 && field b 16 8 != 0, rsnFormat, 0),
       (c.owner.isSome, rsnNoOwner, 0),
       (BitVec.ofNat 64 (field t 0 8) == keyTag (c.owner.getD []), rsnKeyId, 0),
       (ecdsaOk (c.owner.getD []) (b.take (len - 112)) ((t.drop 16).take 96), rsnSignature, 0),
       (decide (c.floor ≤ field b 16 8), rsnStale, 0),
       (decide (11 ≤ count ∧ count ≤ 32), rsnSection, 0)] with
    | some r => r
    | none =>
      match firstBadEntry len count [] dir with
      | some ty => (rsnSection, ty)
      | none =>
        match (List.range 11).find? (fun i => !(dir.any (·.typ == i + 1))) with
        | some i => (rsnSection, i + 1)
        | none =>
          match dir.find? (fun e => crc32 ((b.drop e.off).take e.len) != e.crc) with
          | some e => (rsnSectionCrc, e.typ)
          | none =>
            let id := sectionOf b 1
            if field id 3 1 = 1 ∧ BitVec.ofNat 64 (field id 8 8) ≠ c.tag then (rsnBinding, 1)
            else (firstFail (chkContent b)).getD (rsnAccepted, 0)

/-- Entry i of QUOTAS. -/
def quotaAt (s : List Byte) (i : Nat) : Nat × QuotaCfg :=
  let o := 8 + 16 * i
  (field s o 1, { syncObjects := field s (o + 2) 2, pages := field s (o + 4) 4, groups := field s (o + 8) 2
                  bwShare := field s (o + 10) 2 })

/-- The settings that the bytes of an accepted image spell. -/
def parseImage (b : List Byte) : Cuvee :=
  let id := sectionOf b 1
  let il := sectionOf b 4
  let caps := sectionOf b 8
  let sen := sectionOf b 9
  let q := sectionOf b 10
  let qs := (List.range (field q 0 2)).map (quotaAt q)
  let mask (i : Nat) : BitVec 32 := BitVec.ofNat 32 (field (sectionOf b 5) (8 * i) 4)
  { serial := field b 16 8, digest := sha384 b, node := BitVec.ofNat 12 (field id 0 2), racks := field id 2 1
    cabling := (List.range 32).map (fun p =>
      let e := field (sectionOf b 2) (4 * p) 4
      if bitOf e 31 then some (BitVec.ofNat 12 e, bitsOf e 20 16) else none)
    parts := partsOf (sectionOf b 3)
    granule := field il 0 1, scope := field il 1 1, key := field il 4 4
    localMask := (List.range 64).map mask, globalMask := (List.range 64).map (fun i => mask (64 + i))
    widths := (List.range 8).map (fun i => field (sectionOf b 6) i 1)
    feedMode := field (sectionOf b 7) 0 1, supMode := field (sectionOf b 7) 1 1
    inputCap := field caps 0 2, maxFreq := field caps 2 2
    throttle := field sen 0 1, inletWarn := field sen 1 1, outletWarn := field sen 2 1, flowWarn := field sen 3 1
    leakPolicy := field sen 4 1
    quotaDefault := ((qs.find? (·.1 == 0xFF)).map (·.2)).getD ⟨0, 0, 0, 1⟩
    quotas := qs.filter (·.1 != 0xFF)
    depth := field (sectionOf b 11) 0 1, fullEvery := field (sectionOf b 11) 1 1 }

end Sys2Proof.Machine
end

