-- ==== Sys2Proof/Machine/RegTable.lean ====
section
/-! DEFINITION. The register map (R4) and every register table of the manual: offsets, fields, access codes (R12) and
Reset columns (R10). The offsets and fields below are the manual's tables, one definition each. -/

namespace Sys2Proof.Machine

/-- Access codes of R12. `rwb` marks an RW field whose write has a row of its own in the table of operations. -/
inductive Acc where
  | ro | rw | rwb | wo | w1c | w1s | rc | rp
  deriving DecidableEq, Repr

/-- One row of a register table: bits [hi:lo], access code and Reset column. -/
structure RegField where
  hi : Nat
  lo : Nat
  acc : Acc
  rst : Nat
  deriving DecidableEq, Repr

/-- A named field of a register at a BAR0 offset. -/
structure Fld where
  off : Nat
  hi : Nat
  lo : Nat
  deriving DecidableEq, Repr

/-- Phases fitted on rail r: needed and spare (R345), in the order of R371. -/
def railPhases (r : Nat) : Nat :=
  if r < 4 then 24 else if r < 8 then 4 else if r < 10 then 6 else if r = 10 then 10 else if r = 11 then 5 else 2

/-- Full limit of rail r in A (R345). -/
def railLimit (r : Nat) : Nat :=
  if r < 4 then 1000 else if r < 8 then 120 else if r < 10 then 250 else if r = 10 then 400 else if r = 11 then 200 else 3

/-- Offset of CUVEE.CAP (R47). -/
def rCuveeCap : Nat := 0x00100000
/-- CUVEE.CAP.max_kib: RO, Reset 16 (R47). -/
def fCuveeCapMaxKib : Fld := ⟨rCuveeCap, 31, 16⟩
/-- CUVEE.CAP.max_minor: RO, Reset 0 (R47). -/
def fCuveeCapMaxMinor : Fld := ⟨rCuveeCap, 15, 8⟩
/-- CUVEE.CAP.major: RO, Reset 1 (R47). -/
def fCuveeCapMajor : Fld := ⟨rCuveeCap, 7, 0⟩
/-- The table of CUVEE.CAP (R47). -/
def layCuveeCap : List RegField := [⟨31, 16, .ro, 16⟩, ⟨15, 8, .ro, 0⟩, ⟨7, 0, .ro, 1⟩]

/-- Offset of CUVEE.CTL (R47). -/
def rCuveeCtl : Nat := 0x00100008
/-- CUVEE.CTL.clear: W1S, Reset 0 (R47). -/
def fCuveeCtlClear : Fld := ⟨rCuveeCtl, 16, 16⟩
/-- CUVEE.CTL.verify: W1S, Reset 0 (R47). -/
def fCuveeCtlVerify : Fld := ⟨rCuveeCtl, 8, 8⟩
/-- CUVEE.CTL.source: RW, Reset 0 (R47). -/
def fCuveeCtlSource : Fld := ⟨rCuveeCtl, 0, 0⟩
/-- The table of CUVEE.CTL (R47). -/
def layCuveeCtl : List RegField := [⟨16, 16, .w1s, 0⟩, ⟨8, 8, .w1s, 0⟩, ⟨0, 0, .rw, 0⟩]

/-- Offset of CUVEE.DATA (R47). -/
def rCuveeData : Nat := 0x00100010
/-- CUVEE.DATA.bytes: WO, Reset 0 (R47). -/
def fCuveeDataBytes : Fld := ⟨rCuveeData, 63, 0⟩
/-- The table of CUVEE.DATA (R47). -/
def layCuveeData : List RegField := [⟨63, 0, .wo, 0⟩]

/-- Offset of CUVEE.FILL (R47). -/
def rCuveeFill : Nat := 0x00100018
/-- CUVEE.FILL.fill: RO, Reset 0 (R47). -/
def fCuveeFillFill : Fld := ⟨rCuveeFill, 14, 0⟩
/-- The table of CUVEE.FILL (R47). -/
def layCuveeFill : List RegField := [⟨14, 0, .ro, 0⟩]

/-- Offset of CUVEE.RESULT (R47). -/
def rCuveeResult : Nat := 0x00100020
/-- CUVEE.RESULT.stored_valid: RO, Reset from flash (R47). -/
def fCuveeResultStoredValid : Fld := ⟨rCuveeResult, 34, 34⟩
/-- CUVEE.RESULT.mode: RO, Reset 0 (R47). -/
def fCuveeResultMode : Fld := ⟨rCuveeResult, 33, 33⟩
/-- CUVEE.RESULT.busy: RO, Reset 0 (R47). -/
def fCuveeResultBusy : Fld := ⟨rCuveeResult, 32, 32⟩
/-- CUVEE.RESULT.section: RO, Reset 0 (R47). -/
def fCuveeResultSection : Fld := ⟨rCuveeResult, 30, 16⟩
/-- CUVEE.RESULT.reason: RO, Reset 0x01 (R47). -/
def fCuveeResultReason : Fld := ⟨rCuveeResult, 7, 0⟩
/-- The table of CUVEE.RESULT (R47). -/
def layCuveeResult : List RegField := [⟨34, 34, .ro, 0⟩, ⟨33, 33, .ro, 0⟩, ⟨32, 32, .ro, 0⟩, ⟨30, 16, .ro, 0⟩, ⟨7, 0, .ro, 1⟩]

/-- Offset of CUVEE.ACTIVE (R48). -/
def rCuveeActive : Nat := 0x00100028
/-- CUVEE.ACTIVE.serial: RO, Reset 0 (R48). -/
def fCuveeActiveSerial : Fld := ⟨rCuveeActive, 63, 0⟩
/-- The table of CUVEE.ACTIVE (R48). -/
def layCuveeActive : List RegField := [⟨63, 0, .ro, 0⟩]

/-- Offset of CUVEE.FLOOR (R48). -/
def rCuveeFloor : Nat := 0x00100030
/-- CUVEE.FLOOR.floor: RO, Reset from flash (R48). -/
def fCuveeFloorFloor : Fld := ⟨rCuveeFloor, 63, 0⟩
/-- The table of CUVEE.FLOOR (R48). -/
def layCuveeFloor : List RegField := [⟨63, 0, .ro, 0⟩]

/-- Offset of CUVEE.STORED (R48). -/
def rCuveeStored : Nat := 0x00100038
/-- CUVEE.STORED.serial: RO, Reset from flash (R48). -/
def fCuveeStoredSerial : Fld := ⟨rCuveeStored, 63, 0⟩
/-- The table of CUVEE.STORED (R48). -/
def layCuveeStored : List RegField := [⟨63, 0, .ro, 0⟩]

/-- Offset of CUVEE.DIGEST (R48). -/
def rCuveeDigest (n : Nat) : Nat := 0x00100040 + n * 8
/-- CUVEE.DIGEST.digest: RO, Reset 0 (R48). -/
def fCuveeDigestDigest (n : Nat) : Fld := ⟨rCuveeDigest n, 63, 0⟩
/-- The table of CUVEE.DIGEST (R48). -/
def layCuveeDigest : List RegField := [⟨63, 0, .ro, 0⟩]

/-- Offset of CTX.CTL (R88). -/
def rCtxCtl (c : Nat) : Nat := 0x00200000 + c * 0x40
/-- CTX.CTL.result: RO, Reset 0 (R88). -/
def fCtxCtlResult (c : Nat) : Fld := ⟨rCtxCtl c, 23, 16⟩
/-- CTX.CTL.in_range: RO, Reset from image (R88). -/
def fCtxCtlInRange (c : Nat) : Fld := ⟨rCtxCtl c, 14, 14⟩
/-- CTX.CTL.partition: RO, Reset from image (R88). -/
def fCtxCtlPartition (c : Nat) : Fld := ⟨rCtxCtl c, 13, 12⟩
/-- CTX.CTL.state: RO, Reset 0 (R88). -/
def fCtxCtlState (c : Nat) : Fld := ⟨rCtxCtl c, 9, 8⟩
/-- CTX.CTL.destroy: W1S, Reset 0 (R88). -/
def fCtxCtlDestroy (c : Nat) : Fld := ⟨rCtxCtl c, 1, 1⟩
/-- CTX.CTL.create: W1S, Reset 0 (R88). -/
def fCtxCtlCreate (c : Nat) : Fld := ⟨rCtxCtl c, 0, 0⟩
/-- The table of CTX.CTL (R88). -/
def layCtxCtl : List RegField := [⟨23, 16, .ro, 0⟩, ⟨14, 14, .ro, 0⟩, ⟨13, 12, .ro, 0⟩, ⟨9, 8, .ro, 0⟩, ⟨1, 1, .w1s, 0⟩, ⟨0, 0, .w1s, 0⟩]

/-- Offset of CTX.QSYNC (R88). -/
def rCtxQsync (c : Nat) : Nat := 0x00200008 + c * 0x40
/-- CTX.QSYNC.over: RO, Reset 0 (R88). -/
def fCtxQsyncOver (c : Nat) : Fld := ⟨rCtxQsync c, 63, 63⟩
/-- CTX.QSYNC.clamped: W1C, Reset 0 (R88). -/
def fCtxQsyncClamped (c : Nat) : Fld := ⟨rCtxQsync c, 62, 62⟩
/-- CTX.QSYNC.ceiling: RO, Reset 0 (R88). -/
def fCtxQsyncCeiling (c : Nat) : Fld := ⟨rCtxQsync c, 47, 32⟩
/-- CTX.QSYNC.use: RO, Reset 0 (R88). -/
def fCtxQsyncUse (c : Nat) : Fld := ⟨rCtxQsync c, 31, 16⟩
/-- CTX.QSYNC.limit: RW, Reset 0 (R88). -/
def fCtxQsyncLimit (c : Nat) : Fld := ⟨rCtxQsync c, 15, 0⟩
/-- The table of CTX.QSYNC (R88). -/
def layCtxQsync : List RegField := [⟨63, 63, .ro, 0⟩, ⟨62, 62, .w1c, 0⟩, ⟨47, 32, .ro, 0⟩, ⟨31, 16, .ro, 0⟩, ⟨15, 0, .rwb, 0⟩]

/-- Offset of CTX.QPAGES (R88). -/
def rCtxQpages (c : Nat) : Nat := 0x00200010 + c * 0x40
/-- CTX.QPAGES.ceiling: RO, Reset 0 (R88). -/
def fCtxQpagesCeiling (c : Nat) : Fld := ⟨rCtxQpages c, 63, 32⟩
/-- CTX.QPAGES.limit: RW, Reset 0 (R88). -/
def fCtxQpagesLimit (c : Nat) : Fld := ⟨rCtxQpages c, 31, 0⟩
/-- The table of CTX.QPAGES (R88). -/
def layCtxQpages : List RegField := [⟨63, 32, .ro, 0⟩, ⟨31, 0, .rwb, 0⟩]

/-- Offset of CTX.UPAGES (R88). -/
def rCtxUpages (c : Nat) : Nat := 0x00200018 + c * 0x40
/-- CTX.UPAGES.over: RO, Reset 0 (R88). -/
def fCtxUpagesOver (c : Nat) : Fld := ⟨rCtxUpages c, 63, 63⟩
/-- CTX.UPAGES.clamped: W1C, Reset 0 (R88). -/
def fCtxUpagesClamped (c : Nat) : Fld := ⟨rCtxUpages c, 62, 62⟩
/-- CTX.UPAGES.use: RO, Reset 0 (R88). -/
def fCtxUpagesUse (c : Nat) : Fld := ⟨rCtxUpages c, 31, 0⟩
/-- The table of CTX.UPAGES (R88). -/
def layCtxUpages : List RegField := [⟨63, 63, .ro, 0⟩, ⟨62, 62, .w1c, 0⟩, ⟨31, 0, .ro, 0⟩]

/-- Offset of CTX.QGROUPS (R88). -/
def rCtxQgroups (c : Nat) : Nat := 0x00200020 + c * 0x40
/-- CTX.QGROUPS.over: RO, Reset 0 (R88). -/
def fCtxQgroupsOver (c : Nat) : Fld := ⟨rCtxQgroups c, 63, 63⟩
/-- CTX.QGROUPS.clamped: W1C, Reset 0 (R88). -/
def fCtxQgroupsClamped (c : Nat) : Fld := ⟨rCtxQgroups c, 62, 62⟩
/-- CTX.QGROUPS.ceiling: RO, Reset 0 (R88). -/
def fCtxQgroupsCeiling (c : Nat) : Fld := ⟨rCtxQgroups c, 47, 32⟩
/-- CTX.QGROUPS.use: RO, Reset 0 (R88). -/
def fCtxQgroupsUse (c : Nat) : Fld := ⟨rCtxQgroups c, 31, 16⟩
/-- CTX.QGROUPS.limit: RW, Reset 0 (R88). -/
def fCtxQgroupsLimit (c : Nat) : Fld := ⟨rCtxQgroups c, 15, 0⟩
/-- The table of CTX.QGROUPS (R88). -/
def layCtxQgroups : List RegField := [⟨63, 63, .ro, 0⟩, ⟨62, 62, .w1c, 0⟩, ⟨47, 32, .ro, 0⟩, ⟨31, 16, .ro, 0⟩, ⟨15, 0, .rwb, 0⟩]

/-- Offset of CTX.QBW (R88). -/
def rCtxQbw (c : Nat) : Nat := 0x00200028 + c * 0x40
/-- CTX.QBW.clamped: W1C, Reset 0 (R88). -/
def fCtxQbwClamped (c : Nat) : Fld := ⟨rCtxQbw c, 62, 62⟩
/-- CTX.QBW.ceiling: RO, Reset 0 (R88). -/
def fCtxQbwCeiling (c : Nat) : Fld := ⟨rCtxQbw c, 25, 16⟩
/-- CTX.QBW.share: RW, Reset 0 (R88). -/
def fCtxQbwShare (c : Nat) : Fld := ⟨rCtxQbw c, 9, 0⟩
/-- The table of CTX.QBW (R88). -/
def layCtxQbw : List RegField := [⟨62, 62, .w1c, 0⟩, ⟨25, 16, .ro, 0⟩, ⟨9, 0, .rwb, 0⟩]

/-- Offset of CTX.CAP (R88). -/
def rCtxCap : Nat := 0x00202000
/-- CTX.CAP.copy_queues: RO, Reset 4 (R88). -/
def fCtxCapCopyQueues : Fld := ⟨rCtxCap, 31, 24⟩
/-- CTX.CAP.partitions: RO, Reset from image (R88). -/
def fCtxCapPartitions : Fld := ⟨rCtxCap, 23, 16⟩
/-- CTX.CAP.compute_queues: RO, Reset 16 (R88). -/
def fCtxCapComputeQueues : Fld := ⟨rCtxCap, 15, 8⟩
/-- CTX.CAP.contexts: RO, Reset 128 (R88). -/
def fCtxCapContexts : Fld := ⟨rCtxCap, 7, 0⟩
/-- The table of CTX.CAP (R88). -/
def layCtxCap : List RegField := [⟨31, 24, .ro, 4⟩, ⟨23, 16, .ro, 0⟩, ⟨15, 8, .ro, 16⟩, ⟨7, 0, .ro, 128⟩]

/-- Offset of CTX.PART (R88). -/
def rCtxPart (p : Nat) : Nat := 0x00202008 + p * 8
/-- CTX.PART.down_reason: RO, Reset 0 (R88). -/
def fCtxPartDownReason (p : Nat) : Fld := ⟨rCtxPart p, 47, 40⟩
/-- CTX.PART.composition: RO, Reset 0 (R88). -/
def fCtxPartComposition (p : Nat) : Fld := ⟨rCtxPart p, 37, 36⟩
/-- CTX.PART.state: RO, Reset 0 (R88). -/
def fCtxPartState (p : Nat) : Fld := ⟨rCtxPart p, 35, 34⟩
/-- CTX.PART.clusters: RO, Reset 0 (R88). -/
def fCtxPartClusters (p : Nat) : Fld := ⟨rCtxPart p, 31, 0⟩
/-- The table of CTX.PART (R88). -/
def layCtxPart : List RegField := [⟨47, 40, .ro, 0⟩, ⟨37, 36, .ro, 0⟩, ⟨35, 34, .ro, 0⟩, ⟨31, 0, .ro, 0⟩]

/-- Offset of TASK.CL.STATE (R89). -/
def rTaskClState (n : Nat) : Nat := 0x00500000 + n * 0x20
/-- TASK.CL.STATE.riddle: RW, Reset 1 (R89). -/
def fTaskClStateRiddle (n : Nat) : Fld := ⟨rTaskClState n, 40, 40⟩
/-- TASK.CL.STATE.spares: RO, Reset 0 (R89). -/
def fTaskClStateSpares (n : Nat) : Fld := ⟨rTaskClState n, 39, 36⟩
/-- TASK.CL.STATE.core_state: RO, Reset 0 (R89). -/
def fTaskClStateCoreState (n : Nat) : Fld := ⟨rTaskClState n, 35, 0⟩
/-- The table of TASK.CL.STATE (R89). -/
def layTaskClState : List RegField := [⟨40, 40, .rw, 1⟩, ⟨39, 36, .ro, 0⟩, ⟨35, 0, .ro, 0⟩]

/-- Offset of TASK.CL.MAPLO (R89). -/
def rTaskClMaplo (n : Nat) : Nat := 0x00500008 + n * 0x20
/-- TASK.CL.MAPLO.map: RO, Reset 0 (R89). -/
def fTaskClMaploMap (n : Nat) : Fld := ⟨rTaskClMaplo n, 39, 0⟩
/-- The table of TASK.CL.MAPLO (R89). -/
def layTaskClMaplo : List RegField := [⟨39, 0, .ro, 0⟩]

/-- Offset of TASK.CL.MAPHI (R89). -/
def rTaskClMaphi (n : Nat) : Nat := 0x00500010 + n * 0x20
/-- TASK.CL.MAPHI.map: RO, Reset 0 (R89). -/
def fTaskClMaphiMap (n : Nat) : Fld := ⟨rTaskClMaphi n, 39, 0⟩
/-- The table of TASK.CL.MAPHI (R89). -/
def layTaskClMaphi : List RegField := [⟨39, 0, .ro, 0⟩]

/-- Offset of TASK.CL.POOL (R89). -/
def rTaskClPool (n : Nat) : Nat := 0x00500018 + n * 0x20
/-- TASK.CL.POOL.ready: RO, Reset 0 (R89). -/
def fTaskClPoolReady (n : Nat) : Fld := ⟨rTaskClPool n, 41, 32⟩
/-- TASK.CL.POOL.used: RO, Reset 0 (R89). -/
def fTaskClPoolUsed (n : Nat) : Fld := ⟨rTaskClPool n, 25, 16⟩
/-- TASK.CL.POOL.credited: RO, Reset 0 (R89). -/
def fTaskClPoolCredited (n : Nat) : Fld := ⟨rTaskClPool n, 4, 0⟩
/-- The table of TASK.CL.POOL (R89). -/
def layTaskClPool : List RegField := [⟨41, 32, .ro, 0⟩, ⟨25, 16, .ro, 0⟩, ⟨4, 0, .ro, 0⟩]

/-- Offset of TASK.SEED (R158). -/
def rTaskSeed (c : Nat) : Nat := 0x00500400 + c * 8
/-- TASK.SEED.seed: RW, Reset 0 (R158). -/
def fTaskSeedSeed (c : Nat) : Fld := ⟨rTaskSeed c, 63, 0⟩
/-- The table of TASK.SEED (R158). -/
def layTaskSeed : List RegField := [⟨63, 0, .rw, 0⟩]

/-- Offset of TASK.BINDADDR (R158). -/
def rTaskBindaddr : Nat := 0x00500800
/-- TASK.BINDADDR.addr: RW, Reset 0 (R158). -/
def fTaskBindaddrAddr : Fld := ⟨rTaskBindaddr, 63, 4⟩
/-- The table of TASK.BINDADDR (R158). -/
def layTaskBindaddr : List RegField := [⟨63, 4, .rw, 0⟩]

/-- Offset of TASK.BINDCTL (R158). -/
def rTaskBindctl : Nat := 0x00500808
/-- TASK.BINDCTL.clusters: RW, Reset 0 (R158). -/
def fTaskBindctlClusters : Fld := ⟨rTaskBindctl, 63, 32⟩
/-- TASK.BINDCTL.len_m1: RW, Reset 0 (R158). -/
def fTaskBindctlLenM1 : Fld := ⟨rTaskBindctl, 27, 16⟩
/-- TASK.BINDCTL.regions: RW, Reset 0 (R158). -/
def fTaskBindctlRegions : Fld := ⟨rTaskBindctl, 11, 8⟩
/-- The table of TASK.BINDCTL (R158). -/
def layTaskBindctl : List RegField := [⟨63, 32, .rw, 0⟩, ⟨27, 16, .rw, 0⟩, ⟨11, 8, .rw, 0⟩]

/-- Offset of TASK.BINDCMD (R158). -/
def rTaskBindcmd : Nat := 0x00500810
/-- TASK.BINDCMD.result: RO, Reset 0 (R158). -/
def fTaskBindcmdResult : Fld := ⟨rTaskBindcmd, 39, 32⟩
/-- TASK.BINDCMD.busy: RO, Reset 0 (R158). -/
def fTaskBindcmdBusy : Fld := ⟨rTaskBindcmd, 31, 31⟩
/-- TASK.BINDCMD.unbind: W1S, Reset 0 (R158). -/
def fTaskBindcmdUnbind : Fld := ⟨rTaskBindcmd, 17, 17⟩
/-- TASK.BINDCMD.bind: W1S, Reset 0 (R158). -/
def fTaskBindcmdBind : Fld := ⟨rTaskBindcmd, 16, 16⟩
/-- TASK.BINDCMD.prog: RW, Reset 0 (R158). -/
def fTaskBindcmdProg : Fld := ⟨rTaskBindcmd, 13, 8⟩
/-- TASK.BINDCMD.context: RW, Reset 0 (R158). -/
def fTaskBindcmdContext : Fld := ⟨rTaskBindcmd, 6, 0⟩
/-- The table of TASK.BINDCMD (R158). -/
def layTaskBindcmd : List RegField := [⟨39, 32, .ro, 0⟩, ⟨31, 31, .ro, 0⟩, ⟨17, 17, .w1s, 0⟩, ⟨16, 16, .w1s, 0⟩, ⟨13, 8, .rw, 0⟩, ⟨6, 0, .rw, 0⟩]

/-- Offset of QUE.CQ.BASE (R195). -/
def rQueCqBase (c : Nat) (q : Nat) : Nat := 0x00300000 + c * 0x400 + q * 0x20
/-- QUE.CQ.BASE.base: RW, Reset 0 (R195). -/
def fQueCqBaseBase (c : Nat) (q : Nat) : Fld := ⟨rQueCqBase c q, 63, 5⟩
/-- The table of QUE.CQ.BASE (R195). -/
def layQueCqBase : List RegField := [⟨63, 5, .rw, 0⟩]

/-- Offset of QUE.CQ.CFG (R195). -/
def rQueCqCfg (c : Nat) (q : Nat) : Nat := 0x00300008 + c * 0x400 + q * 0x20
/-- QUE.CQ.CFG.clusters: RW, Reset 0 (R195). -/
def fQueCqCfgClusters (c : Nat) (q : Nat) : Fld := ⟨rQueCqCfg c q, 63, 32⟩
/-- QUE.CQ.CFG.enable: RW, Reset 0 (R195). -/
def fQueCqCfgEnable (c : Nat) (q : Nat) : Fld := ⟨rQueCqCfg c q, 31, 31⟩
/-- QUE.CQ.CFG.ring: RW, Reset 0 (R195). -/
def fQueCqCfgRing (c : Nat) (q : Nat) : Fld := ⟨rQueCqCfg c q, 26, 24⟩
/-- QUE.CQ.CFG.log2size: RW, Reset 0 (R195). -/
def fQueCqCfgLog2size (c : Nat) (q : Nat) : Fld := ⟨rQueCqCfg c q, 20, 16⟩
/-- QUE.CQ.CFG.loc: RW, Reset 0 (R195). -/
def fQueCqCfgLoc (c : Nat) (q : Nat) : Fld := ⟨rQueCqCfg c q, 8, 8⟩
/-- The table of QUE.CQ.CFG (R195). -/
def layQueCqCfg : List RegField := [⟨63, 32, .rw, 0⟩, ⟨31, 31, .rwb, 0⟩, ⟨26, 24, .rw, 0⟩, ⟨20, 16, .rw, 0⟩, ⟨8, 8, .rw, 0⟩]

/-- Offset of QUE.CQ.STATE (R195). -/
def rQueCqState (c : Nat) (q : Nat) : Nat := 0x00300010 + c * 0x400 + q * 0x20
/-- QUE.CQ.STATE.result: RO, Reset 0 (R195). -/
def fQueCqStateResult (c : Nat) (q : Nat) : Fld := ⟨rQueCqState c q, 63, 56⟩
/-- QUE.CQ.STATE.state: RO, Reset 0 (R195). -/
def fQueCqStateState (c : Nat) (q : Nat) : Fld := ⟨rQueCqState c q, 55, 54⟩
/-- QUE.CQ.STATE.tail: RO, Reset 0 (R195). -/
def fQueCqStateTail (c : Nat) (q : Nat) : Fld := ⟨rQueCqState c q, 47, 24⟩
/-- QUE.CQ.STATE.head: RO, Reset 0 (R195). -/
def fQueCqStateHead (c : Nat) (q : Nat) : Fld := ⟨rQueCqState c q, 23, 0⟩
/-- The table of QUE.CQ.STATE (R195). -/
def layQueCqState : List RegField := [⟨63, 56, .ro, 0⟩, ⟨55, 54, .ro, 0⟩, ⟨47, 24, .ro, 0⟩, ⟨23, 0, .ro, 0⟩]

/-- Offset of QUE.XQ.BASE (R195). -/
def rQueXqBase (c : Nat) (q : Nat) : Nat := 0x00300200 + c * 0x400 + q * 0x20
/-- QUE.XQ.BASE.base: RW, Reset 0 (R195). -/
def fQueXqBaseBase (c : Nat) (q : Nat) : Fld := ⟨rQueXqBase c q, 63, 5⟩
/-- The table of QUE.XQ.BASE (R195). -/
def layQueXqBase : List RegField := [⟨63, 5, .rw, 0⟩]

/-- Offset of QUE.XQ.CFG (R195). -/
def rQueXqCfg (c : Nat) (q : Nat) : Nat := 0x00300208 + c * 0x400 + q * 0x20
/-- QUE.XQ.CFG.enable: RW, Reset 0 (R195). -/
def fQueXqCfgEnable (c : Nat) (q : Nat) : Fld := ⟨rQueXqCfg c q, 31, 31⟩
/-- QUE.XQ.CFG.ring: RW, Reset 0 (R195). -/
def fQueXqCfgRing (c : Nat) (q : Nat) : Fld := ⟨rQueXqCfg c q, 26, 24⟩
/-- QUE.XQ.CFG.log2size: RW, Reset 0 (R195). -/
def fQueXqCfgLog2size (c : Nat) (q : Nat) : Fld := ⟨rQueXqCfg c q, 20, 16⟩
/-- QUE.XQ.CFG.loc: RW, Reset 0 (R195). -/
def fQueXqCfgLoc (c : Nat) (q : Nat) : Fld := ⟨rQueXqCfg c q, 8, 8⟩
/-- The table of QUE.XQ.CFG (R195). -/
def layQueXqCfg : List RegField := [⟨31, 31, .rwb, 0⟩, ⟨26, 24, .rw, 0⟩, ⟨20, 16, .rw, 0⟩, ⟨8, 8, .rw, 0⟩]

/-- Offset of QUE.XQ.STATE (R195). -/
def rQueXqState (c : Nat) (q : Nat) : Nat := 0x00300210 + c * 0x400 + q * 0x20
/-- QUE.XQ.STATE.result: RO, Reset 0 (R195). -/
def fQueXqStateResult (c : Nat) (q : Nat) : Fld := ⟨rQueXqState c q, 63, 56⟩
/-- QUE.XQ.STATE.state: RO, Reset 0 (R195). -/
def fQueXqStateState (c : Nat) (q : Nat) : Fld := ⟨rQueXqState c q, 55, 54⟩
/-- QUE.XQ.STATE.tail: RO, Reset 0 (R195). -/
def fQueXqStateTail (c : Nat) (q : Nat) : Fld := ⟨rQueXqState c q, 47, 24⟩
/-- QUE.XQ.STATE.head: RO, Reset 0 (R195). -/
def fQueXqStateHead (c : Nat) (q : Nat) : Fld := ⟨rQueXqState c q, 23, 0⟩
/-- The table of QUE.XQ.STATE (R195). -/
def layQueXqState : List RegField := [⟨63, 56, .ro, 0⟩, ⟨55, 54, .ro, 0⟩, ⟨47, 24, .ro, 0⟩, ⟨23, 0, .ro, 0⟩]

/-- Offset of QUE.RING.BASE (R195). -/
def rQueRingBase (c : Nat) (r : Nat) : Nat := 0x00300280 + c * 0x400 + r * 0x20
/-- QUE.RING.BASE.base: RW, Reset 0 (R195). -/
def fQueRingBaseBase (c : Nat) (r : Nat) : Fld := ⟨rQueRingBase c r, 63, 5⟩
/-- The table of QUE.RING.BASE (R195). -/
def layQueRingBase : List RegField := [⟨63, 5, .rw, 0⟩]

/-- Offset of QUE.RING.CFG (R195). -/
def rQueRingCfg (c : Nat) (r : Nat) : Nat := 0x00300288 + c * 0x400 + r * 0x20
/-- QUE.RING.CFG.count: RW, Reset 0 (R195). -/
def fQueRingCfgCount (c : Nat) (r : Nat) : Fld := ⟨rQueRingCfg c r, 63, 56⟩
/-- QUE.RING.CFG.holdoff: RW, Reset 0 (R195). -/
def fQueRingCfgHoldoff (c : Nat) (r : Nat) : Fld := ⟨rQueRingCfg c r, 55, 48⟩
/-- QUE.RING.CFG.vector: RW, Reset 0 (R195). -/
def fQueRingCfgVector (c : Nat) (r : Nat) : Fld := ⟨rQueRingCfg c r, 40, 32⟩
/-- QUE.RING.CFG.enable: RW, Reset 0 (R195). -/
def fQueRingCfgEnable (c : Nat) (r : Nat) : Fld := ⟨rQueRingCfg c r, 31, 31⟩
/-- QUE.RING.CFG.irq: RW, Reset 0 (R195). -/
def fQueRingCfgIrq (c : Nat) (r : Nat) : Fld := ⟨rQueRingCfg c r, 30, 30⟩
/-- QUE.RING.CFG.log2size: RW, Reset 0 (R195). -/
def fQueRingCfgLog2size (c : Nat) (r : Nat) : Fld := ⟨rQueRingCfg c r, 20, 16⟩
/-- QUE.RING.CFG.loc: RW, Reset 0 (R195). -/
def fQueRingCfgLoc (c : Nat) (r : Nat) : Fld := ⟨rQueRingCfg c r, 8, 8⟩
/-- The table of QUE.RING.CFG (R195). -/
def layQueRingCfg : List RegField := [⟨63, 56, .rw, 0⟩, ⟨55, 48, .rw, 0⟩, ⟨40, 32, .rw, 0⟩, ⟨31, 31, .rwb, 0⟩, ⟨30, 30, .rw, 0⟩, ⟨20, 16, .rw, 0⟩, ⟨8, 8, .rw, 0⟩]

/-- Offset of QUE.RING.STATE (R195). -/
def rQueRingState (c : Nat) (r : Nat) : Nat := 0x00300290 + c * 0x400 + r * 0x20
/-- QUE.RING.STATE.result: RO, Reset 0 (R195). -/
def fQueRingStateResult (c : Nat) (r : Nat) : Fld := ⟨rQueRingState c r, 63, 56⟩
/-- QUE.RING.STATE.state: RO, Reset 0 (R195). -/
def fQueRingStateState (c : Nat) (r : Nat) : Fld := ⟨rQueRingState c r, 55, 54⟩
/-- QUE.RING.STATE.tail: RO, Reset 0 (R195). -/
def fQueRingStateTail (c : Nat) (r : Nat) : Fld := ⟨rQueRingState c r, 47, 24⟩
/-- QUE.RING.STATE.head: RO, Reset 0 (R195). -/
def fQueRingStateHead (c : Nat) (r : Nat) : Fld := ⟨rQueRingState c r, 23, 0⟩
/-- The table of QUE.RING.STATE (R195). -/
def layQueRingState : List RegField := [⟨63, 56, .ro, 0⟩, ⟨55, 54, .ro, 0⟩, ⟨47, 24, .ro, 0⟩, ⟨23, 0, .ro, 0⟩]

/-- Offset of SYNC.CMD (R197). -/
def rSyncCmd : Nat := 0x00400000
/-- SYNC.CMD.result: RO, Reset 0 (R197). -/
def fSyncCmdResult : Fld := ⟨rSyncCmd, 63, 56⟩
/-- SYNC.CMD.busy: RO, Reset 0 (R197). -/
def fSyncCmdBusy : Fld := ⟨rSyncCmd, 55, 55⟩
/-- SYNC.CMD.go: W1S, Reset 0 (R197). -/
def fSyncCmdGo : Fld := ⟨rSyncCmd, 47, 47⟩
/-- SYNC.CMD.op: RW, Reset 0 (R197). -/
def fSyncCmdOp : Fld := ⟨rSyncCmd, 42, 40⟩
/-- SYNC.CMD.context: RW, Reset 0 (R197). -/
def fSyncCmdContext : Fld := ⟨rSyncCmd, 38, 32⟩
/-- SYNC.CMD.heavy: RW, Reset 0 (R197). -/
def fSyncCmdHeavy : Fld := ⟨rSyncCmd, 17, 17⟩
/-- SYNC.CMD.remote: RW, Reset 0 (R197). -/
def fSyncCmdRemote : Fld := ⟨rSyncCmd, 16, 16⟩
/-- SYNC.CMD.die: RW, Reset 0 (R197). -/
def fSyncCmdDie : Fld := ⟨rSyncCmd, 15, 14⟩
/-- SYNC.CMD.index: RW, Reset 0 (R197). -/
def fSyncCmdIndex : Fld := ⟨rSyncCmd, 13, 0⟩
/-- The table of SYNC.CMD (R197). -/
def laySyncCmd : List RegField := [⟨63, 56, .ro, 0⟩, ⟨55, 55, .ro, 0⟩, ⟨47, 47, .w1s, 0⟩, ⟨42, 40, .rw, 0⟩, ⟨38, 32, .rw, 0⟩, ⟨17, 17, .rw, 0⟩, ⟨16, 16, .rw, 0⟩, ⟨15, 14, .rw, 0⟩, ⟨13, 0, .rw, 0⟩]

/-- Offset of SYNC.VALUE (R197). -/
def rSyncValue : Nat := 0x00400008
/-- SYNC.VALUE.value: RW, Reset 0 (R197). -/
def fSyncValueValue : Fld := ⟨rSyncValue, 63, 0⟩
/-- The table of SYNC.VALUE (R197). -/
def laySyncValue : List RegField := [⟨63, 0, .rw, 0⟩]

/-- Offset of SYNC.FIRE (R197). -/
def rSyncFire : Nat := 0x00400010
/-- SYNC.FIRE.fire: RW, Reset 0 (R197). -/
def fSyncFireFire : Fld := ⟨rSyncFire, 63, 0⟩
/-- The table of SYNC.FIRE (R197). -/
def laySyncFire : List RegField := [⟨63, 0, .rw, 0⟩]

/-- Offset of MEMC.STK.STATE (R222). -/
def rMemcStkState (k : Nat) : Nat := 0x00600000 + k * 0x40
/-- MEMC.STK.STATE.lanes_repaired: RO, Reset 0 (R222). -/
def fMemcStkStateLanesRepaired (k : Nat) : Fld := ⟨rMemcStkState k, 23, 16⟩
/-- MEMC.STK.STATE.screen_result: RO, Reset 0 (R222). -/
def fMemcStkStateScreenResult (k : Nat) : Fld := ⟨rMemcStkState k, 11, 10⟩
/-- MEMC.STK.STATE.train_result: RO, Reset 0 (R222). -/
def fMemcStkStateTrainResult (k : Nat) : Fld := ⟨rMemcStkState k, 9, 8⟩
/-- MEMC.STK.STATE.state: RO, Reset 0 (R222). -/
def fMemcStkStateState (k : Nat) : Fld := ⟨rMemcStkState k, 2, 0⟩
/-- The table of MEMC.STK.STATE (R222). -/
def layMemcStkState : List RegField := [⟨23, 16, .ro, 0⟩, ⟨11, 10, .ro, 0⟩, ⟨9, 8, .ro, 0⟩, ⟨2, 0, .ro, 0⟩]

/-- Offset of MEMC.STK.ERR (R222). -/
def rMemcStkErr (k : Nat) : Nat := 0x00600008 + k * 0x40
/-- MEMC.STK.ERR.ecc_corrected: RO, Reset 0 (R222). -/
def fMemcStkErrEccCorrected (k : Nat) : Fld := ⟨rMemcStkErr k, 63, 32⟩
/-- MEMC.STK.ERR.reread_ok: RO, Reset 0 (R222). -/
def fMemcStkErrRereadOk (k : Nat) : Fld := ⟨rMemcStkErr k, 31, 12⟩
/-- MEMC.STK.ERR.poisoned: RO, Reset 0 (R222). -/
def fMemcStkErrPoisoned (k : Nat) : Fld := ⟨rMemcStkErr k, 11, 0⟩
/-- The table of MEMC.STK.ERR (R222). -/
def layMemcStkErr : List RegField := [⟨63, 32, .ro, 0⟩, ⟨31, 12, .ro, 0⟩, ⟨11, 0, .ro, 0⟩]

/-- Offset of MEMC.STK.SPARE (R222). -/
def rMemcStkSpare (k : Nat) : Nat := 0x00600010 + k * 0x40
/-- MEMC.STK.SPARE.exhausted: RO, Reset 0 (R222). -/
def fMemcStkSpareExhausted (k : Nat) : Fld := ⟨rMemcStkSpare k, 32, 32⟩
/-- MEMC.STK.SPARE.banks: RO, Reset 0 (R222). -/
def fMemcStkSpareBanks (k : Nat) : Fld := ⟨rMemcStkSpare k, 23, 16⟩
/-- MEMC.STK.SPARE.rows: RO, Reset 0 (R222). -/
def fMemcStkSpareRows (k : Nat) : Fld := ⟨rMemcStkSpare k, 10, 0⟩
/-- The table of MEMC.STK.SPARE (R222). -/
def layMemcStkSpare : List RegField := [⟨32, 32, .ro, 0⟩, ⟨23, 16, .ro, 0⟩, ⟨10, 0, .ro, 0⟩]

/-- Offset of MEMC.STK.DISTURB (R222). -/
def rMemcStkDisturb (k : Nat) : Nat := 0x00600018 + k * 0x40
/-- MEMC.STK.DISTURB.measured: RO, Reset from flash (R222). -/
def fMemcStkDisturbMeasured (k : Nat) : Fld := ⟨rMemcStkDisturb k, 47, 32⟩
/-- MEMC.STK.DISTURB.threshold: RO, Reset 512 (R222). -/
def fMemcStkDisturbThreshold (k : Nat) : Fld := ⟨rMemcStkDisturb k, 11, 0⟩
/-- The table of MEMC.STK.DISTURB (R222). -/
def layMemcStkDisturb : List RegField := [⟨47, 32, .ro, 0⟩, ⟨11, 0, .ro, 512⟩]

/-- Offset of MEMC.STK.LAST (R222). -/
def rMemcStkLast (k : Nat) : Nat := 0x00600020 + k * 0x40
/-- MEMC.STK.LAST.kind: RO, Reset 0 (R222). -/
def fMemcStkLastKind (k : Nat) : Fld := ⟨rMemcStkLast k, 63, 62⟩
/-- MEMC.STK.LAST.pc: RO, Reset 0 (R222). -/
def fMemcStkLastPc (k : Nat) : Fld := ⟨rMemcStkLast k, 47, 42⟩
/-- MEMC.STK.LAST.bank: RO, Reset 0 (R222). -/
def fMemcStkLastBank (k : Nat) : Fld := ⟨rMemcStkLast k, 41, 36⟩
/-- MEMC.STK.LAST.row: RO, Reset 0 (R222). -/
def fMemcStkLastRow (k : Nat) : Fld := ⟨rMemcStkLast k, 35, 20⟩
/-- The table of MEMC.STK.LAST (R222). -/
def layMemcStkLast : List RegField := [⟨63, 62, .ro, 0⟩, ⟨47, 42, .ro, 0⟩, ⟨41, 36, .ro, 0⟩, ⟨35, 20, .ro, 0⟩]

/-- Offset of MEMC.MAP (R222). -/
def rMemcMap : Nat := 0x00600400
/-- MEMC.MAP.key: RO, Reset 0 (R222). -/
def fMemcMapKey : Fld := ⟨rMemcMap, 63, 32⟩
/-- MEMC.MAP.valid: RO, Reset 0 (R222). -/
def fMemcMapValid : Fld := ⟨rMemcMap, 9, 9⟩
/-- MEMC.MAP.scope: RO, Reset 0 (R222). -/
def fMemcMapScope : Fld := ⟨rMemcMap, 8, 8⟩
/-- MEMC.MAP.granule: RO, Reset 0 (R222). -/
def fMemcMapGranule : Fld := ⟨rMemcMap, 1, 0⟩
/-- The table of MEMC.MAP (R222). -/
def layMemcMap : List RegField := [⟨63, 32, .ro, 0⟩, ⟨9, 9, .ro, 0⟩, ⟨8, 8, .ro, 0⟩, ⟨1, 0, .ro, 0⟩]

/-- Offset of MEMC.SCREEN (R222). -/
def rMemcScreen : Nat := 0x00600408
/-- MEMC.SCREEN.seconds: RO, Reset 0 (R222). -/
def fMemcScreenSeconds : Fld := ⟨rMemcScreen, 47, 32⟩
/-- MEMC.SCREEN.since_full: RO, Reset from flash (R222). -/
def fMemcScreenSinceFull : Fld := ⟨rMemcScreen, 15, 8⟩
/-- MEMC.SCREEN.depth: RO, Reset 0 (R222). -/
def fMemcScreenDepth : Fld := ⟨rMemcScreen, 0, 0⟩
/-- The table of MEMC.SCREEN (R222). -/
def layMemcScreen : List RegField := [⟨47, 32, .ro, 0⟩, ⟨15, 8, .ro, 0⟩, ⟨0, 0, .ro, 0⟩]

/-- Offset of MEMC.SCRUB (R222). -/
def rMemcScrub : Nat := 0x00600410
/-- MEMC.SCRUB.paused: RO, Reset 0 (R222). -/
def fMemcScrubPaused : Fld := ⟨rMemcScrub, 32, 32⟩
/-- MEMC.SCRUB.progress: RO, Reset 0 (R222). -/
def fMemcScrubProgress : Fld := ⟨rMemcScrub, 6, 0⟩
/-- The table of MEMC.SCRUB (R222). -/
def layMemcScrub : List RegField := [⟨32, 32, .ro, 0⟩, ⟨6, 0, .ro, 0⟩]

/-- Offset of ZF.HOSTWIN (R250). -/
def rZfHostwin : Nat := 0x00700000
/-- ZF.HOSTWIN.base: RW, Reset 0 (R250). -/
def fZfHostwinBase : Fld := ⟨rZfHostwin, 63, 30⟩
/-- ZF.HOSTWIN.on: RW, Reset 0 (R250). -/
def fZfHostwinOn : Fld := ⟨rZfHostwin, 8, 8⟩
/-- ZF.HOSTWIN.ctx: RW, Reset 0 (R250). -/
def fZfHostwinCtx : Fld := ⟨rZfHostwin, 6, 0⟩
/-- The table of ZF.HOSTWIN (R250). -/
def layZfHostwin : List RegField := [⟨63, 30, .rwb, 0⟩, ⟨8, 8, .rwb, 0⟩, ⟨6, 0, .rwb, 0⟩]

/-- Offset of ZF.MAPVA (R250). -/
def rZfMapva : Nat := 0x00700008
/-- ZF.MAPVA.va: RW, Reset 0 (R250). -/
def fZfMapvaVa : Fld := ⟨rZfMapva, 63, 21⟩
/-- The table of ZF.MAPVA (R250). -/
def layZfMapva : List RegField := [⟨63, 21, .rw, 0⟩]

/-- Offset of ZF.MAPPA (R250). -/
def rZfMappa : Nat := 0x00700010
/-- ZF.MAPPA.gpa: RW, Reset 0 (R250). -/
def fZfMappaGpa : Fld := ⟨rZfMappa, 51, 21⟩
/-- The table of ZF.MAPPA (R250). -/
def layZfMappa : List RegField := [⟨51, 21, .rw, 0⟩]

/-- Offset of ZF.MAPCMD (R250). -/
def rZfMapcmd : Nat := 0x00700018
/-- ZF.MAPCMD.result: RO, Reset 0 (R250). -/
def fZfMapcmdResult : Fld := ⟨rZfMapcmd, 63, 56⟩
/-- ZF.MAPCMD.busy: RO, Reset 0 (R250). -/
def fZfMapcmdBusy : Fld := ⟨rZfMapcmd, 55, 55⟩
/-- ZF.MAPCMD.go: W1S, Reset 0 (R250). -/
def fZfMapcmdGo : Fld := ⟨rZfMapcmd, 47, 47⟩
/-- ZF.MAPCMD.op: RW, Reset 0 (R250). -/
def fZfMapcmdOp : Fld := ⟨rZfMapcmd, 42, 40⟩
/-- ZF.MAPCMD.context: RW, Reset 0 (R250). -/
def fZfMapcmdContext : Fld := ⟨rZfMapcmd, 38, 32⟩
/-- ZF.MAPCMD.count_m1: RW, Reset 0 (R250). -/
def fZfMapcmdCountM1 : Fld := ⟨rZfMapcmd, 24, 16⟩
/-- ZF.MAPCMD.size: RW, Reset 0 (R250). -/
def fZfMapcmdSize : Fld := ⟨rZfMapcmd, 12, 12⟩
/-- ZF.MAPCMD.export: RW, Reset 0 (R250). -/
def fZfMapcmdExport : Fld := ⟨rZfMapcmd, 11, 10⟩
/-- ZF.MAPCMD.atomic: RW, Reset 0 (R250). -/
def fZfMapcmdAtomic : Fld := ⟨rZfMapcmd, 2, 2⟩
/-- ZF.MAPCMD.write: RW, Reset 0 (R250). -/
def fZfMapcmdWrite : Fld := ⟨rZfMapcmd, 1, 1⟩
/-- ZF.MAPCMD.read: RW, Reset 0 (R250). -/
def fZfMapcmdRead : Fld := ⟨rZfMapcmd, 0, 0⟩
/-- The table of ZF.MAPCMD (R250). -/
def layZfMapcmd : List RegField := [⟨63, 56, .ro, 0⟩, ⟨55, 55, .ro, 0⟩, ⟨47, 47, .w1s, 0⟩, ⟨42, 40, .rw, 0⟩, ⟨38, 32, .rw, 0⟩, ⟨24, 16, .rw, 0⟩, ⟨12, 12, .rw, 0⟩, ⟨11, 10, .rw, 0⟩, ⟨2, 2, .rw, 0⟩, ⟨1, 1, .rw, 0⟩, ⟨0, 0, .rw, 0⟩]

/-- Offset of ZF.LOOKUP (R250). -/
def rZfLookup : Nat := 0x00700020
/-- ZF.LOOKUP.entry: RO, Reset 0 (R250). -/
def fZfLookupEntry : Fld := ⟨rZfLookup, 63, 0⟩
/-- The table of ZF.LOOKUP (R250). -/
def layZfLookup : List RegField := [⟨63, 0, .ro, 0⟩]

/-- Offset of ZF.TABLES (R250). -/
def rZfTables : Nat := 0x00700028
/-- ZF.TABLES.free: RO, Reset 32,768 (R250). -/
def fZfTablesFree : Fld := ⟨rZfTables, 15, 0⟩
/-- The table of ZF.TABLES (R250). -/
def layZfTables : List RegField := [⟨15, 0, .ro, 32768⟩]

/-- Offset of ZF.JOB (R250). -/
def rZfJob (c : Nat) : Nat := 0x00700400 + c * 8
/-- ZF.JOB.tag: RW, Reset 0 (R250). -/
def fZfJobTag (c : Nat) : Fld := ⟨rZfJob c, 15, 0⟩
/-- The table of ZF.JOB (R250). -/
def layZfJob : List RegField := [⟨15, 0, .rw, 0⟩]

/-- Offset of LNK.PORT.STATE (R286). -/
def rLnkPortState (p : Nat) : Nat := 0x00800000 + p * 0x40
/-- LNK.PORT.STATE.rtt: RO, Reset 0 (R286). -/
def fLnkPortStateRtt (p : Nat) : Fld := ⟨rLnkPortState p, 63, 48⟩
/-- LNK.PORT.STATE.reason: RO, Reset 0 (R286). -/
def fLnkPortStateReason (p : Nat) : Fld := ⟨rLnkPortState p, 43, 40⟩
/-- LNK.PORT.STATE.width_min: RO, Reset from image (R286). -/
def fLnkPortStateWidthMin (p : Nat) : Fld := ⟨rLnkPortState p, 36, 32⟩
/-- LNK.PORT.STATE.width: RO, Reset 0 (R286). -/
def fLnkPortStateWidth (p : Nat) : Fld := ⟨rLnkPortState p, 28, 24⟩
/-- LNK.PORT.STATE.phase: RO, Reset 0 (R286). -/
def fLnkPortStatePhase (p : Nat) : Fld := ⟨rLnkPortState p, 11, 8⟩
/-- LNK.PORT.STATE.state: RO, Reset 0 (R286). -/
def fLnkPortStateState (p : Nat) : Fld := ⟨rLnkPortState p, 3, 0⟩
/-- The table of LNK.PORT.STATE (R286). -/
def layLnkPortState : List RegField := [⟨63, 48, .ro, 0⟩, ⟨43, 40, .ro, 0⟩, ⟨36, 32, .ro, 0⟩, ⟨28, 24, .ro, 0⟩, ⟨11, 8, .ro, 0⟩, ⟨3, 0, .ro, 0⟩]

/-- Offset of LNK.PORT.CABLE (R286). -/
def rLnkPortCable (p : Nat) : Nat := 0x00800008 + p * 0x40
/-- LNK.PORT.CABLE.valid: RO, Reset 0 (R286). -/
def fLnkPortCableValid (p : Nat) : Fld := ⟨rLnkPortCable p, 63, 63⟩
/-- LNK.PORT.CABLE.status: RO, Reset 0 (R286). -/
def fLnkPortCableStatus (p : Nat) : Fld := ⟨rLnkPortCable p, 55, 48⟩
/-- LNK.PORT.CABLE.seen_port: RO, Reset 0 (R286). -/
def fLnkPortCableSeenPort (p : Nat) : Fld := ⟨rLnkPortCable p, 44, 40⟩
/-- LNK.PORT.CABLE.seen_node: RO, Reset 0 (R286). -/
def fLnkPortCableSeenNode (p : Nat) : Fld := ⟨rLnkPortCable p, 39, 28⟩
/-- LNK.PORT.CABLE.plan_port: RO, Reset from image (R286). -/
def fLnkPortCablePlanPort (p : Nat) : Fld := ⟨rLnkPortCable p, 20, 16⟩
/-- LNK.PORT.CABLE.plan_node: RO, Reset from image (R286). -/
def fLnkPortCablePlanNode (p : Nat) : Fld := ⟨rLnkPortCable p, 11, 0⟩
/-- The table of LNK.PORT.CABLE (R286). -/
def layLnkPortCable : List RegField := [⟨63, 63, .ro, 0⟩, ⟨55, 48, .ro, 0⟩, ⟨44, 40, .ro, 0⟩, ⟨39, 28, .ro, 0⟩, ⟨20, 16, .ro, 0⟩, ⟨11, 0, .ro, 0⟩]

/-- Offset of LNK.PORT.LANES (R286). -/
def rLnkPortLanes (p : Nat) : Nat := 0x00800010 + p * 0x40
/-- LNK.PORT.LANES.bad: RO, Reset 0 (R286). -/
def fLnkPortLanesBad (p : Nat) : Fld := ⟨rLnkPortLanes p, 63, 48⟩
/-- LNK.PORT.LANES.rx_cause: RO, Reset 0 (R286). -/
def fLnkPortLanesRxCause (p : Nat) : Fld := ⟨rLnkPortLanes p, 47, 32⟩
/-- LNK.PORT.LANES.s1_lane: RO, Reset 0 (R286). -/
def fLnkPortLanesS1Lane (p : Nat) : Fld := ⟨rLnkPortLanes p, 11, 8⟩
/-- LNK.PORT.LANES.s0_lane: RO, Reset 0 (R286). -/
def fLnkPortLanesS0Lane (p : Nat) : Fld := ⟨rLnkPortLanes p, 7, 4⟩
/-- LNK.PORT.LANES.s1: RO, Reset 0 (R286). -/
def fLnkPortLanesS1 (p : Nat) : Fld := ⟨rLnkPortLanes p, 1, 1⟩
/-- LNK.PORT.LANES.s0: RO, Reset 0 (R286). -/
def fLnkPortLanesS0 (p : Nat) : Fld := ⟨rLnkPortLanes p, 0, 0⟩
/-- The table of LNK.PORT.LANES (R286). -/
def layLnkPortLanes : List RegField := [⟨63, 48, .ro, 0⟩, ⟨47, 32, .ro, 0⟩, ⟨11, 8, .ro, 0⟩, ⟨7, 4, .ro, 0⟩, ⟨1, 1, .ro, 0⟩, ⟨0, 0, .ro, 0⟩]

/-- Offset of LNK.PORT.ERR (R286). -/
def rLnkPortErr (p : Nat) : Nat := 0x00800018 + p * 0x40
/-- LNK.PORT.ERR.corrected: RC, Reset 0 (R286). -/
def fLnkPortErrCorrected (p : Nat) : Fld := ⟨rLnkPortErr p, 63, 32⟩
/-- LNK.PORT.ERR.uncorrectable: RC, Reset 0 (R286). -/
def fLnkPortErrUncorrectable (p : Nat) : Fld := ⟨rLnkPortErr p, 31, 16⟩
/-- LNK.PORT.ERR.naks: RC, Reset 0 (R286). -/
def fLnkPortErrNaks (p : Nat) : Fld := ⟨rLnkPortErr p, 15, 4⟩
/-- LNK.PORT.ERR.changes: RC, Reset 0 (R286). -/
def fLnkPortErrChanges (p : Nat) : Fld := ⟨rLnkPortErr p, 3, 0⟩
/-- The table of LNK.PORT.ERR (R286). -/
def layLnkPortErr : List RegField := [⟨63, 32, .rc, 0⟩, ⟨31, 16, .rc, 0⟩, ⟨15, 4, .rc, 0⟩, ⟨3, 0, .rc, 0⟩]

/-- Offset of LNK.OE.STAT (R286). -/
def rLnkOeStat (k : Nat) : Nat := 0x00800800 + k * 8
/-- LNK.OE.STAT.s1_height: RO, Reset 0 (R286). -/
def fLnkOeStatS1Height (k : Nat) : Fld := ⟨rLnkOeStat k, 63, 56⟩
/-- LNK.OE.STAT.s1_width: RO, Reset 0 (R286). -/
def fLnkOeStatS1Width (k : Nat) : Fld := ⟨rLnkOeStat k, 55, 48⟩
/-- LNK.OE.STAT.s0_height: RO, Reset 0 (R286). -/
def fLnkOeStatS0Height (k : Nat) : Fld := ⟨rLnkOeStat k, 47, 40⟩
/-- LNK.OE.STAT.s0_width: RO, Reset 0 (R286). -/
def fLnkOeStatS0Width (k : Nat) : Fld := ⟨rLnkOeStat k, 39, 32⟩
/-- LNK.OE.STAT.s1_state: RO, Reset 0 (R286). -/
def fLnkOeStatS1State (k : Nat) : Fld := ⟨rLnkOeStat k, 3, 2⟩
/-- LNK.OE.STAT.s0_state: RO, Reset 0 (R286). -/
def fLnkOeStatS0State (k : Nat) : Fld := ⟨rLnkOeStat k, 1, 0⟩
/-- The table of LNK.OE.STAT (R286). -/
def layLnkOeStat : List RegField := [⟨63, 56, .ro, 0⟩, ⟨55, 48, .ro, 0⟩, ⟨47, 40, .ro, 0⟩, ⟨39, 32, .ro, 0⟩, ⟨3, 2, .ro, 0⟩, ⟨1, 0, .ro, 0⟩]

/-- Offset of LNK.CTL (R286). -/
def rLnkCtl : Nat := 0x00800900
/-- LNK.CTL.status: RO, Reset 0 (R286). -/
def fLnkCtlStatus : Fld := ⟨rLnkCtl, 63, 56⟩
/-- LNK.CTL.busy: RO, Reset 0 (R286). -/
def fLnkCtlBusy : Fld := ⟨rLnkCtl, 55, 55⟩
/-- LNK.CTL.go: W1S, Reset 0 (R286). -/
def fLnkCtlGo : Fld := ⟨rLnkCtl, 47, 47⟩
/-- LNK.CTL.defer: RW, Reset 0 (R286). -/
def fLnkCtlDefer : Fld := ⟨rLnkCtl, 40, 40⟩
/-- LNK.CTL.port: RW, Reset 0 (R286). -/
def fLnkCtlPort : Fld := ⟨rLnkCtl, 36, 32⟩
/-- The table of LNK.CTL (R286). -/
def layLnkCtl : List RegField := [⟨63, 56, .ro, 0⟩, ⟨55, 55, .ro, 0⟩, ⟨47, 47, .w1s, 0⟩, ⟨40, 40, .rw, 0⟩, ⟨36, 32, .rw, 0⟩]

/-- Offset of RTE.STATE (R332). -/
def rRteState : Nat := 0x00900000
/-- RTE.STATE.time_root: RO, Reset 0 (R332). -/
def fRteStateTimeRoot : Fld := ⟨rRteState, 63, 52⟩
/-- RTE.STATE.up_valid: RO, Reset 0 (R332). -/
def fRteStateUpValid : Fld := ⟨rRteState, 45, 45⟩
/-- RTE.STATE.upstream: RO, Reset 0 (R332). -/
def fRteStateUpstream : Fld := ⟨rRteState, 44, 40⟩
/-- RTE.STATE.distance: RO, Reset 0 (R332). -/
def fRteStateDistance : Fld := ⟨rRteState, 39, 32⟩
/-- RTE.STATE.master: RO, Reset 0 (R332). -/
def fRteStateMaster : Fld := ⟨rRteState, 2, 2⟩
/-- RTE.STATE.time_locked: RO, Reset 0 (R332). -/
def fRteStateTimeLocked : Fld := ⟨rRteState, 1, 1⟩
/-- RTE.STATE.joined: RO, Reset 0 (R332). -/
def fRteStateJoined : Fld := ⟨rRteState, 0, 0⟩
/-- The table of RTE.STATE (R332). -/
def layRteState : List RegField := [⟨63, 52, .ro, 0⟩, ⟨45, 45, .ro, 0⟩, ⟨44, 40, .ro, 0⟩, ⟨39, 32, .ro, 0⟩, ⟨2, 2, .ro, 0⟩, ⟨1, 1, .ro, 0⟩, ⟨0, 0, .ro, 0⟩]

/-- Offset of RTE.TIME (R332). -/
def rRteTime : Nat := 0x00900008
/-- RTE.TIME.ns: RO, Reset 0 (R332). -/
def fRteTimeNs : Fld := ⟨rRteTime, 63, 0⟩
/-- The table of RTE.TIME (R332). -/
def layRteTime : List RegField := [⟨63, 0, .ro, 0⟩]

/-- Offset of RTE.PORTS (R332). -/
def rRtePorts : Nat := 0x00900010
/-- RTE.PORTS.routed: RO, Reset 0 (R332). -/
def fRtePortsRouted : Fld := ⟨rRtePorts, 31, 0⟩
/-- The table of RTE.PORTS (R332). -/
def layRtePorts : List RegField := [⟨31, 0, .ro, 0⟩]

/-- Offset of RTE.ERR (R332). -/
def rRteErr : Nat := 0x00900018
/-- RTE.ERR.aged: RC, Reset 0 (R332). -/
def fRteErrAged : Fld := ⟨rRteErr, 63, 48⟩
/-- RTE.ERR.unreachable: RC, Reset 0 (R332). -/
def fRteErrUnreachable : Fld := ⟨rRteErr, 47, 32⟩
/-- RTE.ERR.changes: RC, Reset 0 (R332). -/
def fRteErrChanges : Fld := ⟨rRteErr, 31, 16⟩
/-- RTE.ERR.detours: RC, Reset 0 (R332). -/
def fRteErrDetours : Fld := ⟨rRteErr, 15, 0⟩
/-- The table of RTE.ERR (R332). -/
def layRteErr : List RegField := [⟨63, 48, .rc, 0⟩, ⟨47, 32, .rc, 0⟩, ⟨31, 16, .rc, 0⟩, ⟨15, 0, .rc, 0⟩]

/-- Offset of RTE.GW (R332). -/
def rRteGw (k : Nat) : Nat := 0x00900020 + k * 8
/-- RTE.GW.positions: RO, Reset 0 (R332). -/
def fRteGwPositions (k : Nat) : Fld := ⟨rRteGw k, 63, 0⟩
/-- The table of RTE.GW (R332). -/
def layRteGw : List RegField := [⟨63, 0, .ro, 0⟩]

/-- Offset of GRP.CMD (R333). -/
def rGrpCmd : Nat := 0x00A00000
/-- GRP.CMD.result: RO, Reset 0 (R333). -/
def fGrpCmdResult : Fld := ⟨rGrpCmd, 63, 56⟩
/-- GRP.CMD.busy: RO, Reset 0 (R333). -/
def fGrpCmdBusy : Fld := ⟨rGrpCmd, 55, 55⟩
/-- GRP.CMD.go: W1S, Reset 0 (R333). -/
def fGrpCmdGo : Fld := ⟨rGrpCmd, 47, 47⟩
/-- GRP.CMD.op: RW, Reset 0 (R333). -/
def fGrpCmdOp : Fld := ⟨rGrpCmd, 42, 40⟩
/-- GRP.CMD.context: RW, Reset 0 (R333). -/
def fGrpCmdContext : Fld := ⟨rGrpCmd, 38, 32⟩
/-- GRP.CMD.number: RW, Reset 0 (R333). -/
def fGrpCmdNumber : Fld := ⟨rGrpCmd, 25, 16⟩
/-- The table of GRP.CMD (R333). -/
def layGrpCmd : List RegField := [⟨63, 56, .ro, 0⟩, ⟨55, 55, .ro, 0⟩, ⟨47, 47, .w1s, 0⟩, ⟨42, 40, .rw, 0⟩, ⟨38, 32, .rw, 0⟩, ⟨25, 16, .rw, 0⟩]

/-- Offset of GRP.ARG0 (R333). -/
def rGrpArg0 : Nat := 0x00A00008
/-- GRP.ARG0.map_or_key: RW, Reset 0 (R333). -/
def fGrpArg0MapOrKey : Fld := ⟨rGrpArg0, 63, 0⟩
/-- The table of GRP.ARG0 (R333). -/
def layGrpArg0 : List RegField := [⟨63, 0, .rw, 0⟩]

/-- Offset of GRP.ARG1 (R333). -/
def rGrpArg1 : Nat := 0x00A00010
/-- GRP.ARG1.timeout: RW, Reset 0 (R333). -/
def fGrpArg1Timeout : Fld := ⟨rGrpArg1, 63, 32⟩
/-- GRP.ARG1.form_ms: RW, Reset 0 (R333). -/
def fGrpArg1FormMs : Fld := ⟨rGrpArg1, 31, 16⟩
/-- GRP.ARG1.members: RW, Reset 0 (R333). -/
def fGrpArg1Members : Fld := ⟨rGrpArg1, 12, 0⟩
/-- The table of GRP.ARG1 (R333). -/
def layGrpArg1 : List RegField := [⟨63, 32, .rw, 0⟩, ⟨31, 16, .rw, 0⟩, ⟨12, 0, .rw, 0⟩]

/-- Offset of GRP.SLOTS (R333). -/
def rGrpSlots : Nat := 0x00A00018
/-- GRP.SLOTS.transit_h1: RO, Reset from image (R333). -/
def fGrpSlotsTransitH1 : Fld := ⟨rGrpSlots, 31, 24⟩
/-- GRP.SLOTS.transit_h0: RO, Reset from image (R333). -/
def fGrpSlotsTransitH0 : Fld := ⟨rGrpSlots, 23, 16⟩
/-- GRP.SLOTS.free_h1: RO, Reset 64 (R333). -/
def fGrpSlotsFreeH1 : Fld := ⟨rGrpSlots, 15, 8⟩
/-- GRP.SLOTS.free_h0: RO, Reset 64 (R333). -/
def fGrpSlotsFreeH0 : Fld := ⟨rGrpSlots, 7, 0⟩
/-- The table of GRP.SLOTS (R333). -/
def layGrpSlots : List RegField := [⟨31, 24, .ro, 0⟩, ⟨23, 16, .ro, 0⟩, ⟨15, 8, .ro, 64⟩, ⟨7, 0, .ro, 64⟩]

/-- Offset of GRP.G.STATE (R333). -/
def rGrpGState (n : Nat) : Nat := 0x00A10000 + n * 0x40
/-- GRP.G.STATE.reason: RO, Reset 0 (R333). -/
def fGrpGStateReason (n : Nat) : Fld := ⟨rGrpGState n, 63, 60⟩
/-- GRP.G.STATE.tunnelled: RO, Reset 0 (R333). -/
def fGrpGStateTunnelled (n : Nat) : Fld := ⟨rGrpGState n, 59, 59⟩
/-- GRP.G.STATE.leader: RO, Reset 0 (R333). -/
def fGrpGStateLeader (n : Nat) : Fld := ⟨rGrpGState n, 58, 58⟩
/-- GRP.G.STATE.state: RO, Reset 0 (R333). -/
def fGrpGStateState (n : Nat) : Fld := ⟨rGrpGState n, 57, 56⟩
/-- GRP.G.STATE.hub: RO, Reset 0 (R333). -/
def fGrpGStateHub (n : Nat) : Fld := ⟨rGrpGState n, 55, 54⟩
/-- GRP.G.STATE.rank: RO, Reset 0 (R333). -/
def fGrpGStateRank (n : Nat) : Fld := ⟨rGrpGState n, 53, 42⟩
/-- GRP.G.STATE.members: RO, Reset 0 (R333). -/
def fGrpGStateMembers (n : Nat) : Fld := ⟨rGrpGState n, 41, 29⟩
/-- GRP.G.STATE.key: RO, Reset 0 (R333). -/
def fGrpGStateKey (n : Nat) : Fld := ⟨rGrpGState n, 21, 0⟩
/-- The table of GRP.G.STATE (R333). -/
def layGrpGState : List RegField := [⟨63, 60, .ro, 0⟩, ⟨59, 59, .ro, 0⟩, ⟨58, 58, .ro, 0⟩, ⟨57, 56, .ro, 0⟩, ⟨55, 54, .ro, 0⟩, ⟨53, 42, .ro, 0⟩, ⟨41, 29, .ro, 0⟩, ⟨21, 0, .ro, 0⟩]

/-- Offset of GRP.G.QBASE (R333). -/
def rGrpGQbase (n : Nat) : Nat := 0x00A10008 + n * 0x40
/-- GRP.G.QBASE.base: RW, Reset 0 (R333). -/
def fGrpGQbaseBase (n : Nat) : Fld := ⟨rGrpGQbase n, 63, 5⟩
/-- The table of GRP.G.QBASE (R333). -/
def layGrpGQbase : List RegField := [⟨63, 5, .rw, 0⟩]

/-- Offset of GRP.G.QCFG (R333). -/
def rGrpGQcfg (n : Nat) : Nat := 0x00A10010 + n * 0x40
/-- GRP.G.QCFG.timeout: RW, Reset 0 (R333). -/
def fGrpGQcfgTimeout (n : Nat) : Fld := ⟨rGrpGQcfg n, 63, 32⟩
/-- GRP.G.QCFG.enable: RW, Reset 0 (R333). -/
def fGrpGQcfgEnable (n : Nat) : Fld := ⟨rGrpGQcfg n, 31, 31⟩
/-- GRP.G.QCFG.ring: RW, Reset 0 (R333). -/
def fGrpGQcfgRing (n : Nat) : Fld := ⟨rGrpGQcfg n, 26, 24⟩
/-- GRP.G.QCFG.log2size: RW, Reset 0 (R333). -/
def fGrpGQcfgLog2size (n : Nat) : Fld := ⟨rGrpGQcfg n, 20, 16⟩
/-- GRP.G.QCFG.loc: RW, Reset 0 (R333). -/
def fGrpGQcfgLoc (n : Nat) : Fld := ⟨rGrpGQcfg n, 8, 8⟩
/-- The table of GRP.G.QCFG (R333). -/
def layGrpGQcfg : List RegField := [⟨63, 32, .rw, 0⟩, ⟨31, 31, .rwb, 0⟩, ⟨26, 24, .rw, 0⟩, ⟨20, 16, .rw, 0⟩, ⟨8, 8, .rw, 0⟩]

/-- Offset of GRP.G.QSTATE (R333). -/
def rGrpGQstate (n : Nat) : Nat := 0x00A10018 + n * 0x40
/-- GRP.G.QSTATE.result: RO, Reset 0 (R333). -/
def fGrpGQstateResult (n : Nat) : Fld := ⟨rGrpGQstate n, 63, 56⟩
/-- GRP.G.QSTATE.state: RO, Reset 0 (R333). -/
def fGrpGQstateState (n : Nat) : Fld := ⟨rGrpGQstate n, 55, 54⟩
/-- GRP.G.QSTATE.tail: RO, Reset 0 (R333). -/
def fGrpGQstateTail (n : Nat) : Fld := ⟨rGrpGQstate n, 47, 24⟩
/-- GRP.G.QSTATE.head: RO, Reset 0 (R333). -/
def fGrpGQstateHead (n : Nat) : Fld := ⟨rGrpGQstate n, 23, 0⟩
/-- The table of GRP.G.QSTATE (R333). -/
def layGrpGQstate : List RegField := [⟨63, 56, .ro, 0⟩, ⟨55, 54, .ro, 0⟩, ⟨47, 24, .ro, 0⟩, ⟨23, 0, .ro, 0⟩]

/-- Offset of GRP.G.STAT (R333). -/
def rGrpGStat (n : Nat) : Nat := 0x00A10020 + n * 0x40
/-- GRP.G.STAT.seq: RO, Reset 0 (R333). -/
def fGrpGStatSeq (n : Nat) : Fld := ⟨rGrpGStat n, 63, 32⟩
/-- GRP.G.STAT.mismatch_node: RO, Reset 0 (R333). -/
def fGrpGStatMismatchNode (n : Nat) : Fld := ⟨rGrpGStat n, 31, 20⟩
/-- GRP.G.STAT.depth: RO, Reset 0 (R333). -/
def fGrpGStatDepth (n : Nat) : Fld := ⟨rGrpGStat n, 19, 15⟩
/-- GRP.G.STAT.context: RO, Reset 0 (R333). -/
def fGrpGStatContext (n : Nat) : Fld := ⟨rGrpGStat n, 14, 8⟩
/-- GRP.G.STAT.last_status: RO, Reset 0 (R333). -/
def fGrpGStatLastStatus (n : Nat) : Fld := ⟨rGrpGStat n, 7, 0⟩
/-- The table of GRP.G.STAT (R333). -/
def layGrpGStat : List RegField := [⟨63, 32, .ro, 0⟩, ⟨31, 20, .ro, 0⟩, ⟨19, 15, .ro, 0⟩, ⟨14, 8, .ro, 0⟩, ⟨7, 0, .ro, 0⟩]

/-- Offset of PWR.FEED (R371). -/
def rPwrFeed : Nat := 0x00B00000
/-- PWR.FEED.b_volts: RO, Reset 0 (R371). -/
def fPwrFeedBVolts : Fld := ⟨rPwrFeed, 63, 54⟩
/-- PWR.FEED.a_volts: RO, Reset 0 (R371). -/
def fPwrFeedAVolts : Fld := ⟨rPwrFeed, 53, 44⟩
/-- PWR.FEED.b_amps: RO, Reset 0 (R371). -/
def fPwrFeedBAmps : Fld := ⟨rPwrFeed, 43, 36⟩
/-- PWR.FEED.a_amps: RO, Reset 0 (R371). -/
def fPwrFeedAAmps : Fld := ⟨rPwrFeed, 35, 28⟩
/-- PWR.FEED.switches: RC, Reset 0 (R371). -/
def fPwrFeedSwitches : Fld := ⟨rPwrFeed, 27, 20⟩
/-- PWR.FEED.b_state: RO, Reset 0 (R371). -/
def fPwrFeedBState : Fld := ⟨rPwrFeed, 10, 8⟩
/-- PWR.FEED.a_state: RO, Reset 0 (R371). -/
def fPwrFeedAState : Fld := ⟨rPwrFeed, 6, 4⟩
/-- PWR.FEED.b_mate: RO, Reset 0 (R371). -/
def fPwrFeedBMate : Fld := ⟨rPwrFeed, 3, 3⟩
/-- PWR.FEED.a_mate: RO, Reset 0 (R371). -/
def fPwrFeedAMate : Fld := ⟨rPwrFeed, 2, 2⟩
/-- PWR.FEED.primary: RO, Reset 0 (R371). -/
def fPwrFeedPrimary : Fld := ⟨rPwrFeed, 1, 1⟩
/-- PWR.FEED.mode: RO, Reset 0 (R371). -/
def fPwrFeedMode : Fld := ⟨rPwrFeed, 0, 0⟩
/-- The table of PWR.FEED (R371). -/
def layPwrFeed : List RegField := [⟨63, 54, .ro, 0⟩, ⟨53, 44, .ro, 0⟩, ⟨43, 36, .ro, 0⟩, ⟨35, 28, .ro, 0⟩, ⟨27, 20, .rc, 0⟩, ⟨10, 8, .ro, 0⟩, ⟨6, 4, .ro, 0⟩, ⟨3, 3, .ro, 0⟩, ⟨2, 2, .ro, 0⟩, ⟨1, 1, .ro, 0⟩, ⟨0, 0, .ro, 0⟩]

/-- Offset of PWR.INPUT (R371). -/
def rPwrInput : Nat := 0x00B00008
/-- PWR.INPUT.power: RO, Reset 0 (R371). -/
def fPwrInputPower : Fld := ⟨rPwrInput, 63, 48⟩
/-- PWR.INPUT.cap: RO, Reset 3,600 (R371). -/
def fPwrInputCap : Fld := ⟨rPwrInput, 47, 32⟩
/-- PWR.INPUT.cap_source: RO, Reset 0 (R371). -/
def fPwrInputCapSource : Fld := ⟨rPwrInput, 28, 26⟩
/-- PWR.INPUT.state: RO, Reset 2 (R371). -/
def fPwrInputState : Fld := ⟨rPwrInput, 25, 24⟩
/-- PWR.INPUT.off_reason: RO, Reset 0 (R371). -/
def fPwrInputOffReason : Fld := ⟨rPwrInput, 23, 20⟩
/-- PWR.INPUT.image_cap: RO, Reset from image (R371). -/
def fPwrInputImageCap : Fld := ⟨rPwrInput, 15, 0⟩
/-- The table of PWR.INPUT (R371). -/
def layPwrInput : List RegField := [⟨63, 48, .ro, 0⟩, ⟨47, 32, .ro, 3600⟩, ⟨28, 26, .ro, 0⟩, ⟨25, 24, .ro, 2⟩, ⟨23, 20, .ro, 0⟩, ⟨15, 0, .ro, 0⟩]

/-- Offset of PWR.HOST (R371). -/
def rPwrHost : Nat := 0x00B00010
/-- PWR.HOST.vector: RW, Reset 0 (R371). -/
def fPwrHostVector : Fld := ⟨rPwrHost, 48, 40⟩
/-- PWR.HOST.notice_irq: RW, Reset 0 (R371). -/
def fPwrHostNoticeIrq : Fld := ⟨rPwrHost, 39, 39⟩
/-- PWR.HOST.ack_off: W1S, Reset 0 (R371). -/
def fPwrHostAckOff : Fld := ⟨rPwrHost, 38, 38⟩
/-- PWR.HOST.order: RW, Reset 0 (R371). -/
def fPwrHostOrder : Fld := ⟨rPwrHost, 37, 36⟩
/-- PWR.HOST.result: RO, Reset 0 (R371). -/
def fPwrHostResult : Fld := ⟨rPwrHost, 35, 32⟩
/-- PWR.HOST.clamped: W1C, Reset 0 (R371). -/
def fPwrHostClamped : Fld := ⟨rPwrHost, 16, 16⟩
/-- PWR.HOST.cap: RW, Reset 3,600 (R371). -/
def fPwrHostCap : Fld := ⟨rPwrHost, 15, 0⟩
/-- The table of PWR.HOST (R371). -/
def layPwrHost : List RegField := [⟨48, 40, .rw, 0⟩, ⟨39, 39, .rw, 0⟩, ⟨38, 38, .w1s, 0⟩, ⟨37, 36, .rwb, 0⟩, ⟨35, 32, .ro, 0⟩, ⟨16, 16, .w1c, 0⟩, ⟨15, 0, .rwb, 3600⟩]

/-- Offset of PWR.RACK (R371). -/
def rPwrRack : Nat := 0x00B00018
/-- PWR.RACK.notice_ms: RO, Reset 0 (R371). -/
def fPwrRackNoticeMs : Fld := ⟨rPwrRack, 63, 48⟩
/-- PWR.RACK.notice: RO, Reset 0 (R371). -/
def fPwrRackNotice : Fld := ⟨rPwrRack, 39, 39⟩
/-- PWR.RACK.graceful: RO, Reset 0 (R371). -/
def fPwrRackGraceful : Fld := ⟨rPwrRack, 38, 38⟩
/-- PWR.RACK.order: RO, Reset 0 (R371). -/
def fPwrRackOrder : Fld := ⟨rPwrRack, 37, 36⟩
/-- PWR.RACK.ceiling: RO, Reset 3,600 (R371). -/
def fPwrRackCeiling : Fld := ⟨rPwrRack, 15, 0⟩
/-- The table of PWR.RACK (R371). -/
def layPwrRack : List RegField := [⟨63, 48, .ro, 0⟩, ⟨39, 39, .ro, 0⟩, ⟨38, 38, .ro, 0⟩, ⟨37, 36, .ro, 0⟩, ⟨15, 0, .ro, 3600⟩]

/-- Offset of PWR.DIE (R371). -/
def rPwrDie (d : Nat) : Nat := 0x00B00020 + d * 8
/-- PWR.DIE.fjob: RO, Reset 0 (R371). -/
def fPwrDieFjob (d : Nat) : Fld := ⟨rPwrDie d, 63, 48⟩
/-- PWR.DIE.fsus: RO, Reset 0 (R371). -/
def fPwrDieFsus (d : Nat) : Fld := ⟨rPwrDie d, 47, 32⟩
/-- PWR.DIE.limit: RO, Reset 0 (R371). -/
def fPwrDieLimit (d : Nat) : Fld := ⟨rPwrDie d, 31, 28⟩
/-- PWR.DIE.vcore: RO, Reset 0 (R371). -/
def fPwrDieVcore (d : Nat) : Fld := ⟨rPwrDie d, 27, 16⟩
/-- PWR.DIE.stretches: RC, Reset 0 (R371). -/
def fPwrDieStretches (d : Nat) : Fld := ⟨rPwrDie d, 15, 8⟩
/-- PWR.DIE.throttles: RC, Reset 0 (R371). -/
def fPwrDieThrottles (d : Nat) : Fld := ⟨rPwrDie d, 7, 0⟩
/-- The table of PWR.DIE (R371). -/
def layPwrDie : List RegField := [⟨63, 48, .ro, 0⟩, ⟨47, 32, .ro, 0⟩, ⟨31, 28, .ro, 0⟩, ⟨27, 16, .ro, 0⟩, ⟨15, 8, .rc, 0⟩, ⟨7, 0, .rc, 0⟩]

/-- Offset of PWR.RAIL (R371). -/
def rPwrRail (r : Nat) : Nat := 0x00B00040 + r * 8
/-- PWR.RAIL.fault: RO, Reset 0 (R371). -/
def fPwrRailFault (r : Nat) : Fld := ⟨rPwrRail r, 63, 63⟩
/-- PWR.RAIL.phases_ok: RO, Reset 0 (R371). -/
def fPwrRailPhasesOk (r : Nat) : Fld := ⟨rPwrRail r, 55, 48⟩
/-- PWR.RAIL.phases: RO, Reset fixed (R371). -/
def fPwrRailPhases (r : Nat) : Fld := ⟨rPwrRail r, 47, 40⟩
/-- PWR.RAIL.mv: RO, Reset 0 (R371). -/
def fPwrRailMv (r : Nat) : Fld := ⟨rPwrRail r, 39, 28⟩
/-- PWR.RAIL.limit: RO, Reset fixed (R371). -/
def fPwrRailLimit (r : Nat) : Fld := ⟨rPwrRail r, 27, 16⟩
/-- PWR.RAIL.amps: RO, Reset 0 (R371). -/
def fPwrRailAmps (r : Nat) : Fld := ⟨rPwrRail r, 10, 0⟩
/-- The table of PWR.RAIL (R371). -/
def layPwrRail (r : Nat) : List RegField := [⟨63, 63, .ro, 0⟩, ⟨55, 48, .ro, 0⟩, ⟨47, 40, .ro, railPhases r⟩, ⟨39, 28, .ro, 0⟩, ⟨27, 16, .ro, railLimit r⟩, ⟨10, 0, .ro, 0⟩]

/-- Offset of PWR.PART (R371). -/
def rPwrPart (p : Nat) : Nat := 0x00B000C0 + p * 8
/-- PWR.PART.draw: RO, Reset 0 (R371). -/
def fPwrPartDraw (p : Nat) : Fld := ⟨rPwrPart p, 63, 48⟩
/-- PWR.PART.ceiling: RO, Reset from image (R371). -/
def fPwrPartCeiling (p : Nat) : Fld := ⟨rPwrPart p, 47, 32⟩
/-- PWR.PART.enable: RW, Reset 0 (R371). -/
def fPwrPartEnable (p : Nat) : Fld := ⟨rPwrPart p, 31, 31⟩
/-- PWR.PART.pact_state: RO, Reset 0 (R371). -/
def fPwrPartPactState (p : Nat) : Fld := ⟨rPwrPart p, 30, 28⟩
/-- PWR.PART.group: RW, Reset 0 (R371). -/
def fPwrPartGroup (p : Nat) : Fld := ⟨rPwrPart p, 27, 18⟩
/-- PWR.PART.clamped: W1C, Reset 0 (R371). -/
def fPwrPartClamped (p : Nat) : Fld := ⟨rPwrPart p, 17, 17⟩
/-- PWR.PART.budget: RW, Reset from image (R371). -/
def fPwrPartBudget (p : Nat) : Fld := ⟨rPwrPart p, 15, 0⟩
/-- The table of PWR.PART (R371). -/
def layPwrPart : List RegField := [⟨63, 48, .ro, 0⟩, ⟨47, 32, .ro, 0⟩, ⟨31, 31, .rwb, 0⟩, ⟨30, 28, .ro, 0⟩, ⟨27, 18, .rwb, 0⟩, ⟨17, 17, .w1c, 0⟩, ⟨15, 0, .rwb, 0⟩]

/-- Offset of THM.COOL (R372). -/
def rThmCool : Nat := 0x00C00000
/-- THM.COOL.inlet: RO, Reset 0 (R372). -/
def fThmCoolInlet : Fld := ⟨rThmCool, 63, 52⟩
/-- THM.COOL.outlet: RO, Reset 0 (R372). -/
def fThmCoolOutlet : Fld := ⟨rThmCool, 51, 40⟩
/-- THM.COOL.flow: RO, Reset 0 (R372). -/
def fThmCoolFlow : Fld := ⟨rThmCool, 39, 32⟩
/-- THM.COOL.flow_state: RO, Reset 2 (R372). -/
def fThmCoolFlowState : Fld := ⟨rThmCool, 31, 30⟩
/-- THM.COOL.inlet_failed: RO, Reset 0 (R372). -/
def fThmCoolInletFailed : Fld := ⟨rThmCool, 29, 29⟩
/-- THM.COOL.outlet_failed: RO, Reset 0 (R372). -/
def fThmCoolOutletFailed : Fld := ⟨rThmCool, 28, 28⟩
/-- THM.COOL.throttle: RO, Reset from image (R372). -/
def fThmCoolThrottle : Fld := ⟨rThmCool, 27, 20⟩
/-- THM.COOL.trip: RO, Reset 115 (R372). -/
def fThmCoolTrip : Fld := ⟨rThmCool, 19, 12⟩
/-- The table of THM.COOL (R372). -/
def layThmCool : List RegField := [⟨63, 52, .ro, 0⟩, ⟨51, 40, .ro, 0⟩, ⟨39, 32, .ro, 0⟩, ⟨31, 30, .ro, 2⟩, ⟨29, 29, .ro, 0⟩, ⟨28, 28, .ro, 0⟩, ⟨27, 20, .ro, 0⟩, ⟨19, 12, .ro, 115⟩]

/-- Offset of THM.LEAK (R372). -/
def rThmLeak : Nat := 0x00C00008
/-- THM.LEAK.loop: RO, Reset 0 (R372). -/
def fThmLeakLoop : Fld := ⟨rThmLeak, 63, 48⟩
/-- THM.LEAK.policy: RO, Reset from image (R372). -/
def fThmLeakPolicy : Fld := ⟨rThmLeak, 3, 3⟩
/-- THM.LEAK.ground: RO, Reset 0 (R372). -/
def fThmLeakGround : Fld := ⟨rThmLeak, 2, 2⟩
/-- THM.LEAK.level: RO, Reset 2 (R372). -/
def fThmLeakLevel : Fld := ⟨rThmLeak, 1, 0⟩
/-- The table of THM.LEAK (R372). -/
def layThmLeak : List RegField := [⟨63, 48, .ro, 0⟩, ⟨3, 3, .ro, 0⟩, ⟨2, 2, .ro, 0⟩, ⟨1, 0, .ro, 2⟩]

/-- Offset of THM.WARN (R372). -/
def rThmWarn : Nat := 0x00C00010
/-- THM.WARN.throttle: W1C, Reset 0 (R372). -/
def fThmWarnThrottle : Fld := ⟨rThmWarn, 8, 8⟩
/-- THM.WARN.leak: W1C, Reset 0 (R372). -/
def fThmWarnLeak : Fld := ⟨rThmWarn, 7, 7⟩
/-- THM.WARN.sensing_lost: W1C, Reset 0 (R372). -/
def fThmWarnSensingLost : Fld := ⟨rThmWarn, 6, 6⟩
/-- THM.WARN.coolant_sensor: W1C, Reset 0 (R372). -/
def fThmWarnCoolantSensor : Fld := ⟨rThmWarn, 5, 5⟩
/-- THM.WARN.diode_derate: W1C, Reset 0 (R372). -/
def fThmWarnDiodeDerate : Fld := ⟨rThmWarn, 4, 4⟩
/-- THM.WARN.thermal_limit: W1C, Reset 0 (R372). -/
def fThmWarnThermalLimit : Fld := ⟨rThmWarn, 3, 3⟩
/-- THM.WARN.flow: W1C, Reset 0 (R372). -/
def fThmWarnFlow : Fld := ⟨rThmWarn, 2, 2⟩
/-- THM.WARN.outlet: W1C, Reset 0 (R372). -/
def fThmWarnOutlet : Fld := ⟨rThmWarn, 1, 1⟩
/-- THM.WARN.inlet: W1C, Reset 0 (R372). -/
def fThmWarnInlet : Fld := ⟨rThmWarn, 0, 0⟩
/-- The table of THM.WARN (R372). -/
def layThmWarn : List RegField := [⟨8, 8, .w1c, 0⟩, ⟨7, 7, .w1c, 0⟩, ⟨6, 6, .w1c, 0⟩, ⟨5, 5, .w1c, 0⟩, ⟨4, 4, .w1c, 0⟩, ⟨3, 3, .w1c, 0⟩, ⟨2, 2, .w1c, 0⟩, ⟨1, 1, .w1c, 0⟩, ⟨0, 0, .w1c, 0⟩]

/-- Offset of THM.CL (R372). -/
def rThmCl (n : Nat) : Nat := 0x00C00100 + n * 8
/-- THM.CL.forecast: RO, Reset 0 (R372). -/
def fThmClForecast (n : Nat) : Fld := ⟨rThmCl n, 63, 52⟩
/-- THM.CL.now: RO, Reset 0 (R372). -/
def fThmClNow (n : Nat) : Fld := ⟨rThmCl n, 51, 40⟩
/-- THM.CL.derate: RO, Reset 0 (R372). -/
def fThmClDerate (n : Nat) : Fld := ⟨rThmCl n, 36, 36⟩
/-- THM.CL.failed: RO, Reset 0 (R372). -/
def fThmClFailed (n : Nat) : Fld := ⟨rThmCl n, 35, 18⟩
/-- THM.CL.moves: RC, Reset 0 (R372). -/
def fThmClMoves (n : Nat) : Fld := ⟨rThmCl n, 15, 0⟩
/-- The table of THM.CL (R372). -/
def layThmCl : List RegField := [⟨63, 52, .ro, 0⟩, ⟨51, 40, .ro, 0⟩, ⟨36, 36, .ro, 0⟩, ⟨35, 18, .ro, 0⟩, ⟨15, 0, .rc, 0⟩]

/-- Offset of ERR.CTL (R403). -/
def rErrCtl : Nat := 0x00D00000
/-- ERR.CTL.domain: RW, Reset 0 (R403). -/
def fErrCtlDomain : Fld := ⟨rErrCtl, 63, 48⟩
/-- ERR.CTL.waves_rx: RC, Reset 0 (R403). -/
def fErrCtlWavesRx : Fld := ⟨rErrCtl, 47, 40⟩
/-- ERR.CTL.wave: W1S, Reset 0 (R403). -/
def fErrCtlWave : Fld := ⟨rErrCtl, 33, 33⟩
/-- ERR.CTL.host_set: RO, Reset 0 (R403). -/
def fErrCtlHostSet : Fld := ⟨rErrCtl, 2, 2⟩
/-- ERR.CTL.mode: RW, Reset 1 (R403). -/
def fErrCtlMode : Fld := ⟨rErrCtl, 1, 0⟩
/-- The table of ERR.CTL (R403). -/
def layErrCtl : List RegField := [⟨63, 48, .rwb, 0⟩, ⟨47, 40, .rc, 0⟩, ⟨33, 33, .w1s, 0⟩, ⟨2, 2, .ro, 0⟩, ⟨1, 0, .rwb, 1⟩]

/-- Offset of ERR.RING.BASE (R403). -/
def rErrRingBase : Nat := 0x00D00008
/-- ERR.RING.BASE.base: RW, Reset 0 (R403). -/
def fErrRingBaseBase : Fld := ⟨rErrRingBase, 63, 5⟩
/-- The table of ERR.RING.BASE (R403). -/
def layErrRingBase : List RegField := [⟨63, 5, .rw, 0⟩]

/-- Offset of ERR.RING.CFG (R403). -/
def rErrRingCfg : Nat := 0x00D00010
/-- ERR.RING.CFG.count: RW, Reset 0 (R403). -/
def fErrRingCfgCount : Fld := ⟨rErrRingCfg, 63, 56⟩
/-- ERR.RING.CFG.holdoff: RW, Reset 0 (R403). -/
def fErrRingCfgHoldoff : Fld := ⟨rErrRingCfg, 55, 48⟩
/-- ERR.RING.CFG.vector: RW, Reset 0 (R403). -/
def fErrRingCfgVector : Fld := ⟨rErrRingCfg, 40, 32⟩
/-- ERR.RING.CFG.enable: RW, Reset 0 (R403). -/
def fErrRingCfgEnable : Fld := ⟨rErrRingCfg, 31, 31⟩
/-- ERR.RING.CFG.irq: RW, Reset 0 (R403). -/
def fErrRingCfgIrq : Fld := ⟨rErrRingCfg, 30, 30⟩
/-- ERR.RING.CFG.log2size: RW, Reset 0 (R403). -/
def fErrRingCfgLog2size : Fld := ⟨rErrRingCfg, 20, 16⟩
/-- The table of ERR.RING.CFG (R403). -/
def layErrRingCfg : List RegField := [⟨63, 56, .rw, 0⟩, ⟨55, 48, .rw, 0⟩, ⟨40, 32, .rw, 0⟩, ⟨31, 31, .rwb, 0⟩, ⟨30, 30, .rw, 0⟩, ⟨20, 16, .rw, 0⟩]

/-- Offset of ERR.RING.STATE (R403). -/
def rErrRingState : Nat := 0x00D00018
/-- ERR.RING.STATE.result: RO, Reset 0 (R403). -/
def fErrRingStateResult : Fld := ⟨rErrRingState, 63, 56⟩
/-- ERR.RING.STATE.lost: RC, Reset 0 (R403). -/
def fErrRingStateLost : Fld := ⟨rErrRingState, 55, 48⟩
/-- ERR.RING.STATE.producer: RO, Reset 0 (R403). -/
def fErrRingStateProducer : Fld := ⟨rErrRingState, 47, 24⟩
/-- ERR.RING.STATE.head: RW, Reset 0 (R403). -/
def fErrRingStateHead : Fld := ⟨rErrRingState, 23, 0⟩
/-- The table of ERR.RING.STATE (R403). -/
def layErrRingState : List RegField := [⟨63, 56, .ro, 0⟩, ⟨55, 48, .rc, 0⟩, ⟨47, 24, .ro, 0⟩, ⟨23, 0, .rwb, 0⟩]

/-- Offset of ERR.COUNT (R403). -/
def rErrCount : Nat := 0x00D00020
/-- ERR.COUNT.fatal_module: RO, Reset from flash (R403). -/
def fErrCountFatalModule : Fld := ⟨rErrCount, 63, 56⟩
/-- ERR.COUNT.fatal_domain: RC, Reset 0 (R403). -/
def fErrCountFatalDomain : Fld := ⟨rErrCount, 55, 48⟩
/-- ERR.COUNT.deferred: RC, Reset 0 (R403). -/
def fErrCountDeferred : Fld := ⟨rErrCount, 47, 32⟩
/-- ERR.COUNT.corrected: RC, Reset 0 (R403). -/
def fErrCountCorrected : Fld := ⟨rErrCount, 31, 0⟩
/-- The table of ERR.COUNT (R403). -/
def layErrCount : List RegField := [⟨63, 56, .ro, 0⟩, ⟨55, 48, .rc, 0⟩, ⟨47, 32, .rc, 0⟩, ⟨31, 0, .rc, 0⟩]

/-- Offset of ERR.PMON (R403). -/
def rErrPmon : Nat := 0x00D00028
/-- ERR.PMON.action: RW, Reset 0 (R403). -/
def fErrPmonAction : Fld := ⟨rErrPmon, 16, 16⟩
/-- ERR.PMON.limit: RW, Reset 1,024 (R403). -/
def fErrPmonLimit : Fld := ⟨rErrPmon, 15, 0⟩
/-- The table of ERR.PMON (R403). -/
def layErrPmon : List RegField := [⟨16, 16, .rw, 0⟩, ⟨15, 0, .rw, 1024⟩]

/-- Offset of ERR.DLOG (R403). -/
def rErrDlog : Nat := 0x00D00030
/-- ERR.DLOG.entries: RO, Reset from flash (R403). -/
def fErrDlogEntries : Fld := ⟨rErrDlog, 47, 32⟩
/-- ERR.DLOG.index: RW, Reset 0 (R403). -/
def fErrDlogIndex : Fld := ⟨rErrDlog, 13, 0⟩
/-- The table of ERR.DLOG (R403). -/
def layErrDlog : List RegField := [⟨47, 32, .ro, 0⟩, ⟨13, 0, .rw, 0⟩]

/-- Offset of ERR.DLOGDATA0 (R403). -/
def rErrDlogdata0 : Nat := 0x00D00038
/-- ERR.DLOGDATA0.bytes: RO, Reset 0 (R403). -/
def fErrDlogdata0Bytes : Fld := ⟨rErrDlogdata0, 63, 0⟩
/-- The table of ERR.DLOGDATA0 (R403). -/
def layErrDlogdata0 : List RegField := [⟨63, 0, .ro, 0⟩]

/-- Offset of ERR.DLOGDATA1 (R403). -/
def rErrDlogdata1 : Nat := 0x00D00040
/-- ERR.DLOGDATA1.bytes: RO, Reset 0 (R403). -/
def fErrDlogdata1Bytes : Fld := ⟨rErrDlogdata1, 63, 0⟩
/-- The table of ERR.DLOGDATA1 (R403). -/
def layErrDlogdata1 : List RegField := [⟨63, 0, .ro, 0⟩]

/-- Offset of ERR.LEES (R403). -/
def rErrLees : Nat := 0x00D00048
/-- ERR.LEES.valid: RO, Reset 0 (R403). -/
def fErrLeesValid : Fld := ⟨rErrLees, 63, 60⟩
/-- ERR.LEES.partition: RW, Reset 0 (R403). -/
def fErrLeesPartition : Fld := ⟨rErrLees, 59, 58⟩
/-- ERR.LEES.seq: RO, Reset 0 (R403). -/
def fErrLeesSeq : Fld := ⟨rErrLees, 47, 16⟩
/-- ERR.LEES.code: RO, Reset 0 (R403). -/
def fErrLeesCode : Fld := ⟨rErrLees, 15, 0⟩
/-- The table of ERR.LEES (R403). -/
def layErrLees : List RegField := [⟨63, 60, .ro, 0⟩, ⟨59, 58, .rw, 0⟩, ⟨47, 16, .ro, 0⟩, ⟨15, 0, .ro, 0⟩]

/-- Offset of ERR.LEESCMD (R403). -/
def rErrLeescmd : Nat := 0x00D00050
/-- ERR.LEESCMD.result: RO, Reset 0 (R403). -/
def fErrLeescmdResult : Fld := ⟨rErrLeescmd, 63, 56⟩
/-- ERR.LEESCMD.busy: RO, Reset 0 (R403). -/
def fErrLeescmdBusy : Fld := ⟨rErrLeescmd, 55, 55⟩
/-- ERR.LEESCMD.go: W1S, Reset 0 (R403). -/
def fErrLeescmdGo : Fld := ⟨rErrLeescmd, 47, 47⟩
/-- ERR.LEESCMD.partition: RW, Reset 0 (R403). -/
def fErrLeescmdPartition : Fld := ⟨rErrLeescmd, 41, 40⟩
/-- ERR.LEESCMD.context: RW, Reset 0 (R403). -/
def fErrLeescmdContext : Fld := ⟨rErrLeescmd, 38, 32⟩
/-- ERR.LEESCMD.bytes: RO, Reset 0 (R403). -/
def fErrLeescmdBytes : Fld := ⟨rErrLeescmd, 22, 0⟩
/-- The table of ERR.LEESCMD (R403). -/
def layErrLeescmd : List RegField := [⟨63, 56, .ro, 0⟩, ⟨55, 55, .ro, 0⟩, ⟨47, 47, .w1s, 0⟩, ⟨41, 40, .rw, 0⟩, ⟨38, 32, .rw, 0⟩, ⟨22, 0, .ro, 0⟩]

/-- Offset of ERR.LEESVA (R403). -/
def rErrLeesva : Nat := 0x00D00058
/-- ERR.LEESVA.va: RW, Reset 0 (R403). -/
def fErrLeesvaVa : Fld := ⟨rErrLeesva, 63, 6⟩
/-- The table of ERR.LEESVA (R403). -/
def layErrLeesva : List RegField := [⟨63, 6, .rw, 0⟩]

/-- Offset of TST.CL (R404). -/
def rTstCl (n : Nat) : Nat := 0x00E00000 + n * 8
/-- TST.CL.oldest_s: RO, Reset 0 (R404). -/
def fTstClOldestS (n : Nat) : Fld := ⟨rTstCl n, 63, 48⟩
/-- TST.CL.passes: RC, Reset 0 (R404). -/
def fTstClPasses (n : Nat) : Fld := ⟨rTstCl n, 47, 40⟩
/-- TST.CL.transients: RC, Reset 0 (R404). -/
def fTstClTransients (n : Nat) : Fld := ⟨rTstCl n, 39, 32⟩
/-- TST.CL.unresolved: RO, Reset 0 (R404). -/
def fTstClUnresolved (n : Nat) : Fld := ⟨rTstCl n, 31, 24⟩
/-- TST.CL.overdue: RO, Reset 0 (R404). -/
def fTstClOverdue (n : Nat) : Fld := ⟨rTstCl n, 17, 17⟩
/-- TST.CL.running: RO, Reset 0 (R404). -/
def fTstClRunning (n : Nat) : Fld := ⟨rTstCl n, 16, 16⟩
/-- TST.CL.core: RO, Reset 0 (R404). -/
def fTstClCore (n : Nat) : Fld := ⟨rTstCl n, 12, 8⟩
/-- TST.CL.retired: RC, Reset 0 (R404). -/
def fTstClRetired (n : Nat) : Fld := ⟨rTstCl n, 7, 0⟩
/-- The table of TST.CL (R404). -/
def layTstCl : List RegField := [⟨63, 48, .ro, 0⟩, ⟨47, 40, .rc, 0⟩, ⟨39, 32, .rc, 0⟩, ⟨31, 24, .ro, 0⟩, ⟨17, 17, .ro, 0⟩, ⟨16, 16, .ro, 0⟩, ⟨12, 8, .ro, 0⟩, ⟨7, 0, .rc, 0⟩]

/-- Offset of TST.REQ (R433). -/
def rTstReq : Nat := 0x00E01000
/-- TST.REQ.status: RO, Reset 0 (R433). -/
def fTstReqStatus : Fld := ⟨rTstReq, 63, 56⟩
/-- TST.REQ.busy: RO, Reset 0 (R433). -/
def fTstReqBusy : Fld := ⟨rTstReq, 55, 55⟩
/-- TST.REQ.waiting: RO, Reset 0 (R433). -/
def fTstReqWaiting : Fld := ⟨rTstReq, 54, 54⟩
/-- TST.REQ.go: W1S, Reset 0 (R433). -/
def fTstReqGo : Fld := ⟨rTstReq, 47, 47⟩
/-- TST.REQ.cancel: W1S, Reset 0 (R433). -/
def fTstReqCancel : Fld := ⟨rTstReq, 46, 46⟩
/-- TST.REQ.defer: RW, Reset 0 (R433). -/
def fTstReqDefer : Fld := ⟨rTstReq, 40, 40⟩
/-- TST.REQ.op: RW, Reset 0 (R433). -/
def fTstReqOp : Fld := ⟨rTstReq, 35, 32⟩
/-- TST.REQ.target: RW, Reset 0 (R433). -/
def fTstReqTarget : Fld := ⟨rTstReq, 15, 0⟩
/-- The table of TST.REQ (R433). -/
def layTstReq : List RegField := [⟨63, 56, .ro, 0⟩, ⟨55, 55, .ro, 0⟩, ⟨54, 54, .ro, 0⟩, ⟨47, 47, .w1s, 0⟩, ⟨46, 46, .w1s, 0⟩, ⟨40, 40, .rw, 0⟩, ⟨35, 32, .rw, 0⟩, ⟨15, 0, .rw, 0⟩]

/-- Offset of DECANT.LO (R194). -/
def rDecantLo : Nat := 0x00F00000
/-- DECANT.LO.low: RP, Reset 0xFFFF_FFFE (R194). -/
def fDecantLoLow : Fld := ⟨rDecantLo, 31, 0⟩
/-- The table of DECANT.LO (R194). -/
def layDecantLo : List RegField := [⟨31, 0, .rp, 4294967294⟩]

/-- Offset of DECANT.HI (R194). -/
def rDecantHi : Nat := 0x00F00004
/-- DECANT.HI.high: RC, Reset 0 (R194). -/
def fDecantHiHigh : Fld := ⟨rDecantHi, 31, 0⟩
/-- The table of DECANT.HI (R194). -/
def layDecantHi : List RegField := [⟨31, 0, .rc, 0⟩]

/-- Offset of DECANT.LOST (R194). -/
def rDecantLost : Nat := 0x00F00008
/-- DECANT.LOST.lost: RC, Reset 0 (R194). -/
def fDecantLostLost : Fld := ⟨rDecantLost, 31, 0⟩
/-- The table of DECANT.LOST (R194). -/
def layDecantLost : List RegField := [⟨31, 0, .rc, 0⟩]

/-- Offset of DECANT.LEVEL (R194). -/
def rDecantLevel : Nat := 0x00F0000C
/-- DECANT.LEVEL.level: RO, Reset 0 (R194). -/
def fDecantLevelLevel : Fld := ⟨rDecantLevel, 8, 0⟩
/-- The table of DECANT.LEVEL (R194). -/
def layDecantLevel : List RegField := [⟨8, 0, .ro, 0⟩]

/-- Offset of DECANT.SPILL (R194). -/
def rDecantSpill : Nat := 0x00F00010
/-- DECANT.SPILL.spill: RC, Reset 0 (R194). -/
def fDecantSpillSpill : Fld := ⟨rDecantSpill, 31, 0⟩
/-- The table of DECANT.SPILL (R194). -/
def layDecantSpill : List RegField := [⟨31, 0, .rc, 0⟩]

/-- Offset of BRING.CTL (R431). -/
def rBringCtl : Nat := 0x00000000
/-- BRING.CTL.go: W1S, Reset 0 (R431). -/
def fBringCtlGo : Fld := ⟨rBringCtl, 47, 47⟩
/-- BRING.CTL.step: RW, Reset 0 (R431). -/
def fBringCtlStep : Fld := ⟨rBringCtl, 3, 0⟩
/-- The table of BRING.CTL (R431). -/
def layBringCtl : List RegField := [⟨47, 47, .w1s, 0⟩, ⟨3, 0, .rw, 0⟩]

/-- Offset of BRING.STATE (R431). -/
def rBringState : Nat := 0x00000008
/-- BRING.STATE.result: RO, Reset 0 (R431). -/
def fBringStateResult : Fld := ⟨rBringState, 63, 56⟩
/-- BRING.STATE.busy: RO, Reset 0 (R431). -/
def fBringStateBusy : Fld := ⟨rBringState, 55, 55⟩
/-- BRING.STATE.aux: RO, Reset 0 (R431). -/
def fBringStateAux : Fld := ⟨rBringState, 54, 53⟩
/-- BRING.STATE.step: RO, Reset 0 (R431). -/
def fBringStateStep : Fld := ⟨rBringState, 51, 48⟩
/-- BRING.STATE.done: RO, Reset 0 (R431). -/
def fBringStateDone : Fld := ⟨rBringState, 42, 32⟩
/-- The table of BRING.STATE (R431). -/
def layBringState : List RegField := [⟨63, 56, .ro, 0⟩, ⟨55, 55, .ro, 0⟩, ⟨54, 53, .ro, 0⟩, ⟨51, 48, .ro, 0⟩, ⟨42, 32, .ro, 0⟩]

/-- Offset of BRING.TIME (R431). -/
def rBringTime : Nat := 0x00000010
/-- BRING.TIME.step_ms: RO, Reset 0 (R431). -/
def fBringTimeStepMs : Fld := ⟨rBringTime, 63, 32⟩
/-- BRING.TIME.total_ms: RO, Reset 0 (R431). -/
def fBringTimeTotalMs : Fld := ⟨rBringTime, 31, 0⟩
/-- The table of BRING.TIME (R431). -/
def layBringTime : List RegField := [⟨63, 32, .ro, 0⟩, ⟨31, 0, .ro, 0⟩]

/-- Offset of BRING.DEFECTS (R431). -/
def rBringDefects : Nat := 0x00000018
/-- BRING.DEFECTS.down: RO, Reset 0 (R431). -/
def fBringDefectsDown : Fld := ⟨rBringDefects, 63, 60⟩
/-- BRING.DEFECTS.fuse_only: RO, Reset 0 (R431). -/
def fBringDefectsFuseOnly : Fld := ⟨rBringDefects, 47, 32⟩
/-- BRING.DEFECTS.test_only: RO, Reset 0 (R431). -/
def fBringDefectsTestOnly : Fld := ⟨rBringDefects, 31, 16⟩
/-- BRING.DEFECTS.unusable: RO, Reset 0 (R431). -/
def fBringDefectsUnusable : Fld := ⟨rBringDefects, 9, 0⟩
/-- The table of BRING.DEFECTS (R431). -/
def layBringDefects : List RegField := [⟨63, 60, .ro, 0⟩, ⟨47, 32, .ro, 0⟩, ⟨31, 16, .ro, 0⟩, ⟨9, 0, .ro, 0⟩]

/-- Offset of RST.CTL (R432). -/
def rRstCtl : Nat := 0x01000000
/-- RST.CTL.result: RO, Reset 0 (R432). -/
def fRstCtlResult : Fld := ⟨rRstCtl, 63, 56⟩
/-- RST.CTL.busy: RO, Reset 0 (R432). -/
def fRstCtlBusy : Fld := ⟨rRstCtl, 55, 55⟩
/-- RST.CTL.go: W1S, Reset 0 (R432). -/
def fRstCtlGo : Fld := ⟨rRstCtl, 47, 47⟩
/-- RST.CTL.op: RW, Reset 0 (R432). -/
def fRstCtlOp : Fld := ⟨rRstCtl, 42, 40⟩
/-- RST.CTL.hold: RW, Reset 0 (R432). -/
def fRstCtlHold : Fld := ⟨rRstCtl, 36, 36⟩
/-- RST.CTL.parts: RW, Reset 0 (R432). -/
def fRstCtlParts : Fld := ⟨rRstCtl, 35, 32⟩
/-- The table of RST.CTL (R432). -/
def layRstCtl : List RegField := [⟨63, 56, .ro, 0⟩, ⟨55, 55, .ro, 0⟩, ⟨47, 47, .w1s, 0⟩, ⟨42, 40, .rw, 0⟩, ⟨36, 36, .rw, 0⟩, ⟨35, 32, .rw, 0⟩]

/-- Offset of RST.CAUSE (R432). -/
def rRstCause : Nat := 0x01000008
/-- RST.CAUSE.boot: RO, Reset from flash (R432). -/
def fRstCauseBoot : Fld := ⟨rRstCause, 63, 32⟩
/-- RST.CAUSE.code: RO, Reset 0 (R432). -/
def fRstCauseCode : Fld := ⟨rRstCause, 31, 16⟩
/-- RST.CAUSE.cause: RO, Reset 0 (R432). -/
def fRstCauseCause : Fld := ⟨rRstCause, 7, 0⟩
/-- The table of RST.CAUSE (R432). -/
def layRstCause : List RegField := [⟨63, 32, .ro, 0⟩, ⟨31, 16, .ro, 0⟩, ⟨7, 0, .ro, 0⟩]

/-- Offset of RST.PART (R432). -/
def rRstPart (p : Nat) : Nat := 0x01000010 + p * 8
/-- RST.PART.last_us: RO, Reset 0 (R432). -/
def fRstPartLastUs (p : Nat) : Fld := ⟨rRstPart p, 63, 40⟩
/-- RST.PART.count: RC, Reset 0 (R432). -/
def fRstPartCount (p : Nat) : Fld := ⟨rRstPart p, 31, 16⟩
/-- RST.PART.cause: RO, Reset 0 (R432). -/
def fRstPartCause (p : Nat) : Fld := ⟨rRstPart p, 15, 8⟩
/-- RST.PART.held: RO, Reset 0 (R432). -/
def fRstPartHeld (p : Nat) : Fld := ⟨rRstPart p, 1, 1⟩
/-- RST.PART.resetting: RO, Reset 0 (R432). -/
def fRstPartResetting (p : Nat) : Fld := ⟨rRstPart p, 0, 0⟩
/-- The table of RST.PART (R432). -/
def layRstPart : List RegField := [⟨63, 40, .ro, 0⟩, ⟨31, 16, .rc, 0⟩, ⟨15, 8, .ro, 0⟩, ⟨1, 1, .ro, 0⟩, ⟨0, 0, .ro, 0⟩]

/-- Offset of SEC.STATE (R466). -/
def rSecState : Nat := 0x01100000
/-- SEC.STATE.presence_s: RO, Reset 0 (R466). -/
def fSecStatePresenceS : Fld := ⟨rSecState, 63, 56⟩
/-- SEC.STATE.refuse_port: RO, Reset 0 (R466). -/
def fSecStateRefusePort : Fld := ⟨rSecState, 47, 43⟩
/-- SEC.STATE.refuse_reason: RO, Reset 0 (R466). -/
def fSecStateRefuseReason : Fld := ⟨rSecState, 42, 40⟩
/-- SEC.STATE.rng_ok: RO, Reset 0 (R466). -/
def fSecStateRngOk : Fld := ⟨rSecState, 7, 7⟩
/-- SEC.STATE.seal_closed: RO, Reset 0 (R466). -/
def fSecStateSealClosed : Fld := ⟨rSecState, 6, 6⟩
/-- SEC.STATE.zeroised: RO, Reset from flash (R466). -/
def fSecStateZeroised : Fld := ⟨rSecState, 5, 5⟩
/-- SEC.STATE.debug: RO, Reset from flash (R466). -/
def fSecStateDebug : Fld := ⟨rSecState, 4, 4⟩
/-- SEC.STATE.debug_pending: RO, Reset from flash (R466). -/
def fSecStateDebugPending : Fld := ⟨rSecState, 3, 3⟩
/-- SEC.STATE.owner: RO, Reset from flash (R466). -/
def fSecStateOwner : Fld := ⟨rSecState, 2, 2⟩
/-- SEC.STATE.enroll_pending: RO, Reset from flash (R466). -/
def fSecStateEnrollPending : Fld := ⟨rSecState, 1, 1⟩
/-- SEC.STATE.presence: RO, Reset 0 (R466). -/
def fSecStatePresence : Fld := ⟨rSecState, 0, 0⟩
/-- The table of SEC.STATE (R466). -/
def laySecState : List RegField := [⟨63, 56, .ro, 0⟩, ⟨47, 43, .ro, 0⟩, ⟨42, 40, .ro, 0⟩, ⟨7, 7, .ro, 0⟩, ⟨6, 6, .ro, 0⟩, ⟨5, 5, .ro, 0⟩, ⟨4, 4, .ro, 0⟩, ⟨3, 3, .ro, 0⟩, ⟨2, 2, .ro, 0⟩, ⟨1, 1, .ro, 0⟩, ⟨0, 0, .ro, 0⟩]

/-- Offset of SEC.NONCE (R466). -/
def rSecNonce : Nat := 0x01100008
/-- SEC.NONCE.nonce: RO, Reset random (R466). -/
def fSecNonceNonce : Fld := ⟨rSecNonce, 63, 0⟩
/-- The table of SEC.NONCE (R466). -/
def laySecNonce : List RegField := [⟨63, 0, .ro, 0⟩]

/-- Offset of SEC.CMD (R466). -/
def rSecCmd : Nat := 0x01100010
/-- SEC.CMD.result: RO, Reset 0 (R466). -/
def fSecCmdResult : Fld := ⟨rSecCmd, 63, 56⟩
/-- SEC.CMD.busy: RO, Reset 0 (R466). -/
def fSecCmdBusy : Fld := ⟨rSecCmd, 55, 55⟩
/-- SEC.CMD.go: W1S, Reset 0 (R466). -/
def fSecCmdGo : Fld := ⟨rSecCmd, 47, 47⟩
/-- SEC.CMD.op: RO, Reset 0 (R466). -/
def fSecCmdOp : Fld := ⟨rSecCmd, 7, 0⟩
/-- The table of SEC.CMD (R466). -/
def laySecCmd : List RegField := [⟨63, 56, .ro, 0⟩, ⟨55, 55, .ro, 0⟩, ⟨47, 47, .w1s, 0⟩, ⟨7, 0, .ro, 0⟩]

/-- Offset of SEC.CMDADDR (R466). -/
def rSecCmdaddr : Nat := 0x01100018
/-- SEC.CMDADDR.addr: RW, Reset 0 (R466). -/
def fSecCmdaddrAddr : Fld := ⟨rSecCmdaddr, 63, 3⟩
/-- The table of SEC.CMDADDR (R466). -/
def laySecCmdaddr : List RegField := [⟨63, 3, .rw, 0⟩]

/-- Offset of SEC.OWNER (R466). -/
def rSecOwner : Nat := 0x01100020
/-- SEC.OWNER.key_id: RO, Reset from flash (R466). -/
def fSecOwnerKeyId : Fld := ⟨rSecOwner, 63, 0⟩
/-- The table of SEC.OWNER (R466). -/
def laySecOwner : List RegField := [⟨63, 0, .ro, 0⟩]

/-- Offset of SEC.SVN (R466). -/
def rSecSvn : Nat := 0x01100028
/-- SEC.SVN.fused_min: RO, Reset fuses (R466). -/
def fSecSvnFusedMin : Fld := ⟨rSecSvn, 63, 48⟩
/-- SEC.SVN.floor: RO, Reset from flash (R466). -/
def fSecSvnFloor : Fld := ⟨rSecSvn, 47, 32⟩
/-- SEC.SVN.running: RO, Reset from flash (R466). -/
def fSecSvnRunning : Fld := ⟨rSecSvn, 31, 16⟩
/-- SEC.SVN.staged: RO, Reset from flash (R466). -/
def fSecSvnStaged : Fld := ⟨rSecSvn, 15, 0⟩
/-- The table of SEC.SVN (R466). -/
def laySecSvn : List RegField := [⟨63, 48, .ro, 0⟩, ⟨47, 32, .ro, 0⟩, ⟨31, 16, .ro, 0⟩, ⟨15, 0, .ro, 0⟩]

/-- Offset of SEC.FW (R466). -/
def rSecFw : Nat := 0x01100030
/-- SEC.FW.running: RO, Reset from flash (R466). -/
def fSecFwRunning : Fld := ⟨rSecFw, 63, 32⟩
/-- SEC.FW.staged: RO, Reset from flash (R466). -/
def fSecFwStaged : Fld := ⟨rSecFw, 31, 0⟩
/-- The table of SEC.FW (R466). -/
def laySecFw : List RegField := [⟨63, 32, .ro, 0⟩, ⟨31, 0, .ro, 0⟩]

/-- Offset of SEC.PORTS (R466). -/
def rSecPorts : Nat := 0x01100038
/-- SEC.PORTS.ports: RO, Reset 0 (R466). -/
def fSecPortsPorts : Fld := ⟨rSecPorts, 63, 0⟩
/-- The table of SEC.PORTS (R466). -/
def laySecPorts : List RegField := [⟨63, 0, .ro, 0⟩]

/-- Offset of SEC.WIN0 (R466). -/
def rSecWin0 : Nat := 0x01100040
/-- SEC.WIN0.mask: RO, Reset from flash (R466). -/
def fSecWin0Mask : Fld := ⟨rSecWin0, 63, 0⟩
/-- The table of SEC.WIN0 (R466). -/
def laySecWin0 : List RegField := [⟨63, 0, .ro, 0⟩]

/-- Offset of SEC.WIN1 (R466). -/
def rSecWin1 : Nat := 0x01100048
/-- SEC.WIN1.mask: RO, Reset from flash (R466). -/
def fSecWin1Mask : Fld := ⟨rSecWin1, 63, 0⟩
/-- The table of SEC.WIN1 (R466). -/
def laySecWin1 : List RegField := [⟨63, 0, .ro, 0⟩]

/-- Offset of SEC.IDE (R466). -/
def rSecIde : Nat := 0x01100050
/-- SEC.IDE.require_ide: RO, Reset from flash (R466). -/
def fSecIdeRequireIde : Fld := ⟨rSecIde, 8, 8⟩
/-- SEC.IDE.state: RO, Reset 0 (R466). -/
def fSecIdeState : Fld := ⟨rSecIde, 1, 0⟩
/-- The table of SEC.IDE (R466). -/
def laySecIde : List RegField := [⟨8, 8, .ro, 0⟩, ⟨1, 0, .ro, 0⟩]

/-- Offset of SEC.FWSTATE (R466). -/
def rSecFwstate : Nat := 0x01100058
/-- SEC.FWSTATE.result: RO, Reset 0 (R466). -/
def fSecFwstateResult : Fld := ⟨rSecFwstate, 63, 56⟩
/-- SEC.FWSTATE.fallback: RO, Reset 0 (R466). -/
def fSecFwstateFallback : Fld := ⟨rSecFwstate, 7, 7⟩
/-- SEC.FWSTATE.mode: RO, Reset from flash (R466). -/
def fSecFwstateMode : Fld := ⟨rSecFwstate, 6, 6⟩
/-- SEC.FWSTATE.staged_state: RO, Reset from flash (R466). -/
def fSecFwstateStagedState : Fld := ⟨rSecFwstate, 5, 4⟩
/-- SEC.FWSTATE.active: RO, Reset from flash (R466). -/
def fSecFwstateActive : Fld := ⟨rSecFwstate, 0, 0⟩
/-- The table of SEC.FWSTATE (R466). -/
def laySecFwstate : List RegField := [⟨63, 56, .ro, 0⟩, ⟨7, 7, .ro, 0⟩, ⟨6, 6, .ro, 0⟩, ⟨5, 4, .ro, 0⟩, ⟨0, 0, .ro, 0⟩]

/-- Offset of SUP.STATE (R493). -/
def rSupState : Nat := 0x01200000
/-- SUP.STATE.restores: RC, Reset 0 (R493). -/
def fSupStateRestores : Fld := ⟨rSupState, 47, 40⟩
/-- SUP.STATE.dissents: RC, Reset 0 (R493). -/
def fSupStateDissents : Fld := ⟨rSupState, 39, 32⟩
/-- SUP.STATE.core2: RO, Reset 0 (R493). -/
def fSupStateCore2 : Fld := ⟨rSupState, 10, 9⟩
/-- SUP.STATE.core1: RO, Reset 0 (R493). -/
def fSupStateCore1 : Fld := ⟨rSupState, 8, 7⟩
/-- SUP.STATE.core0: RO, Reset 0 (R493). -/
def fSupStateCore0 : Fld := ⟨rSupState, 6, 5⟩
/-- SUP.STATE.condition: RO, Reset 0 (R493). -/
def fSupStateCondition : Fld := ⟨rSupState, 4, 3⟩
/-- SUP.STATE.mode: RO, Reset 0 (R493). -/
def fSupStateMode : Fld := ⟨rSupState, 0, 0⟩
/-- The table of SUP.STATE (R493). -/
def laySupState : List RegField := [⟨47, 40, .rc, 0⟩, ⟨39, 32, .rc, 0⟩, ⟨10, 9, .ro, 0⟩, ⟨8, 7, .ro, 0⟩, ⟨6, 5, .ro, 0⟩, ⟨4, 3, .ro, 0⟩, ⟨0, 0, .ro, 0⟩]

/-- Offset of MGT.LINK (R494). -/
def rMgtLink : Nat := 0x01300000
/-- MGT.LINK.downs: RC, Reset 0 (R494). -/
def fMgtLinkDowns : Fld := ⟨rMgtLink, 15, 8⟩
/-- MGT.LINK.key: RO, Reset 0 (R494). -/
def fMgtLinkKey : Fld := ⟨rMgtLink, 3, 3⟩
/-- MGT.LINK.fec: RO, Reset 0 (R494). -/
def fMgtLinkFec : Fld := ⟨rMgtLink, 2, 2⟩
/-- MGT.LINK.global: RO, Reset 0 (R494). -/
def fMgtLinkGlobal : Fld := ⟨rMgtLink, 1, 1⟩
/-- MGT.LINK.up: RO, Reset 0 (R494). -/
def fMgtLinkUp : Fld := ⟨rMgtLink, 0, 0⟩
/-- The table of MGT.LINK (R494). -/
def layMgtLink : List RegField := [⟨15, 8, .rc, 0⟩, ⟨3, 3, .ro, 0⟩, ⟨2, 2, .ro, 0⟩, ⟨1, 1, .ro, 0⟩, ⟨0, 0, .ro, 0⟩]

/-- Offset of MGT.ADDRHI (R494). -/
def rMgtAddrhi : Nat := 0x01300008
/-- MGT.ADDRHI.addr: RO, Reset 0 (R494). -/
def fMgtAddrhiAddr : Fld := ⟨rMgtAddrhi, 63, 0⟩
/-- The table of MGT.ADDRHI (R494). -/
def layMgtAddrhi : List RegField := [⟨63, 0, .ro, 0⟩]

/-- Offset of MGT.ADDRLO (R494). -/
def rMgtAddrlo : Nat := 0x01300010
/-- MGT.ADDRLO.addr: RO, Reset 0 (R494). -/
def fMgtAddrloAddr : Fld := ⟨rMgtAddrlo, 63, 0⟩
/-- The table of MGT.ADDRLO (R494). -/
def layMgtAddrlo : List RegField := [⟨63, 0, .ro, 0⟩]

/-- Offset of MGT.QUEUE (R494). -/
def rMgtQueue : Nat := 0x01300018
/-- MGT.QUEUE.bad: RC, Reset 0 (R494). -/
def fMgtQueueBad : Fld := ⟨rMgtQueue, 63, 48⟩
/-- MGT.QUEUE.dropped: RC, Reset 0 (R494). -/
def fMgtQueueDropped : Fld := ⟨rMgtQueue, 47, 32⟩
/-- MGT.QUEUE.queued: RO, Reset 0 (R494). -/
def fMgtQueueQueued : Fld := ⟨rMgtQueue, 10, 0⟩
/-- The table of MGT.QUEUE (R494). -/
def layMgtQueue : List RegField := [⟨63, 48, .rc, 0⟩, ⟨47, 32, .rc, 0⟩, ⟨10, 0, .ro, 0⟩]

/-- Offset of MGT.CTL (R494). -/
def rMgtCtl : Nat := 0x01300020
/-- MGT.CTL.locate_host: RW, Reset 0 (R494). -/
def fMgtCtlLocateHost : Fld := ⟨rMgtCtl, 16, 16⟩
/-- MGT.CTL.period: RO, Reset 1,000 (R494). -/
def fMgtCtlPeriod : Fld := ⟨rMgtCtl, 15, 0⟩
/-- The table of MGT.CTL (R494). -/
def layMgtCtl : List RegField := [⟨16, 16, .rwb, 0⟩, ⟨15, 0, .ro, 1000⟩]

/-- Offset of MGT.I3C (R494). -/
def rMgtI3c : Nat := 0x01300028
/-- MGT.I3C.eid: RO, Reset 0 (R494). -/
def fMgtI3cEid : Fld := ⟨rMgtI3c, 15, 8⟩
/-- MGT.I3C.dyn_addr: RO, Reset 0 (R494). -/
def fMgtI3cDynAddr : Fld := ⟨rMgtI3c, 6, 0⟩
/-- The table of MGT.I3C (R494). -/
def layMgtI3c : List RegField := [⟨15, 8, .ro, 0⟩, ⟨6, 0, .ro, 0⟩]

/-- The MSI-X table and pending-bit array (R4): 64-bit words kept as written. -/
def layMsix : List RegField := [⟨63, 0, .rw, 0⟩]

/-- Is `off` the offset of copy i of a register with copies `stride` apart, i < n? -/
def isCopy (off base stride n : Nat) : Bool := base ≤ off && off < base + n * stride && (off - base) % stride == 0

/-- Registers of the block at 0x00000000. -/
def layBlock00 (off : Nat) : Option (List RegField) :=
  if off == 0x00000000 then some layBringCtl
  else if off == 0x00000008 then some layBringState
  else if off == 0x00000010 then some layBringTime
  else if off == 0x00000018 then some layBringDefects
  else none

/-- Registers of the block at 0x00100000. -/
def layBlock01 (off : Nat) : Option (List RegField) :=
  if off == 0x00100000 then some layCuveeCap
  else if off == 0x00100008 then some layCuveeCtl
  else if off == 0x00100010 then some layCuveeData
  else if off == 0x00100018 then some layCuveeFill
  else if off == 0x00100020 then some layCuveeResult
  else if off == 0x00100028 then some layCuveeActive
  else if off == 0x00100030 then some layCuveeFloor
  else if off == 0x00100038 then some layCuveeStored
  else if isCopy off 0x00100040 0x8 6 then some layCuveeDigest
  else none

/-- Registers of the block at 0x00200000. -/
def layBlock02 (off : Nat) : Option (List RegField) :=
  if isCopy off 0x00200000 0x40 128 then some layCtxCtl
  else if isCopy off 0x00200008 0x40 128 then some layCtxQsync
  else if isCopy off 0x00200010 0x40 128 then some layCtxQpages
  else if isCopy off 0x00200018 0x40 128 then some layCtxUpages
  else if isCopy off 0x00200020 0x40 128 then some layCtxQgroups
  else if isCopy off 0x00200028 0x40 128 then some layCtxQbw
  else if off == 0x00202000 then some layCtxCap
  else if isCopy off 0x00202008 0x8 4 then some layCtxPart
  else none

/-- Registers of the block at 0x00300000. -/
def layBlock03 (off : Nat) : Option (List RegField) :=
  if off < 0x00320000 && isCopy (off % 0x400) 0x0 0x20 16 then some layQueCqBase
  else if off < 0x00320000 && isCopy (off % 0x400) 0x8 0x20 16 then some layQueCqCfg
  else if off < 0x00320000 && isCopy (off % 0x400) 0x10 0x20 16 then some layQueCqState
  else if off < 0x00320000 && isCopy (off % 0x400) 0x200 0x20 4 then some layQueXqBase
  else if off < 0x00320000 && isCopy (off % 0x400) 0x208 0x20 4 then some layQueXqCfg
  else if off < 0x00320000 && isCopy (off % 0x400) 0x210 0x20 4 then some layQueXqState
  else if off < 0x00320000 && isCopy (off % 0x400) 0x280 0x20 8 then some layQueRingBase
  else if off < 0x00320000 && isCopy (off % 0x400) 0x288 0x20 8 then some layQueRingCfg
  else if off < 0x00320000 && isCopy (off % 0x400) 0x290 0x20 8 then some layQueRingState
  else none

/-- Registers of the block at 0x00400000. -/
def layBlock04 (off : Nat) : Option (List RegField) :=
  if off == 0x00400000 then some laySyncCmd
  else if off == 0x00400008 then some laySyncValue
  else if off == 0x00400010 then some laySyncFire
  else none

/-- Registers of the block at 0x00500000. -/
def layBlock05 (off : Nat) : Option (List RegField) :=
  if isCopy off 0x00500000 0x20 32 then some layTaskClState
  else if isCopy off 0x00500008 0x20 32 then some layTaskClMaplo
  else if isCopy off 0x00500010 0x20 32 then some layTaskClMaphi
  else if isCopy off 0x00500018 0x20 32 then some layTaskClPool
  else if isCopy off 0x00500400 0x8 128 then some layTaskSeed
  else if off == 0x00500800 then some layTaskBindaddr
  else if off == 0x00500808 then some layTaskBindctl
  else if off == 0x00500810 then some layTaskBindcmd
  else none

/-- Registers of the block at 0x00600000. -/
def layBlock06 (off : Nat) : Option (List RegField) :=
  if isCopy off 0x00600000 0x40 12 then some layMemcStkState
  else if isCopy off 0x00600008 0x40 12 then some layMemcStkErr
  else if isCopy off 0x00600010 0x40 12 then some layMemcStkSpare
  else if isCopy off 0x00600018 0x40 12 then some layMemcStkDisturb
  else if isCopy off 0x00600020 0x40 12 then some layMemcStkLast
  else if off == 0x00600400 then some layMemcMap
  else if off == 0x00600408 then some layMemcScreen
  else if off == 0x00600410 then some layMemcScrub
  else none

/-- Registers of the block at 0x00700000. -/
def layBlock07 (off : Nat) : Option (List RegField) :=
  if off == 0x00700000 then some layZfHostwin
  else if off == 0x00700008 then some layZfMapva
  else if off == 0x00700010 then some layZfMappa
  else if off == 0x00700018 then some layZfMapcmd
  else if off == 0x00700020 then some layZfLookup
  else if off == 0x00700028 then some layZfTables
  else if isCopy off 0x00700400 0x8 128 then some layZfJob
  else none

/-- Registers of the block at 0x00800000. -/
def layBlock08 (off : Nat) : Option (List RegField) :=
  if isCopy off 0x00800000 0x40 32 then some layLnkPortState
  else if isCopy off 0x00800008 0x40 32 then some layLnkPortCable
  else if isCopy off 0x00800010 0x40 32 then some layLnkPortLanes
  else if isCopy off 0x00800018 0x40 32 then some layLnkPortErr
  else if isCopy off 0x00800800 0x8 16 then some layLnkOeStat
  else if off == 0x00800900 then some layLnkCtl
  else none

/-- Registers of the block at 0x00900000. -/
def layBlock09 (off : Nat) : Option (List RegField) :=
  if off == 0x00900000 then some layRteState
  else if off == 0x00900008 then some layRteTime
  else if off == 0x00900010 then some layRtePorts
  else if off == 0x00900018 then some layRteErr
  else if isCopy off 0x00900020 0x8 7 then some layRteGw
  else none

/-- Registers of the block at 0x00A00000. -/
def layBlock0A (off : Nat) : Option (List RegField) :=
  if off == 0x00A00000 then some layGrpCmd
  else if off == 0x00A00008 then some layGrpArg0
  else if off == 0x00A00010 then some layGrpArg1
  else if off == 0x00A00018 then some layGrpSlots
  else if isCopy off 0x00A10000 0x40 1024 then some layGrpGState
  else if isCopy off 0x00A10008 0x40 1024 then some layGrpGQbase
  else if isCopy off 0x00A10010 0x40 1024 then some layGrpGQcfg
  else if isCopy off 0x00A10018 0x40 1024 then some layGrpGQstate
  else if isCopy off 0x00A10020 0x40 1024 then some layGrpGStat
  else none

/-- Registers of the block at 0x00B00000. -/
def layBlock0B (off : Nat) : Option (List RegField) :=
  if off == 0x00B00000 then some layPwrFeed
  else if off == 0x00B00008 then some layPwrInput
  else if off == 0x00B00010 then some layPwrHost
  else if off == 0x00B00018 then some layPwrRack
  else if isCopy off 0x00B00020 0x8 4 then some layPwrDie
  else if isCopy off 0x00B00040 0x8 13 then some (layPwrRail ((off - 0x00B00040) / 8))
  else if isCopy off 0x00B000C0 0x8 4 then some layPwrPart
  else none

/-- Registers of the block at 0x00C00000. -/
def layBlock0C (off : Nat) : Option (List RegField) :=
  if off == 0x00C00000 then some layThmCool
  else if off == 0x00C00008 then some layThmLeak
  else if off == 0x00C00010 then some layThmWarn
  else if isCopy off 0x00C00100 0x8 32 then some layThmCl
  else none

/-- Registers of the block at 0x00D00000. -/
def layBlock0D (off : Nat) : Option (List RegField) :=
  if off == 0x00D00000 then some layErrCtl
  else if off == 0x00D00008 then some layErrRingBase
  else if off == 0x00D00010 then some layErrRingCfg
  else if off == 0x00D00018 then some layErrRingState
  else if off == 0x00D00020 then some layErrCount
  else if off == 0x00D00028 then some layErrPmon
  else if off == 0x00D00030 then some layErrDlog
  else if off == 0x00D00038 then some layErrDlogdata0
  else if off == 0x00D00040 then some layErrDlogdata1
  else if off == 0x00D00048 then some layErrLees
  else if off == 0x00D00050 then some layErrLeescmd
  else if off == 0x00D00058 then some layErrLeesva
  else none

/-- Registers of the block at 0x00E00000. -/
def layBlock0E (off : Nat) : Option (List RegField) :=
  if isCopy off 0x00E00000 0x8 32 then some layTstCl
  else if off == 0x00E01000 then some layTstReq
  else none

/-- Registers of the block at 0x00F00000. -/
def layBlock0F (off : Nat) : Option (List RegField) :=
  if off == 0x00F00000 then some layDecantLo
  else if off == 0x00F00004 then some layDecantHi
  else if off == 0x00F00008 then some layDecantLost
  else if off == 0x00F0000C then some layDecantLevel
  else if off == 0x00F00010 then some layDecantSpill
  else none

/-- Registers of the block at 0x01000000. -/
def layBlock10 (off : Nat) : Option (List RegField) :=
  if off == 0x01000000 then some layRstCtl
  else if off == 0x01000008 then some layRstCause
  else if isCopy off 0x01000010 0x8 4 then some layRstPart
  else none

/-- Registers of the block at 0x01100000. -/
def layBlock11 (off : Nat) : Option (List RegField) :=
  if off == 0x01100000 then some laySecState
  else if off == 0x01100008 then some laySecNonce
  else if off == 0x01100010 then some laySecCmd
  else if off == 0x01100018 then some laySecCmdaddr
  else if off == 0x01100020 then some laySecOwner
  else if off == 0x01100028 then some laySecSvn
  else if off == 0x01100030 then some laySecFw
  else if off == 0x01100038 then some laySecPorts
  else if off == 0x01100040 then some laySecWin0
  else if off == 0x01100048 then some laySecWin1
  else if off == 0x01100050 then some laySecIde
  else if off == 0x01100058 then some laySecFwstate
  else none

/-- Registers of the block at 0x01200000. -/
def layBlock12 (off : Nat) : Option (List RegField) :=
  if off == 0x01200000 then some laySupState
  else none

/-- Registers of the block at 0x01300000. -/
def layBlock13 (off : Nat) : Option (List RegField) :=
  if off == 0x01300000 then some layMgtLink
  else if off == 0x01300008 then some layMgtAddrhi
  else if off == 0x01300010 then some layMgtAddrlo
  else if off == 0x01300018 then some layMgtQueue
  else if off == 0x01300020 then some layMgtCtl
  else if off == 0x01300028 then some layMgtI3c
  else none

/-- The register table at a BAR0 offset; none where the offset is reserved (R4, R6). -/
def regLayout (off : Nat) : Option (List RegField) :=
  match off / 0x100000 with
  | 0x00 => layBlock00 off
  | 0x01 => layBlock01 off
  | 0x02 => layBlock02 off
  | 0x03 => layBlock03 off
  | 0x04 => layBlock04 off
  | 0x05 => layBlock05 off
  | 0x06 => layBlock06 off
  | 0x07 => layBlock07 off
  | 0x08 => layBlock08 off
  | 0x09 => layBlock09 off
  | 0x0A => layBlock0A off
  | 0x0B => layBlock0B off
  | 0x0C => layBlock0C off
  | 0x0D => layBlock0D off
  | 0x0E => layBlock0E off
  | 0x0F => layBlock0F off
  | 0x10 => layBlock10 off
  | 0x11 => layBlock11 off
  | 0x12 => layBlock12 off
  | 0x13 => layBlock13 off
  | 0x14 => if off < 0x01404000 && off % 8 == 0 then some layMsix else none
  | _ => none

/-- The value in a register's Reset column. -/
def layReset (l : List RegField) : Nat := l.foldl (fun a f => a + f.rst * 2 ^ f.lo) 0

/-- The value a register reads as when nothing has written it since reset (R10). -/
def regReset (off : Nat) : Word := BitVec.ofNat 64 (layReset ((regLayout off).getD []))

end Sys2Proof.Machine
end

