-- ==== Sys2Proof/Machine/Formats.lean ====
section
/-! DEFINITION. Element formats and exact numbers (R90–R93, R113, R115–R118, R122, R125–R127, R512). Every arithmetic
operation forms its exact value as a whole number times a power of two and rounds it once. -/

namespace Sys2Proof.Machine

/-- How a format spells special values. -/
inductive Special where
  | none | e4m3 | ieee
  deriving DecidableEq, Repr

/-- A floating-point format (R90). -/
structure Fmt where
  eb : Nat
  mb : Nat
  bias : Nat
  special : Special
  deriving DecidableEq, Repr

def fE2M1 : Fmt := ⟨2, 1, 1, .none⟩
def fE2M3 : Fmt := ⟨2, 3, 1, .none⟩
def fE3M2 : Fmt := ⟨3, 2, 3, .none⟩
def fE4M3 : Fmt := ⟨4, 3, 7, .e4m3⟩
def fE5M2 : Fmt := ⟨5, 2, 15, .ieee⟩
def fBF16 : Fmt := ⟨8, 7, 127, .ieee⟩
def fFP16 : Fmt := ⟨5, 10, 15, .ieee⟩
def fFP32 : Fmt := ⟨8, 23, 127, .ieee⟩

/-- An element format by its code (R139): a float, a two's-complement integer of so many bits, raw WF96 or reserved. -/
inductive Elem where
  | float (f : Fmt)
  | int (bits : Nat)
  | raw
  | reserved
  deriving DecidableEq, Repr

/-- The formats of R139. -/
def elemOf (code : Nat) : Elem :=
  match code with
  | 0 => .float fE2M1
  | 1 => .float fE2M3
  | 2 => .float fE3M2
  | 3 => .float fE4M3
  | 4 => .float fE5M2
  | 5 => .int 8
  | 6 => .float fBF16
  | 7 => .float fFP16
  | 8 => .float fFP32
  | 9 => .int 32
  | 10 => .raw
  | _ => .reserved

/-- Bits of an element of a format. -/
def Elem.bits : Elem → Nat
  | .float f => 1 + f.eb + f.mb
  | .int n => n
  | .raw => 128
  | .reserved => 0

/-- A value read from a format: a finite number ±m × 2^e (the sign kept on zero), an infinity or a NaN. -/
inductive Num where
  | fin (neg : Bool) (m : Nat) (e : Int)
  | inf (neg : Bool)
  | nan
  deriving DecidableEq, Repr

/-- A result's bits and the flags it sets: INVALID and OVERFLOW (R118). -/
structure Res where
  bits : Nat
  invalid : Bool := false
  overflow : Bool := false
  deriving DecidableEq, Repr

/-- Weight of the format's smallest subnormal. -/
def Fmt.qmin (f : Fmt) : Int := 1 - (f.bias : Int) - (f.mb : Int)

/-- Code of the largest finite magnitude (R90). -/
def Fmt.maxCode (f : Fmt) : Nat :=
  match f.special with
  | .none => 2 ^ (f.eb + f.mb) - 1
  | .e4m3 => 2 ^ (f.eb + f.mb) - 2
  | .ieee => (2 ^ f.eb - 1) * 2 ^ f.mb - 1

/-- The canonical NaN (R113). -/
def Fmt.nan (f : Fmt) : Nat :=
  match f.special with
  | .ieee => (2 ^ f.eb - 1) * 2 ^ f.mb + 2 ^ (f.mb - 1)
  | _ => 2 ^ (f.eb + f.mb) - 1

/-- The sign bit, when set. -/
def Fmt.sign (f : Fmt) (neg : Bool) : Nat := if neg then 2 ^ (f.eb + f.mb) else 0

/-- An infinity of an IEEE-style format. -/
def Fmt.inf (f : Fmt) (neg : Bool) : Nat := f.sign neg + (2 ^ f.eb - 1) * 2 ^ f.mb

/-- The value of an encoding (R90, R91: subnormals keep their exact values). -/
def Fmt.decode (f : Fmt) (v : Nat) : Num :=
  let man := v % 2 ^ f.mb
  let ex := v / 2 ^ f.mb % 2 ^ f.eb
  let neg := v / 2 ^ (f.eb + f.mb) % 2 == 1
  if f.special = .ieee ∧ ex = 2 ^ f.eb - 1 then (if man = 0 then .inf neg else .nan)
  else if f.special = .e4m3 ∧ ex = 2 ^ f.eb - 1 ∧ man = 2 ^ f.mb - 1 then .nan
  else if ex = 0 then .fin neg man f.qmin
  else .fin neg (man + 2 ^ f.mb) (f.qmin + (ex - 1 : Nat))

/-- Two's-complement value of the low `n` bits. -/
def signed (n v : Nat) : Int := let w := v % 2 ^ n; if w < 2 ^ (n - 1) then (w : Int) else (w : Int) - 2 ^ n

/-- The low `n` bits of an integer in two's complement. -/
def toBits (n : Nat) (v : Int) : Nat := (v % (2 ^ n : Int)).toNat

/-- The value of an element's bits. -/
def Elem.decode (f : Elem) (v : Nat) : Num :=
  match f with
  | .float f => f.decode v
  | .int n => let x := signed n v; .fin (decide (x < 0)) x.natAbs 0
  | _ => .nan

/-- Bit length of a number. -/
def bitLen (m : Nat) : Nat := if m = 0 then 0 else m.log2 + 1

/-- m × 2^e rounded down to a whole number, and whether anything was lost. -/
def scaleDown (m : Nat) (e : Int) : Nat := if 0 ≤ e then m * 2 ^ e.toNat else m / 2 ^ (-e).toNat

/-- m × 2^e rounded to a whole number, to nearest with ties to even. -/
def scaleNear (m : Nat) (e : Int) : Nat :=
  if 0 ≤ e then m * 2 ^ e.toNat
  else
    let d := 2 ^ (-e).toNat
    let q := m / d
    let r := m % d
    if 2 * r > d ∨ (2 * r = d ∧ q % 2 = 1) then q + 1 else q

/-- Weight of the last place that the format gives a magnitude m × 2^e. -/
def Fmt.quantum (f : Fmt) (m : Nat) (e : Int) : Int := max f.qmin (e + (bitLen m : Int) - 1 - (f.mb : Int))

/-- Code of a magnitude n × 2^q with the exponent unbounded. -/
def Fmt.codeOf (f : Fmt) (n : Nat) (q : Int) : Nat := (q - f.qmin).toNat * 2 ^ f.mb + n

/-- A magnitude rounded to nearest even, as a code with the exponent unbounded (R115). -/
def Fmt.roundMag (f : Fmt) (m : Nat) (e : Int) : Nat :=
  if m = 0 then 0 else let q := f.quantum m e; f.codeOf (scaleNear m (e - q)) q

/-- What a magnitude beyond the range becomes, with its flags: saturation, or infinity, or the NaN of E4M3 (R116). -/
def Fmt.beyond (f : Fmt) (neg sat : Bool) : Res :=
  if sat ∨ f.special = .none then ⟨f.sign neg + f.maxCode, false, true⟩
  else if f.special = .e4m3 then ⟨f.nan, false, true⟩
  else ⟨f.inf neg, false, true⟩

/-- A finite value rounded once to nearest even into a format (R115, R116). -/
def Fmt.encodeFin (f : Fmt) (sat neg : Bool) (m : Nat) (e : Int) : Res :=
  let c := f.roundMag m e
  if c > f.maxCode then f.beyond neg sat else ⟨f.sign neg + c, false, false⟩

/-- A conversion of any value to a float format, rounding to nearest (R125, R512). -/
def Fmt.convert (f : Fmt) (sat : Bool) : Num → Res
  | .nan => if f.special = .none then ⟨0, true, false⟩ else ⟨f.nan, false, false⟩
  | .inf neg =>
    if f.special = .none ∨ (f.eb + f.mb = 7 ∧ sat) then ⟨f.sign neg + f.maxCode, false, true⟩
    else if f.special = .e4m3 then ⟨f.nan, false, true⟩
    else ⟨f.inf neg, false, false⟩
  | .fin neg m e => f.encodeFin (sat && f.eb + f.mb == 7) neg m e

/-- The random word of R122. -/
def srng (seed : Word) (task index : Nat) : Word :=
  let mixOnce (x : Word) : Word :=
    let a := (x ^^^ x >>> 31) * 0xE6D10B4F3A97C263#64
    a ^^^ a >>> 29
  let x := seed ^^^ (BitVec.ofNat 64 task * 0xC3A56B19E47D2F0B#64) ^^^ (BitVec.ofNat 64 index * 0x9F2E51C7A0B36D45#64)
  mixOnce (mixOnce (mixOnce x))

/-- Stochastic rounding of a finite value with the low 32 bits of a random word (R122, R512). -/
def Fmt.sround (f : Fmt) (r : Word) (neg : Bool) (m : Nat) (e : Int) : Res :=
  if m = 0 then ⟨f.sign neg, false, false⟩
  else
    let q := f.quantum m e
    let lo := scaleDown m (e - q)
    let frac := scaleDown m (e - q + 32) - lo * 2 ^ 32
    let exactly := decide (q ≤ e ∨ m % 2 ^ (q - e).toNat = 0)
    let c := f.codeOf lo q
    if c > f.maxCode ∨ (c = f.maxCode ∧ !exactly) then ⟨f.sign neg + f.maxCode, false, true⟩
    else if exactly then ⟨f.sign neg + c, false, false⟩
    else ⟨f.sign neg + (if frac + r.toNat % 2 ^ 32 ≥ 2 ^ 32 then c + 1 else c), false, false⟩

/-- A conversion with stochastic rounding (R512). -/
def Fmt.convertSr (f : Fmt) (r : Word) : Num → Res
  | .fin neg m e => f.sround r neg m e
  | x => f.convert true x

/-- A conversion to a two's-complement integer of n bits (R125, R512). -/
def convertInt (n : Nat) : Num → Res
  | .nan => ⟨0, true, false⟩
  | .inf neg => ⟨if neg then 2 ^ (n - 1) else 2 ^ (n - 1) - 1, false, true⟩
  | .fin neg m e =>
    let k := scaleNear m e
    if neg then (if k > 2 ^ (n - 1) then ⟨2 ^ (n - 1), false, true⟩ else ⟨toBits n (-(k : Int)), false, false⟩)
    else (if k > 2 ^ (n - 1) - 1 then ⟨2 ^ (n - 1) - 1, false, true⟩ else ⟨k, false, false⟩)

/-- A conversion of any value to an element format; `sat` concerns FP8 only, `sr` FP8, FP6 and FP4 (R146, R512). -/
def Elem.convert (f : Elem) (sat sr : Bool) (r : Word) (x : Num) : Res :=
  match f with
  | .float g => if sr ∧ g.eb + g.mb ≤ 7 then g.convertSr r x else g.convert sat x
  | .int n => convertInt n x
  | _ => ⟨0, false, false⟩

/-- The signed whole number of a finite value at the weight 2^e', which must not lie above its own. -/
def atWeight (neg : Bool) (m : Nat) (e e' : Int) : Int :=
  let k : Int := (m * 2 ^ (e - e').toNat : Nat)
  if neg then -k else k

/-- A signed sum s × 2^e as an FP32 result; an exact zero takes the sign given. -/
def sumRes (zeroNeg : Bool) (s e : Int) : Res :=
  if s = 0 then ⟨fFP32.sign zeroNeg, false, false⟩ else fFP32.encodeFin false (decide (s < 0)) s.natAbs e

/-- The canonical NaN of FP32, INVALID set or not. -/
def qNaN (invalid : Bool) : Res := ⟨fFP32.nan, invalid, false⟩

/-- FP32 addition (R125). -/
def fadd (a b : Num) : Res :=
  match a, b with
  | .nan, _ => qNaN false
  | _, .nan => qNaN false
  | .inf x, .inf y => if x = y then ⟨fFP32.inf x, false, false⟩ else qNaN true
  | .inf x, _ => ⟨fFP32.inf x, false, false⟩
  | _, .inf y => ⟨fFP32.inf y, false, false⟩
  | .fin x m e, .fin y n g =>
    let w := min e g
    sumRes (x && y) (atWeight x m e w + atWeight y n g w) w

/-- A value with its sign turned. -/
def Num.negate : Num → Num
  | .fin x m e => .fin (!x) m e
  | .inf x => .inf (!x)
  | .nan => .nan

/-- An exact product (R111, R125). DESIGN CHOICE (log entry 85): R111 does not name the product of two infinities; it is an infinity of the
product's sign, as in IEEE 754. -/
def Num.mul : Num → Num → Num
  | .nan, _ => .nan
  | _, .nan => .nan
  | .inf x, .inf y => .inf (x != y)
  | .inf x, .fin y n _ => if n = 0 then .nan else .inf (x != y)
  | .fin x m _, .inf y => if m = 0 then .nan else .inf (x != y)
  | .fin x m e, .fin y n g => .fin (x != y) (m * n) (e + g)

/-- Is a value a NaN? -/
def Num.isNaN : Num → Bool
  | .nan => true
  | _ => false

/-- FP32 multiplication (R125). -/
def fmul (a b : Num) : Res :=
  match a.mul b with
  | .nan => qNaN (!(a.isNaN || b.isNaN))
  | .inf x => ⟨fFP32.inf x, false, false⟩
  | .fin x m e => fFP32.encodeFin false x m e

/-- a × b + c with one rounding (R125). -/
def ffma (a b c : Num) : Res :=
  match a.mul b with
  | .nan => qNaN (!(a.isNaN || b.isNaN || c.isNaN))
  | p => fadd p c

/-- FP32 division, correctly rounded (R125): the quotient to 40 bits and a sticky bit below them. -/
def fdiv (a b : Num) : Res :=
  match a, b with
  | .nan, _ => qNaN false
  | _, .nan => qNaN false
  | .inf _, .inf _ => qNaN true
  | .inf x, .fin y _ _ => ⟨fFP32.inf (x != y), false, false⟩
  | .fin x _ _, .inf y => ⟨fFP32.sign (x != y), false, false⟩
  | .fin x m e, .fin y n g =>
    if n = 0 then (if m = 0 then qNaN true else ⟨fFP32.inf (x != y), false, false⟩)
    else if m = 0 then ⟨fFP32.sign (x != y), false, false⟩
    else
      let k := bitLen n + 40
      let q := m * 2 ^ k / n
      let sticky := if m * 2 ^ k % n = 0 then 0 else 1
      fFP32.encodeFin false (x != y) (2 * q + sticky) (e - g - (k : Int) - 1)

/-- Integer square root, one bit at a time from bit `f`. -/
def isqrtFrom : Nat → Nat → Nat → Nat
  | 0, _, r => r
  | f + 1, m, r => let c := r + 2 ^ f; isqrtFrom f m (if c * c ≤ m then c else r)

/-- FP32 square root, correctly rounded (R125). -/
def fsqrt (a : Num) : Res :=
  match a with
  | .nan => qNaN false
  | .inf x => if x then qNaN true else ⟨fFP32.inf false, false, false⟩
  | .fin x m e =>
    if m = 0 then ⟨fFP32.sign x, false, false⟩
    else if x then qNaN true
    else
      let odd := (e % 2).toNat
      let mm := m * 2 ^ (80 + odd)
      let r := isqrtFrom (bitLen mm / 2 + 1) mm 0
      let sticky := if r * r = mm then 0 else 1
      fFP32.encodeFin false false (2 * r + sticky) ((e - 80 - (odd : Int)) / 2 - 1)

/-- Is a below b, with −0 below +0? NaNs are the caller's concern. -/
def Num.below (a b : Num) : Bool :=
  match a, b with
  | .inf true, .inf true => false
  | .inf true, _ => true
  | .inf false, _ => false
  | _, .inf y => !y
  | .fin x m e, .fin y n g =>
    if m = 0 ∧ n = 0 then x && !y
    else let w := min e g; decide (atWeight x m e w < atWeight y n g w)
  | _, _ => false

/-- IEEE 754-2019 maximum or minimum of FP32 bits (R146). -/
def fmaxmin (wantMax : Bool) (a b : Nat) : Res :=
  let x := fFP32.decode a
  let y := fFP32.decode b
  if x.isNaN || y.isNaN then qNaN false
  else if x.below y = wantMax then ⟨b % 2 ^ 32, false, false⟩ else ⟨a % 2 ^ 32, false, false⟩

/-! ### The transcendental units (R126)

The manual bounds a result in last places and leaves its bits to tables that it does not print. A result here is a free value that keeps the
bound. What it is measured against is computed with 256 bits after the point (log entry 3). -/

/-- ln 2 in units of 2^-256. -/
def ln2Ref : Nat := 0xb17217f7d1cf79abc9e3b39803f2f6af40f343267298b62d8a0d175b8baafa2b

/-- Terms of the series of exp at r × 2^-256: `t` is the k-th. -/
def expTerms : Nat → Nat → Nat → Nat → Nat
  | 0, _, _, _ => 0
  | n + 1, k, t, r => t + expTerms n (k + 1) (t * r / 2 ^ 256 / k) r

/-- exp(x × 2^-256) in units of 2^-256: 2^k times the exp of what k × ln 2 leaves; beyond ±128 a value far above the range, or zero. -/
def expRef (x : Int) : Int :=
  if 128 * 2 ^ 256 ≤ x then 2 ^ 400 else if x ≤ -(128 * 2 ^ 256) then 0
  else scaleDown (expTerms 64 1 (2 ^ 256) (x % ln2Ref).toNat) (x / ln2Ref)

/-- Terms of the series of artanh: `t` is the k-th power of z, k odd. -/
def artanhTerms : Nat → Nat → Nat → Nat → Nat
  | 0, _, _, _ => 0
  | n + 1, k, t, z2 => t / k + artanhTerms n (k + 2) (t * z2 / 2 ^ 256) z2

/-- ln(m × 2^e) in units of 2^-256: k × ln 2 and the logarithm of the mantissa y in [1, 2), twice the artanh of (y − 1)/(y + 1). -/
def logRef (m : Nat) (e : Int) : Int :=
  let k := e + (bitLen m : Int) - 1
  let y := m * 2 ^ 256 / 2 ^ (bitLen m - 1)
  let z := (y - 2 ^ 256) * 2 ^ 256 / (y + 2 ^ 256)
  k * ln2Ref + 2 * (artanhTerms 90 1 z (z * z / 2 ^ 256) : Nat)

/-- 1/√(m × 2^e) in units of 2^-256. -/
def rsqrtRef (m : Nat) (e : Int) : Int :=
  let w := scaleDown 1 (512 - e) / m
  isqrtFrom (bitLen w / 2 + 1) w 0

/-- tanh of a magnitude x × 2^-256. -/
def tanhRef (x : Int) : Int := let w := expRef (2 * x); (w - 2 ^ 256) * 2 ^ 256 / (w + 2 ^ 256)

/-- The logistic function of x × 2^-256. -/
def sigRef (x : Int) : Int :=
  if x < 0 then expRef x * 2 ^ 256 / (2 ^ 256 + expRef x) else 2 ^ 512 / (2 ^ 256 + expRef (-x))

/-- FP32's last place at a magnitude, in units of 2^-256. -/
def lastPlace (a : Nat) : Nat := 2 ^ (max (bitLen a) 131 - 24)

/-- A result of R126 in units of 2^-256, given a free value: that value where it lies within n last places of the true result, else the
true result rounded. A result beyond the range is +Inf and sets OVERFLOW. -/
def withinPlaces (n : Nat) (a : Int) (free : BitVec 32) : Res :=
  let u := n * lastPlace a.natAbs
  let near := sumRes false a (-256)
  match fFP32.decode free.toNat with
  | .fin neg m e => if (atWeight neg m e (-256) - a).natAbs ≤ u then ⟨free.toNat, false, false⟩ else near
  | .inf neg => if !neg && decide (a + u > (2 ^ 24 - 1) * 2 ^ 360) then ⟨free.toNat, false, true⟩ else near
  | .nan => near

/-- exp (R126): an overflow gives +Inf and sets OVERFLOW. -/
def fexp (v : BitVec 32) : Res :=
  match fFP32.decode v.toNat with
  | .nan => qNaN false
  | .inf neg => if neg then ⟨0, false, false⟩ else ⟨fFP32.inf false, false, false⟩
  | .fin neg m e => withinPlaces 2 (expRef (atWeight neg m e (-256))) (Config.transcendental 0 v)

/-- log (R126). -/
def flog (v : BitVec 32) : Res :=
  match fFP32.decode v.toNat with
  | .nan => qNaN false
  | .inf neg => if neg then qNaN true else ⟨fFP32.inf false, false, false⟩
  | .fin neg m e =>
    if m = 0 then ⟨fFP32.inf true, false, false⟩ else if neg then qNaN true
    else withinPlaces 2 (logRef m e) (Config.transcendental 1 v)

/-- rsqrt (R126). -/
def frsqrt (v : BitVec 32) : Res :=
  match fFP32.decode v.toNat with
  | .nan => qNaN false
  | .inf neg => if neg then qNaN true else ⟨0, false, false⟩
  | .fin neg m e =>
    if m = 0 then ⟨fFP32.inf neg, false, false⟩ else if neg then qNaN true
    else withinPlaces 1 (rsqrtRef m e) (Config.transcendental 2 v)

/-- tanh (R126). -/
def ftanh (v : BitVec 32) : Res :=
  match fFP32.decode v.toNat with
  | .nan => qNaN false
  | .inf neg => ⟨fFP32.sign neg + 0x3F800000, false, false⟩
  | .fin neg m e =>
    if m = 0 then ⟨fFP32.sign neg, false, false⟩
    else if !(Num.fin false (10 * m) e).below (.fin false 91 0) then
      ⟨fFP32.sign neg + 0x3F800000, false, false⟩
    else
      let a := tanhRef (atWeight false m e (-256))
      withinPlaces 2 (if neg then -a else a) (Config.transcendental 3 v)

/-- sigmoid (R126). -/
def fsig (v : BitVec 32) : Res :=
  match fFP32.decode v.toNat with
  | .nan => qNaN false
  | .inf neg => ⟨if neg then 0 else 0x3F800000, false, false⟩
  | .fin neg m e => withinPlaces 2 (sigRef (atWeight neg m e (-256))) (Config.transcendental 4 v)

end Sys2Proof.Machine
end

