-- ==== Sys2Proof/Machine/Window.lean ====
section
/-! DEFINITION. The window format WF96 and accumulation chains (R92–R124): anchors, entry, exact totals, ordered mode,
raw records and the finish. -/

namespace Sys2Proof.Machine

/-- A raw WF96 record (R119): value n, anchor E and the flags nan, pinf, ninf in bits 0–2. -/
structure Rec96 where
  n : Int
  e : Int
  flags : Nat
  deriving DecidableEq, Repr

/-- The 16 bytes of a record (R119). -/
def Rec96.bytes (r : Rec96) : List Byte :=
  leBytes 12 (toBits 96 r.n) ++ leBytes 2 (toBits 16 r.e) ++ leBytes 1 r.flags ++ [0#8]

/-- The record that 16 bytes spell. -/
def Rec96.read (b : List Byte) : Rec96 := ⟨signed 96 (field b 0 12), signed 16 (field b 12 2), field b 14 1 % 8⟩

/-- Are 16 bytes a raw WF96 record (R119)? -/
def Rec96.isRaw (b : List Byte) : Bool :=
  decide (field b 14 1 < 8) && field b 15 1 == 0 && decide (-2048 ≤ signed 16 (field b 12 2) ∧ signed 16 (field b 12 2) ≤ 2047)

/-- Is a whole number of window units inside the window (R99)? -/
def inWindow (n : Int) : Bool := decide (-(2 ^ 95 : Int) ≤ n ∧ n < 2 ^ 95)

/-- Has a rounded entry left the window (R100): a magnitude at or above the bound? -/
def leftAtEntry (n : Int) : Bool := decide ((2 ^ 95 : Int) ≤ n.natAbs)

/-- A finite value rounded to a multiple of the window's last place (R100). -/
def enterWindow (anchor : Int) (neg : Bool) (m : Nat) (e : Int) : Int :=
  let k : Int := (scaleNear m (e - (anchor - 64)) : Nat)
  if neg then -k else k

/-- Operand family of a format code (R92): FP4, FP6, FP8, INT8, BF16 or FP16; none for any other code. -/
def familyOf (code : Nat) : Option Nat :=
  match code with
  | 0 => some 0
  | 1 => some 1
  | 2 => some 1
  | 3 => some 2
  | 4 => some 2
  | 5 => some 3
  | 6 => some 4
  | 7 => some 5
  | _ => none

/-- One logged tile instruction (R98): formats, form, reduction steps and the captured addresses and strides. -/
structure Tmma where
  fa : Nat
  fb : Nat
  mx : Bool
  sparse : Bool
  k : Nat
  aAddr : Word
  aStride : Word
  bAddr : Word
  bStride : Word
  scaleA : Nat
  scaleB : Nat
  posA : Nat
  deriving DecidableEq, Repr

/-- A chain (R95): shape, mode, declared depth, anchor once fixed, loaded records in row order, logged instructions. -/
structure Chain where
  m : Nat
  n : Nat
  mode : Nat
  depth : Nat
  anchor : Option Int
  loaded : List Rec96
  ops : List Tmma
  deriving DecidableEq, Repr

/-- What a TFIN names (R144): the output rows and the conversion; `ordered` when the chain runs in ordered mode from
its start (R107). -/
structure Finish where
  chain : Chain
  oAddr : Word
  oStride : Word
  ofmt : Nat
  sat : Bool
  sr : Bool
  ftz : Bool
  index : Word
  ordered : Bool
  bundle : Nat
  deriving DecidableEq, Repr

/-- Bytes of `k` packed elements (R139). -/
def packedBytes (code k : Nat) : Nat := ((elemOf code).bits * k + 7) / 8

/-- Element j of a packed row (R139). -/
def elemAt (rd : Nat → Byte) (code : Nat) (row : Word) (j : Nat) : Nat :=
  let w := (elemOf code).bits
  let bit := w * j
  let b (i : Nat) : Nat := (rd (row + BitVec.ofNat 64 (bit / 8 + i)).toNat).toNat
  (b 0 + 256 * b 1) / 2 ^ (bit % 8) % 2 ^ w

/-- Address of row i of an operand: the captured address with index 0 replaced by i (R138). -/
def rowAddr (base stride : Word) (i : Nat) : Word := base + stride * BitVec.ofNat 64 i

/-- The 2-bit positions of group g of row i (R123, R139). -/
def positions (rd : Nat → Byte) (t : Tmma) (i g : Nat) : Nat × Nat :=
  let nib := i * (t.k / 4) + g
  let v := (rd (t.posA + nib / 2)).toNat / 16 ^ (nib % 2) % 16
  (v % 4, v / 4)

/-- Element x of A in row i at reduction index j; none in a place that 2:4 sparsity omits (R123, R124). -/
def aElem (rd : Nat → Byte) (t : Tmma) (i j : Nat) : Option Num :=
  let row := rowAddr t.aAddr t.aStride i
  if t.sparse then
    let p := positions rd t i (j / 4)
    if j % 4 = p.1 then some ((elemOf t.fa).decode (elemAt rd t.fa row (2 * (j / 4))))
    else if j % 4 = p.2 then some ((elemOf t.fa).decode (elemAt rd t.fa row (2 * (j / 4) + 1)))
    else none
  else some ((elemOf t.fa).decode (elemAt rd t.fa row j))

/-- Element of B: row j' of B gives column j' of the block. -/
def bElem (rd : Nat → Byte) (t : Tmma) (col j : Nat) : Num :=
  (elemOf t.fb).decode (elemAt rd t.fb (rowAddr t.bAddr t.bStride col) j)

/-- Scale byte of block b of a row (R93, R139). -/
def scaleAt (rd : Nat → Byte) (base k row b : Nat) : Nat := (rd (base + row * (k / 32) + b)).toNat

/-- One term a × b with its MX scale applied exactly; `some nan` also for a block whose scale is NaN (R94, R111). -/
def termAt (rd : Nat → Byte) (t : Tmma) (i col j : Nat) : Option (Num × Bool) :=
  match aElem rd t i j with
  | none => none
  | some a =>
    let b := bElem rd t col j
    let fresh := (a.mul b).isNaN && !(a.isNaN || b.isNaN)
    if t.mx then
      let sa := scaleAt rd t.scaleA t.k i (j / 32)
      let sb := scaleAt rd t.scaleB t.k col (j / 32)
      if sa = 0xFF ∨ sb = 0xFF then some (.nan, false)
      else match a.mul b with
        | .fin x m e => some (.fin x m (e + (sa : Int) + (sb : Int) - 254), false)
        | p => some (p, fresh)
    else some (a.mul b, fresh)

/-- What an output element has gathered: window total, special flags, whether a 0 × Inf set nan, whether an entry left
the window. -/
structure Gather where
  total : Int
  flags : Nat
  fresh : Bool
  left : Bool
  deriving DecidableEq, Repr

/-- One special product sets its flag (R111). -/
def flagOf : Num → Nat
  | .nan => 1
  | .inf neg => if neg then 4 else 2
  | .fin _ _ _ => 0

/-- One finite entry (R100). -/
def Gather.enter (c : Gather) (anchor : Int) (neg : Bool) (m : Nat) (e : Int) : Gather :=
  let k := enterWindow anchor neg m e
  { c with total := c.total + k, left := c.left || leftAtEntry k }

/-- One product enters, or sets its flag (R100, R111). -/
def Gather.product (c : Gather) (anchor : Int) (p : Num × Bool) : Gather :=
  match p.1 with
  | .fin x m e => c.enter anchor x m e
  | x => { c with flags := c.flags ||| flagOf x, fresh := c.fresh || p.2 }

/-- The exact sum of finite terms, as a whole number at the least of their weights. -/
def exactSum : List Num → Int × Int
  | [] => (0, 0)
  | .fin x m e :: t =>
    let s := exactSum t
    if m = 0 then s
    else if s.1 = 0 then (atWeight x m e e, e)
    else let w := min e s.2; (atWeight x m e w + s.1 * 2 ^ (s.2 - w).toNat, w)
  | _ :: t => exactSum t

/-- One MX block pair: its special products set flags, the exact sum of its finite products enters (R94). -/
def Gather.block (c : Gather) (anchor : Int) (ps : List (Num × Bool)) : Gather :=
  let c1 := ps.foldl (fun c p => match p.1 with
    | .fin _ _ _ => c
    | x => { c with flags := c.flags ||| flagOf x, fresh := c.fresh || p.2 }) c
  let s := exactSum (ps.map (·.1))
  c1.enter anchor (decide (s.1 < 0)) s.1.natAbs s.2

/-- One logged instruction's products into an output element. -/
def Gather.tmma (rd : Nat → Byte) (anchor : Int) (i col : Nat) (c : Gather) (t : Tmma) : Gather :=
  if t.mx then
    (List.range (t.k / 32)).foldl (fun c b =>
      c.block anchor ((List.range 32).filterMap (fun j => termAt rd t i col (32 * b + j)))) c
  else (List.range t.k).foldl (fun c j => match termAt rd t i col j with
    | some p => c.product anchor p
    | none => c) c

/-- Ceiling of the base-2 logarithm. -/
def ceilLog2 (k : Nat) : Nat := if k ≤ 1 then 0 else (k - 1).log2 + 1

/-- floor(log2 |x|) of a finite non-zero value, for the AUTO scan. -/
def expOf : Num → Option Int
  | .fin _ m e => if m = 0 then none else some (e + (m.log2 : Int))
  | _ => none

/-- The greater of two optional exponents. -/
def maxOpt (a b : Option Int) : Option Int :=
  match a, b with
  | none, x => x
  | x, none => x
  | some x, some y => some (max x y)

/-- The greatest exponent of A or B over the rows and reduction indices of an instruction, scales applied (R104). -/
def scanA (rd : Nat → Byte) (t : Tmma) (m : Nat) : Option Int :=
  (List.range m).foldl (fun acc i => (List.range t.k).foldl (fun acc j =>
    match aElem rd t i j with
    | none => acc
    | some x =>
      let s := if t.mx then scaleAt rd t.scaleA t.k i (j / 32) else 127
      if t.mx ∧ s = 0xFF then acc else maxOpt acc ((expOf x).map (· + (s : Int) - 127))) acc) none

/-- As scanA, over the rows of B. -/
def scanB (rd : Nat → Byte) (t : Tmma) (n : Nat) : Option Int :=
  (List.range n).foldl (fun acc i => (List.range t.k).foldl (fun acc j =>
    let s := if t.mx then scaleAt rd t.scaleB t.k i (j / 32) else 127
    if t.mx ∧ s = 0xFF then acc else maxOpt acc ((expOf (bElem rd t i j)).map (· + (s : Int) - 127))) acc) none

/-- The AUTO anchor (R104). -/
def autoAnchor (rd : Nat → Byte) (c : Chain) : Int :=
  match c.ops with
  | [] => 32
  | t :: _ =>
    match scanA rd t c.m, scanB rd t c.n with
    | some ea, some eb => ea + eb + 2 + (ceilLog2 c.depth : Int) - 31
    | _, _ => 32

/-- The chain's anchor: fixed at its start, or by the scan of its first instruction. -/
def Chain.anchorOf (rd : Nat → Byte) (c : Chain) : Int := c.anchor.getD (autoAnchor rd c)

/-- The record that an output element starts from (R106). -/
def Chain.start (c : Chain) (i col : Nat) : Rec96 := c.loaded.getD (i * c.n + col) ⟨0, 0, 0⟩

/-- The window accumulation of an output element. -/
def Chain.element (rd : Nat → Byte) (c : Chain) (anchor : Int) (i col : Nat) : Gather :=
  let r := c.start i col
  c.ops.foldl (Gather.tmma rd anchor i col) ⟨r.n, r.flags, false, false⟩

/-- Does the element raise WINDOW (R100, R101, R112)? -/
def Gather.window (a : Gather) : Bool := a.flags == 0 && (a.left || !inWindow a.total)

/-- A finish's float result: a rounded value below the smallest normal is +0 under flush-to-zero (R117). -/
def flushed (ftz : Bool) (code : Nat) (r : Res) : Res :=
  match elemOf code with
  | .float f => if ftz ∧ r.bits % 2 ^ (f.eb + f.mb) < 2 ^ f.mb then { r with bits := 0 } else r
  | _ => r

/-- The special value that an element's flags spell (R112). -/
def specialNum (flags : Nat) : Num :=
  if flags % 2 = 1 ∨ flags / 2 % 4 = 3 then .nan else if flags / 2 % 2 = 1 then .inf false else .inf true

/-- Converts a finish's value to its output format (R112–R117, R122, R512); an exact zero is +0. DESIGN CHOICE (log entry 30): an ordered
accumulator that stands at −0 is written as +0 too. -/
def Finish.convert (f : Finish) (r : Word) (x : Num) : Res :=
  match x with
  | .fin _ 0 _ => ⟨0, false, false⟩
  | _ => flushed f.ftz f.ofmt ((elemOf f.ofmt).convert f.sat f.sr r x)

/-- Element of the block in the window: its result, or none where it raises WINDOW. -/
def Finish.windowElem (f : Finish) (rd : Nat → Byte) (seed : Word) (task : Nat) (anchor : Int) (i col : Nat) : Res :=
  let a := f.chain.element rd anchor i col
  let r := srng seed task (f.index + BitVec.ofNat 64 (i * f.chain.n + col)).toNat
  let x : Num := if a.flags = 0 then .fin (decide (a.total < 0)) a.total.natAbs (anchor - 64) else specialNum a.flags
  let y := f.convert r x
  { y with invalid := y.invalid || a.fresh || (a.flags == 6) }

/-- The raw record of an element; flags keep the value zero (R112, R119). -/
def Finish.rawElem (f : Finish) (rd : Nat → Byte) (anchor : Int) (i col : Nat) : Rec96 :=
  let a := f.chain.element rd anchor i col
  if a.flags = 0 then ⟨a.total, anchor, 0⟩ else ⟨0, anchor, a.flags⟩

/-- One ordered-mode step (R109): a fused multiply-add in FP32. -/
def orderedStep (acc : Res) (term : Num) : Res :=
  let a := fFP32.decode acc.bits
  let r := fadd a term
  let finiteIn := match a, term with
    | .fin _ _ _, .fin _ _ _ => true
    | _, _ => false
  { bits := r.bits, invalid := acc.invalid || r.invalid, overflow := acc.overflow || (finiteIn && r.overflow) }

/-- Ordered mode of one output element (R109): the accumulator and its flags. -/
def Finish.orderedAcc (f : Finish) (rd : Nat → Byte) (i col : Nat) : Res :=
  let r := f.chain.start i col
  let start : Res := if f.chain.loaded = [] then ⟨0, false, false⟩
    else fFP32.encodeFin false (decide (r.n < 0)) r.n.natAbs (r.e - 64)
  f.chain.ops.foldl (fun acc t => (List.range t.k).foldl (fun acc j => match termAt rd t i col j with
    | some p => orderedStep acc p.1
    | none => acc) acc) start

/-- Element of the block in ordered mode (R107, R109): the value of an element whose products set special flags is that of R112, but what the
steps raise counts for every element (R118). An accumulator of −0 converts as every exact zero does, to +0 (DESIGN CHOICE, log entry 30). -/
def Finish.orderedElem (f : Finish) (rd : Nat → Byte) (seed : Word) (task : Nat) (anchor : Int) (i col : Nat) : Res :=
  let a := f.chain.element rd anchor i col
  let acc := f.orderedAcc rd i col
  let y : Res :=
    if a.flags ≠ 0 then f.windowElem rd seed task anchor i col
    else
      let r := srng seed task (f.index + BitVec.ofNat 64 (i * f.chain.n + col)).toNat
      match fFP32.decode acc.bits, elemOf f.ofmt with
      | .inf neg, .float g => g.beyond neg (f.sat && g.eb + g.mb == 7 || f.sr)
      | x, _ => f.convert r x
  { bits := y.bits, invalid := acc.invalid || y.invalid, overflow := acc.overflow || y.overflow }

/-- Does any element of the block raise WINDOW? -/
def Finish.raisesWindow (f : Finish) (rd : Nat → Byte) : Bool :=
  let anchor := f.chain.anchorOf rd
  (List.range f.chain.m).any (fun i => (List.range f.chain.n).any (fun col => (f.chain.element rd anchor i col).window))

/-- What a finish does (R107, R108): the rows it writes (none where a raw chain left the window), the flags INVALID and
OVERFLOW, and whether WINDOW was raised. -/
structure FinishOut where
  rows : List (Word × List Byte)
  invalid : Bool
  overflow : Bool
  window : Bool
  deriving DecidableEq, Repr

/-- Bytes of one output row from its elements. -/
def outRow (code : Nat) (l : List Res) : List Byte := l.flatMap (fun r => leBytes ((elemOf code).bits / 8) r.bits)

/-- The finish of a chain (R101, R107–R119). -/
def Finish.run (f : Finish) (rd : Nat → Byte) (seed : Word) (task : Nat) : FinishOut :=
  let anchor := f.chain.anchorOf rd
  let rows := List.range f.chain.m
  let cols := List.range f.chain.n
  if f.ofmt = 10 then
    let w := f.raisesWindow rd
    let inv := rows.any (fun i => cols.any (fun c =>
      let a := f.chain.element rd anchor i c; a.fresh || a.flags == 6))
    ⟨if w then [] else rows.map (fun i => (rowAddr f.oAddr f.oStride i, cols.flatMap (fun c => (f.rawElem rd anchor i c).bytes))),
      inv, false, w⟩
  else
    let w := !f.ordered && f.raisesWindow rd
    let el (i c : Nat) : Res :=
      if f.ordered ∨ w then f.orderedElem rd seed task anchor i c else f.windowElem rd seed task anchor i c
    ⟨rows.map (fun i => (rowAddr f.oAddr f.oStride i, outRow f.ofmt (cols.map (el i)))),
      rows.any (fun i => cols.any (fun c => (el i c).invalid)), rows.any (fun i => cols.any (fun c => (el i c).overflow)), w⟩

/-- Do two raw records, neither of them a NaN, make one: +Inf meets −Inf (R118)? -/
def Rec96.infMeets (a b : Rec96) : Bool := (a.flags ||| b.flags) % 8 == 6 && a.flags % 8 != 6 && b.flags % 8 != 6

/-- Sum of two raw records of one anchor (R120): none where it leaves the window. -/
def Rec96.add (a b : Rec96) : Option Rec96 :=
  if inWindow (a.n + b.n) then some ⟨a.n + b.n, a.e, a.flags ||| b.flags⟩ else none

/-- The window reduction of FP32 lanes at an anchor (R127). -/
def windowReduce (anchor : Int) (lanes : List Nat) : Gather :=
  lanes.foldl (fun c v => c.product anchor (fFP32.decode v, false)) ⟨0, 0, false, false⟩

/-- A total as FP32, rounded once; flags take R112. -/
def Gather.toFP32 (a : Gather) (anchor : Int) : Res :=
  if a.flags ≠ 0 then { (fFP32.convert false (specialNum a.flags)) with invalid := a.flags == 6 }
  else if a.total = 0 then ⟨0, false, false⟩
  else fFP32.encodeFin false (decide (a.total < 0)) a.total.natAbs (anchor - 64)

end Sys2Proof.Machine
end

