-- ==== Sys2Proof/Machine/State.lean ====
section
/-! DEFINITION. The state of the module: the register file, memory and stores, flash, queues and records, sync objects,
cores and their tasks, and the blocks that talk to the outside; the reasons a command can stop; the state after reset.
All of it is plain data. Sparse parts are lists keyed by number (Machine/Map.lean). -/

namespace Sys2Proof.Machine

/-- Reasons for a fault. No command of this module ends in one: every error the manual describes is an effect on the
state. The one constructor is never raised (safe). -/
inductive Fault where
  /-- Raised by no command; safe. -/
  | none
  deriving DecidableEq, Repr

/-- Reasons for a refusal. -/
inductive Refusal where
  /-- Raised by an arm of exec whose command has no meaning yet; safe. -/
  | notModelled (mnemonic : String)
  deriving DecidableEq, Repr

/-! ### Errors and flash -/

/-- An error record (R375) before it is laid out. -/
structure ErrRec where
  seq : Nat
  boot : Nat
  time : Word
  timeLocked : Bool
  code : Nat
  cls : Nat
  summary : Bool
  defect : Bool
  warning : Bool
  unit : Nat
  kind : Nat
  action : Nat
  node : Node
  part : Option Nat
  ctx : Option Nat
  count : Nat
  detail : List Byte
  deriving DecidableEq, Repr

/-- An entry of the field defect log (R389); `row` where it lists a row of a store and not the unit itself. -/
structure Defect where
  row : Bool
  kind : Nat
  source : Nat
  unit : Nat
  location : Nat
  boot : Nat
  code : Nat
  flags : Nat
  deriving DecidableEq, Repr

/-- A record of the carry-over area (R380): the record and whether it has been acknowledged. -/
structure Carry where
  record : ErrRec
  acked : Bool
  deriving DecidableEq, Repr

/-- The firmware in one bank (R459, R462): its vintage, 0 where the bank holds no bundle, its security version and, where a bundle of the
service port brought them, the digests of its images by type 1–5 (R457). -/
structure FwBank where
  vintage : Nat
  svn : Nat
  digests : List (List Byte)
  deriving DecidableEq, Repr

/-- A staged bundle (R458, R462): what the bank holds, its sectors, whether it waits for a power cycle, and whether its boot failed. -/
structure FwStaged where
  bank : FwBank
  sectors : Nat
  together : Bool
  failed : Bool
  deriving DecidableEq, Repr

/-- Flash and fuses (R17, R42, R212, R380, R381, R389, R423, R434–R466): what every reset keeps; `writes` is the write counter of each
sector (R449). -/
structure Flash where
  ownerPending : Option (List Byte)
  win0 : Word
  win1 : Word
  requireIde : Bool
  zeroised : Bool
  debug : Bool
  debugPending : Option Bool
  svnFused : Nat
  svnFloor : Nat
  banks : List FwBank
  active : Nat
  staged : Option FwStaged
  fatalSinceOpen : Bool
  fuseCores : List Nat
  fuseCoreRows : List (Nat × Nat)
  fuseClusterRows : List (Nat × Nat)
  fuseAdders : List Nat
  fuseLanes : List Nat
  owner : Option (List Byte)
  image : Option (List Byte)
  floor : Nat
  boot : Nat
  fatalCount : Nat
  fatals : List ErrRec
  carry : List Carry
  lastGasp : Option (List Byte × Bool)
  defects : List Defect
  sinceFull : Option Nat
  disturb : List (Nat × Nat)
  failWrites : Bool
  writes : List (Nat × Nat)
  deriving DecidableEq, Repr

/-- A corrected error that a one-second window is summarising (R378): its first record and the further events. -/
structure Summary where
  record : ErrRec
  more : Nat
  deriving DecidableEq, Repr

/-- A partition's lees (R394, R395): the cause, the time, and its records in the lees area as (offset, length, context). -/
structure Lees where
  part : Nat
  seq : Nat
  code : Nat
  time : Word
  recs : List (Nat × Nat × Option Nat)
  deriving DecidableEq, Repr

/-- The error block beyond its registers (R375–R404). -/
structure ErrBlock where
  seq : Nat
  window : List Summary
  lastTwo : List ErrRec
  ringCount : Nat
  ringFirst : Bool
  waves : List (Node × Nat)
  waveGen : Nat
  lees : List Lees
  copyDigests : List (Node × Nat)
  paths : List (PathRef × Nat)
  deriving DecidableEq, Repr

/-- The structure image and bring-up beyond their registers (R14–R46, R420, R423): staged bytes, the settings in force, the
verify running, the outcome that a load will show, the result that the running step will report and when it started, optical lanes that DEFECTS
found bad; whether staged bytes were discarded as excess, and the count C of R42 as this start found it. -/
structure ImageState where
  staged : List Byte
  excess : Bool
  startC : Nat
  cfg : Option Cuvee
  verify : Option (List Byte)
  result : Option (Nat × Nat)
  stepRes : Nat
  stepAt : Nat
  lanesBad : List Nat
  deriving DecidableEq, Repr

/-! ### Memory -/

/-- Memory and stores (R198–R222). One address space holds all of it: local physical addresses below 2^40, the core
store of physical core c at 2^40 + c × 2^20 and the cluster store of cluster n at 2^41 + n × 2^23. An unlisted byte reads
zero, or, within a hole (start, length, number), the free byte of that hole. -/
structure Mem where
  cells : List Host.Cell
  holes : List (Nat × Nat × Nat)
  poison : List Nat
  deriving DecidableEq, Repr

/-- A row or bank of a stack, or one of its remaps. -/
structure RowKey where
  stack : Nat
  pc : Nat
  bank : Nat
  row : Nat
  deriving DecidableEq, Repr

/-- The memory controllers (R207–R219): activations in the refresh window, re-reads with their times, remaps in force,
remaps due, the lines that the patrol scrub skips and those that it has read in this period, by stack, temperatures. -/
structure Dram where
  acts : List (RowKey × Nat)
  rereads : List (RowKey × Nat)
  rows : List RowKey
  banks : List RowKey
  rowDue : List RowKey
  bankDue : List RowKey
  scrubSkip : List Nat
  scrubbed : List (Nat × Nat)
  temps : List (Nat × Int)
  deriving DecidableEq, Repr

/-- A leaf of a page table (R227). -/
structure Leaf where
  entry : Word
  big : Bool
  deriving DecidableEq, Repr

/-- A frame of the frame table (R229, R230): its owner while its use is not zero, its export and the key generation
under which it was last written. -/
structure Frame where
  owner : Nat
  use : Nat
  exp : Nat
  key : Nat
  deriving DecidableEq, Repr

/-- One share of a fabric operation (R226, R287): its global address, offset and length; one at another node has a packet
with an identifier, and the answer once it came. -/
structure Chunk where
  id : Option Nat
  gpa : Nat
  off : Nat
  len : Nat
  reply : Option Reply
  deriving DecidableEq, Repr

/-- Kinds of fabric operation of a task (R142). -/
inductive FabKind where
  | get | put | puts | atomic
  deriving DecidableEq, Repr

/-- A fabric operation of a task (R142, R143, R230, R235): how many bundles had issued, the job tag at its issue, addresses, size, the
bundle that issued it, whether its
addresses translated, its shares and, for an atomic, the operation, operands and destination; in a shadowed pair, its number among
the values that enter the task. -/
structure FabOp where
  kind : FabKind
  seq : Nat
  tag : Nat
  va : Word
  ok : Bool
  loc : Nat
  bytes : Nat
  bundle : Nat
  aop : Nat
  arg : Word
  cmp : Word
  rd : Nat
  sig : Option (Node × Nat)
  chunks : List Chunk
  inward : Option Nat
  deriving DecidableEq, Repr

/-- An UNMAP or PROTECT that waits for the translation caches and for the requests under the old entries (R233): the
context, whether it unmaps, and the leaves of its run by key. -/
structure Drop where
  ctx : Nat
  unmap : Bool
  leaves : List (Nat × Leaf)
  deriving DecidableEq, Repr

/-- Page tables, frames, keys and the host window (R223–R250). Leaves are keyed by context × 2^31 + page number; `tables` gives each
L1 and L0 table its slot of the pool (R227, R228); the key tables of R447 name key pairs by number, each made once and counted in keys:
keyOf that of each ACTIVE context, `moduleKey` the module's; `caches`
holds the translation caches by unit (R234), the newest entry first. -/
structure Fabric where
  leaves : List (Nat × Leaf)
  tables : List (Nat × Nat)
  frames : List (Nat × Frame)
  keyOf : List (Nat × Nat)
  moduleKey : Nat
  keys : Nat
  bar4Log2 : Nat
  dropping : Option Drop
  caches : List (Nat × List (Nat × Leaf))
  nextId : Nat
  deriving DecidableEq, Repr

/-! ### Sync objects, queues, records -/

/-- A sync object that a context holds (R159). -/
structure SyncObj where
  holder : Nat
  counter : Nat
  fire : Nat
  heavy : Bool
  remote : Bool
  deriving DecidableEq, Repr

/-- A task descriptor on its way from a queue to a core (R175–R177). -/
structure Task where
  ctx : Nat
  queue : Nat
  id : Nat
  prog : Nat
  shadow : Bool
  quiet : Bool
  decant : Bool
  wait : Option Nat
  done : Option (Node × Nat)
  args : List Word
  cluster : Nat
  ready : Bool
  place : Nat
  deriving DecidableEq, Repr

/-- A completion record (R180). -/
structure CRec where
  tag : Nat
  status : Nat
  fault : Nat
  flags : Nat
  kind : Nat
  queue : Nat
  bundle : Nat
  parts : Nat
  result : Word
  core : Nat
  ctx : Nat
  cycles : Nat
  deriving DecidableEq, Repr

/-- A record that is due or waits for space (R181–R185), with what follows it: the done object, the decant entry; the
core that holds it where sixty-four already wait; the quiet flag of a decant record that is judged at this point. -/
structure RecWait where
  ring : Nat
  record : CRec
  done : Option (Node × Nat)
  decant : Bool
  quiet : Bool
  fetchFail : Bool
  holder : Option Nat
  deriving DecidableEq, Repr

/-- State of one copy part (R247): none while it runs, its status once it has ended, its digest entry. -/
structure CopyPart where
  status : Option Nat
  digest : Word
  sentTwice : Bool
  deriving DecidableEq, Repr

/-- A fetched copy descriptor (R242–R247). -/
structure Copy where
  ctx : Nat
  queue : Nat
  tag : Nat
  op : Nat
  quiet : Bool
  wait : Option Nat
  done : Option (Node × Nat)
  src : Word
  dst : Word
  bytes : Nat
  dig : Word
  pattern : Word
  seed : Word
  started : Bool
  parts : List CopyPart
  deriving DecidableEq, Repr

/-- Queues and rings beyond their registers: descriptors taken from queues and not yet in a pool, the place counter,
copies, records due, interrupt counts of rings (keyed as c × 8 + r), the decant pair (R190–R194), the 16-entry communication queue of each local group (R309). -/
structure Queues where
  fed : List Task
  place : Nat
  copies : List Copy
  recs : List RecWait
  ringIrq : List (Nat × Nat)
  decant : List Word
  latch : Option (BitVec 32)
  comm : List (Nat × List (List Byte))
  deriving DecidableEq, Repr

/-! ### Cores -/

/-- One dimension of an address generator (R136, R138). -/
structure Dim where
  count : BitVec 16
  stride : BitVec 32
  index : BitVec 16
  deriving DecidableEq, Repr

/-- An address generator. -/
structure AG where
  base : Word
  dims : List Dim
  deriving DecidableEq, Repr

/-- A SWAIT in progress (R147, R160, R166): waiting on an object for a target, with its timeout; satisfied and due in a wave of the
pour; or over, with what rd takes. -/
inductive Wait where
  | swait (obj : Nat) (target : Word) (timeout : Nat)
  | woken
  | over (result : Nat)
  deriving DecidableEq, Repr

/-- A background MOVE (R141, R153). -/
structure Mv where
  src : Nat
  dst : Nat
  bytes : Nat
  deriving DecidableEq, Repr

/-- The bundle whose slots are issuing (R134, R151): the registers every slot reads, the arithmetic flags and the count of fabric operations
outstanding among them, the slots still to act, where control goes next, and in a pair how many values had entered before the bundle. -/
structure Issue where
  xs : List Word
  vs : List (BitVec 4096)
  ags : List AG
  flags : Word
  fabout : Nat
  todo : List Nat
  next : Nat
  base : Nat
  deriving DecidableEq, Repr

/-- A task on a core (R136, R137, R145, R155): `tile` is its queue of tile instructions, each TMMA with the time at which its work ends,
each TFIN without; `opened` counts the bundles issued; `faultAt` says by that count and by slot where the fault came; `endX` is x31 at TEND. In a shadowed pair (R186-R188): the other core, which of the two this is, the
running digests of its outward operations, how many of the primary's have taken effect, how many values have entered the
task, and the values that the primary has passed on. -/
structure Run where
  task : Task
  seed : Word
  xs : List Word
  vs : List (BitVec 4096)
  ags : List AG
  pc : Nat
  issue : Option Issue
  waiting : Option Wait
  window : Bool
  invalid : Bool
  overflow : Bool
  ordered : Bool
  rawLost : Bool
  chain : Option Chain
  finishes : List Finish
  moves : List Mv
  fab : List FabOp
  tile : List (Option Nat)
  opened : Nat
  fault : Option (Nat × Nat)
  faultAt : Nat × Nat
  ending : Option Bool
  endX : Word
  stallLogged : Bool
  timedOut : Bool
  partner : Option Nat
  primary : Bool
  digests : List Word
  released : Nat
  entered : Nat
  given : List (Nat × List Byte × List Nat)
  disagreed : Bool
  deriving DecidableEq, Repr

/-- A token endpoint (R82, R148): the peer its send side is bound to with the binding context and credits, the tokens
queued and the context that claims the receive queue. -/
structure EndpointSt where
  peer : Option (Nat × Nat)
  credits : Nat
  queue : List Word
  claim : Option Nat
  deriving DecidableEq, Repr

/-- A bound program (R131): its bundles, its clusters, and in each cluster its first bundle and its regions. -/
structure Binding where
  ctx : Nat
  prog : Nat
  bundles : List Bundle
  place : List (Nat × Nat)
  regions : List (Nat × List Nat)
  deriving DecidableEq, Repr

/-- A move of a logical core (R57): from a physical core to a spare, riddling or retirement, begun or not. -/
structure CoreMove where
  lcore : Nat
  from_ : Nat
  to_ : Option Nat
  retire : Bool
  begun : Bool
  deriving DecidableEq, Repr

/-- A tasting test of a cluster (R383–R385): the physical core and whether it is the repeat. -/
structure Tasting where
  core : Nat
  again : Bool
  deriving DecidableEq, Repr

/-- What the tasting of one physical core remembers (R385–R387, R392): the time of its last pass since the reset and by fabric time, and
the times of its transients, hangs and unresolved disagreements. -/
structure CoreLog where
  lastPass : Nat
  passAt : Nat
  transients : List Nat
  hangs : List Nat
  unresolved : List Nat
  deriving DecidableEq, Repr

/-- A stopped pair whose cores are being tasted (R387): its physical cores and which has passed. -/
structure PairTest where
  a : Nat
  b : Nat
  aPassed : Bool
  bPassed : Bool
  deriving DecidableEq, Repr

/-- Cores, clusters and pools (R50–R89, R131–R158). `next` lists the tasks given to cores and not started, in the order given;
`reserved` the shadow core that a pour keeps for a primary (R166, R186); `credPtr` the queue (context × 16 + queue) that each pool last
credited (R79); `tokens` the tokens in flight as endpoint, source cluster and value, in the order sent, and `heldTokens` those that a
network interface holds while their core moves (R58); `signals` the signals in flight with their source stops, in the order sent
(R65); `hardFaults` the cores whose store met a hard fault with its row (R221); `rstParts` the partitions whose reset a command of RST.CTL
awaits (R432). -/
structure Cores where
  runs : List (Nat × Run)
  next : List (Nat × Task)
  pool : List Task
  reserved : List (Nat × Nat)
  rrPtr : List (Nat × Nat)
  credPtr : List (Nat × Nat)
  storeOwner : List (Nat × Nat)
  endpoints : List (Nat × EndpointSt)
  tokens : List (Nat × Nat × Word)
  heldTokens : List (Nat × Word)
  signals : List (Nat × SigMsg)
  bindings : List Binding
  moves : List (Nat × CoreMove)
  tasting : List (Nat × Tasting)
  tasteHead : List Nat
  mustTaste : List Nat
  asked : List Nat
  pairs : List PairTest
  retireDue : List Nat
  hardFaults : List (Nat × Nat)
  logs : List (Nat × CoreLog)
  wavesDue : List (Nat × List Nat)
  resetting : List RUnit
  resetAt : List (Nat × Nat)
  raised : List Nat
  rstParts : List Nat
  deriving DecidableEq, Repr

/-! ### Groups and collectives -/

/-- A membership that is forming (R301, R302): members, whether this is the leader, the rank map as (node, context), the
collective timeout to load; at the leader what it knows of other routers, the nodes whose JOIN it has met, and the modules whose answer it
awaits. -/
structure Forming where
  members : Nat
  leader : Bool
  map : List (Nat × Nat)
  timeout : Nat
  views : List RouterObs
  met : List Nat
  asked : List Nat
  deriving DecidableEq, Repr

/-- This module's place in a group's tree (R303, R304): ports to the parent and the children, the hub of its reduction
context (0 none, 1 H0, 2 H1), the partition whose reservation holds it (none: transit), the local number where it is a
member, whether the leader has committed, and where it is no member the sequence that its collectives have come to (R321). -/
structure Tree where
  key : Nat
  parent : Option Nat
  children : List Nat
  hub : Nat
  store : Option Nat
  member : Option Nat
  committed : Bool
  next : Nat
  deriving DecidableEq, Repr

/-- A collective in flight at a member (R310–R320), and the result's status while it waits for the joint verdict. -/
structure Coll where
  tag : Nat
  quiet : Bool
  w : Word
  count : Nat
  dst : Word
  done : Option (Node × Nat)
  seq : Nat
  own : List Int
  verdict : Option Nat
  deriving DecidableEq, Repr

/-- A contiguous part of a concatenation or result (R311, R325, R327): the member it comes from, the offset of its first element, its bytes. -/
structure CollPart where
  node : Nat
  off : Nat
  data : List Byte
  deriving DecidableEq, Repr

/-- One input or result of a collective (R313–R317, R325, R327): key, sequence, the tree port it came by, its seal
and the word and count under it (R314), its lowest rank with that member's node (or the offender's, of a MISMATCH), the element partials
(value and flags) or packed data, its digest and those of the slices of a REDUCE_SCATTER, its status and whether poisoned data went in. -/
structure CollMsg where
  key : Nat
  seq : Nat
  child : Option Nat
  dseal : Word
  void : Bool
  w : Word
  count : Nat
  lowRank : Nat
  lowNode : Nat
  values : List Int
  flags : List (Fin 8)
  parts : List CollPart
  digest : Word
  slices : List Word
  status : Nat
  poisoned : Bool
  deriving DecidableEq, Repr

/-- What a reduction context has gathered of one collective: inputs and verdicts (R313, R319). -/
structure Gathered where
  key : Nat
  seq : Nat
  inputs : List CollMsg
  verdicts : List CollMsg
  deriving DecidableEq, Repr

/-- A message of a collective that is still arriving on a tree port, its units in order (R325, R327). -/
structure Arriving where
  key : Nat
  seq : Nat
  port : Nat
  up : Bool
  units : List CollIn
  deriving DecidableEq, Repr

/-- Groups, trees and collectives (R301–R327); JOINs that a leader has met before its CREATE, as key, node and context; the modules of the
groups led here by local number (R302, R308); messages still arriving; a status that came down to a member before it started its collective
(R315); adder lanes flagged suspect and checkers retired, by unit number 2 + 4h + l (R388). -/
structure Grps where
  forming : List (Nat × Forming)
  joins : List (Nat × Nat × Nat)
  led : List (Nat × List Nat)
  trees : List Tree
  inflight : List (Nat × Coll)
  gathers : List Gathered
  arriving : List Arriving
  early : List (Nat × CollMsg)
  suspect : List Nat
  checkers : List Nat
  deriving DecidableEq, Repr

/-! ### Management plane -/

/-- A record of the management queue (R380, R480): type, body, whether only an acknowledgement takes it out, whether it
is a corrected ERROR record, and the counter of its last sending. -/
structure MgmtItem where
  kind : Nat
  body : List Byte
  resend : Bool
  corrected : Bool
  sent : Option Nat
  deriving DecidableEq, Repr

/-- Management plane (R473–R491): the queue, the key in the VAUX domain, the send counter, receive floors by sender,
the two addresses and the one that the last request came from, corrected records dropped and not yet reported, what TELEMETRY counts, locate requests, active
warnings, PLDM platform events, whether a LINKS record is due and when the last was sent. -/
structure Mgmt where
  queue : List MgmtItem
  key : Option (List Byte)
  sendCtr : Nat
  floors : List (Nat × Nat)
  rackAddr : List Byte
  fleetAddr : List Byte
  asker : List Byte
  dropped : Nat
  telCorrected : Nat
  telDeferred : Nat
  locateConfig : Bool
  locatePldm : Bool
  active : List (Nat × Nat)
  events : List (Nat × Nat)
  linksDue : Bool
  linksAt : Option Nat
  deriving DecidableEq, Repr

/-- A host access to BAR0 that is held (R472), with its size in bytes. -/
structure HeldAcc where
  off : Nat
  size : Nat
  acc : HostAcc
  obs : HostObs
  deriving DecidableEq, Repr

/-! ### Links (R251–R286, R440–R445) -/

/-- The message of a codeword (R254, R258): link header, check nibble, ten flit slots. -/
structure Codeword where
  hdr : BitVec 16
  nib : BitVec 4
  slots : List (List Byte)
  deriving DecidableEq, Repr

/-- What an ordinary flit slot carries (R260): a link-control flit, or flit i of a packet as it leaves, with the packet as it came to the
router. -/
inductive LFlit where
  | ctl (b : List Byte)
  | pkt (p back : Pkt) (i : Nat)
  deriving DecidableEq, Repr

/-- The content of an express flit that waits or was sent, with the key of the group whose tree it travels on (R305, R325), none for a flit
of no group; and whether a forwarder passes it on, under the credits of the one that sent it. -/
structure XFlit where
  group : Option Nat
  content : List Byte
  fwd : Bool
  deriving DecidableEq, Repr

/-- A block as its transmitter retains it (R258, R259, R261, R264): the counter whose low 14 bits are its seq, the key and salt that it was
sent under (empty: none), its codewords as first sent, and the ordinary and express flits that are in them. -/
structure Block where
  ctr : Nat
  key : List Byte
  cws : List Codeword
  flits : List LFlit
  xs : List XFlit
  deriving DecidableEq, Repr

/-- A change of lanes under way (R277): physical lane `lane` to `sub`, or a narrowing to a width; the blocks that this side and the peer
named, by counter, and the directions that have changed. -/
structure LaneSwitch where
  narrow : Option Nat
  lane : Nat
  sub : Nat
  txAt : Nat
  rxAt : Option Nat
  txDone : Bool
  rxDone : Bool
  deriving DecidableEq, Repr

/-- Attestation of a port (R440–R444): begun here, refused by a side until the port retrains, the peer's HELLO in, its certificate accepted, halves of its share and
proof in, FINISH sent and in, the time of the first HELLO, the blocks named for the key switch, whether
ours was confirmed, directions sealed; a rekey under way, with the halves of the peer's share; the attestation flits of this side and of
the peer in order; what has come of the peer's certificates; the halves that came, by number; this side's private scalars, and the finish
key. -/
structure Attest where
  begun : Bool
  refused : Bool
  helloIn : Bool
  certOk : Bool
  shares : Nat
  proofs : Nat
  finishOut : Bool
  finishIn : Bool
  since : Option Nat
  txNamed : Option Nat
  rxNamed : Option Nat
  acked : Bool
  txSealed : Bool
  rxSealed : Bool
  rekey : Bool
  rekeyShares : Nat
  mine : List (List Byte)
  theirs : List (List Byte)
  peerCert : List Byte
  shareIn : List (Nat × List Byte)
  proofIn : List (Nat × List Byte)
  rekeyIn : List (Nat × List Byte)
  secret : Nat
  rekeySecret : Nat
  finKey : List Byte
  deriving DecidableEq, Repr

/-- One optical port beyond its registers. Training: lanes on which light was seen; by lane, commas matched and missed in a row and where
the last match began; locked lanes, lanes accepted, what the peer accepted, taps in force and the last request number, the peer's taps and
the number of the last request to it, the IDENT tokens, whether a second attempt ran, training superframes sent (R256, R267–R272). Service: the lanes
of the transmit and receive directions in logical order with their widths (R257, R277), the peer's minimum; block counters of both
directions, blocks on the fibre since the lanes last changed, superframes sent; retained blocks, those to send again, whether because
256 wait, NAKs due, awaited and sent for one seq, and whether a lane has failed meanwhile (R261, R262, R276). Flits: ordinary flits
queued, packets that wait for a buffer with their form at the router (R289), express flits and those that wait for a buffer, collective
packets by group, credits in use by group and the groups served last (R305); express counters of both directions (R265), flits of a packet still to be
received, what the last block or express flit delivered. Then uncorrectable codewords by lane and time, lane switches, attestation; the
keys of both directions with their salts in 36 bytes (empty: none), the receive key before and those agreed and not in force yet (R441, R443,
R444); the counter from which the receive key holds, and the blocks sent under the transmit key. -/
structure PortSt where
  seen : List Nat
  hits : List (Nat × Nat)
  misses : List (Nat × Nat)
  offsets : List (Nat × Nat)
  locked : List Nat
  accepted : List Nat
  done : Bool
  peerDone : Option Nat
  taps : List (Nat × Taps)
  tapNum : List (Nat × Nat)
  peerTaps : List (Nat × Taps)
  reqNum : List (Nat × Nat)
  token : Nat
  peerToken : Nat
  identIn : Bool
  echoed : Bool
  retried : Bool
  frames : Nat
  lanes : List Nat
  txWidth : Nat
  rxLanes : List Nat
  rxWidth : Nat
  minPeer : Nat
  txCtr : Nat
  rxCtr : Nat
  txBlocks : Nat
  rxBlocks : Nat
  superframes : Nat
  retained : List Block
  resend : List Nat
  winFull : Bool
  nakDue : Bool
  nakWait : Bool
  nakRun : Nat
  laneMet : Bool
  txq : List LFlit
  blocked : List (Pkt × Pkt)
  xq : List XFlit
  xwait : List XFlit
  tq : List (Nat × Pkt)
  credits : List (Nat × Nat)
  served : Nat
  xserved : Nat
  xTx : Nat
  xRx : Nat
  rxRest : Nat
  delivered : List (List Byte)
  uncorr : List (Nat × Nat)
  switches : List LaneSwitch
  att : Attest
  txKey : List Byte
  txNext : List Byte
  rxKey : List Byte
  rxOld : List Byte
  rxNext : List Byte
  rxFrom : Nat
  keyBlocks : Nat
  deriving DecidableEq, Repr

/-- The optical ports: their states, bad lanes by unit number (engine × 34 + lane), engines switched off (R346), the port that
LNK.CTL retrains, and the one whose request waits for the quiesce (R282). -/
structure Links where
  ports : List (Nat × PortSt)
  bad : List Nat
  rxBad : List Nat
  off : List Nat
  asked : Option Nat
  waiting : Option Nat
  deriving DecidableEq, Repr

/-! ### Routing and fabric time (R291–R300, R328–R331) -/

/-- The router: fabric time less the module's own count of ns, what is still to slew out, when the last TIME_REQ left (R329); packets held over route changes with the
port they came by, the changes in force with what worked before each (fabric time, ports, gateway maps; R298),
generations of ROUTE_UPDATEs by position and of this module's own. -/
structure Rte where
  offset : Int
  slew : Int
  asked : Option Nat
  held : List (Pkt × Option Nat)
  changes : List (Nat × Nat × List Word)
  updates : List (Nat × Nat)
  gen : Nat
  deriving DecidableEq, Repr

/-! ### Power and cooling (R335–R370) -/

/-- The offers of an epoch that a module of a pact's tree has gathered (R357): group key, epoch, codes by the child's port, 32 for its
own. -/
structure PactGather where
  key : Nat
  epoch : Word
  codes : List (Nat × Nat)
  deriving DecidableEq, Repr

/-- A frequency pact in an epoch (R357): the group, the epoch, the offer made and the result received. -/
structure Pact where
  group : Nat
  epoch : Word
  offer : Nat
  result : Option Nat
  deriving DecidableEq, Repr

/-- Power beyond its registers: since when each feed is valid, whether a faulted feed has left its range since the fault (R337), the
module's own holds of OFF (R369), feeds whose precharge is complete while their stage waits (R341), rail responses in force by rail: bit 0 at
100%, bit 1 2 µs later, bit 2 at 120% (R346), whether the cap throttles every die (R354), clusters
stretched by droop (R348), dies stretched by the junction throttle (R360), dies that drop at once to their next computed frequency
(R358), the epochs of pacts and offers gathered, runs of implausible checks by diode (R364), the last samples of the leak loop, whether a leak shutdown is
due (R367), when a graceful notice began (R370), the last riddling request by cluster (R363), the term that decides each die's sustainable frequency (R353),
dies whose frequency is a pact's result (R357). -/
structure Pwr where
  validA : Option Nat
  validB : Option Nat
  goneA : Bool
  goneB : Bool
  holdThermal : Bool
  holdLeak : Bool
  holdFeeds : Bool
  charged : List Nat
  rails : List (Nat × Nat)
  capThrottle : List Nat
  droops : List Nat
  hotDies : List Nat
  urgent : List Nat
  pacts : List Pact
  offers : List PactGather
  diodeRun : List (Nat × Nat)
  leak : List Nat
  leakDue : Bool
  noticeAt : Option Nat
  riddled : List (Nat × Nat)
  terms : List (Nat × Nat)
  pactHeld : List Nat
  deriving DecidableEq, Repr

/-! ### Security and the service port (R434–R466) -/

/-- An SPDM session (R436): its number, whether FINISH has established it, and how often KEY_UPDATE has changed its keys. -/
structure SpdmSession where
  id : Nat
  up : Bool
  epoch : Nat
  deriving DecidableEq, Repr

/-- An SPDM responder on one transport (R436): how far negotiation has come, its sessions, the number of the next, and the session in
whose secured messages it answers now (R481). -/
structure Spdm where
  stage : Nat
  sessions : List SpdmSession
  next : Nat
  within : Option Nat
  deriving DecidableEq, Repr

/-- A bundle that the service port receives (R461). -/
structure Receiving where
  length : Nat
  together : Bool
  data : List Byte
  deriving DecidableEq, Repr

/-- An owner command that runs (R451, R466): its blob as fetched, and whether a heartbeat of the supervisor has passed since it began. -/
structure OwnerRun where
  blob : List Byte
  begun : Bool
  deriving DecidableEq, Repr

/-- Security beyond its registers: the SPDM responders over DOE and over management, the presence input (pressed, the window's end),
consecutive open samples of the seal loop, the service port (whether the first frame after a reset is still to come, next
sequence number, bundle being received, bundle being
written, bundle checked while aux is FAILED), the firmware that runs (R463, R464), measurement 8 as this start took it (R437), whether the
ROM has locked the secrets of the fuses (R434), the owner command that runs. -/
structure Sec where
  doe : Spdm
  mgmt : Spdm
  pressed : Bool
  window : Option Nat
  openRun : Nat
  svcStale : Bool
  svcSeq : Nat
  receiving : Option Receiving
  writing : Option FwStaged
  rescue : Option FwBank
  running : FwBank
  meas8 : List Byte
  romLocked : Bool
  cmd : Option OwnerRun
  deriving DecidableEq, Repr

/-- Levels of SVC_DO (R505, R508): high-impedance, or driven, and then high between frames. -/
inductive SvcDo where
  | highZ | high
  deriving DecidableEq, Repr

/-- The static outputs (R507): whether LOCATE_N, FAULT_N and ATTN_N are asserted, and SVC_DO. -/
structure PinLevels where
  locate : Bool
  fault : Bool
  attn : Bool
  svcDo : SvcDo
  deriving DecidableEq, Repr

/-- The pins and the power at VAUX (R491, R504–R508): VAUX present, PERST_N asserted, the outputs held through a warm reset; the levels at
the inputs, also while no one looks: PRESENCE_N low, SVC_EN asserted, the early-break contacts of the feeds and the feeds' volts (R336). -/
structure Pins where
  vaux : Bool
  perst : Bool
  held : Option PinLevels
  presence : Bool
  svcEn : Bool
  mateA : Bool
  mateB : Bool
  voltsA : Nat
  voltsB : Nat
  deriving DecidableEq, Repr

/-- What a core of the supervisor holds in its SRAM and a checkpoint keeps, as far as a restore needs it (R467, R470): the time at which it
was written, the owner command that ran then and the management send counter. -/
structure SupImage where
  time : Nat
  cmd : Option OwnerRun
  sendCtr : Nat
  deriving DecidableEq, Repr

/-- The supervisor complex (R467–R472): BAR0 accesses held while it restores or resynchronises, the core that restores with the
core whose loss it answers, the cores that resynchronise, and the time of each core's last heartbeat; management records that wait
for it (R492); the private SRAM of each core and the checkpoint SRAM, empty where a reset has cleared them. -/
structure Sup where
  held : List HeldAcc
  heldRecs : List MRec
  restoring : Option (Nat × Nat)
  resync : List Nat
  beat : List (Nat × Nat)
  sram : List (Nat × SupImage)
  checkpoint : Option SupImage
  deriving DecidableEq, Repr

/-! ### What the module emits -/

/-- What leaves the module, or answers a host read; the newest stands first in `State.out`. -/
inductive Out where
  /-- The answer to a host read of so many bytes. -/
  | hostRead (bytes : Nat) (v : Word)
  /-- The answer to a BAR4 read. -/
  | hostBytes (b : List Byte)
  /-- A poisoned TLP (R208), a Completer Abort (R192). -/
  | poisonedTlp | completerAbort
  /-- A refresh-management command to the neighbours of a row (R212): stack, pseudo-channel, bank, row. -/
  | refreshNeighbours (stack pc bank row : Nat)
  /-- A posted write to host memory (R181, R379). -/
  | hostWrite (addr : Nat) (b : List Byte)
  | msix (vector : Nat)
  /-- AER report: 0 corrected, 1 non-fatal, 2 fatal (R373). -/
  | aer (sev : Nat)
  /-- A management record (R473, R474): the IPv6 address and UDP port that it leaves from, the IPv6 addresses that it goes to, its bytes. -/
  | mgmt (source : List Byte) (port : Nat) (dest : List (List Byte)) (record : List Byte)
  /-- A packet that this module hands to its router (R287, R288), with the offsets of poisoned lines of its data. -/
  | packet (p : Pkt) (poisoned : List Nat)
  /-- A message of a collective on a tree port (R313–R327). -/
  | coll (dir : CollDir) (port : Nat) (m : CollMsg)
  /-- An express control flit's content on a port (R325, R398). -/
  | flit (port : Nat) (b : List Byte)
  /-- A packet that the router forwards on a port, or delivers to this module (none) (R291). -/
  | forward (port : Option Nat) (p : Pkt)
  /-- A block sent on a port (R254–R261): its sixteen codewords, and the levels that carry them. -/
  | block (port : Nat) (cws : List Codeword) (levels : List (BitVec 5440))
  /-- The comma words that a port's lanes send after 16 codewords (R256), by physical lane. -/
  | commas (port : Nat) (l : List (Nat × BitVec 80))
  /-- What lanes of a port that carry no codewords send between their commas in service (R274, R281): PRBS31, by physical lane, in the n-th
  superframe; `idleLevels` gives its levels. -/
  | prbs (port : Nat) (lanes : List Nat) (n : Nat)
  /-- Training superframe n with its message and CRC, on every lane or one lane of a port (R268, R269); `trainingLevels` gives its
  levels. -/
  | train (port : Nat) (lane : Option Nat) (n : Nat) (msg : Word) (crc : BitVec 32)
  /-- Credits of a tree input that its context returns over a port (R305): group key and flits. -/
  | credit (port : Nat) (key n : Nat)
  /-- An SPDM response (R436): transport, message code, whether an error, body. -/
  | spdm (t : SpdmPath) (code : Nat) (error : Bool) (body : List Byte)
  /-- A frame of the service port (R461). -/
  | svc (kind seq : Nat) (payload : List Byte)
  /-- An answer on the I3C side-band; an In-Band Interrupt, for an event that waits (R487). -/
  | i3c (b : List Byte)
  | ibi
  deriving DecidableEq, Repr

/-- The module. -/
structure State where
  regs : List (Nat × Word)
  flash : Flash
  err : ErrBlock
  img : ImageState
  mem : Mem
  dram : Dram
  fab : Fabric
  sync : List (Nat × SyncObj)
  que : Queues
  cores : Cores
  grp : Grps
  mgmt : Mgmt
  sup : Sup
  lnk : Links
  rte : Rte
  pwr : Pwr
  sec : Sec
  pins : Pins
  time : Nat
  free : Nat
  out : List Out
  pending : List Instr
  deriving DecidableEq, Repr

/-! ### After reset -/

/-- Flash and fuses of a module from the factory: no owner, no image, nothing logged (log entry 5). -/
def Flash.factory : Flash :=
  { ownerPending := none, win0 := 0#64, win1 := 0#64, requireIde := false, zeroised := false
    debug := false, debugPending := none, svnFused := 0, svnFloor := 0, banks := [⟨1, 0, []⟩, ⟨1, 0, []⟩], active := 0
    staged := none, fatalSinceOpen := false
    fuseCores := [], fuseCoreRows := [], fuseClusterRows := [], fuseAdders := [], fuseLanes := [], owner := none
    image := none, floor := 0, boot := 0, fatalCount := 0, fatals := [], carry := [], lastGasp := none, defects := []
    sinceFull := none, disturb := [], failWrites := false, writes := [] }

/-- The module after a cold reset (R10, R407): every register at its Reset column, memory clear, nothing in flight. Of the registers that
reload from flash, MEMC.SCREEN and SEC.FW differ from zero in a factory flash: since_full 255, running 1 (log entry 5). -/
def State.reset : State :=
  { regs := [(0x600408, 0xFF00#64), (0x1100030, 0x100000000#64)]
    flash := Flash.factory
    err := { seq := 1, window := [], lastTwo := [], ringCount := 0, ringFirst := false, waves := [], waveGen := 0, lees := []
             copyDigests := [], paths := [] }
    img := { staged := [], excess := false, startC := 255, cfg := none, verify := none, result := none, stepRes := 0, stepAt := 0, lanesBad := [] }
    mem := ⟨[], [], []⟩
    dram := { acts := [], rereads := [], rows := [], banks := [], rowDue := [], bankDue := [], scrubSkip := [], scrubbed := [], temps := [] }
    fab := { leaves := [], tables := [], frames := [], keyOf := [], moduleKey := 0, keys := 0, bar4Log2 := 36, dropping := none, caches := [], nextId := 1 }
    sync := []
    que := { fed := [], place := 0, copies := [], recs := [], ringIrq := [], decant := [], latch := none, comm := [] }
    cores := { runs := [], next := [], pool := [], reserved := [], rrPtr := [], credPtr := [], storeOwner := [], endpoints := []
               tokens := [], heldTokens := [], signals := [], bindings := [], moves := [], tasting := [], tasteHead := [], mustTaste := []
               asked := [], pairs := [], retireDue := [], hardFaults := [], logs := [], wavesDue := [], resetting := [], resetAt := []
               raised := [], rstParts := [] }
    grp := { forming := [], joins := [], led := [], trees := [], inflight := [], gathers := [], arriving := [], early := [], suspect := []
             checkers := [] }
    mgmt := { queue := [], key := none, sendCtr := 0, floors := [], rackAddr := List.replicate 16 0#8, fleetAddr := List.replicate 16 0#8
              asker := List.replicate 16 0#8, dropped := 0, telCorrected := 0, telDeferred := 0, locateConfig := false, locatePldm := false
              active := [], events := [], linksDue := false, linksAt := none }
    sup := ⟨[], [], none, [], [], [], none⟩
    lnk := ⟨[], [], [], [], none, none⟩
    rte := { offset := 0, slew := 0, asked := none, held := [], changes := [], updates := [], gen := 0 }
    pwr := { validA := none, validB := none, goneA := false, goneB := false, holdThermal := false, holdLeak := false, holdFeeds := false
             charged := [], rails := [], capThrottle := [], droops := [], hotDies := [], urgent := [], pacts := [], offers := []
             diodeRun := [], leak := [], leakDue := false, noticeAt := none, riddled := [], terms := [], pactHeld := [] }
    sec := { doe := ⟨0, [], 1, none⟩, mgmt := ⟨0, [], 1, none⟩, pressed := false, window := none, openRun := 0, svcStale := true
             svcSeq := 0, receiving := none, writing := none, rescue := none, running := ⟨1, 0, []⟩, meas8 := [], romLocked := false
             cmd := none }
    pins := { vaux := true, perst := false, held := none, presence := false, svcEn := false, mateA := false, mateB := false, voltsA := 0
              voltsB := 0 }
    time := 0
    free := 0
    out := []
    pending := [] }

end Sys2Proof.Machine
end

