-- ==== Sys2Proof/Machine/Ops.lean ====
section
/-! DEFINITION. The shared operations: registers and their fields, memory and poison marks, free values, what the module
emits, error records and warnings. -/

namespace Sys2Proof.Machine

/-- A command ends in the state given. -/
abbrev Out.done (s : State) : Host.Outcome State Fault Refusal := .next s

/-! ### Registers -/

/-- The stored value of a register (R10): its Reset column until something writes it. -/
def State.reg (s : State) (off : Nat) : Word := readKey regReset s.regs off

/-- Store a register. -/
def State.setReg (s : State) (off : Nat) (w : Word) : State := { s with regs := writeKey regReset s.regs off w }

/-- The field [hi:lo] of a word. -/
def getBits (w : Word) (f : Fld) : Nat := (w.extractLsb' f.lo (f.hi + 1 - f.lo)).toNat

/-- The mask of a field. -/
def Fld.mask (f : Fld) : Word := (BitVec.allOnes (f.hi + 1 - f.lo)).setWidth 64 <<< f.lo

/-- A word with a field replaced. -/
def putBits (w : Word) (f : Fld) (v : Nat) : Word := (w &&& ~~~f.mask) ||| ((BitVec.ofNat 64 v <<< f.lo) &&& f.mask)

/-- Read a register field. -/
def State.fld (s : State) (f : Fld) : Nat := getBits (s.reg f.off) f

/-- Write a register field; bits beyond its width fall away. -/
def State.setFld (s : State) (f : Fld) (v : Nat) : State := s.setReg f.off (putBits (s.reg f.off) f v)

/-- Write several fields. -/
def State.setFlds (s : State) (l : List (Fld × Nat)) : State := l.foldl (fun s p => s.setFld p.1 p.2) s

/-- The greatest value of a field. -/
def Fld.top (f : Fld) : Nat := 2 ^ (f.hi + 1 - f.lo) - 1

/-- Add to a saturating counter. -/
def State.bump (s : State) (f : Fld) (n : Nat) : State := s.setFld f (min f.top (s.fld f + n))

/-- Is a one-bit field set? -/
def State.bit (s : State) (f : Fld) : Bool := s.fld f == 1

/-- A host write of `v` under the access codes of R12: the fields of the codes that `takes` accepts take their bits of
`v`, W1C fields lose the bits written as 1, every other field stays. -/
def applyWrite (takes : Acc → Bool) (old v : Word) (l : List RegField) : Word :=
  l.foldl (fun w f =>
    let fl : Fld := ⟨0, f.hi, f.lo⟩
    if takes f.acc then putBits w fl (getBits v fl)
    else if f.acc = .w1c then putBits w fl (getBits w fl &&& (fl.top - getBits v fl))
    else w) old

/-- Fields that a plain register write sets (R12): RW fields without a row of their own. -/
def takesPlain (a : Acc) : Bool := a == .rw

/-- Fields that a command register's own row sets: every RW field. -/
def takesAll (a : Acc) : Bool := a == .rw || a == .rwb

/-- A host write to a register under the access codes. -/
def State.writeUnder (s : State) (takes : Acc → Bool) (off : Nat) (v : Word) : State :=
  match regLayout off with
  | some l => s.setReg off (applyWrite takes (s.reg off) v l)
  | none => s

/-- What a read shows of the stored word: WO and W1S fields read zero (R12). -/
def readView (w : Word) (l : List RegField) : Word :=
  l.foldl (fun w f => if f.acc = .wo ∨ f.acc = .w1s then putBits w ⟨0, f.hi, f.lo⟩ 0 else w) w

/-- What a read leaves: RC fields are cleared (R12). -/
def readClear (w : Word) (l : List RegField) : Word :=
  l.foldl (fun w f => if f.acc = .rc then putBits w ⟨0, f.hi, f.lo⟩ 0 else w) w

/-! ### Free values and emissions -/

/-- Take the next free value of the manual's open points (log entry 1). -/
def State.takeFree (s : State) : Word × State := (Config.freeWord s.free, { s with free := s.free + 1 })

/-- Emit something. -/
def State.emit (s : State) (o : Out) : State := { s with out := o :: s.out }

/-! ### Memory -/

/-- Address of byte a of the core store of a physical core. -/
def coreStoreAt (phys a : Nat) : Nat := 2 ^ 40 + phys * 2 ^ 20 + a

/-- Address of byte a of the cluster store of a cluster. -/
def clusterStoreAt (cl a : Nat) : Nat := 2 ^ 41 + cl * 2 ^ 23 + a

/-- What an unlisted byte reads as: zero, as the screen leaves memory (R217) and clears leave stores; inside a hole the
hole's free byte (R229, R247). -/
def Mem.dflt (m : Mem) (a : Nat) : Byte :=
  match m.holes.find? (fun h => decide (h.1 ≤ a ∧ a < h.1 + h.2.1)) with
  | some h => Config.freeByte h.2.2 a
  | none => 0#8

/-- Read one byte. -/
def Mem.read (m : Mem) (a : Nat) : Byte := readKey m.dflt m.cells a

/-- Write one byte. -/
def Mem.write (m : Mem) (a : Nat) (b : Byte) : Mem := { m with cells := writeKey m.dflt m.cells a b }

/-- The canonical form of memory: rising addresses, no entry equal to what an unlisted byte reads as. -/
abbrev Mem.wf (m : Mem) : Bool := canonical m.dflt m.cells

/-- Read n bytes from a on. -/
def Mem.bytes (m : Mem) (a n : Nat) : List Byte := (List.range n).map (fun i => m.read (a + i))

/-- Write bytes from a on; the marks of lines stay. -/
def Mem.put (m : Mem) (a : Nat) : List Byte → Mem
  | [] => m
  | b :: t => (m.write a b).put (a + 1) t

/-- A store of bytes from a on: lines written whole lose their poison mark (R208, R220). -/
def Mem.store (m : Mem) (a : Nat) (l : List Byte) : Mem :=
  { m.put a l with poison := m.poison.filter (fun ln => !decide (a ≤ 64 * ln ∧ 64 * ln + 64 ≤ a + l.length)) }

/-- Does a byte of the range lie in a poisoned line? -/
def Mem.poisoned (m : Mem) (a n : Nat) : Bool :=
  decide (n ≠ 0) && m.poison.any (fun ln => decide (64 * ln < a + n ∧ a < 64 * ln + 64))

/-- Mark a line poisoned. -/
def Mem.mark (m : Mem) (ln : Nat) : Mem := if m.poison.contains ln then m else { m with poison := ln :: m.poison }

/-- The parity of a 32-bit word, the XOR of its bits (R205). -/
def wordParity (w : BitVec 32) : Bool := (List.range 32).foldl (fun p i => p != w.getLsbD i) false

/-- The 32-bit word at an address. -/
def Mem.word32 (m : Mem) (a : Nat) : BitVec 32 := BitVec.ofNat 32 (fromLe (m.bytes a 4))

/-- Does a line stand in a stack with its parity bits inverted (R208)? A line of a store carries a mark of its own (R220). -/
def Mem.inverted (m : Mem) (ln : Nat) : Bool := decide (64 * ln < 2 ^ 40) && m.poison.contains ln

/-- The parity bit stored beside the word at an address (R205, R208). -/
def Mem.parityBit (m : Mem) (a : Nat) : Bool := wordParity (m.word32 a) != m.inverted (a / 64)

/-- How many of a line's sixteen words fail their parity check at a read (R205, R207), of which the words of `flips` come with an odd
number of bits changed; `wordFails_parity` says that this compares each word with its stored bit. -/
def Mem.wordFails (m : Mem) (ln : Nat) (flips : BitVec 16) : Nat :=
  ((List.range 16).filter (fun i => m.inverted ln != flips.getLsbD i)).length

/-- What is left of a hole outside a range. -/
def holeOutside (a n : Nat) (h : Nat × Nat × Nat) : List (Nat × Nat × Nat) :=
  let lo := h.1
  let hi := h.1 + h.2.1
  (if lo < min hi a then [(lo, min hi a - lo, h.2.2)] else [])
  ++ (if max lo (a + n) < hi then [(max lo (a + n), hi - max lo (a + n), h.2.2)] else [])

/-- Clear a range to zero, marks with it (R75, R76, R217, R410). -/
def Mem.clear (m : Mem) (a n : Nat) : Mem :=
  { cells := m.cells.filter (fun c => !decide (a ≤ c.1 ∧ c.1 < a + n)), holes := m.holes.flatMap (holeOutside a n)
    poison := m.poison.filter (fun ln => !decide (a ≤ 64 * ln ∧ 64 * ln + 64 ≤ a + n)) }

/-- The range's contents become undefined: free bytes of a new hole, until written (R229, R247). -/
def Mem.forget (m : Mem) (a n seed : Nat) : Mem :=
  { m with cells := m.cells.filter (fun c => !decide (a ≤ c.1 ∧ c.1 < a + n)), holes := (a, n, seed) :: m.holes }

/-- Make a range undefined. -/
def State.forget (s : State) (a n : Nat) : State := { s with mem := s.mem.forget a n s.free, free := s.free + 1 }

/-- Clear a range of memory or of a store. -/
def State.clearMem (s : State) (a n : Nat) : State := { s with mem := s.mem.clear a n }

/-! ### The settings in force -/

/-- Fabric time (R328): the module's own count of ns and its offset. -/
def State.fabTime (s : State) : Nat := ((s.time : Int) + s.rte.offset).toNat

/-- The time of records and warnings (R375): fabric time, or the time since reset while fabric time is not locked. -/
def State.stampTime (s : State) : Nat := if s.bit fRteStateTimeLocked then s.fabTime else s.time

/-- The node ID: of the image in force, 0 before IMAGE. -/
def State.node (s : State) : Node := match s.img.cfg with
  | some c => c.node
  | none => 0#12

/-- Has bring-up step n completed (R431)? -/
def State.stepDone (s : State) (n : Nat) : Bool := bitOf (s.fld fBringStateDone) (n - 1)

/-- The partition of a context, where its number lies in a partition's range (R29, R88). -/
def State.partOf (s : State) (c : Nat) : Option Nat :=
  if s.bit (fCtxCtlInRange c) then some (s.fld (fCtxCtlPartition c)) else none

/-- The partition of a cluster (R29). -/
def State.partOfCluster (s : State) (n : Nat) : Option Nat :=
  (List.range 4).find? (fun p => bitOf (s.fld (fCtxPartClusters p)) n)

/-- Partition states of R67. -/
def pClosed : Nat := 0
def pOpen : Nat := 1
def pResetting : Nat := 2
def pDown : Nat := 3

/-- Is a context ACTIVE (R70)? -/
def State.active (s : State) (c : Nat) : Bool := s.fld (fCtxCtlState c) == 1

/-- Is a partition OPEN? -/
def State.isOpen (s : State) (p : Nat) : Bool := s.fld (fCtxPartState p) == pOpen

/-! ### Error records -/

/-- Classes of R373. -/
def clsCorrected : Nat := 0
def clsDeferred : Nat := 1
def clsFatalDomain : Nat := 2
def clsFatalModule : Nat := 3

/-- What the caller says of an error: code, class, unit (R376), action, partition, context, detail. -/
structure ErrArg where
  code : Nat
  cls : Nat := 0
  kind : Nat := 0
  unit : Nat := 0
  action : Nat := 0
  part : Option Nat := none
  ctx : Option Nat := none
  detail : List Byte := []
  warning : Bool := false
  defect : Bool := false
  deriving DecidableEq, Repr

/-- The 64 bytes of a record (R375), with the ring generation in the last byte. -/
def ErrRec.bytes (r : ErrRec) (gen : Bool) : List Byte :=
  leBytes 4 r.seq ++ leBytes 4 r.boot ++ leBytes 8 r.time.toNat ++ leBytes 2 r.code ++ leBytes 1 r.cls
  ++ leBytes 1 (ofBool r.timeLocked + 2 * ofBool r.summary + 4 * ofBool r.defect + 8 * ofBool r.warning)
  ++ leBytes 2 r.unit ++ leBytes 1 r.kind ++ leBytes 1 r.action ++ leBytes 2 r.node.toNat
  ++ leBytes 1 (r.part.getD 0xFF) ++ leBytes 1 (r.ctx.getD 0xFF) ++ leBytes 4 r.count
  ++ (r.detail ++ List.replicate 24 0#8).take 24 ++ leBytes 7 0 ++ [if gen then 0x80#8 else 0#8]

/-- Interrupts are raised only once OPEN has completed (R415). -/
def State.msix (s : State) (vector : Nat) : State := if s.stepDone 11 then s.emit (.msix vector) else s

/-- Ring generation of producer index P in a ring of 2^n (R181). -/
def ringGen (p n : Nat) : Bool := p / 2 ^ n % 2 == 0

/-- A record counts towards the error ring's interrupt (R184). -/
def State.errIrq (s : State) : State :=
  let n := s.err.ringCount + 1
  if s.bit fErrRingCfgIrq ∧ n ≥ max 1 (s.fld fErrRingCfgCount) then
    { (s.msix (s.fld fErrRingCfgVector)) with err := { s.err with ringCount := 0, ringFirst := false } }
  else { s with err := { s.err with ringCount := n, ringFirst := true } }

/-- A record goes to the error ring, in two posted writes, or is counted lost when the ring is full (R379). -/
def State.errRing (s : State) (r : ErrRec) : State :=
  if !s.bit fErrRingCfgEnable then s
  else
    let n := s.fld fErrRingCfgLog2size
    let p := s.fld fErrRingStateProducer
    if (p + 2 ^ 24 - s.fld fErrRingStateHead) % 2 ^ 24 < 2 ^ n then
      let a := s.fld fErrRingBaseBase * 32 + p % 2 ^ n * 64
      let b := r.bytes (ringGen p n)
      (((s.emit (.hostWrite a (b.take 63))).emit (.hostWrite (a + 63) (b.drop 63))).setFld fErrRingStateProducer
        ((p + 1) % 2 ^ 24)).errIrq
    else s.bump fErrRingStateLost 1

/-- While the supervisor restores or resynchronises it pauses: BAR0 accesses and records are held (R467, R472). -/
def State.holding (s : State) : Bool := s.sup.restoring.isSome || !s.sup.resync.isEmpty

/-- Show how many management records are queued. -/
def State.mgmtShow (s : State) : State := s.setFld fMgtQueueQueued (min 1024 s.mgmt.queue.length)

/-- An address that has been set, else ff02::1 (R477). -/
def orAllNodes (a : List Byte) : List Byte := if a.all (· == 0#8) then [0xFF#8, 0x02#8] ++ List.replicate 13 0#8 ++ [0x01#8] else a

/-- The addresses of the rack manager and of the fleet collector, and that of the request that is answered (R477). -/
def State.rackTo (s : State) : List Byte := orAllNodes s.mgmt.rackAddr
def State.fleetTo (s : State) : List Byte := orAllNodes s.mgmt.fleetAddr
def State.askerTo (s : State) : List Byte := orAllNodes s.mgmt.asker

/-- The bytes of a record that this module sends with a counter (R474, R475): authenticated while a key is installed. -/
def State.mgmtRecord (s : State) (kind : Nat) (response : Bool) (counter : Nat) (body : List Byte) : List Byte :=
  let b := [0x47#8, 0x4D#8, 0x47#8, 0x54#8, 0x01#8] ++ leBytes 1 kind ++ leBytes 1 (ofBool s.mgmt.key.isSome + 2 * ofBool response) ++ [0#8]
    ++ leBytes 2 s.node.toNat ++ leBytes 2 body.length ++ leBytes 4 0 ++ leBytes 8 (keyTag deviceKey).toNat ++ leBytes 8 counter ++ body
  b ++ (match s.mgmt.key with
    | some k => (hmac384 k b).take 16
    | none => List.replicate 16 0#8)

/-- The UDP port of every record (R473). -/
def mgmtPort : Nat := 7460

/-- The link-local address of the management port (R473): fe80::/64 and device_tag, hash byte 0 first. -/
def linkLocal : List Byte := [0xFE#8, 0x80#8] ++ List.replicate 6 0#8 ++ leBytes 8 (keyTag deviceKey).toNat

/-- The address that records leave from: the global one while there is one (R473). -/
def State.mgmtSource (s : State) : List Byte :=
  if s.bit fMgtLinkGlobal then beBytes 8 (s.fld fMgtAddrhiAddr) ++ beBytes 8 (s.fld fMgtAddrloAddr) else linkLocal

/-- Send one management record now (R475): the counter rises. -/
def State.mgmtSend (s : State) (dest : List (List Byte)) (kind : Nat) (response : Bool) (body : List Byte) : State :=
  let c := s.mgmt.sendCtr + 1
  { s with mgmt := { s.mgmt with sendCtr := c }, out := .mgmt s.mgmtSource mgmtPort dest (s.mgmtRecord kind response c body) :: s.out }

/-- Where records of a type go (R477): ERROR and WARNING to the fleet collector, LAST_GASP and LEAK warnings to both, the rest to the rack
manager. -/
def State.mgmtDest (s : State) (kind : Nat) (body : List Byte) : List (List Byte) :=
  if kind = 1 then [s.fleetTo]
  else if kind = 4 ∨ (kind = 2 ∧ field body 0 1 = 7) then [s.rackTo, s.fleetTo]
  else if kind = 2 then [s.fleetTo] else [s.rackTo]

/-- Send what the queue holds unsent; what needs no acknowledgement leaves the queue (R380, R480). Until the auxiliary stage has
ended (R508), and while the supervisor pauses (R467, R469), nothing is sent. -/
def State.mgmtFlush (s : State) : State :=
  if !s.bit fMgtLinkUp ∨ s.fld fBringStateAux ≤ 1 ∨ s.holding then s
  else
    let r := s.mgmt.queue.foldl (fun (acc : State × List MgmtItem) it =>
      match it.sent with
      | some _ => (acc.1, acc.2 ++ [it])
      | none =>
        let s1 := acc.1.mgmtSend (s.mgmtDest it.kind it.body) it.kind false it.body
        if it.resend then (s1, acc.2 ++ [{ it with sent := some s1.mgmt.sendCtr }]) else (s1, acc.2)) (s, [])
    ({ r.1 with mgmt := { r.1.mgmt with queue := r.2 } }).mgmtShow

/-- Drop the oldest corrected record of a list. -/
def dropCorrected : List MgmtItem → Option (List MgmtItem)
  | [] => none
  | it :: t => if it.corrected then some t else (dropCorrected t).map (it :: ·)

/-- Queue a management record (R380): a full queue drops its oldest corrected record. Where it holds none, a record that
an acknowledgement must take out waits beyond the 1,024, and any other is dropped. -/
def State.mgmtQueue (s : State) (it : MgmtItem) : State :=
  let q := s.mgmt.queue
  let s1 : State :=
    if q.length < 1024 then { s with mgmt := { s.mgmt with queue := q ++ [it] } }
    else match dropCorrected q with
      | some q' => ({ s with mgmt := { s.mgmt with queue := q' ++ [it], dropped := s.mgmt.dropped + 1 } }).bump
          fMgtQueueDropped 1
      | none => if it.resend then { s with mgmt := { s.mgmt with queue := q ++ [it] } } else s
  s1.mgmtShow.mgmtFlush

/-- Write a record to the carry-over area (R380): 256 records; a full area gives up its oldest acknowledged record, else
its oldest deferred record, else its oldest. -/
def carryIn (l : List Carry) (r : ErrRec) : List Carry :=
  let dropFirst (p : Carry → Bool) : List Carry := match l.findIdx? p with
    | some i => l.eraseIdx i
    | none => l
  let l' := if l.length < 256 then l
    else if l.any (·.acked) then dropFirst (·.acked)
    else if l.any (fun c => c.record.cls == 1) then dropFirst (fun c => c.record.cls == 1)
    else l.drop 1
  l' ++ [⟨r, false⟩]

/-- The regions of flash in sectors of 4 KiB, in the order of the table of R459: first sector and number of sectors. DESIGN CHOICE: the table
gives sizes only (log entry 109). -/
def flashRegion : Nat → Nat × Nat
  | 0 => (0, 65536)
  | 1 => (65536, 65536)
  | 2 => (131072, 16)
  | 3 => (131088, 64)
  | 4 => (131152, 16)
  | 5 => (131168, 16)
  | _ => (131184, 16)

/-- A bank that holds no bundle. -/
def FwBank.blank : FwBank := ⟨0, 0, []⟩

/-- Sectors of a region are written: the write counter of each rises (R449). -/
def Flash.wrote (f : Flash) (region : Nat) (l : List Nat) : Flash :=
  { f with writes := l.foldl (fun w k =>
      let n := (flashRegion region).1 + k
      insertKey w n ((lookupKey w n).getD 0 + 1)) f.writes }

/-- ERR.COUNT counts an event of a class (R403). -/
def State.errCount (s : State) (cls n : Nat) : State :=
  match cls with
  | 0 => s.bump fErrCountCorrected n
  | 1 => s.bump fErrCountDeferred n
  | 2 => s.bump fErrCountFatalDomain n
  | _ => ({ s with flash := ({ s.flash with fatalCount := s.flash.fatalCount + n } : Flash).wrote 6 [2] }).setFld fErrCountFatalModule
      (min 255 (s.flash.fatalCount + n))

/-- A platform event waits (R488); with a dynamic address the module signals it by an In-Band Interrupt (R487). -/
def State.event (s : State) (code v : Nat) : State :=
  let s1 := { s with mgmt := { s.mgmt with events := s.mgmt.events ++ [(code, v)] } }
  if s.fld fMgtI3cDynAddr = 0 then s1 else s1.emit .ibi

/-- PLDM state sensor numbers of platform events beside warnings and ports (R488). -/
def evPower : Nat := 0x100
def evLeak : Nat := 0x101
def evSup : Nat := 0x102
def evFw : Nat := 0x104
def evFault : Nat := 0x105

/-- FAULT_N asserted: from a fatal-module error until OPEN completes, while a partition is DOWN, off for heat or a leak, or the
auxiliary stage failed (R491). -/
def State.faultOn (s : State) : Bool :=
  s.flash.fatalSinceOpen || (List.range 4).any (fun p => s.fld (fCtxPartState p) == pDown)
  || s.fld fPwrInputOffReason == 3 || s.fld fPwrInputOffReason == 4 || s.fld fBringStateAux == 3

/-- The fault sensor has changed since an earlier state: an event (R488). -/
def State.faultSince (s before : State) : State := if s.faultOn == before.faultOn then s else s.event evFault (ofBool s.faultOn)

/-- What flash keeps of a deferred or fatal record (R380, R381), and that a fatal-module record came (R508). -/
def State.errFlash (s : State) (r : ErrRec) : State :=
  if r.cls = 0 then s
  else
    let f : Flash := { s.flash with
      carry := carryIn s.flash.carry r
      fatalSinceOpen := s.flash.fatalSinceOpen || decide (r.cls = 3)
      fatals := if r.cls ≥ 2 then (s.flash.fatals ++ [r]).drop (s.flash.fatals.length + 1 - 64) else s.flash.fatals }
    let f1 := f.wrote 5 [(f.carry.length - 1) / 64]
    ({ s with flash := if r.cls ≥ 2 then f1.wrote 4 [0] else f1 }).faultSince s

/-- The record's sequence number, and the next (R375). -/
def nextSeq (n : Nat) : Nat := if n ≥ 0xFFFFFFFF then 1 else n + 1

/-- Report a record on both paths (R374): AER and the error ring; the management queue and flash. -/
def State.report (s : State) (r : ErrRec) : State :=
  let s1 := { s with err := { s.err with seq := nextSeq s.err.seq, lastTwo := (s.err.lastTwo ++ [r]).drop (s.err.lastTwo.length - 1) }
                     mgmt := { s.mgmt with
                       telCorrected := s.mgmt.telCorrected + (if r.cls = 0 ∧ !r.summary then 1 else 0)
                       telDeferred := s.mgmt.telDeferred + (if r.cls = 1 then 1 else 0) } }
  let s2 := (s1.errFlash r).emit (.aer (if r.cls = 0 then 0 else if r.cls = 3 then 2 else 1))
  (s2.errRing r).mgmtQueue ⟨1, r.bytes false, decide (r.cls ≠ 0), decide (r.cls = 0), none⟩

/-- The record of an error now (R375). -/
def State.mkRec (s : State) (e : ErrArg) : ErrRec :=
  { seq := s.err.seq, boot := s.flash.boot, time := BitVec.ofNat 64 s.stampTime, timeLocked := s.bit fRteStateTimeLocked
    code := e.code, cls := e.cls, summary := false, defect := e.defect, warning := e.warning, unit := e.unit
    kind := e.kind, action := e.action, node := s.node, part := e.part, ctx := e.ctx, count := 1, detail := e.detail }

/-- Log an error (R373–R378): it is counted and reported, but a corrected error with the code and unit of another within
the last second only joins that second's summary. The class's reset, if any, is the caller's. -/
def State.log (s : State) (e : ErrArg) : State :=
  let s1 := s.errCount e.cls 1
  let same (w : Summary) : Bool := w.record.code == e.code && w.record.unit == e.unit && w.record.kind == e.kind
  if e.cls = 0 ∧ s1.err.window.any same then
    { s1 with err := { s1.err with window := s1.err.window.map (fun w => if same w then { w with more := w.more + 1 } else w) }
              mgmt := { s1.mgmt with telCorrected := s1.mgmt.telCorrected + 1 } }
  else
    let r := s1.mkRec e
    let s2 := s1.report r
    if e.cls = 0 then { s2 with err := { s2.err with window := s2.err.window ++ [⟨r, 0⟩] } } else s2

/-! ### Fleet warnings and the defect log -/

/-- A fleet warning (R482): code, state 0 RAISED 1 REPEAT 2 CLEARED, unit, detail. Every warning is also a PLDM event
(R488). -/
def State.sendWarning (s : State) (code st kind unit : Nat) (detail : List Byte) : State :=
  let body := leBytes 1 code ++ leBytes 1 st ++ leBytes 1 kind ++ [0#8] ++ leBytes 2 unit ++ leBytes 2 0
    ++ leBytes 8 s.stampTime ++ (detail ++ List.replicate 16 0#8).take 16
  (s.event code st).mgmtQueue ⟨2, body, false, false, none⟩

/-- Warnings that are never active (R483). -/
def neverActive (code : Nat) : Bool := code == 0x0A || code == 0x0B

/-- Is a warning active for some unit (R483)? -/
def State.warned (s : State) (code : Nat) : Bool := s.mgmt.active.any (fun w => w.1 == code)

/-- Raise a unit's warning (R483); one that is active already is not raised again. DEDUCED: a warning is active for the unit it names, so
that a second unit's is raised beside the first's (log entry 111). -/
def State.raise (s : State) (code kind unit : Nat) (detail : List Byte) : State :=
  if s.mgmt.active.contains (code, unit) then s
  else
    let s1 := s.sendWarning code 0 kind unit detail
    if neverActive code then s1 else { s1 with mgmt := { s1.mgmt with active := (code, unit) :: s1.mgmt.active } }

/-- Clear a unit's active warning (R483). -/
def State.clearWarning (s : State) (code kind unit : Nat) : State :=
  if s.mgmt.active.contains (code, unit) then
    ({ s with mgmt := { s.mgmt with active := s.mgmt.active.filter (· != (code, unit)) } }).sendWarning code 2 kind unit []
  else s

/-- Has the field defect log room for an entry (R389)? A record's flag defect_logged says so (R375). -/
def State.canList (s : State) : Bool := decide (s.flash.defects.length < 16384)

/-- Enter a unit in the field defect log (R389): a full log lists nothing, logs DEFECT_LOG_FULL and warns. -/
def State.defectAt (s : State) (row : Bool) (kind source unit location code flags : Nat) : State :=
  if s.flash.defects.length < 16384 then
    let d : Defect := ⟨row, kind, source, unit, location, s.flash.boot, code, flags⟩
    let l := s.flash.defects ++ [d]
    ({ s with flash := ({ s.flash with defects := l } : Flash).wrote 3 [s.flash.defects.length / 256] }).setFld fErrDlogEntries l.length
  else (s.log { code := 0x0706, kind := kind, unit := unit, warning := true }).raise 0x0C kind unit []

/-- Enter a unit, or a row or bank of a stack, in the defect log. -/
def State.defect (s : State) (kind source unit location code flags : Nat) : State :=
  s.defectAt false kind source unit location code flags

/-- Does the field defect log list a unit, or a row of its store? Repaired memory entries do not count (R215). -/
def Flash.lists (f : Flash) (row : Bool) (kind unit location : Nat) : Bool :=
  f.defects.any (fun d => d.row == row && d.kind == kind && d.unit == unit && d.location == location && d.flags % 2 == 0)

/-! ### Ports -/

/-- Attestation of a port before it begins. -/
def Attest.fresh : Attest :=
  { begun := false, refused := false, helloIn := false, certOk := false, shares := 0, proofs := 0, finishOut := false, finishIn := false, since := none
    txNamed := none, rxNamed := none, acked := false, txSealed := false, rxSealed := false, rekey := false, rekeyShares := 0
    mine := [], theirs := [], peerCert := [], shareIn := [], proofIn := [], rekeyIn := [], secret := 0, rekeySecret := 0, finKey := [] }

/-- The state of a port, or that of a port that has not trained. -/
def PortSt.fresh : PortSt :=
  { seen := [], hits := [], misses := [], offsets := [], locked := [], accepted := [], done := false, peerDone := none, taps := []
    tapNum := [], peerTaps := [], reqNum := [], token := 0, peerToken := 0, identIn := false, echoed := false, retried := false, frames := 0
    lanes := [], txWidth := 0, rxLanes := [], rxWidth := 0, minPeer := 0, txCtr := 0, rxCtr := 0, txBlocks := 0, rxBlocks := 0
    superframes := 0, retained := [], resend := [], winFull := false, nakDue := false, nakWait := false, nakRun := 0, laneMet := false
    txq := [], blocked := [], xq := [], xwait := [], tq := [], credits := [], served := 0, xserved := 0, xTx := 0, xRx := 0, rxRest := 0
    delivered := [], uncorr := [], switches := []
    att := Attest.fresh, txKey := [], txNext := [], rxKey := [], rxOld := [], rxNext := [], rxFrom := 0
    keyBlocks := 0 }

/-- Port state UP_SEALED (R286). -/
def stSealed : Nat := 3

/-- The port's state beyond its registers. -/
def State.portSt (s : State) (p : Nat) : PortSt := (lookupKey s.lnk.ports p).getD PortSt.fresh

/-- Change it. -/
def State.modPort (s : State) (p : Nat) (f : PortSt → PortSt) : State :=
  { s with lnk := { s.lnk with ports := insertKey s.lnk.ports p (f (s.portSt p)) } }

/-- Send an express flit of no group on a port (R264): it waits for slot 0 of the next codewords. -/
def State.sendExpress (s : State) (p : Nat) (b : List Byte) : State :=
  (s.emit (.flit p b)).modPort p (fun x => { x with xq := x.xq ++ [⟨none, b, false⟩] })

/-! ### The host's side of BAR0 -/

/-- Does the module answer accesses at this offset (R415, R419)? During the auxiliary stage only BRING and RST, without VAUX none. -/
def State.answers (s : State) (off : Nat) : Bool :=
  s.pins.vaux && (s.fld fBringStateAux ≥ 2 || off < 0x100000 || (off / 0x100000 == 0x10))

/-- Does the module take writes at this offset (R415)? During the auxiliary stage only RST. -/
def State.takesWrites (s : State) (off : Nat) : Bool := s.pins.vaux && (s.fld fBringStateAux ≥ 2 || off / 0x100000 == 0x10)

/-- Is an offset of BAR0 on the compatibility page (R194)? -/
def onCompat (off : Nat) : Bool := off / 0x1000 == 0xF00

/-- The size in bytes of the accesses that a page of BAR0 asks for (R5, R192). -/
def accessSize (off : Nat) : Nat := if onCompat off then 4 else 8

/-- Hold an access to BAR0 (R472). -/
def State.hold (s : State) (a : HeldAcc) : State := { s with sup := { s.sup with held := s.sup.held ++ [a] } }

/-- A host write to BAR0 at an offset: discarded during the auxiliary stage, held while the supervisor restores,
otherwise `f`. -/
def State.hostWrite (s : State) (off : Nat) (v : Word) (obs : HostObs) (f : State → State) : State :=
  if !s.takesWrites off then s
  else if s.holding then s.hold ⟨off, accessSize off, .wr v, obs⟩
  else f s

end Sys2Proof.Machine
end

