-- ==== Sys2Proof/Machine/Fabric.lean ====
section
/-! DEFINITION. Translation, page tables, frames and the map commands (R223–R233), and what a home does with a request
(R229–R241). -/

namespace Sys2Proof.Machine

/-- Key of the leaf of a 2 MiB page of a context. -/
def leafKey (ctx page : Nat) : Nat := ctx * 2 ^ 31 + page

/-- The leaf that maps a fabric virtual address (R223, R226): a 2 MiB leaf, or the 1 GiB leaf of its gigabyte. -/
def State.leafAt (s : State) (ctx : Nat) (va : Word) : Option Leaf :=
  if va.toNat ≥ 2 ^ 52 then none
  else match lookupKey s.fab.leaves (leafKey ctx (va.toNat / 2 ^ 21)) with
    | some l => some l
    | none => match lookupKey s.fab.leaves (leafKey ctx (va.toNat / 2 ^ 30 * 512)) with
      | some l => if l.big then some l else none
      | none => none

/-- Permission bits of a leaf (R227). -/
def permRead : Nat := 2
def permWrite : Nat := 3
def permAtomic : Nat := 4

/-- Units with a translation cache (R234): the network interface of each cluster by its number, a copy engine of each hub die, the
host window. -/
def unitCopy (q : Nat) : Nat := 32 + q % 2
def unitHost : Nat := 34

/-- The leaf of an address among leaves by key: a 2 MiB leaf, or the 1 GiB leaf of its gigabyte. -/
def leafIn (l : List (Nat × Leaf)) (ctx : Nat) (va : Word) : Option (Nat × Leaf) :=
  l.find? (fun p => p.1 == leafKey ctx (va.toNat / 2 ^ 21) || (p.2.big && p.1 == leafKey ctx (va.toNat / 2 ^ 30 * 512)))

/-- The entries of a unit's translation cache. -/
def State.cacheOf (s : State) (u : Nat) : List (Nat × Leaf) := (lookupKey s.fab.caches u).getD []

/-- The leaf by which a unit translates an address (R233, R234): its cache's, else, for a copy under way, the old entry that an UNMAP
or PROTECT is dropping, else the table's. An engine without a cache walks the tables. -/
def State.leafVia (s : State) (u : Option Nat) (ctx : Nat) (va : Word) : Option Leaf :=
  match u with
  | none => s.leafAt ctx va
  | some n =>
    if va.toNat ≥ 2 ^ 52 then none
    else match leafIn (s.cacheOf n) ctx va with
      | some p => some p.2
      | none => match (if n = 32 ∨ n = 33 then s.fab.dropping.bind (fun d => leafIn d.leaves ctx va) else none) with
        | some p => some p.2
        | none => s.leafAt ctx va

/-- The global physical address that a leaf gives a fabric virtual address where it grants the permission (R226). -/
def Leaf.gpa (l : Leaf) (va : Word) (perm : Nat) : Option Nat :=
  if l.entry.getLsbD perm then
    some (bitsOf l.entry.toNat 51 21 * 2 ^ 21 + va.toNat % (if l.big then 2 ^ 30 else 2 ^ 21))
  else none

/-- Global physical address of a fabric virtual address as a unit translates it; none where the address is unmapped or its page
refuses the access (R226, R231). -/
def State.translateVia (s : State) (u : Option Nat) (ctx : Nat) (va : Word) (perm : Nat) : Option Nat :=
  (s.leafVia u ctx va).bind (fun l => l.gpa va perm)

/-- The same by the tables. -/
def State.translate (s : State) (ctx : Nat) (va : Word) (perm : Nat) : Option Nat := s.translateVia none ctx va perm

/-- A unit's cache takes the entry of an address that it did not hold; the oldest of 2,048 leaves (R234; log entry 92). -/
def State.cacheNote (s : State) (u ctx : Nat) (va : Word) : State :=
  match leafIn (s.cacheOf u) ctx va, s.leafVia (some u) ctx va with
  | none, some l =>
    let key := leafKey ctx (if l.big then va.toNat / 2 ^ 30 * 512 else va.toNat / 2 ^ 21)
    { s with fab := { s.fab with caches := insertKey s.fab.caches u (((key, l) :: s.cacheOf u).take 2048) } }
  | _, _ => s

/-- Do all bytes of a run translate with the permission? Checked at each 2 MiB page it touches. -/
def State.translates (s : State) (ctx : Nat) (va : Word) (n perm : Nat) : Bool :=
  let first := va.toNat / 2 ^ 21
  let last := (va.toNat + n - 1) / 2 ^ 21
  (List.range (last + 1 - first)).all (fun i => (s.translate ctx (BitVec.ofNat 64 ((first + i) * 2 ^ 21)) perm).isSome)

/-- Bytes of a run up to the end of its 2 MiB page. -/
def pageRest (va n : Nat) : Nat := min n (2 ^ 21 - va % 2 ^ 21)

/-- A run of fabric virtual bytes cut at 2 MiB pages: (address, offset, length), at most `f` pieces. -/
def pieces : Nat → Nat → Nat → Nat → List (Nat × Nat × Nat)
  | 0, _, _, _ => []
  | f + 1, va, off, n =>
    if n = 0 then [] else let k := pageRest va n; (va, off, k) :: pieces f (va + k) (off + k) (n - k)

/-- A unit's cache takes the entries of a run. -/
def State.cacheRun (s : State) (u : Option Nat) (ctx va n : Nat) : State :=
  match u with
  | none => s
  | some c => (pieces (n / 2 ^ 21 + 2) va 0 n).foldl (fun s p => s.cacheNote c ctx (BitVec.ofNat 64 p.1)) s

/-- Every translation cache drops the entries of leaves (R233). -/
def State.cacheDrop (s : State) (keys : List Nat) : State :=
  { s with fab := { s.fab with caches := s.fab.caches.map (fun c => (c.1, c.2.filter (fun p => !keys.contains p.1))) } }

/-- Node and local address of a global physical address (R224). -/
def gpaNode (g : Nat) : Nat := g / 2 ^ 40 % 4096
def gpaLocal (g : Nat) : Nat := g % 2 ^ 40

/-! ### Packets (R287, R288) -/

/-- Fabric time in µs, modulo 256: the stamp of a packet at injection. -/
def State.usNow (s : State) : Nat := s.fabTime / 1000 % 256

/-- Class of a packet kind (R288): 0 request, 1 reply, 2 collective; none for a kind that no router knows. -/
def classOf (k : Nat) : Option Nat :=
  if [0x10, 0x11, 0x12, 0x13, 0x30, 0x31].contains k then some 0
  else if [0x18, 0x19, 0x1A, 0x1B].contains k then some 1
  else if [0x20, 0x21, 0x22].contains k then some 2 else none

/-- A packet's class (R287, R288, R307). -/
def pktClass (p : Pkt) : Nat := if p.tunnel then 0 else (classOf p.kind.toNat).getD 3

/-- The 8-byte header (R287). -/
def pktHeader (p : Pkt) : Nat :=
  p.stamp.toNat * 2 ^ 56 + p.len.val * 2 ^ 50 + pktClass p % 4 * 2 ^ 48 + p.stage.val * 2 ^ 45 + p.phase.val * 2 ^ 43 + p.last.val * 2 ^ 40
  + p.src.toNat * 2 ^ 28 + p.dst.toNat * 2 ^ 16 + p.sub.toNat * 2 ^ 9 + ofBool p.adv * 2 ^ 8 + p.kind.toNat

/-- A packet's bytes: header and body, cut or filled with zeros to its flits. -/
def pktBytes (p : Pkt) : List Byte :=
  let n := 64 * (p.len.val + 1)
  (leBytes 8 (pktHeader p) ++ p.body ++ List.replicate n 0#8).take n

/-- Flits of a packet with so many bytes of body, minus 1 (R287). -/
def flitsLess (n : Nat) : Nat := (8 + n + 63) / 64 - 1

/-- A packet of this module as it is injected. -/
def State.mkPkt (s : State) (kind : Nat) (dst : Node) (frame : Nat) (body : List Byte) : Pkt :=
  { src := s.node, dst := dst, kind := BitVec.ofNat 8 kind, tunnel := false, stage := 0, phase := 0, last := 7, sub := 0#7, adv := false
    stamp := BitVec.ofNat 8 s.usNow, len := Fin.ofNat 64 (min 63 (flitsLess body.length)), frame := BitVec.ofNat 32 frame, body := body }

/-- Body of a request (R288): address, job tag, context, atomic operation, identifier, then the data. -/
def requestBody (gpa tag ctx op id : Nat) (data : List Byte) : List Byte :=
  leBytes 8 gpa ++ leBytes 2 tag ++ leBytes 1 ctx ++ leBytes 1 op ++ leBytes 4 id ++ data

/-- Body of a reply (R288): identifier, status, zeros to byte 15, then the data. -/
def replyBody (id status : Nat) (data : List Byte) : List Byte := leBytes 4 id ++ leBytes 1 status ++ List.replicate 11 0#8 ++ data

/-- Frame of a global address (R293). -/
def frameOf (g : Nat) : Nat := g / 2 ^ 21

/-- Hand a packet to the router. -/
def State.sendPkt (s : State) (kind : Nat) (dst : Node) (frame : Nat) (body : List Byte) (poisoned : List Nat) : State :=
  s.emit (.packet (s.mkPkt kind dst frame body) poisoned)

/-- Context space ends here, memory ends here (R202). -/
def contextSpaceEnd : Nat := 0x8600000000
def memoryEnd : Nat := 0x861C468000

/-! ### Interleave (R203) -/

/-- The mixing function of R203. -/
def mix (v key : Nat) : Nat :=
  let h := (v ^^^ key) % 2 ^ 32
  let h := h ^^^ (h / 2 ^ 13)
  let h := h * 0x5BD1E995 % 2 ^ 32
  h ^^^ (h / 2 ^ 15)

/-- Granule in bytes (R32). -/
def granuleBytes (g : Nat) : Nat := if g = 0 then 256 else if g = 1 then 512 else if g = 2 then 1024 else 4096

/-- Stack, pseudo-channel, chunk and byte of a local physical address under an interleave (R203). -/
def locate (granule scope key a : Nat) : Nat × Nat × Nat × Nat :=
  let gb := granuleBytes granule
  let die := a / (144 * 10 ^ 9)
  let g := if scope = 0 then a / gb else (a - die * (144 * 10 ^ 9)) / gb
  let w := if scope = 0 then 12 else 3
  let grp := g / w
  let stack := (if scope = 0 then 0 else 3 * die) + (g % w + mix grp key % w) % w
  let s := grp * gb + a % gb
  let c := s / 256
  (stack, (c % 64) ^^^ (mix (c / 64) key % 64), c / 64, s % 256)

/-- The row that holds a local physical address under the interleave in force (R203). -/
def State.rowOf (s : State) (a : Nat) : RowKey :=
  let l := locate (s.fld fMemcMapGranule) (s.fld fMemcMapScope) (s.fld fMemcMapKey) a
  let o := l.2.2.1 * 256 + l.2.2.2
  ⟨l.1, l.2.1, o / 2 ^ 24, o % 2 ^ 24 / 1024⟩

/-! ### Frames and their borrowers (R229–R231) -/

/-- Job tag of a context (R230). -/
def State.jobTag (s : State) (c : Nat) : Nat := s.fld (fZfJobTag c)

/-- The frame of a local address, where it is owned. -/
def State.frameAt (s : State) (a : Nat) : Option Frame :=
  match lookupKey s.fab.frames (a / 2 ^ 21) with
  | some f => if f.use = 0 then none else some f
  | none => none

/-- Does the home admit an access (R230)? `need` is 1 for a read, 2 for a write, 3 for an atomic. -/
def State.admits (s : State) (src : Node) (ctx tag need a : Nat) : Bool :=
  match s.frameAt a with
  | some f => (src == s.node && f.owner == ctx) || (decide (need ≤ f.exp) && s.jobTag f.owner == tag)
  | none => false

/-- The refusal of a borrowed access is logged (R231). -/
def State.borrowRefused (s : State) (src : Node) (ctx a : Nat) : State :=
  s.log { code := 0x0407, kind := 0, unit := 0, ctx := none
          detail := leBytes 2 src.toNat ++ leBytes 1 ctx ++ leBytes 4 (a / 2 ^ 21) }

/-- Poisoned lines that a range touches, as offsets from its start. -/
def Mem.poisonedOffsets (m : Mem) (a n : Nat) : List Nat :=
  if n = 0 then []
  else (List.range ((a + n + 63) / 64 - a / 64)).filterMap (fun i =>
    if m.poison.contains (a / 64 + i) then some (64 * (a / 64 + i) - a) else none)

/-- The new value of an atomic (R240): 0 AADD, 1 AMIN, 2 AMAX, 3 ASWP, 4 ACAS. -/
def atomicNew (op : Nat) (old arg cmp : Word) : Word :=
  match op with
  | 0 => old + arg
  | 1 => if old.toInt ≤ arg.toInt then old else arg
  | 2 => if old.toInt ≥ arg.toInt then old else arg
  | 3 => arg
  | _ => if old = cmp then arg else old

/-- The 64-bit word at an address. -/
def Mem.word (m : Mem) (a : Nat) : Word := BitVec.ofNat 64 (fromLe (m.bytes a 8))

/-- What a home answers to one access: a status of R13, bytes or old value, the poisoned lines' offsets. -/
structure HomeAns where
  status : Nat
  data : List Byte
  poisoned : List Nat
  deriving DecidableEq, Repr

/-- An activation of a row (R212): at the threshold its neighbours are refreshed and it counts from zero. -/
def State.activateRow (s : State) (r : RowKey) : State :=
  let c := ((s.dram.acts.lookup r).getD 0) + 1
  let l := s.dram.acts.filter (fun p => p.1 != r)
  if c ≥ s.fld (fMemcStkDisturbThreshold r.stack) then
    ({ s with dram := { s.dram with acts := l } }).emit (.refreshNeighbours r.stack r.pc r.bank r.row)
  else { s with dram := { s.dram with acts := (r, c) :: l } }

/-- Activations of the rows of an access: those of every line that it touches. -/
def State.activate (s : State) (a n : Nat) : State :=
  if n = 0 then s
  else (((List.range ((a + n + 63) / 64 - a / 64)).map (fun i => s.rowOf (64 * (a / 64 + i)))).eraseDups).foldl State.activateRow s

/-! ### Lines of the stacks: reads, poison (R205–R208, R213) -/

/-- Nanoseconds of 24 hours and of an hour. -/
def dayNs : Nat := 86400 * 10 ^ 9
def hourNs : Nat := 3600 * 10 ^ 9

/-- The last event of a stack (R222): 1 corrected re-read, 2 poisoned, 3 remap. -/
def State.stackLast (s : State) (kind : Nat) (r : RowKey) : State :=
  s.setFlds [(fMemcStkLastKind r.stack, kind), (fMemcStkLastPc r.stack, r.pc), (fMemcStkLastBank r.stack, r.bank),
    (fMemcStkLastRow r.stack, r.row)]

/-- A row waits to be remapped (R213). -/
def State.dueRow (s : State) (r : RowKey) : State :=
  if s.dram.rowDue.contains r then s else { s with dram := { s.dram with rowDue := s.dram.rowDue ++ [r] } }

/-- A line becomes poisoned: the mark, and in a stack its row is due for a remap (R208, R213). -/
def State.markLine (s : State) (line : Nat) : State :=
  if s.mem.poison.contains line then s
  else
    let s1 := { s with mem := s.mem.mark line }
    if 64 * line < memoryEnd then s1.dueRow (s1.rowOf (64 * line)) else s1

/-- Row detail of an error record: pseudo-channel, bank, row. -/
def RowKey.detail (r : RowKey) : List Byte := leBytes 1 r.pc ++ leBytes 1 r.bank ++ leBytes 2 r.row

/-- A read ends with the line poisoned (R207, steps 3 and 4): it is written back so and LINE_POISONED is logged; a line that was not
poisoned counts. -/
def State.poisonLine (s : State) (line : Nat) : State :=
  let r := s.rowOf (64 * line)
  let s1 := if s.mem.poison.contains line then s else (s.markLine line).bump (fMemcStkErrPoisoned r.stack) 1
  (s1.stackLast 2 r).log { code := 0x0302, cls := 1, kind := 5, unit := r.stack, action := 3, detail := leBytes 8 (64 * line) }

/-- A re-read delivers clean data (R207, R213): counted against the row; sixteen within 24 hours make a remap due. -/
def State.reread (s : State) (line : Nat) : State :=
  let r := s.rowOf (64 * line)
  let l := s.dram.rereads.filter (fun p => decide (s.time < p.2 + dayNs)) ++ [(r, s.time)]
  let s1 := { s with dram := { s.dram with rereads := l } }
  let s2 := (s1.bump (fMemcStkErrRereadOk r.stack) 1).stackLast 1 r
  let s3 := s2.log { code := 0x0301, kind := 5, unit := r.stack, action := 2, detail := r.detail }
  if (l.filter (fun p => p.1 == r)).length ≥ 16 then s3.dueRow r else s3

/-- How the read flow of a line ends (R207). -/
inductive LineEnd where
  | clean | reread | poisoned
  deriving DecidableEq, Repr

/-- Words that fail at the i-th read of a line (R207): all sixteen where the stack reports an uncorrected error. -/
def lineFails (m : Mem) (o : LineObs) (i : Nat) : Nat :=
  let r := o.reads.getD i ⟨false, 0#16⟩
  if r.uncorrected then 16 else m.wordFails o.line r.flips

/-- The read flow of a line (R207): its end and how many times the line is read. -/
def lineFlow (m : Mem) (o : LineObs) : LineEnd × Nat :=
  if lineFails m o 0 = 0 then (.clean, 1)
  else if lineFails m o 0 = 16 then (.poisoned, 1)
  else if lineFails m o 1 = 0 then (.reread, 2)
  else if lineFails m o 2 = 0 then (.reread, 3)
  else if lineFails m o 3 = 0 then (.reread, 4)
  else (.poisoned, 4)

/-- A controller reads a line (R207, R212): each further read activates its row. -/
def State.lineRead (s : State) (o : LineObs) : State :=
  let f := lineFlow s.mem o
  let r := s.rowOf (64 * o.line)
  let s1 := (List.replicate (f.2 - 1) r).foldl State.activateRow s
  let s2 := if o.onDie then s1.bump (fMemcStkErrEccCorrected r.stack) 1 else s1
  match f.1 with
  | .clean => s2
  | .reread => s2.reread o.line
  | .poisoned => s2.poisonLine o.line

/-- The lines of a range whose read is more than a clean delivery: the poisoned ones and those that the world names, each once. -/
def Mem.linesMet (m : Mem) (a n : Nat) (obs : List LineObs) : List LineObs :=
  (((m.poison ++ obs.map (·.line)).filter (fun ln => decide (n ≠ 0 ∧ 64 * ln < a + n ∧ a < 64 * ln + 64))).eraseDups).map
    (fun ln => (obs.find? (fun o => o.line == ln)).getD ⟨ln, false, []⟩)

/-- The lines of a range are read (R207); the lines that come poisoned. -/
def State.lineReads (s : State) (a n : Nat) (obs : List LineObs) : State × List Nat :=
  (s.mem.linesMet a n obs).foldl (fun acc o =>
    (acc.1.lineRead o, if (lineFlow acc.1.mem o).1 = .poisoned then acc.2 ++ [o.line] else acc.2)) (s, [])

/-- Lines of a range as offsets from its start, rising. -/
def lineOffsets (a n : Nat) (ls : List Nat) : List Nat :=
  if ls = [] then []
  else (List.range ((a + n + 63) / 64 - a / 64)).filterMap (fun i =>
    if ls.contains (a / 64 + i) then some (64 * (a / 64 + i) - a) else none)

/-- A read at this home (R207, R208, R229, R231). -/
def State.homeRead (s : State) (src : Node) (ctx tag a n : Nat) (obs : List LineObs) : State × HomeAns :=
  if s.admits src ctx tag 1 a then
    let r := (s.activate a n).lineReads a n obs
    let p := lineOffsets a n r.2
    (r.1, ⟨if p = [] then 0 else 8, s.mem.bytes a n, p⟩)
  else (s.borrowRefused src ctx a, ⟨4, [], []⟩)

/-- A write at this home (R208, R230, R231). -/
def State.homeWrite (s : State) (src : Node) (ctx tag a : Nat) (d : List Byte) : State × HomeAns :=
  if s.admits src ctx tag 2 a then
    ({ (s.activate a d.length) with mem := s.mem.store a d }, ⟨0, [], []⟩)
  else (s.borrowRefused src ctx a, ⟨4, [], []⟩)

/-- An atomic at this home (R207, R208, R240, R241): its line is read; one that comes poisoned refuses it with POISONED. -/
def State.homeAtomic (s : State) (src : Node) (ctx tag a op : Nat) (arg cmp : Word) (obs : List LineObs) : State × HomeAns :=
  if !s.admits src ctx tag 3 a then (s.borrowRefused src ctx a, ⟨4, [], []⟩)
  else
    let r := (s.activate a 8).lineReads a 8 obs
    if r.2 ≠ [] then (r.1, ⟨8, [], []⟩)
    else
      let old := s.mem.word a
      ({ r.1 with mem := r.1.mem.store a (leBytes 8 (atomicNew op old arg cmp).toNat) }, ⟨0, leBytes 8 old.toNat, []⟩)

/-! ### Map commands (R232, R233) -/

/-- The L1 and L0 tables that a set of leaves needs (R226, R228): an L1 table as 2 × its number of 512 GiB, an L0 table as 1 + 2 × its
number of 1 GiB, both over all contexts. -/
def tablesOf (l : List (Nat × Leaf)) : List Nat :=
  let ups : List Nat := l.map (fun p => 2 * (p.1 / 2 ^ 18))
  let low : List Nat := (l.filter (fun p => !p.2.big)).map (fun p => 2 * (p.1 / 512) + 1)
  (ups ++ low).eraseDups

/-- Tables of the shared pool that a set of leaves needs (R228). -/
def tablesUsed (l : List (Nat × Leaf)) : Nat := (tablesOf l).length

/-- The lowest slot of the pool that no table holds. -/
def freeSlot (l : List (Nat × Nat)) : Nat := ((List.range (l.length + 1)).find? (fun n => !l.any (fun p => p.2 == n))).getD 0

/-- Tables that the leaves need take a slot, those they no longer need return theirs (R228), and the free count shows. -/
def State.showTables (s : State) : State :=
  let need := tablesOf s.fab.leaves
  let kept := s.fab.tables.filter (fun p => need.contains p.1)
  let l := (need.filter (fun k => !kept.any (fun p => p.1 == k))).foldl (fun (l : List (Nat × Nat)) k => l ++ [(k, freeSlot l)]) kept
  ({ s with fab := { s.fab with tables := l } }).setFld fZfTablesFree (32768 - l.length)

/-- A pointer entry (R227): the 2 MiB area of the module region that holds a slot of the pool, and the slot within it. -/
def pointerEntry (n : Nat) : Word :=
  BitVec.ofNat 64 ((contextSpaceEnd / 2 ^ 21 + Config.tableArea % 128 + n / 512) * 2 ^ 21 + n % 512 * 2 ^ 12 + 1)

/-- The entry of a table that points to the table with a key; zero where that table is not there. -/
def State.pointerTo (s : State) (key : Nat) : Word :=
  match s.fab.tables.find? (fun p => p.1 == key) with
  | some p => pointerEntry p.2
  | none => 0#64

/-- Entries of a context's tables (R226, R227) by the bits of the fabric virtual address that lead to them: of the root by [51:39], of an
L1 table by [51:30], of an L0 table by [51:21]. -/
def State.rootEntry (s : State) (ctx i : Nat) : Word := s.pointerTo (2 * (leafKey ctx (i * 2 ^ 18) / 2 ^ 18))

def State.l1Entry (s : State) (ctx i : Nat) : Word :=
  match lookupKey s.fab.leaves (leafKey ctx (i * 512)) with
  | some l => if l.big then l.entry else s.pointerTo (2 * (leafKey ctx (i * 512) / 512) + 1)
  | none => s.pointerTo (2 * (leafKey ctx (i * 512) / 512) + 1)

def State.l0Entry (s : State) (ctx i : Nat) : Word :=
  match lookupKey s.fab.leaves (leafKey ctx i) with
  | some l => if l.big then 0#64 else l.entry
  | none => 0#64

/-- A run of pages that a map command names. -/
structure PageRun where
  ctx : Nat
  va : Nat
  gpa : Nat
  count : Nat
  big : Bool
  exp : Nat
  perms : Nat
  deriving DecidableEq, Repr

/-- Size of a page in bytes. -/
def PageRun.size (r : PageRun) : Nat := if r.big then 2 ^ 30 else 2 ^ 21

/-- Page numbers, in 2 MiB units, of the run's pages. -/
def PageRun.pages (r : PageRun) : List Nat := (List.range r.count).map (fun i => (r.va + i * r.size) / 2 ^ 21)

/-- Global addresses of the run's pages; one past the highest node stays past it. -/
def PageRun.gpas (r : PageRun) : List Nat := (List.range r.count).map (fun i => r.gpa + i * r.size)

/-- Pages of the run that lie at a node, by their global addresses. -/
def PageRun.at (r : PageRun) (node : Node) : List Nat := r.gpas.filter (fun g => g / 2 ^ 40 == node.toNat)

/-- Frames of the run that lie at a node. -/
def PageRun.frames (r : PageRun) (node : Node) : List Nat :=
  (r.at node).flatMap (fun g => (List.range (r.size / 2 ^ 21)).map (fun i => gpaLocal g / 2 ^ 21 + i))

/-- The leaf of page i of the run (R227). -/
def PageRun.leaf (r : PageRun) (i : Nat) : Leaf :=
  ⟨BitVec.ofNat 64 ((r.gpa + i * r.size) % 2 ^ 52 / 2 ^ 21 * 2 ^ 21 + r.perms * 4 + 3), r.big⟩

/-- The leaves of the run. -/
def PageRun.leaves (r : PageRun) : List (Nat × Leaf) :=
  (List.range r.count).map (fun i => (leafKey r.ctx ((r.va + i * r.size) / 2 ^ 21), r.leaf i))

/-- Is any byte of a page of the run mapped already? -/
def State.anyMapped (s : State) (r : PageRun) : Bool :=
  r.pages.any (fun p =>
    (lookupKey s.fab.leaves (leafKey r.ctx p)).isSome
    || (match lookupKey s.fab.leaves (leafKey r.ctx (p / 512 * 512)) with
        | some l => l.big
        | none => false)
    || (r.big && s.fab.leaves.any (fun q => leafKey r.ctx p ≤ q.1 && q.1 < leafKey r.ctx p + 512)))

/-- Is every page of the run mapped with the size named? -/
def State.allMapped (s : State) (r : PageRun) : Bool :=
  r.pages.all (fun p => match lookupKey s.fab.leaves (leafKey r.ctx p) with
    | some l => l.big == r.big
    | none => false)

/-- May the context map a local frame (R232, check 5)? Permissions: 1 read, 2 write, 4 atomic. -/
def State.frameAllows (s : State) (r : PageRun) (f : Nat) : Bool :=
  match lookupKey s.fab.frames f with
  | none => true
  | some fr => fr.use == 0 || fr.owner == r.ctx
    || (s.jobTag fr.owner == s.jobTag r.ctx && fr.exp ≥ 1 && (!bitOf r.perms 1 || fr.exp ≥ 2)
        && (!bitOf r.perms 2 || fr.exp ≥ 3))

/-- The map commands (R250). -/
inductive ZfOp where
  | map | unmap | protect | lookup
  deriving DecidableEq, Repr

/-- Checks 1–8 of R232 in order: the result code, 0 where all hold. -/
def State.zfCheck (s : State) (op : ZfOp) (r : PageRun) : Nat :=
  let isMap := op == .map
  if !s.active r.ctx then 1
  else if r.va % r.size ≠ 0 ∨ (isMap ∧ r.gpa % r.size ≠ 0) then 2
  else if r.va + r.count * r.size > 2 ^ 52 ∨ (isMap ∧ (r.at s.node).any (fun g => decide (gpaLocal g + r.size > contextSpaceEnd))) then 3
  else if isMap ∧ r.gpas.any (fun g => decide (g / 2 ^ 46 ≥ (match s.img.cfg with
      | some c => c.racks
      | none => 0))) then 4
  else if isMap ∧ !((r.frames s.node).all (s.frameAllows r)) then 5
  else if isMap ∧ s.anyMapped r then 6
  else if !isMap ∧ !s.allMapped r then 7
  else if isMap ∧ s.fld (fCtxUpagesUse r.ctx) + r.count * (r.size / 2 ^ 21) > s.fld (fCtxQpagesLimit r.ctx) then 8
  else if isMap ∧ tablesUsed (insertAll s.fab.leaves r.leaves) > 32768 then 9
  else 0

/-- Set a context's page use and its over mark (R84, R86). -/
def State.setPageUse (s : State) (c n : Nat) : State :=
  (s.setFld (fCtxUpagesUse c) n).setFld (fCtxUpagesOver c) (ofBool (decide (n > s.fld (fCtxQpagesLimit c))))

/-- A context takes or keeps a frame (R229): the owner's use rises, its export is set; a frame last written under
another key reads undefined. -/
def State.takeFrame (s : State) (ctx exp f : Nat) : State :=
  let key := (lookupKey s.fab.keyOf ctx).getD 0
  match lookupKey s.fab.frames f with
  | none => { s with fab := { s.fab with frames := insertKey s.fab.frames f ⟨ctx, 1, exp, key⟩ } }
  | some fr =>
    if fr.use = 0 then
      let s1 := if fr.key = key then s else s.forget (f * 2 ^ 21) (2 ^ 21)
      { s1 with fab := { s1.fab with frames := insertKey s1.fab.frames f ⟨ctx, 1, exp, key⟩ } }
    else if fr.owner = ctx then
      { s with fab := { s.fab with frames := insertKey s.fab.frames f { fr with use := fr.use + 1, exp := exp } } }
    else s

/-- One mapping of a frame by a context ends (R229): the owner's use falls, at zero the frame is free. -/
def State.dropFrame (s : State) (ctx f : Nat) : State :=
  match lookupKey s.fab.frames f with
  | some fr => if fr.owner = ctx ∧ fr.use ≠ 0 then
      { s with fab := { s.fab with frames := insertKey s.fab.frames f { fr with use := fr.use - 1 } } } else s
  | none => s

/-- Frames of this module that a leaf maps. -/
def State.leafFrames (s : State) (l : Leaf) : List Nat :=
  let g := bitsOf l.entry.toNat 51 21 * 2 ^ 21
  if gpaNode g = s.node.toNat then (List.range (if l.big then 512 else 1)).map (fun i => gpaLocal g / 2 ^ 21 + i) else []

/-- Pages that a leaf is charged as. -/
def Leaf.charge (l : Leaf) : Nat := if l.big then 512 else 1

/-- MAP applies to every page of the run. -/
def State.zfMap (s : State) (r : PageRun) : State :=
  let s1 := { s with fab := { s.fab with leaves := insertAll s.fab.leaves r.leaves } }
  let s2 := (r.frames s.node).foldl (fun s f => s.takeFrame r.ctx r.exp f) s1
  (s2.setPageUse r.ctx (s2.fld (fCtxUpagesUse r.ctx) + r.count * (r.size / 2 ^ 21))).showTables

/-- The leaves that the run's pages have now. -/
def State.runLeaves (s : State) (r : PageRun) : List (Nat × Leaf) :=
  r.pages.filterMap (fun p => (lookupKey s.fab.leaves (leafKey r.ctx p)).map (fun l => (leafKey r.ctx p, l)))

/-- PROTECT writes the run's permissions, and the export of the frames that the context owns (R230). -/
def State.zfProtect (s : State) (r : PageRun) : State :=
  let ls := s.runLeaves r
  let keep (l : Leaf) : Leaf :=
    { l with entry := BitVec.ofNat 64 (bitsOf l.entry.toNat 51 21 * 2 ^ 21 + r.perms * 4 + 3) }
  let s1 := { s with fab := { s.fab with leaves := insertAll s.fab.leaves (ls.map (fun p => (p.1, keep p.2))) } }
  (ls.flatMap (fun p => s.leafFrames p.2)).foldl (fun s f => match lookupKey s.fab.frames f with
    | some fr => if fr.owner = r.ctx ∧ fr.use ≠ 0 then
        { s with fab := { s.fab with frames := insertKey s.fab.frames f { fr with exp := r.exp } } } else s
    | none => s) s1

/-- Does the PROTECT remove a permission from a page of the run (R233)? -/
def State.removesPerm (s : State) (r : PageRun) : Bool :=
  (s.runLeaves r).any (fun p => (List.range 3).any (fun b => p.2.entry.getLsbD (2 + b) && !bitOf r.perms b))

/-- The run that a ZF.MAPCMD word names, with ZF.MAPVA and ZF.MAPPA (R250). -/
def State.zfRun (s : State) (v : Word) : PageRun :=
  { ctx := getBits v fZfMapcmdContext, va := s.fld fZfMapvaVa * 2 ^ 21, gpa := s.fld fZfMappaGpa * 2 ^ 21
    count := getBits v fZfMapcmdCountM1 + 1, big := getBits v fZfMapcmdSize == 1, exp := getBits v fZfMapcmdExport
    perms := getBits v fZfMapcmdRead + 2 * getBits v fZfMapcmdWrite + 4 * getBits v fZfMapcmdAtomic }

/-- Write a map command's result; ZF.LOOKUP is 0 but after a LOOKUP that is DONE. -/
def State.zfResult (s : State) (code : Nat) : State := (s.setFld fZfMapcmdResult code).setReg rZfLookup 0#64

/-- A map command that passed every check. -/
def State.zfApply (s : State) (op : ZfOp) (r : PageRun) : State :=
  match op with
  | .map => (s.zfMap r).zfResult 0
  | .lookup =>
    (s.zfResult 0).setReg rZfLookup (match lookupKey s.fab.leaves (leafKey r.ctx (r.va / 2 ^ 21)) with
      | some l => l.entry
      | none => 0#64)
  | .unmap =>
    let ls := s.runLeaves r
    ({ s with fab := { s.fab with
      leaves := eraseAll s.fab.leaves (ls.map Prod.fst), dropping := some ⟨r.ctx, true, ls⟩ } }).showTables.setFld
      fZfMapcmdBusy 1
  | .protect =>
    if s.removesPerm r then
      ({ (s.zfProtect r) with fab := { (s.zfProtect r).fab with dropping := some ⟨r.ctx, false, s.runLeaves r⟩ } }).setFld
        fZfMapcmdBusy 1
    else ((s.zfProtect r).cacheDrop ((s.runLeaves r).map Prod.fst)).zfResult 0

/-- The op field of ZF.MAPCMD. -/
def zfOpOf (n : Nat) : Option ZfOp :=
  match n with
  | 1 => some .map
  | 2 => some .unmap
  | 3 => some .protect
  | 4 => some .lookup
  | _ => none

/-- A host write of ZF.MAPCMD: its RW fields are stored and, with go, the command runs (R232). -/
def State.zfMapcmdWrite (s : State) (v : Word) : State :=
  let s1 := s.writeUnder takesAll rZfMapcmd v
  if getBits v fZfMapcmdGo = 0 then s1
  else if s.fld fZfMapcmdBusy = 1 then s1.zfResult 0x0A
  else match zfOpOf (getBits v fZfMapcmdOp) with
    | none => s1.zfResult 0x0A
    | some op =>
      let r := s1.zfRun v
      let c := s1.zfCheck op r
      if c = 0 then s1.zfApply op r else s1.zfResult c

/-- A word with go set and its op field as the row's. -/
def withOp (v : Word) (go opf : Fld) (op : Nat) : Word := putBits (putBits v go 1) opf op

/-- MAP (R232). -/
def execMap (v : Word) (s : State) : Host.Outcome State Fault Refusal :=
  .next (s.hostWrite rZfMapcmd (withOp v fZfMapcmdGo fZfMapcmdOp 1) HostObs.plain (fun s => s.zfMapcmdWrite (withOp v fZfMapcmdGo fZfMapcmdOp 1)))

/-- UNMAP (R232, R233). -/
def execUnmap (v : Word) (s : State) : Host.Outcome State Fault Refusal :=
  .next (s.hostWrite rZfMapcmd (withOp v fZfMapcmdGo fZfMapcmdOp 2) HostObs.plain (fun s => s.zfMapcmdWrite (withOp v fZfMapcmdGo fZfMapcmdOp 2)))

/-- PROTECT (R230, R232, R233). -/
def execProtect (v : Word) (s : State) : Host.Outcome State Fault Refusal :=
  .next (s.hostWrite rZfMapcmd (withOp v fZfMapcmdGo fZfMapcmdOp 3) HostObs.plain (fun s => s.zfMapcmdWrite (withOp v fZfMapcmdGo fZfMapcmdOp 3)))

/-- LOOKUP (R232). -/
def execLookup (v : Word) (s : State) : Host.Outcome State Fault Refusal :=
  .next (s.hostWrite rZfMapcmd (withOp v fZfMapcmdGo fZfMapcmdOp 4) HostObs.plain (fun s => s.zfMapcmdWrite (withOp v fZfMapcmdGo fZfMapcmdOp 4)))

/-- Does a fabric virtual run of a context touch a page of the command that drops? -/
def Drop.touches (d : Drop) (ctx : Nat) (va n : Nat) : Bool :=
  d.ctx == ctx && d.leaves.any (fun p =>
    let base := (p.1 - ctx * 2 ^ 31) * 2 ^ 21
    overlap va n base (if p.2.big then 2 ^ 30 else 2 ^ 21))

/-- Is a request that translated through the command's old entries still out (R233)? Tasks' fabric operations and the
parts of running copies. -/
def State.dropPending (s : State) (d : Drop) : Bool :=
  s.cores.runs.any (fun r => r.2.fab.any (fun o => o.ok && d.touches r.2.task.ctx o.va.toNat o.bytes))
  || s.que.copies.any (fun c => c.started && c.parts.zipIdx.any (fun p => p.1.status.isNone &&
      (d.touches c.ctx (c.src.toNat + p.2 * 2 ^ 21) (min (2 ^ 21) (c.bytes - p.2 * 2 ^ 21))
       || d.touches c.ctx (c.dst.toNat + p.2 * 2 ^ 21) (min (2 ^ 21) (c.bytes - p.2 * 2 ^ 21)))))

/-- CACHE_DROP_COMPLETE: every translation cache has dropped the run and every request under the old entries has
completed (R233); an UNMAP then gives up its frames and its charge (R229, R249). While such a request is out the event
cannot come about. -/
def execCacheDropComplete (s : State) : Host.Outcome State Fault Refusal :=
  match s.fab.dropping with
  | none => .next s
  | some d =>
    if s.dropPending d then .next s
    else
      let s1 := ({ s with fab := { s.fab with dropping := none } }).cacheDrop (d.leaves.map Prod.fst)
      let s2 := if d.unmap then
          let s3 := (d.leaves.flatMap (fun p => s.leafFrames p.2)).foldl (fun s f => s.dropFrame d.ctx f) s1
          s3.setPageUse d.ctx (s3.fld (fCtxUpagesUse d.ctx) - (d.leaves.map (·.2.charge)).foldl (· + ·) 0)
        else s1
      .next ((s2.setFld fZfMapcmdBusy 0).zfResult 0)

end Sys2Proof.Machine
end

