-- ==== Sys2Proof/Machine/Work.lean ====
section
/-! DEFINITION. The life of a task outside its program: logical and physical cores, credits and pools (R54–R60, R75–R80),
readiness and signals (R159–R167, R177), the start of a task, its end and its completion record (R178–R190). -/

namespace Sys2Proof.Machine

/-! ### Logical and physical cores -/

/-- Cluster and die of a logical core. -/
def clusterOf (k : Nat) : Nat := k / 16
def dieOf (k : Nat) : Nat := k / 128

/-- Map entry of a logical core: the number of its physical core within the cluster (R89). -/
def State.mapOf (s : State) (k : Nat) : Nat :=
  let n := clusterOf k
  let l := k % 16
  if l < 8 then bitsOf (s.fld (fTaskClMaploMap n)) (5 * l + 4) (5 * l)
  else bitsOf (s.fld (fTaskClMaphiMap n)) (5 * (l - 8) + 4) (5 * (l - 8))

/-- The number v with bits [hi:lo] replaced. -/
def putRange (v hi lo x : Nat) : Nat := v - bitsOf v hi lo * 2 ^ lo + x % 2 ^ (hi + 1 - lo) * 2 ^ lo

/-- Rewrite a map entry. -/
def State.setMap (s : State) (k p : Nat) : State :=
  let n := clusterOf k
  let l := k % 16
  if l < 8 then s.setFld (fTaskClMaploMap n) (putRange (s.fld (fTaskClMaploMap n)) (5 * l + 4) (5 * l) p)
  else s.setFld (fTaskClMaphiMap n) (putRange (s.fld (fTaskClMaphiMap n)) (5 * (l - 8) + 4) (5 * (l - 8)) p)

/-- Physical core of a logical core, in the numbering of R376. -/
def State.physOf (s : State) (k : Nat) : Nat := clusterOf k * 18 + s.mapOf k

/-- Logical core that a physical core carries. -/
def State.lcoreOf (s : State) (phys : Nat) : Option Nat :=
  (List.range 16).findSome? (fun l => if s.physOf (phys / 18 * 16 + l) = phys then some (phys / 18 * 16 + l) else none)

/-- State of a physical core (R54): 0 ACTIVE, 1 SPARE, 2 RETIRED, 3 MOVING. -/
def State.coreState (s : State) (phys : Nat) : Nat :=
  bitsOf (s.fld (fTaskClStateCoreState (phys / 18))) (2 * (phys % 18) + 1) (2 * (phys % 18))

/-- Physical cores of a cluster that are SPARE. -/
def State.sparesOf (s : State) (n : Nat) : List Nat :=
  ((List.range 18).map (n * 18 + ·)).filter (fun p => s.coreState p == 1)

/-- Set the state of a physical core, and the count of spares. -/
def State.setCoreState (s : State) (phys st : Nat) : State :=
  let n := phys / 18
  let j := 2 * (phys % 18)
  let s1 := s.setFld (fTaskClStateCoreState n) (putRange (s.fld (fTaskClStateCoreState n)) (j + 1) j st)
  s1.setFld (fTaskClStateSpares n) (s1.sparesOf n).length

/-! ### Records on the core table -/

/-- The task on a logical core. -/
def State.runOf (s : State) (k : Nat) : Option Run := lookupKey s.cores.runs k

/-- Replace the task on a logical core. -/
def State.setRun (s : State) (k : Nat) (r : Run) : State :=
  { s with cores := { s.cores with runs := insertKey s.cores.runs k r } }

/-- Take the task off a logical core. -/
def State.dropRun (s : State) (k : Nat) : State := { s with cores := { s.cores with runs := eraseKey s.cores.runs k } }

/-- Is a reset of a core as a whole, or of a level that holds it, in progress (R412)? -/
def State.coreInReset (s : State) (k : Nat) : Bool :=
  s.cores.resetting.any (fun u => match u with
    | .engine _ _ => false
    | .core k' => k'.val == k
    | .cluster n => n.val == clusterOf k
    | .domain p => s.partOfCluster (clusterOf k) == some p.val)

/-- Is a reset of this core, of one of its engines or of a level that holds it in progress (R412)? -/
def State.coreResetting (s : State) (k : Nat) : Bool :=
  s.coreInReset k || s.cores.resetting.any (fun u => match u with
    | .engine k' _ => k'.val == k
    | _ => false)

/-- May a logical core hold credits (R60, R80, R385, R392): its partition OPEN, its physical core ACTIVE, and the core
neither moving, due for retirement, tasted, awaiting tasting nor being reset? -/
def State.coreUsable (s : State) (k : Nat) : Bool :=
  let n := clusterOf k
  let p := s.physOf k
  (match s.partOfCluster n with
    | some q => s.isOpen q
    | none => false)
  && s.coreState p == 0
  && (match lookupKey s.cores.moves n with
      | some m => m.lcore != k
      | none => true)
  && (match lookupKey s.cores.tasting n with
      | some t => t.core != p
      | none => true)
  && !s.cores.mustTaste.contains p && !s.cores.retireDue.contains p && !s.cores.hardFaults.any (fun h => h.1 == p) && !s.coreResetting k

/-! ### Completion rings -/

/-- Key of ring r of context c. -/
def ringKey (c r : Nat) : Nat := c * 8 + r

/-- Space left in a ring. -/
def State.ringSpace (s : State) (key : Nat) : Nat :=
  let c := key / 8
  let r := key % 8
  2 ^ s.fld (fQueRingCfgLog2size c r)
    - (s.fld (fQueRingStateTail c r) + 2 ^ 24 - s.fld (fQueRingStateHead c r)) % 2 ^ 24

/-- Is a ring RUNNING or FULL? -/
def State.ringOn (s : State) (key : Nat) : Bool := s.fld (fQueRingStateState (key / 8) (key % 8)) != 0

/-- Set a ring's state to FULL or RUNNING as its space says (R183). -/
def State.ringShow (s : State) (key : Nat) : State :=
  if s.ringOn key then
    s.setFld (fQueRingStateState (key / 8) (key % 8)) (if s.ringSpace key = 0 then 2 else 1) else s

/-- Does a full ring hold back its queues (R183)? -/
def State.ringBlocks (s : State) (key : Nat) : Bool :=
  s.ringSpace key == 0 && s.que.recs.any (fun w => !w.quiet && ringKey w.record.ctx w.ring == key)

/-- The cores that hold their record and its credit because 64 records already wait for the full ring (R183). Records of
fetch failures wait beyond those. DESIGN CHOICE (log entry 125): of a shadowed pair the primary's credit is held, the shadow's is free. -/
def heldRecs (space : Nat → Nat) : List RecWait → List (Nat × Nat) → List Nat
  | [], _ => []
  | w :: t, seen =>
    let key := ringKey w.record.ctx w.ring
    let n := (lookupKey seen key).getD 0
    if w.quiet || w.fetchFail then heldRecs space t seen
    else
      let rest := heldRecs space t (insertKey seen key (n + 1))
      match w.holder with
      | some k => if n ≥ space key + 64 then k :: rest else rest
      | none => rest

/-- The tasks that a core was given and has not started, in order. -/
def State.nextOf (s : State) (k : Nat) : List Task := (s.cores.next.filter (fun p => p.1 == k)).map Prod.snd

/-- Is a core kept for the shadow of a pair that a pour will start (R166, R186)? -/
def State.isReserved (s : State) (k : Nat) : Bool := s.cores.reserved.any (fun p => p.2 == k)

/-- Credits free at a logical core (R80, R183): of two, less those of its running task, of the tasks it was given and of the
record it holds. -/
def State.freeCredits (s : State) (k : Nat) : Nat :=
  if s.coreUsable k then
    2 - (ofBool (s.runOf k).isSome + ofBool (s.isReserved k) + (s.nextOf k).length
      + ((heldRecs s.ringSpace s.que.recs []).filter (· == k)).length)
  else 0

/-- A core that runs no task and has been given none. -/
def State.coreIdle (s : State) (k : Nat) : Bool := (s.runOf k).isNone && (s.nextOf k).isEmpty && !s.isReserved k

/-! ### Choice of tasks (R77, R80) -/

/-- Logical cores of a cluster in the order in which the pool serves them. -/
def State.serveOrder (s : State) (n : Nat) : List Nat :=
  let ks := ((List.range 16).map (n * 16 + ·)).filter (fun k => decide (s.freeCredits k ≥ 1))
  ks.filter s.coreIdle ++ ks.filter (fun k => !s.coreIdle k)

/-- The idle core that would run the shadow of a pair whose primary is k (R186). -/
def State.shadowCore (s : State) (k : Nat) : Option Nat :=
  ((List.range 16).map (clusterOf k * 16 + ·)).find? (fun j => decide (j > k) && s.coreIdle j && decide (s.freeCredits j ≥ 1))

/-- May core k take this ready task? A shadowed task starts only on a pair of idle cores. -/
def State.canTake (s : State) (k : Nat) (t : Task) : Bool :=
  t.ready && t.cluster == clusterOf k && (!t.shadow || (s.coreIdle k && (s.shadowCore k).isSome))

/-- The task that R77 gives core k out of `ts`: the oldest of the context that owns the core's store, else the oldest of
the next context in turn; with it, whether the turn was used. DESIGN CHOICE (log entry 112): a pool that has given no task by the turn
starts it at context 0. -/
def State.choose (s : State) (k : Nat) (ts : List Task) : Option (Task × Bool) :=
  let c := ts.filter (s.canTake k)
  match c.find? (fun t => lookupKey s.cores.storeOwner (s.physOf k) == some t.ctx) with
  | some t => some (t, false)
  | none =>
    let ptr := (lookupKey s.cores.rrPtr (clusterOf k)).getD 127
    let order := (List.range 128).map (fun i => (ptr + 1 + i) % 128)
    (order.findSome? (fun x => c.find? (fun t => t.ctx == x))).map (fun t => (t, true))

/-- The core served next in a cluster, its task and whether the turn is used. -/
def State.serve (s : State) (n : Nat) (ts : List Task) : Option (Nat × Task × Bool) :=
  (s.serveOrder n).findSome? (fun k => (s.choose k ts).map (fun p => (k, p.1, p.2)))

/-- Take a task out of the pool for core k. -/
def State.takeTask (s : State) (k : Nat) (t : Task) (turn : Bool) : State :=
  { s with cores := { s.cores with
      pool := s.cores.pool.filter (fun u => u.place != t.place)
      rrPtr := if turn then insertKey s.cores.rrPtr (clusterOf k) t.ctx else s.cores.rrPtr } }

/-! ### Starting a task (R75, R136, R137, R186) -/

/-- An address generator at the start of a task. -/
def AG.start : AG := ⟨0#64, List.replicate 5 ⟨1#16, 0#32, 0#16⟩⟩

/-- Registers of a task at its first bundle (R137). -/
def startRegs (t : Task) : List Word :=
  [0#64] ++ (t.args ++ List.replicate 6 0#64).take 6 ++ [BitVec.ofNat 64 t.id] ++ List.replicate 24 0#64

/-- A task at its first bundle. -/
def Run.start (t : Task) (seed : Word) (partner : Option Nat) (primary : Bool) : Run :=
  { task := t, seed := seed, xs := startRegs t, vs := List.replicate 16 0#4096, ags := List.replicate 4 AG.start, pc := 0
    issue := none, waiting := none, window := false, invalid := false, overflow := false, ordered := false
    rawLost := false, chain := none, finishes := [], moves := [], fab := [], tile := [], opened := 0, fault := none, faultAt := (0, 0), ending := none, endX := 0#64
    stallLogged := false, timedOut := false, partner := partner, primary := primary, digests := [], released := 0
    entered := 0, given := [], disagreed := false }

/-- The core's store belongs to the context; another context's store is cleared first (R75). -/
def State.ownStore (s : State) (phys ctx : Nat) : State :=
  if lookupKey s.cores.storeOwner phys = some ctx then s
  else
    let s1 := s.clearMem (coreStoreAt phys 0) (2 ^ 20)
    { s1 with cores := { s1.cores with storeOwner := insertKey s1.cores.storeOwner phys ctx } }

/-- Copy a range of stored bytes, with the marks of its lines, over another: what a core move (R57) and the start of a
pair (R186) do. -/
def Mem.copy (m : Mem) (a b n : Nat) : Mem :=
  let m1 := m.clear b n
  let moved := (m.cells.filter (fun c => decide (a ≤ c.1 ∧ c.1 < a + n))).map (fun c => (c.1 - a + b, c.2))
  let holes := (m.holes.filter (fun h => decide (a ≤ h.1 ∧ h.1 + h.2.1 ≤ a + n))).map (fun h => (h.1 - a + b, h.2.1, h.2.2))
  let m2 := { m1 with holes := holes ++ m1.holes }
  let m3 := moved.foldl (fun m c => m.write c.1 c.2) m2
  { m3 with poison := m3.poison
      ++ (m.poison.filter (fun ln => decide (a ≤ 64 * ln ∧ 64 * ln < a + n))).map (fun ln => (64 * ln - a + b) / 64) }

/-- Start a task on core k: the store clear of R75, the seed latched from TASK.SEED, a pair's store copy. The shadow of a pair runs
on the core that a pour kept for it, else on the idle core of R186. -/
def State.startTask (s : State) (k : Nat) (t : Task) : State :=
  let seed := s.reg (rTaskSeed t.ctx)
  let s1 := s.ownStore (s.physOf k) t.ctx
  match (if t.shadow then (match lookupKey s.cores.reserved k with
      | some j => some j
      | none => s.shadowCore k) else none) with
  | some j =>
    let s2 := { s1 with
      mem := s1.mem.copy (coreStoreAt (s1.physOf k) 0) (coreStoreAt (s1.physOf j) 0) (2 ^ 20)
      cores := { s1.cores with storeOwner := insertKey s1.cores.storeOwner (s1.physOf j) t.ctx
                               reserved := eraseKey s1.cores.reserved k } }
    (s2.setRun k (Run.start t seed (some j) true)).setRun j (Run.start t seed (some k) false)
  | none => s1.setRun k (Run.start t seed none true)

/-- Does a core still wait for its wave (R166)? -/
def State.inWaves (s : State) (k : Nat) : Bool := ((lookupKey s.cores.wavesDue (dieOf k)).getD []).contains k

/-- Give core k a task: an idle core starts it, a busy core, or one that waits for its wave, keeps it (R80). -/
def State.giveTask (s : State) (k : Nat) (t : Task) : State :=
  if s.coreIdle k ∧ !s.inWaves k then s.startTask k t
  else { s with cores := { s.cores with next := s.cores.next ++ [(k, t)] } }

/-! ### Readiness (R160, R177) -/

/-- Has an object fired? -/
def SyncObj.fired (o : SyncObj) : Bool := decide (o.counter ≥ o.fire)

/-- Does a task's wait object allow it? -/
def State.waitOver (s : State) (w : Option Nat) : Bool :=
  match w with
  | none => true
  | some i => match lookupKey s.sync i with
    | some o => o.fired
    | none => false

/-- Make ready the pool tasks whose condition holds, in queue order within each pool; `blocked` holds the queues and
clusters in which a task ahead is unready. -/
def readyPass (free : Option Nat → Bool) : List Task → List (Nat × Nat × Nat) → List Task
  | [], _ => []
  | t :: ts, blocked =>
    let q := (t.ctx, t.queue, t.cluster)
    if t.ready then t :: readyPass free ts blocked
    else if blocked.contains q ∨ !free t.wait then t :: readyPass free ts (q :: blocked)
    else { t with ready := true } :: readyPass free ts blocked

/-- A copy whose wait object has fired waits for it no longer (R244). -/
def Copy.refresh (free : Option Nat → Bool) (c : Copy) : Copy := if free c.wait then { c with wait := none } else c

/-- Refresh readiness in every pool and of every copy. -/
def State.refreshReady (s : State) : State :=
  { s with
    cores := { s.cores with pool := readyPass s.waitOver s.cores.pool [] }
    que := { s.que with copies := s.que.copies.map (Copy.refresh s.waitOver) } }

/-- A tasting test is abandoned when a task is ready for its core and no other logical core of the cluster holds a free
credit (R81). DESIGN CHOICE (log entry 81): an abandoned repeat drops the first failure with it, and the later test is a first test. -/
def State.tasteAbandon (s : State) (n : Nat) : State :=
  match lookupKey s.cores.tasting n with
  | some t =>
    match s.lcoreOf t.core with
    | some _ =>
      if s.cores.pool.any (fun u => u.ready && u.cluster == n)
          ∧ ((List.range 16).all (fun l => s.freeCredits (n * 16 + l) == 0)) then
        ({ s with cores := { s.cores with tasting := eraseKey s.cores.tasting n } }).setFld (fTstClRunning n) 0
      else s
    | none => s
  | none => s

/-- Refresh readiness, and abandon the tasting tests that it overtakes. -/
def State.settle (s : State) : State := (List.range 32).foldl State.tasteAbandon s.refreshReady

/-! ### Signals (R160–R167) -/

/-- Waiters on an object (R159): stalled SWAITs and pool tasks that are not ready. -/
def State.waiters (s : State) (i : Nat) : Nat :=
  (s.cores.runs.filter (fun r => match r.2.waiting with
    | some (.swait o _ _) => o == i
    | _ => false)).length
  + (s.cores.pool.filter (fun t => !t.ready && t.wait == some i)).length

/-- Cores stalled in a SWAIT on object i whose target the counter reaches. -/
def State.wakeable (s : State) (i n : Nat) : List Nat :=
  s.cores.runs.filterMap (fun r => match r.2.waiting with
    | some (.swait o t _) => if o = i ∧ t.toNat ≤ n then some r.1 else none
    | _ => none)

/-- Release the SWAIT of one core at once. -/
def State.wakeOne (s : State) (k : Nat) : State :=
  match s.runOf k with
  | some r => match r.waiting with
    | some (.swait _ _ _) => s.setRun k { r with waiting := some (.over 0) }
    | _ => s
  | none => s

/-- The SWAIT of a core is satisfied and waits for its wave: what happens to the object after it changes nothing (R161, R166). -/
def State.markWoken (s : State) (k : Nat) : State :=
  match s.runOf k with
  | some r => match r.waiting with
    | some (.swait _ _ _) => s.setRun k { r with waiting := some .woken }
    | _ => s
  | none => s

/-- Release a SWAIT whose wave has come. -/
def State.releaseWoken (s : State) (k : Nat) : State :=
  match s.runOf k with
  | some r => if r.waiting = some .woken then s.setRun k { r with waiting := some (.over 0) } else s
  | none => s

/-- Give out the tasks of the pool of cluster n to the cores that hold credits, in the order of R80 (R166): the cores that a wave
will wake, a pair's both. At most `f` pulls. -/
def State.pourPulls : Nat → State → Nat → List Nat → State × List Nat
  | 0, s, _, acc => (s, acc)
  | f + 1, s, n, acc =>
    match s.serve n s.cores.pool with
    | some (k, t, turn) =>
      let s1 := s.takeTask k t turn
      let j := if t.shadow then s.shadowCore k else none
      let s2 := { s1 with cores := { s1.cores with
        next := s1.cores.next ++ [(k, t)]
        reserved := match j with
          | some j => insertKey s1.cores.reserved k j
          | none => s1.cores.reserved } }
      State.pourPulls f s2 n (acc ++ k :: j.toList)
    | none => (s, acc)

/-- Start the task given to a core that runs none. One that waits for its wave, or whose shadow does, does not start yet
(log entry 84). -/
def State.startNext (s : State) (k : Nat) : State :=
  match (s.nextOf k).head? with
  | some t =>
    let late : Bool := match lookupKey s.cores.reserved k with
      | some j => s.inWaves j
      | none => false
    if (s.runOf k).isNone ∧ !s.inWaves k ∧ !late then
      ({ s with cores := { s.cores with next := s.cores.next.eraseP (fun p => p.1 == k) } }).startTask k t
    else s
  | none => s

/-- One wake-up of a wave: the SWAIT is released, or the task given to the core starts, on a pair's last core the pair. -/
def State.waveWake (s : State) (k : Nat) : State :=
  (s.cores.reserved.filter (fun p => p.2 == k)).foldl (fun s p => s.startNext p.1) ((s.releaseWoken k).startNext k)

/-- Wake-ups of one die in waves of 16, in ascending order of cluster and core (R166): the first wave now, the rest by
POUR_WAVE. -/
def State.pourDie (s : State) (d : Nat) (ks : List Nat) : State :=
  let old := (lookupKey s.cores.wavesDue d).getD []
  let s1 := if ks.length ≤ 16 then s
    else { s with cores := { s.cores with wavesDue := insertKey s.cores.wavesDue d (old ++ ks.drop 16) } }
  (ks.take 16).foldl State.waveWake s1

/-- Ascending, without repeats. -/
def sortCores (l : List Nat) : List Nat := (List.range 512).filter (fun k => l.contains k)

/-- The pulls of a firing (R166): from the state `s0` before the signal, the tasks that the signal made ready in `s1` go to the
cores that then hold credits; the cores that pull. -/
def State.firePulls (s0 s1 : State) : State × List Nat :=
  let isNew (t : Task) : Bool := t.ready && !(s0.cores.pool.any (fun u => u.place == t.place && u.ready))
  let fresh := s1.cores.pool.filter isNew
  let alone := { s1 with cores := { s1.cores with pool := fresh } }
  let r := (fresh.map (·.cluster)).eraseDups.foldl (fun (acc : State × List Nat) n => State.pourPulls 32 acc.1 n acc.2) (alone, [])
  ({ r.1 with cores := { r.1.cores with
      pool := s1.cores.pool.filter (fun t => !isNew t || r.1.cores.pool.any (fun u => u.place == t.place)) } }, r.2)

/-- Wake every waiter of object i whose condition holds, from the state `s0` before the signal (R160, R166): the SWAITs, and
after a firing the cores that pull the tasks made ready; a core that still waits for its wave of an earlier pour keeps that wave. A heavy
firing, or more than 16 wake-ups on a die, pours in waves;
otherwise TASK_PULL pulls the tasks. -/
def State.wakeAll (s0 s : State) (i : Nat) (fired heavy : Bool) : State :=
  let n := match lookupKey s.sync i with
    | some o => o.counter
    | none => 0
  let sw := s.wakeable i n
  let s1 := s.refreshReady
  let p := if fired then State.firePulls s0 s1 else (s1, [])
  let ks := (sortCores (sw ++ p.2)).filter (fun k => !s.inWaves k)
  if (fired ∧ heavy) ∨ (List.range 4).any (fun d => (ks.filter (fun k => dieOf k == d)).length > 16) then
    ((List.range 4).foldl (fun s d => s.pourDie d (ks.filter (fun k => dieOf k == d))) (sw.foldl State.markWoken p.1)).settle
  else (sw.foldl State.wakeOne s1).settle

/-- Dies on which the firing of object i will wake cores (R349): SWAITs whose target its fire value reaches, and cores that will pull
the tasks it makes ready. -/
def State.firingDies (s : State) (i : Nat) : List Nat :=
  match lookupKey s.sync i with
  | none => []
  | some o =>
    let s1 := ({ s with sync := insertKey s.sync i { o with counter := o.fire } }).refreshReady
    let ks := s1.wakeable i o.fire ++ (State.firePulls s s1).2
    (List.range 4).filter (fun d => ks.any (fun k => dieOf k == d))

/-- Pre-notice (R167, R349): VCORE rises by 20 mV on the dies that the firing will wake. -/
def State.preNotice (s : State) (i : Nat) : State :=
  ((s.firingDies i).filter (fun d => !s.cores.raised.contains d)).foldl (fun s d =>
    ({ s with cores := { s.cores with raised := d :: s.cores.raised } }).setFld (fPwrDieVcore d) (s.fld (fPwrDieVcore d) + 20)) s

/-- The greatest counter value. -/
def counterTop : Nat := 2 ^ 64 - 1

/-- A signal takes effect on an object that passed its checks (R160, R166, R167). -/
def State.applySignal (s : State) (i v : Nat) : State :=
  match lookupKey s.sync i with
  | none => s
  | some o =>
    let c := min (o.counter + v) counterTop
    let s1 := { s with sync := insertKey s.sync i { o with counter := c } }
    let s2 := s.wakeAll s1 i (decide (o.counter < o.fire ∧ c ≥ o.fire)) o.heavy
    if o.heavy ∧ c + 1 = o.fire then s2.preNotice i else s2

/-- Stops of the trellises as sources of signals (R61, R65): clusters by their numbers, the die service stops, the hub dies
(log entry 82). -/
def serviceStop (die : Nat) : Nat := 32 + die
def hubStop : Nat := 36

/-- Where a SIGNAL packet names its object: in the place of an address, as a sync-object register names it (R147, R288; log entry 40). -/
def signalPlace (node : Node) (obj : Nat) : Nat := node.toNat * 2 ^ 40 + obj % 2 ^ 14

/-- Send a signal from a stop towards an object: through the trellis to one of this module, to another's as a SIGNAL packet with the
value as its data (R147, R288). -/
def State.sendSignal (s : State) (stop ctx : Nat) (node : Node) (obj v : Nat) : State :=
  if node = s.node then
    { s with cores := { s.cores with
      signals := s.cores.signals ++ [(stop, ⟨if h : ctx < 128 then some ⟨ctx, h⟩ else none, BitVec.ofNat 14 obj, BitVec.ofNat 64 v⟩)] } }
  else
    let g := signalPlace node obj
    let id := s.fab.nextId
    ({ s with fab := { s.fab with nextId := id + 1 } }).sendPkt 0x13 node (frameOf g)
      (requestBody g (s.jobTag ctx) ctx 0 id (leBytes 8 v)) []

/-! ### Completion -/

/-- The 32 bytes of a completion record (R180). -/
def CRec.bytes (r : CRec) (gen : Bool) : List Byte :=
  leBytes 4 r.tag ++ leBytes 1 r.status ++ leBytes 1 r.fault ++ leBytes 1 r.flags ++ leBytes 1 r.kind ++ leBytes 2 r.queue
  ++ leBytes 2 r.bundle ++ leBytes 4 r.parts ++ leBytes 8 r.result.toNat ++ leBytes 2 r.core ++ leBytes 1 r.ctx ++ [0#8]
  ++ leBytes 3 r.cycles ++ [if gen then 0x80#8 else 0#8]

/-- A record becomes due. -/
def State.due (s : State) (w : RecWait) : State := { s with que := { s.que with recs := s.que.recs ++ [w] } }

/-- Ring of a compute queue of a task. -/
def State.ringOf (s : State) (ctx q : Nat) : Nat := s.fld (fQueCqCfgRing ctx q)

/-- The record of a copy or a collective (R180); what it leaves open, the bundle, the core and the cycles, takes free
values. -/
def State.otherRec (s : State) (kind queue tag status parts ctx : Nat) : State × CRec :=
  let f := s.takeFree
  let g := f.2.takeFree
  let h := g.2.takeFree
  (h.2, ⟨tag, status, 0, 0, kind, queue, f.1.toNat % 4096, parts, 0#64, g.1.toNat % 65536, ctx, h.1.toNat % 2 ^ 24⟩)

/-- Status of a task that ends at TEND (R107, R108, R150). -/
def Run.endStatus (r : Run) (timeout : Bool) : Nat :=
  if timeout then 7 else if r.rawLost then 5 else if r.ordered then 1 else 0

/-- Close a task with a status, fault and bundle: its record becomes due unless R185 lets it be quiet. An OK task with
the decant flag meets its record's point all the same (R190). Fields the manual leaves open take free values: the bundle
where no fault occurred, the result of a task that ended by other means than TEND; so does the cycle count. -/
def State.closeTask (s : State) (t : Task) (status fault : Nat) (bundle : Option Nat) (flags : Nat) (result : Option Word)
    (core : Option Nat) (signal : Bool) : State :=
  let fb := s.takeFree
  let b := match bundle with
    | some b => b
    | none => fb.1.toNat % 4096
  let fr := fb.2.takeFree
  let res := match result with
    | some r => r
    | none => if fault ≠ 0 then 0#64 else fr.1
  let fc := fr.2.takeFree
  let k := match core with
    | some k => k
    | none => fc.1.toNat % 65536
  let fn := fc.2.takeFree
  let r : CRec := ⟨t.id, status, fault, flags, 0, t.queue, b, 0, res, k, t.ctx, fn.1.toNat % 2 ^ 24⟩
  fn.2.due ⟨fn.2.ringOf t.ctx t.queue, r, if signal ∧ status ≤ 1 then t.done else none,
    t.decant && decide (t.ctx < 8) && decide (status ≤ 1), t.quiet && decide (status = 0), false, core⟩

/-- Flags of a record (R180). -/
def Run.recFlags (r : Run) : Nat :=
  ofBool r.window + 2 * ofBool r.invalid + 4 * ofBool r.overflow + 8 * ofBool r.partner.isSome + 16 * ofBool r.disagreed

/-- Is all background work of a task over? -/
def Run.quietNow (r : Run) : Bool := r.finishes.isEmpty && r.moves.isEmpty && r.fab.isEmpty

/-- End a task that a reset or a wave ends: ABORTED, no done signal (R157, R400, R410, R412). -/
def State.abortRun (s : State) (k : Nat) : State :=
  match s.runOf k with
  | some r =>
    let s1 := s.dropRun k
    if r.primary then s1.closeTask r.task 0x0A 0 none r.recFlags none (some k) false else s1
  | none => s

/-- A task that had not started ends ABORTED. -/
def State.abortTask (s : State) (t : Task) : State :=
  s.closeTask t 0x0A 0 none (8 * ofBool t.shadow) none none false

/-- A task issues no further bundle, and its open chain is discarded, at once or, where a bundle is issuing, at the boundary after it
(R155; `State.closeBundle`). -/
def Run.wind (r : Run) : Run := if r.issue.isSome then r else { r with chain := none, waiting := none }

/-- Stop a task with a fault of a slot (0 C, 1 A, 2 I) of the n-th bundle that it issued; of several faults, the earliest bundle's stands,
then the first slot's, then the lowest code (R155; log entry 88). -/
def Run.stop (r : Run) (fault bundle slot n : Nat) : Run :=
  let first : Bool := match r.fault with
    | some f => decide (n < r.faultAt.1 ∨ n = r.faultAt.1 ∧ (slot < r.faultAt.2 ∨ slot = r.faultAt.2 ∧ fault < f.1))
    | none => true
  (if first then { r with fault := some (fault, bundle), faultAt := (n, slot) } else r).wind

/-- Fault a task at a bundle; the other core of a pair stops with its primary. -/
def State.faultRun (s : State) (k fault bundle slot n : Nat) : State :=
  match s.runOf k with
  | none => s
  | some r =>
    let s1 := s.setRun k (r.stop fault bundle slot n)
    match r.partner with
    | some j => if r.primary then match s1.runOf j with
        | some q => s1.setRun j (q.stop fault bundle slot n)
        | none => s1
      else s1
    | none => s1

/-- A fault of a slot of the bundle that the core is issuing, or would issue next. -/
def State.faultNow (s : State) (k fault slot : Nat) : State :=
  match s.runOf k with
  | some r => s.faultRun k fault r.pc slot (r.opened + ofBool r.issue.isNone)
  | none => s

end Sys2Proof.Machine
end

