-- ==== Sys2Proof/Machine/Flags.lean ====
section
/-! DEFINITION. The arithmetic flags of a task (R118) and the special registers (R137): how instructions set the sticky
flags, and what RDSR reads. -/

namespace Sys2Proof.Machine

/-- FLAGS of R137: WINDOW, INVALID, OVERFLOW. -/
def Run.flagsWord (r : Run) : Word := BitVec.ofNat 64 (ofBool r.window + 2 * ofBool r.invalid + 4 * ofBool r.overflow)

/-- Flags are sticky for the task (R118). -/
def Run.sticky (r : Run) (inv ovf : Bool) : Run := { r with invalid := r.invalid || inv, overflow := r.overflow || ovf }

/-- Work without an ordered mode left the window: WINDOW is set, and the task will complete WINDOW (R108, R127). -/
def Run.lost (r : Run) : Run := { r with window := true, rawLost := true }

/-- The flags that a row of results raises. -/
def anyInvalid (l : List Res) : Bool := l.any (·.invalid)
def anyOverflow (l : List Res) : Bool := l.any (·.overflow)

/-- Cluster-store regions that a context owns in a cluster (R76, R131). -/
def State.regionsOf (s : State) (ctx cl : Nat) : List Nat :=
  s.cores.bindings.flatMap (fun b => if b.ctx = ctx then (lookupKey b.regions cl).getD [] else [])

/-- REGIONS of R137. -/
def State.regionWord (s : State) (ctx cl : Nat) : Word :=
  BitVec.ofNat 64 (((List.range 8).filter (fun r => (s.regionsOf ctx cl).contains r)).foldl (fun a r => a + 2 ^ r) 0)

/-- Special registers that enter a task from outside (R187). -/
def rdsrInward (idx : Nat) : Bool := idx == 2 || idx == 4 || idx == 7

/-- RDSR (R137): the value as it stood before the bundle (R151), and the state in which a free value was taken for CYCLE, whose count the
model leaves out with all timing. -/
def State.special (s : State) (k : Nat) (r : Run) (is : Issue) (idx : Nat) : Word × State :=
  match idx with
  | 0 => (BitVec.ofNat 64 r.task.id, s)
  | 1 => (r.seed, s)
  | 2 => (BitVec.ofNat 64 k, s)
  | 3 => (BitVec.ofNat 64 r.task.ctx, s)
  | 4 => s.takeFree
  | 5 => (is.flags, s)
  | 6 => (s.regionWord r.task.ctx (clusterOf k), s)
  | _ => (BitVec.ofNat 64 is.fabout, s)

end Sys2Proof.Machine
end

