-- ==== Sys2Proof/Machine/Slots.lean ====
section
/-! DEFINITION. The three slots of a bundle and their 42-bit words (R134, R135, R140–R150): how an instruction is spelt,
which bits it may use, which registers it reads and writes. -/

namespace Sys2Proof.Machine

/-- Slot word of a bundle: slot C [43:2], slot A [85:44], slot I [127:86] (R134). -/
def slotWord (b : Bundle) (sl : Slot) : Nat :=
  match sl with
  | .C => b.toNat / 2 ^ 2 % 2 ^ 42
  | .A => b.toNat / 2 ^ 44 % 2 ^ 42
  | .I => b.toNat / 2 ^ 86 % 2 ^ 42

/-- Opcode of a slot word (R134). -/
def opOf (w : Nat) : Nat := w / 2 ^ 34

/-- Operand fields of R135. -/
def wRd (w : Nat) : Nat := w / 2 ^ 29 % 32
def wRs1 (w : Nat) : Nat := w / 2 ^ 24 % 32
def wRs2 (w : Nat) : Nat := w / 2 ^ 19 % 32
def wFn (w : Nat) : Nat := w % 2 ^ 19
def wImm (w : Nat) : Nat := w % 2 ^ 24
def wAg (w : Nat) : Nat := w / 2 ^ 32 % 4
def wDim (w : Nat) : Nat := w / 2 ^ 29 % 8
/-- Vector-move fields. -/
def wV (w : Nat) : Nat := w / 2 ^ 30 % 16
def wVAg (w : Nat) : Nat := w / 2 ^ 28 % 4
def wVWidth (w : Nat) : Nat := w / 2 ^ 26 % 4
/-- Vector fields of slot I. -/
def wVs1 (w : Nat) : Nat := w / 2 ^ 26 % 16
def wVs2 (w : Nat) : Nat := w / 2 ^ 22 % 16
def wVs3 (w : Nat) : Nat := w / 2 ^ 18 % 16
def wVRs (w : Nat) : Nat := w / 2 ^ 13 % 32
/-- Tile fields: TSTART. -/
def wM1 (w : Nat) : Nat := w / 2 ^ 27 % 128
def wN1 (w : Nat) : Nat := w / 2 ^ 20 % 128
def wMode (w : Nat) : Nat := w / 2 ^ 18 % 4
def wStRk (w : Nat) : Nat := w / 2 ^ 13 % 32
def wStRa (w : Nat) : Nat := w / 2 ^ 8 % 32
/-- Tile fields: TMMA. -/
def wAgB (w : Nat) : Nat := w / 2 ^ 30 % 4
def wFa (w : Nat) : Nat := w / 2 ^ 26 % 16
def wFb (w : Nat) : Nat := w / 2 ^ 22 % 16
def wMx (w : Nat) : Bool := bitOf w 21
def wSparse (w : Nat) : Bool := bitOf w 20
def wMmRk (w : Nat) : Nat := w / 2 ^ 15 % 32
def wMmRs (w : Nat) : Nat := w / 2 ^ 10 % 32
/-- Tile fields: TFIN. -/
def wOfmt (w : Nat) : Nat := w / 2 ^ 28 % 16
def wSat (w : Nat) : Bool := bitOf w 27
def wSr (w : Nat) : Bool := bitOf w 26
def wFtz (w : Nat) : Bool := bitOf w 25
def wRx (w : Nat) : Nat := w / 2 ^ 20 % 32
/-- VCVT's fn: from [12:9], to [8:5], sr [4], sat [3]. -/
def wFrom (w : Nat) : Nat := w / 2 ^ 9 % 16
def wTo (w : Nat) : Nat := w / 2 ^ 5 % 16
def wCvSr (w : Nat) : Bool := bitOf w 4

/-- Words of the forms of R135. -/
def enc3 (op rd rs1 rs2 fn : Nat) : Nat := op * 2 ^ 34 + rd * 2 ^ 29 + rs1 * 2 ^ 24 + rs2 * 2 ^ 19 + fn
def encI (op rd rs1 imm : Nat) : Nat := op * 2 ^ 34 + rd * 2 ^ 29 + rs1 * 2 ^ 24 + imm
def encAg (op ag d rs1 rs2 : Nat) : Nat := op * 2 ^ 34 + ag * 2 ^ 32 + d * 2 ^ 29 + rs1 * 2 ^ 24 + rs2 * 2 ^ 19
def encVm (op v ag w : Nat) : Nat := op * 2 ^ 34 + v * 2 ^ 30 + ag * 2 ^ 28 + w * 2 ^ 26
def encV (op vd vs1 vs2 vs3 rs fn : Nat) : Nat :=
  op * 2 ^ 34 + vd * 2 ^ 30 + vs1 * 2 ^ 26 + vs2 * 2 ^ 22 + vs3 * 2 ^ 18 + rs * 2 ^ 13 + fn

/-- The core, slot and slot word of a task instruction (R134–R150); none for any other command. -/
def slotOf : Instr → Option (LCore × Slot × Nat)
  | .nop k sl => some (k, sl, 0)
  | .add k rd rs1 rs2 => some (k, .C, enc3 0x01 rd rs1 rs2 0)
  | .sub k rd rs1 rs2 => some (k, .C, enc3 0x02 rd rs1 rs2 0)
  | .and k rd rs1 rs2 => some (k, .C, enc3 0x03 rd rs1 rs2 0)
  | .or k rd rs1 rs2 => some (k, .C, enc3 0x04 rd rs1 rs2 0)
  | .xor k rd rs1 rs2 => some (k, .C, enc3 0x05 rd rs1 rs2 0)
  | .sll k rd rs1 rs2 => some (k, .C, enc3 0x06 rd rs1 rs2 0)
  | .srl k rd rs1 rs2 => some (k, .C, enc3 0x07 rd rs1 rs2 0)
  | .sra k rd rs1 rs2 => some (k, .C, enc3 0x08 rd rs1 rs2 0)
  | .mul k rd rs1 rs2 => some (k, .C, enc3 0x09 rd rs1 rs2 0)
  | .mulhu k rd rs1 rs2 => some (k, .C, enc3 0x0A rd rs1 rs2 0)
  | .divu k rd rs1 rs2 => some (k, .C, enc3 0x0B rd rs1 rs2 0)
  | .remu k rd rs1 rs2 => some (k, .C, enc3 0x0C rd rs1 rs2 0)
  | .slt k rd rs1 rs2 => some (k, .C, enc3 0x0D rd rs1 rs2 0)
  | .sltu k rd rs1 rs2 => some (k, .C, enc3 0x0E rd rs1 rs2 0)
  | .min k rd rs1 rs2 => some (k, .C, enc3 0x0F rd rs1 rs2 0)
  | .max k rd rs1 rs2 => some (k, .C, enc3 0x10 rd rs1 rs2 0)
  | .addi k rd rs1 imm => some (k, .C, encI 0x11 rd rs1 imm.toNat)
  | .andi k rd rs1 imm => some (k, .C, encI 0x12 rd rs1 imm.toNat)
  | .ori k rd rs1 imm => some (k, .C, encI 0x13 rd rs1 imm.toNat)
  | .xori k rd rs1 imm => some (k, .C, encI 0x14 rd rs1 imm.toNat)
  | .lui k rd imm => some (k, .C, encI 0x15 rd 0 imm.toNat)
  | .lhi k rd rs1 imm => some (k, .C, encI 0x16 rd rs1 imm.toNat)
  | .rdsr k rd idx => some (k, .C, encI 0x18 rd 0 idx.toNat)
  | .beq k rs1 rs2 off => some (k, .C, encI 0x20 rs1 rs2 off.toNat)
  | .bne k rs1 rs2 off => some (k, .C, encI 0x21 rs1 rs2 off.toNat)
  | .blt k rs1 rs2 off => some (k, .C, encI 0x22 rs1 rs2 off.toNat)
  | .bge k rs1 rs2 off => some (k, .C, encI 0x23 rs1 rs2 off.toNat)
  | .bltu k rs1 rs2 off => some (k, .C, encI 0x24 rs1 rs2 off.toNat)
  | .bgeu k rs1 rs2 off => some (k, .C, encI 0x25 rs1 rs2 off.toNat)
  | .jal k rd off => some (k, .C, encI 0x26 rd 0 off.toNat)
  | .jalr k rd rs1 imm => some (k, .C, encI 0x27 rd rs1 imm.toNat)
  | .ssig k rs1 rs2 => some (k, .C, enc3 0x40 0 rs1 rs2 0)
  | .swait k rd rs1 rs2 fn => some (k, .C, enc3 0x41 rd rs1 rs2 fn.toNat)
  | .srst k rs1 => some (k, .C, enc3 0x42 0 rs1 0 0)
  | .srd k rd rs1 => some (k, .C, enc3 0x43 rd rs1 0 0)
  | .tbind k e rs1 => some (k, .C, enc3 0x60 0 rs1 0 e)
  | .tunbind k e => some (k, .C, enc3 0x61 0 0 0 e)
  | .tsend k e rs1 => some (k, .C, enc3 0x62 0 rs1 0 e)
  | .trecv k rd e => some (k, .C, enc3 0x63 rd 0 0 e)
  | .tstat k rd e => some (k, .C, enc3 0x64 rd 0 0 e)
  | .clnch k rs1 rs2 _ => some (k, .C, enc3 0x70 0 rs1 rs2 0)
  | .tend k kind => some (k, .C, enc3 0x7F 0 0 0 (ofBool kind))
  | .agbase k ag rs1 => some (k, .A, encAg 0x01 ag 0 rs1 0)
  | .agdim k ag d rs1 rs2 => some (k, .A, encAg 0x02 ag d rs1 rs2)
  | .agstep k ag d => some (k, .A, encAg 0x03 ag d 0 0)
  | .agrd k ag rd => some (k, .A, encAg 0x04 ag 0 rd 0)
  | .vld k v ag w _ => some (k, .A, encVm 0x08 v ag w)
  | .vst k v ag w => some (k, .A, encVm 0x09 v ag w)
  | .sld k rd rs1 imm _ => some (k, .A, encI 0x0A rd rs1 imm.toNat)
  | .sst k rs rs1 imm => some (k, .A, encI 0x0B rs rs1 imm.toNat)
  | .move k rd rs1 rs2 _ => some (k, .A, enc3 0x0C rd rs1 rs2 0)
  | .get k rd rs1 rs2 => some (k, .A, enc3 0x20 rd rs1 rs2 0)
  | .put k rd rs1 rs2 _ => some (k, .A, enc3 0x21 rd rs1 rs2 0)
  | .puts k rd rs1 rs2 rsig _ => some (k, .A, enc3 0x22 rd rs1 rs2 (rsig * 2 ^ 14))
  | .fwait k n => some (k, .A, enc3 0x28 0 0 0 n.toNat)
  | .aadd k rd rs1 rs2 => some (k, .A, enc3 0x30 rd rs1 rs2 0)
  | .amin k rd rs1 rs2 => some (k, .A, enc3 0x31 rd rs1 rs2 0)
  | .amax k rd rs1 rs2 => some (k, .A, enc3 0x32 rd rs1 rs2 0)
  | .aswp k rd rs1 rs2 => some (k, .A, enc3 0x33 rd rs1 rs2 0)
  | .acas k rd rs1 rs2 => some (k, .A, enc3 0x34 rd rs1 rs2 0)
  | .tstart k m1 n1 mode rk ra _ =>
    some (k, .I, 0x01 * 2 ^ 34 + m1 * 2 ^ 27 + n1 * 2 ^ 20 + mode * 2 ^ 18 + rk * 2 ^ 13 + ra * 2 ^ 8)
  | .tmma k aga agb fa fb mx sparse rk rs _ =>
    some (k, .I, 0x02 * 2 ^ 34 + aga * 2 ^ 32 + agb * 2 ^ 30 + fa * 2 ^ 26 + fb * 2 ^ 22 + ofBool mx * 2 ^ 21
      + ofBool sparse * 2 ^ 20 + rk * 2 ^ 15 + rs * 2 ^ 10)
  | .tfin k ago ofmt sat sr ftz rx =>
    some (k, .I, 0x03 * 2 ^ 34 + ago * 2 ^ 32 + ofmt * 2 ^ 28 + ofBool sat * 2 ^ 27 + ofBool sr * 2 ^ 26
      + ofBool ftz * 2 ^ 25 + rx * 2 ^ 20)
  | .twait k => some (k, .I, 0x04 * 2 ^ 34)
  | .vadd k vd vs1 vs2 => some (k, .I, encV 0x40 vd vs1 vs2 0 0 0)
  | .vsub k vd vs1 vs2 => some (k, .I, encV 0x41 vd vs1 vs2 0 0 0)
  | .vmul k vd vs1 vs2 => some (k, .I, encV 0x42 vd vs1 vs2 0 0 0)
  | .vfma k vd vs1 vs2 vs3 => some (k, .I, encV 0x43 vd vs1 vs2 vs3 0 0)
  | .vdiv k vd vs1 vs2 => some (k, .I, encV 0x44 vd vs1 vs2 0 0 0)
  | .vsqrt k vd vs1 => some (k, .I, encV 0x45 vd vs1 0 0 0 0)
  | .vmax k vd vs1 vs2 => some (k, .I, encV 0x46 vd vs1 vs2 0 0 0)
  | .vmin k vd vs1 vs2 => some (k, .I, encV 0x47 vd vs1 vs2 0 0 0)
  | .vexp k vd vs1 => some (k, .I, encV 0x48 vd vs1 0 0 0 0)
  | .vlog k vd vs1 => some (k, .I, encV 0x49 vd vs1 0 0 0 0)
  | .vrsqrt k vd vs1 => some (k, .I, encV 0x4A vd vs1 0 0 0 0)
  | .vtanh k vd vs1 => some (k, .I, encV 0x4B vd vs1 0 0 0 0)
  | .vsig k vd vs1 => some (k, .I, encV 0x4C vd vs1 0 0 0 0)
  | .vbcast k vd rs => some (k, .I, encV 0x50 vd 0 0 0 rs 0)
  | .vlane k vs1 rs lane => some (k, .I, encV 0x51 0 vs1 0 0 rs lane)
  | .vcvt k vd vs1 rs frm dst sr sat =>
    some (k, .I, encV 0x52 vd vs1 0 0 rs (frm * 2 ^ 9 + dst * 2 ^ 5 + ofBool sr * 2 ^ 4 + ofBool sat * 2 ^ 3))
  | .vrsum k vd vs1 => some (k, .I, encV 0x54 vd vs1 0 0 0 0)
  | .vrmax k vd vs1 => some (k, .I, encV 0x55 vd vs1 0 0 0 0)
  | .vrmin k vd vs1 => some (k, .I, encV 0x56 vd vs1 0 0 0 0)
  | .vwred k vd vs1 rs => some (k, .I, encV 0x57 vd vs1 0 0 rs 0)
  | .vwredr k vd vs1 rs => some (k, .I, encV 0x58 vd vs1 0 0 rs 0)
  | .vradd k vd vs1 vs2 => some (k, .I, encV 0x59 vd vs1 vs2 0 0 0)
  | _ => none

/-- Bits of [33:0] that an opcode of a slot uses; none for an unassigned opcode (R135, R140–R150). -/
def useMask (sl : Slot) (op : Nat) : Option Nat :=
  let rd := 0x1F * 2 ^ 29
  let rs1 := 0x1F * 2 ^ 24
  let rs2 := 0x1F * 2 ^ 19
  let ag := 3 * 2 ^ 32
  let d := 7 * 2 ^ 29
  let vd := 0xF * 2 ^ 30
  let v1 := 0xF * 2 ^ 26
  let v2 := 0xF * 2 ^ 22
  let v3 := 0xF * 2 ^ 18
  let rs := 0x1F * 2 ^ 13
  match sl with
  | .C =>
    if op = 0 then some 0
    else if op ≤ 0x10 then some (rd + rs1 + rs2)
    else if op ≤ 0x14 then some (rd + rs1 + 0xFFFFFF)
    else if op = 0x15 ∨ op = 0x18 ∨ op = 0x26 then some (rd + 0xFFFFFF)
    else if op = 0x16 then some (rd + rs1 + 0xFFFF)
    else if 0x20 ≤ op ∧ op ≤ 0x27 then some (rd + rs1 + 0xFFFFFF)
    else if op = 0x40 ∨ op = 0x70 then some (rs1 + rs2)
    else if op = 0x41 then some (2 ^ 34 - 1)
    else if op = 0x42 then some rs1
    else if op = 0x43 then some (rd + rs1)
    else if op = 0x60 ∨ op = 0x62 then some (rs1 + 7)
    else if op = 0x61 then some 7
    else if op = 0x63 ∨ op = 0x64 then some (rd + 7)
    else if op = 0x7F then some 1
    else none
  | .A =>
    if op = 0 then some 0
    else if op = 1 ∨ op = 4 then some (ag + rs1)
    else if op = 2 then some (ag + d + rs1 + rs2)
    else if op = 3 then some (ag + d)
    else if op = 8 ∨ op = 9 then some (0xFF * 2 ^ 26)
    else if op = 0x0A ∨ op = 0x0B then some (rd + rs1 + 0xFFFFFF)
    else if op = 0x0C ∨ op = 0x20 ∨ op = 0x21 then some (rd + rs1 + rs2)
    else if op = 0x22 then some (rd + rs1 + rs2 + 0x1F * 2 ^ 14)
    else if op = 0x28 then some 0x1F
    else if 0x30 ≤ op ∧ op ≤ 0x34 then some (rd + rs1 + rs2)
    else none
  | .I =>
    if op = 0 ∨ op = 4 then some 0
    else if op = 1 then some (2 ^ 34 - 2 ^ 8)
    else if op = 2 then some (2 ^ 34 - 2 ^ 10)
    else if op = 3 then some (2 ^ 34 - 2 ^ 20)
    else if 0x40 ≤ op ∧ op ≤ 0x42 ∨ op = 0x44 ∨ op = 0x46 ∨ op = 0x47 ∨ op = 0x59 then some (vd + v1 + v2)
    else if op = 0x43 then some (vd + v1 + v2 + v3)
    else if op = 0x45 ∨ 0x48 ≤ op ∧ op ≤ 0x4C ∨ 0x54 ≤ op ∧ op ≤ 0x56 then some (vd + v1)
    else if op = 0x50 then some (vd + rs)
    else if op = 0x51 then some (v1 + rs + 0x7F)
    else if op = 0x52 then some (vd + v1 + rs + 0x1FF8)
    else if op = 0x57 ∨ op = 0x58 then some (vd + v1 + rs)
    else none

/-- Does a slot word break R135, or the encoding rules of its instruction? -/
def badEncoding (sl : Slot) (w : Nat) : Bool :=
  let op := opOf w
  match useMask sl op with
  | none => true
  | some m =>
    (w % 2 ^ 34) &&& (2 ^ 34 - 1 - m) != 0
    || (match sl with
        | .C => op == 0x18 && wImm w > 7
        | .A => (op == 2 || op == 3) && wDim w > 4 || op == 0x28 && wFn w > 16
        | .I => op == 1 && (wMode w == 0 || wMode w == 2) && wStRa w != 0
          || op == 2 && !wMx w && !wSparse w && wMmRs w != 0
          || op == 3 && !wSr w && wRx w != 0
          || op == 0x52 && (!wCvSr w && wVRs w != 0 || wFrom w ≥ 10 || wTo w ≥ 10))

/-- The x register that a slot word writes (R135, R140–R148). -/
def destX (sl : Slot) (w : Nat) : Option Nat :=
  let op := opOf w
  let d : Option Nat := match sl with
    | .C =>
      if 1 ≤ op ∧ op ≤ 0x18 ∨ op = 0x26 ∨ op = 0x27 ∨ op = 0x41 ∨ op = 0x43 ∨ op = 0x63 ∨ op = 0x64 then some (wRd w) else none
    | .A =>
      if op = 4 then some (wRs1 w) else if op = 0x0A ∨ 0x30 ≤ op ∧ op ≤ 0x34 then some (wRd w) else none
    | .I => if op = 0x51 then some (wVRs w) else none
  match d with
  | some 0 => none
  | x => x

/-- The v register that a slot word writes. -/
def destV (sl : Slot) (w : Nat) : Option Nat :=
  let op := opOf w
  match sl with
  | .C => none
  | .A => if op = 8 then some (wV w) else none
  | .I => if 0x40 ≤ op ∧ op ≠ 0x51 then some (wV w) else none

/-- The x registers that a slot word reads; TEND reads x31, the task's result (R180). -/
def srcX (sl : Slot) (w : Nat) : List Nat :=
  let op := opOf w
  match sl with
  | .C =>
    if 1 ≤ op ∧ op ≤ 0x10 then [wRs1 w, wRs2 w]
    else if 0x11 ≤ op ∧ op ≤ 0x14 ∨ op = 0x16 ∨ op = 0x27 ∨ op = 0x42 ∨ op = 0x43 ∨ op = 0x60 ∨ op = 0x62 then [wRs1 w]
    else if 0x20 ≤ op ∧ op ≤ 0x25 then [wRd w, wRs1 w]
    else if op = 0x40 ∨ op = 0x41 ∨ op = 0x70 then [wRs1 w, wRs2 w]
    else if op = 0x7F then [31]
    else []
  | .A =>
    if op = 1 then [wRs1 w] else if op = 2 then [wRs1 w, wRs2 w] else if op = 0x0A then [wRs1 w]
    else if op = 0x0B then [wRd w, wRs1 w]
    else if op = 0x0C ∨ op = 0x20 ∨ op = 0x21 then [wRd w, wRs1 w, wRs2 w]
    else if op = 0x22 then [wRd w, wRs1 w, wRs2 w, wFn w / 2 ^ 14 % 32]
    else if 0x30 ≤ op ∧ op ≤ 0x33 then [wRs1 w, wRs2 w] else if op = 0x34 then [wRd w, wRs1 w, wRs2 w]
    else []
  | .I =>
    if op = 1 then [wStRk w] ++ (if wMode w = 1 ∨ wMode w = 3 then [wStRa w] else [])
    else if op = 2 then [wMmRk w] ++ (if wMx w ∨ wSparse w then [wMmRs w] else [])
    else if op = 3 then (if wSr w then [wRx w] else [])
    else if op = 0x50 ∨ op = 0x57 ∨ op = 0x58 then [wVRs w]
    else if op = 0x52 then (if wCvSr w then [wVRs w] else [])
    else []

/-- The slots of a bundle, in the order of R155. -/
def slotsCAI : List Slot := [.C, .A, .I]

/-- Number of a slot. -/
def slotNum : Slot → Nat
  | .C => 0
  | .A => 1
  | .I => 2

/-- Is the whole bundle at fault (R155): its format bits, or two slots that write one register other than x0? -/
def bundleFault (b : Bundle) : Bool :=
  let xs := slotsCAI.filterMap (fun sl => destX sl (slotWord b sl))
  let vs := slotsCAI.filterMap (fun sl => destV sl (slotWord b sl))
  b.toNat % 4 != 1 || decide (xs.eraseDups.length ≠ xs.length) || decide (vs.eraseDups.length ≠ vs.length)

end Sys2Proof.Machine
end

