-- ==== Sys2Proof/Machine/Operands.lean ====
section
/-! DEFINITION. Operand forms of task instructions: local addresses (R133), address generators (R138), the bytes that an
instruction reads and writes, the faults of R156 that it meets at issue and the conditions on which it stalls (R151–R153). -/

namespace Sys2Proof.Machine

/-! ### Registers and generators -/

/-- Register x[n] as the bundle reads it (R136, R151). -/
def Issue.x (is : Issue) (n : Nat) : Word := if n = 0 then 0#64 else is.xs.getD n 0#64

/-- Register v[n] as the bundle reads it. -/
def Issue.v (is : Issue) (n : Nat) : BitVec 4096 := is.vs.getD n 0#4096

/-- Generator n as the bundle reads it. -/
def Issue.ag (is : Issue) (n : Nat) : AG := is.ags.getD n AG.start

/-- Write x[rd]; writes to x0 are discarded (R136). -/
def Run.writeX (r : Run) (rd : Nat) (v : Word) : Run := if rd = 0 then r else { r with xs := setAt r.xs rd v }

/-- Write v[vd]. -/
def Run.writeV (r : Run) (vd : Nat) (v : BitVec 4096) : Run := { r with vs := setAt r.vs vd v }

/-- Write a generator. -/
def Run.writeAg (r : Run) (n : Nat) (g : AG) : Run := { r with ags := setAt r.ags n g }

/-- Lane i of a v register (R136). -/
def laneOf (v : BitVec 4096) (i : Nat) : Nat := (v.extractLsb' (32 * i) 32).toNat

/-- The 128 lanes. -/
def lanesOf (v : BitVec 4096) : List Nat := (List.range 128).map (laneOf v)

/-- A v register from its lanes. -/
def ofLanes (l : List Nat) : BitVec 4096 := BitVec.ofNat 4096 (l.foldr (fun x a => x % 2 ^ 32 + 2 ^ 32 * a) 0)

/-- A dimension's contribution to the yielded address. -/
def Dim.term (d : Dim) : Word := d.stride.signExtend 64 * d.index.setWidth 64

/-- The address a generator yields (R138), modulo 2^64. -/
def AG.addr (g : AG) : Word := g.dims.foldl (fun a d => a + d.term) g.base

/-- The yielded address with index 0 taken as 0: row 0 of a tile operand (R138). -/
def AG.rowBase (g : AG) : Word := (g.dims.drop 1).foldl (fun a d => a + d.term) g.base

/-- Stride of dimension 0. -/
def AG.rowStride (g : AG) : Word := match g.dims with
  | d :: _ => d.stride.signExtend 64
  | [] => 0#64

/-- A count of 0 stands for 65,536 (R138). -/
def Dim.size (d : Dim) : Nat := if d.count = 0#16 then 65536 else d.count.toNat

/-- Step a dimension; an index that reaches its count returns to 0 and carries into the next; the last wraps (R138). -/
def stepDims : List Dim → List Dim
  | [] => []
  | d :: t => if d.index.toNat + 1 ≥ d.size then { d with index := 0#16 } :: stepDims t
    else { d with index := d.index + 1#16 } :: t

/-- Step dimension d of a generator. -/
def AG.step (g : AG) (d : Nat) : AG := { g with dims := g.dims.take d ++ stepDims (g.dims.drop d) }

/-! ### Local addresses (R133) -/

/-- A range of local bytes: address and length. -/
abbrev Range := Nat × Nat

/-- Where a local address lies in the model's one address space. -/
def State.localAt (s : State) (k a : Nat) : Nat :=
  if a < 2 ^ 20 then coreStoreAt (s.physOf k) a else clusterStoreAt (clusterOf k) (a - 2 ^ 24)

/-- Fault codes of R156. -/
def ftEncoding : Nat := 0x01
def ftPcRange : Nat := 0x02
def ftAlign : Nat := 0x03
def ftLocalRange : Nat := 0x04
def ftRegion : Nat := 0x05
def ftFormatPair : Nat := 0x06
def ftOutFormat : Nat := 0x07
def ftMxShape : Nat := 0x08
def ftSparseMeta : Nat := 0x09
def ftNoChain : Nat := 0x0A
def ftChainDepth : Nat := 0x0B
def ftChainLong : Nat := 0x0C
def ftChainOpen : Nat := 0x0D
def ftAnchorMode : Nat := 0x0E
def ftOperandLock : Nat := 0x0F
def ftFabricPage : Nat := 0x10
def ftFabricSize : Nat := 0x11
def ftSyncOwner : Nat := 0x12
def ftTokenUnbound : Nat := 0x13
def ftTokenBusy : Nat := 0x14
def ftTokenPeer : Nat := 0x15
def ftGroupMember : Nat := 0x16
def ftNoProgram : Nat := 0x17
def ftPoison : Nat := 0x18

/-- A list of the codes whose condition holds. -/
def codes (l : List (Bool × Nat)) : List Nat := l.filterMap (fun p => if p.1 then some p.2 else none)

/-- Faults of a local range: outside the local space, or in a region the context does not own (R133). -/
def State.rangeFaults (s : State) (ctx cl : Nat) (r : Range) : List Nat :=
  if r.1 + r.2 ≤ 2 ^ 20 ∧ r.1 < 2 ^ 20 then []
  else if 2 ^ 24 ≤ r.1 ∧ r.1 < 2 ^ 24 + 2 ^ 23 ∧ r.1 + r.2 ≤ 2 ^ 24 + 2 ^ 23 then
    let lo := (r.1 - 2 ^ 24) / 2 ^ 20
    let hi := (r.1 + r.2 - 1 - 2 ^ 24) / 2 ^ 20
    codes [((List.range (hi + 1 - lo)).any (fun i => !(s.regionsOf ctx cl).contains (lo + i)), ftRegion)]
  else [ftLocalRange]

/-- Faults of ranges that must lie in the core store (R133). -/
def coreOnly (l : List Range) : List Nat := codes [(l.any (fun r => decide (r.1 + r.2 > 2 ^ 20 ∨ r.1 ≥ 2 ^ 20)), ftLocalRange)]

/-- Do two ranges share a byte? -/
def meets (a b : Range) : Bool := decide (a.2 ≠ 0 ∧ b.2 ≠ 0 ∧ a.1 < b.1 + b.2 ∧ b.1 < a.1 + a.2)

/-- Does any range of one list share a byte with any of another? -/
def anyMeets (a b : List Range) : Bool := a.any (fun x => b.any (meets x))

/-! ### Tile operands -/

/-- Rows of an operand: n rows of the given bytes. -/
def tileRows (base stride : Word) (n bytes : Nat) : List Range :=
  (List.range n).map (fun i => ((rowAddr base stride i).toNat, bytes))

/-- Elements of A stored per row: half of k in a 2:4 sparse instruction (R123). -/
def Tmma.aCount (t : Tmma) : Nat := if t.sparse then t.k / 2 else t.k

/-- Bytes that a logged instruction reads for a block of m × n (R98, R139). -/
def Tmma.reads (t : Tmma) (m n : Nat) : List Range :=
  tileRows t.aAddr t.aStride m (packedBytes t.fa t.aCount) ++ tileRows t.bAddr t.bStride n (packedBytes t.fb t.k)
  ++ (if t.mx then [(t.scaleA, m * (t.k / 32)), (t.scaleB, n * (t.k / 32))] else [])
  ++ (if t.sparse then [(t.posA, (m * (t.k / 4) + 1) / 2)] else [])

/-- Bytes locked by a chain's logged instructions: those that its TMMAs read. DESIGN CHOICE (log entry 124): the records that a TSTART with LOAD
reads are in the chain from its issue, and their bytes are not locked. -/
def Chain.reads (c : Chain) : List Range := c.ops.flatMap (fun t => t.reads c.m c.n)

/-- Output rows of a finish. -/
def Finish.writes (f : Finish) : List Range :=
  tileRows f.oAddr f.oStride f.chain.m (f.chain.n * ((elemOf f.ofmt).bits / 8))

/-- The core-store bytes locked for a task (R98): those of its open chain and of chains whose finish is not complete. -/
def Run.locked (r : Run) : List Range :=
  (match r.chain with
    | some c => c.reads
    | none => []) ++ r.finishes.flatMap (fun f => f.chain.reads)

/-- Bytes of pending background writes (R153): GETs, MOVEs and finishes. -/
def Run.pendingWrites (r : Run) : List Range :=
  r.fab.filterMap (fun o => if o.kind = .get then some (o.loc, o.bytes) else none)
  ++ r.moves.map (fun m => (m.dst, m.bytes)) ++ r.finishes.flatMap Finish.writes

/-- Source bytes of pending PUTs and MOVEs (R153). -/
def Run.pendingReads (r : Run) : List Range :=
  r.fab.filterMap (fun o => if o.kind = .put ∨ o.kind = .puts then some (o.loc, o.bytes) else none)
  ++ r.moves.map (fun m => (m.src, m.bytes))

/-- Pending ranges that the core tracks (R153): one for each GET, PUT, MOVE and finish. -/
def Run.pendingCount (r : Run) : Nat :=
  (r.fab.filter (fun o => o.kind != .atomic)).length + r.moves.length + r.finishes.length

/-- The captured instruction of a TMMA word (R138, R139, R144). DESIGN CHOICE (log entry 87): bits [63:60] of rs, which R139 has zero, are
ignored. -/
def Issue.tmma (is : Issue) (w : Nat) : Tmma :=
  let a := is.ag (wAg w)
  let b := is.ag (wAgB w)
  let sc := is.x (wMmRs w)
  { fa := wFa w, fb := wFb w, mx := wMx w, sparse := wSparse w, k := (is.x (wMmRk w)).toNat
    aAddr := a.rowBase, aStride := a.rowStride, bAddr := b.rowBase, bStride := b.rowStride
    scaleA := bitsOf sc.toNat 19 0, scaleB := bitsOf sc.toNat 39 20, posA := bitsOf sc.toNat 59 40 }

/-- Records that a LOAD reads: row i at x[ra] + i × N × 16 (R144). -/
def Issue.loadRange (is : Issue) (w : Nat) : Range := ((is.x (wStRa w)).toNat, (wM1 w + 1) * (wN1 w + 1) * 16)

/-- Bytes of an address that is not a multiple of n. -/
def off (a : Nat) (n : Nat) : Bool := a % n != 0

/-- Access size of a vector move: 512, 256, 128 or 64 bytes (R141). -/
def vmBytes (w : Nat) : Nat := 512 / 2 ^ w

/-- Address of an SLD or SST; the immediate is sign-extended. -/
def Issue.slAddr (is : Issue) (w : Nat) : Nat := (is.x (wRs1 w) + (BitVec.ofNat 24 (wImm w)).signExtend 64).toNat

/-- Local ranges read and written by a slot word, and whether they must lie in the core store. -/
def Issue.touches (is : Issue) (c : Option Chain) (sl : Slot) (w : Nat) : List Range × List Range :=
  let op := opOf w
  match sl with
  | .C => if op = 0x70 then ([((is.x (wRs2 w)).toNat, 64)], []) else ([], [])
  | .A =>
    if op = 8 then ([((is.ag (wVAg w)).addr.toNat, vmBytes (wVWidth w))], [])
    else if op = 9 then ([], [((is.ag (wVAg w)).addr.toNat, vmBytes (wVWidth w))])
    else if op = 0x0A then ([(is.slAddr w, 8)], [])
    else if op = 0x0B then ([], [(is.slAddr w, 8)])
    else if op = 0x0C then ([((is.x (wRs1 w)).toNat, (is.x (wRs2 w)).toNat)], [((is.x (wRd w)).toNat, (is.x (wRs2 w)).toNat)])
    else if op = 0x20 then ([], [((is.x (wRd w)).toNat, (is.x (wRs2 w)).toNat)])
    else if op = 0x21 ∨ op = 0x22 then ([((is.x (wRd w)).toNat, (is.x (wRs2 w)).toNat)], [])
    else ([], [])
  | .I =>
    if op = 1 then (if wMode w = 3 then ([is.loadRange w], []) else ([], []))
    else if op = 2 then match c with
      | some ch => ((is.tmma w).reads ch.m ch.n, [])
      | none => ((is.tmma w).reads 1 1, [])
    else if op = 3 then match c with
      | some ch => ([], tileRows (is.ag (wAg w)).rowBase (is.ag (wAg w)).rowStride ch.m (ch.n * ((elemOf (wOfmt w)).bits / 8)))
      | none => ([], tileRows (is.ag (wAg w)).rowBase (is.ag (wAg w)).rowStride 1 ((elemOf (wOfmt w)).bits / 8))
    else ([], [])

/-! ### Sync objects, endpoints, groups -/

/-- Object register (R147): node and index; none where a bit outside the fields is set. -/
def objOf (v : Word) : Option (Node × Nat) :=
  if v &&& ~~~(0x000FFF0000003FFF#64) = 0#64 then some (v.extractLsb' 40 12, (v.extractLsb' 0 14).toNat) else none

/-- Does a context hold an object? -/
def State.holds (s : State) (ctx i : Nat) : Bool :=
  match lookupKey s.sync i with
  | some o => o.holder == ctx
  | none => false

/-- Is an object register the fault SYNC_OWNER; `far` where another node may be named (R147, R160)? -/
def State.badObj (s : State) (ctx : Nat) (v : Word) (far : Bool) : Bool :=
  match objOf v with
  | none => true
  | some (n, i) => if n = s.node then !s.holds ctx i else !far

/-- Key of an endpoint. -/
def endKey (k e : Nat) : Nat := k * 8 + e

/-- An endpoint nothing is bound to. -/
def EndpointSt.free : EndpointSt := ⟨none, 16, [], none⟩

/-- An endpoint's state. -/
def State.endpoint (s : State) (key : Nat) : EndpointSt := (lookupKey s.cores.endpoints key).getD EndpointSt.free

/-- Replace an endpoint's state; an endpoint that is free again is not listed. -/
def State.setEndpoint (s : State) (key : Nat) (e : EndpointSt) : State :=
  { s with cores := { s.cores with endpoints :=
    if e = EndpointSt.free then eraseKey s.cores.endpoints key else insertKey s.cores.endpoints key e } }

/-- Peer register (R148): endpoint key; die, cluster, core and endpoint lie in [11:0]. -/
def peerKey (v : Word) : Nat := v.toNat % 4096

/-- Is an endpoint's send side bound by a context? -/
def EndpointSt.boundBy (e : EndpointSt) (ctx : Nat) : Bool :=
  match e.peer with
  | some p => p.2 == ctx
  | none => false

/-- Is a receive queue claimed by another context? -/
def EndpointSt.foreign (e : EndpointSt) (ctx : Nat) : Bool :=
  match e.claim with
  | some c => c != ctx
  | none => false

/-- Is a context a member of a local group (R149): the group is READY or BROKEN and names the context? -/
def State.memberOf (s : State) (ctx g : Nat) : Bool :=
  decide (g < 1024) && decide (s.fld (fGrpGStateState g) ≥ 2) && s.fld (fGrpGStatContext g) == ctx

/-- Descriptors in the 16-entry communication queue of a group (R309). -/
def State.commOf (s : State) (g : Nat) : List (List Byte) := (lookupKey s.que.comm g).getD []

/-! ### Faults at issue -/

/-- Length of a task's program in bundles; 0 where it is not bound. -/
def State.progLen (s : State) (ctx prog : Nat) : Nat :=
  match s.cores.bindings.find? (fun b => b.ctx == ctx && b.prog == prog) with
  | some b => b.bundles.length
  | none => 0

/-- A branch's condition (R140). -/
def branchTaken (op : Nat) (a b : Word) : Bool :=
  match op with
  | 0x20 => a == b
  | 0x21 => a != b
  | 0x22 => decide (a.toInt < b.toInt)
  | 0x23 => decide (a.toInt ≥ b.toInt)
  | 0x24 => decide (a.toNat < b.toNat)
  | 0x25 => decide (a.toNat ≥ b.toNat)
  | _ => true

/-- Target of a branch, JAL or JALR (R140); none where it is not taken. -/
def Issue.target (is : Issue) (pc w : Nat) : Option Int :=
  let op := opOf w
  let o := (BitVec.ofNat 24 (wImm w)).toInt
  if 0x20 ≤ op ∧ op ≤ 0x25 then (if branchTaken op (is.x (wRd w)) (is.x (wRs1 w)) then some (pc + o) else none)
  else if op = 0x26 then some (pc + o)
  else if op = 0x27 then some ((is.x (wRs1 w) + (BitVec.ofNat 24 (wImm w)).signExtend 64).toNat : Nat)
  else none

/-- Faults of slot C at issue. Objects, endpoints and groups are judged for the primary of a pair alone: what the shadow does to them is
discarded, and what it takes from them is the primary's (R187; DEDUCED, log entry 114). -/
def State.faultsC (s : State) (k : Nat) (r : Run) (is : Issue) (b : Bundle) : List Nat :=
  let w := slotWord b .C
  let wi := slotWord b .I
  let ctx := r.task.ctx
  let op := opOf w
  let out := match is.target r.pc w with
    | some t => decide (t < 0 ∨ t ≥ (s.progLen ctx r.task.prog : Int))
    | none => false
  let e := s.endpoint (endKey k (wFn w % 8))
  let peer := peerKey (is.x (wRs1 w))
  codes ((out, ftPcRange) :: (if r.partner.isSome && !r.primary then [] else [
    (op == 0x40 && s.badObj ctx (is.x (wRs1 w)) true, ftSyncOwner),
    ((op == 0x41 || op == 0x42 || op == 0x43) && s.badObj ctx (is.x (wRs1 w)) false, ftSyncOwner),
    (op == 0x62 && !e.boundBy ctx, ftTokenUnbound),
    (op == 0x60 && (e.peer.isSome || (s.endpoint peer).claim.isSome), ftTokenBusy),
    ((op == 0x63 || op == 0x64) && e.foreign ctx, ftTokenBusy),
    (op == 0x60 && s.partOfCluster (clusterOf (peer / 8)) != s.partOf ctx, ftTokenPeer),
    (op == 0x70 && !s.memberOf ctx (is.x (wRs1 w)).toNat, ftGroupMember)])
  ++ [(op == 0x7F && ((r.chain.isSome && opOf wi != 3) || (r.chain.isNone && opOf wi == 1)), ftChainOpen)])
  ++ (is.touches r.chain .C w).1.flatMap (s.rangeFaults ctx (clusterOf k))

/-- Faults of slot A at issue. A write of slot A onto bytes that the TMMA of its own bundle reads meets their lock (R98; log entry 89). -/
def State.faultsA (s : State) (k : Nat) (r : Run) (is : Issue) (b : Bundle) : List Nat :=
  let w := slotWord b .A
  let ctx := r.task.ctx
  let op := opOf w
  let t := is.touches r.chain .A w
  let fabric := op == 0x20 || op == 0x21 || op == 0x22
  let size := (is.x (wRs2 w)).toNat
  let own := if opOf (slotWord b .I) = 2 ∧ r.chain.isSome then (is.touches r.chain .I (slotWord b .I)).1 else []
  codes [
    ((op == 8 || op == 9) && off (is.ag (wVAg w)).addr.toNat (vmBytes (wVWidth w)), ftAlign),
    ((op == 0x0A || op == 0x0B) && off (is.slAddr w) 8, ftAlign),
    (op == 0x0C && (off (is.x (wRd w)).toNat 64 || off (is.x (wRs1 w)).toNat 64 || off size 64), ftAlign),
    (fabric && (off (is.x (wRd w)).toNat 64 || off (is.x (wRs1 w)).toNat 64), ftAlign),
    (decide (0x30 ≤ op ∧ op ≤ 0x34) && off (is.x (wRs1 w)).toNat 8, ftAlign),
    (op == 0x22 && (r.primary || r.partner.isNone) && s.badObj ctx (is.x (wFn w / 2 ^ 14 % 32)) true, ftSyncOwner),
    (anyMeets t.2 (r.locked ++ own), ftOperandLock)]
  ++ (t.1 ++ t.2).flatMap (s.rangeFaults ctx (clusterOf k))

/-- A chain's family, once an instruction is logged. -/
def Chain.family (c : Chain) : Option Nat :=
  match c.ops with
  | t :: _ => familyOf t.fa
  | [] => none

/-- Which operand pairs break R92, R93, R123 or R145: families that differ, a family that has no such form, or another
family than the chain's. -/
def badPair (c : Option Chain) (t : Tmma) : Bool :=
  match familyOf t.fa, familyOf t.fb with
  | some a, some b =>
    a != b || (t.mx && a != 0 && a != 2) || (t.sparse && (a == 4 || a == 5))
    || (match c with
        | some ch => (match ch.family with
          | some f => f != a
          | none => false)
        | none => false)
  | _, _ => true

/-- Are some positions of a sparse A operand equal or descending (R123)? -/
def badPositions (rd : Nat → Byte) (t : Tmma) (m : Nat) : Bool :=
  (List.range m).any (fun i => (List.range (t.k / 4)).any (fun g => decide ((positions rd t i g).1 ≥ (positions rd t i g).2)))

/-- Read a byte of a core's own store. -/
def State.coreByte (s : State) (k a : Nat) : Byte := s.mem.read (coreStoreAt (s.physOf k) (a % 2 ^ 20))

/-- The records of a LOAD, in row order. -/
def State.loadRecs (s : State) (k : Nat) (r : Range) : List (List Byte) :=
  (List.range (r.2 / 16)).map (fun i => (List.range 16).map (fun j => s.coreByte k (r.1 + 16 * i + j)))

/-- Do records break ANCHOR_MODE: one that is not raw WF96, or two anchors (R97, R106)? -/
def badLoad (l : List (List Byte)) : Bool :=
  !(l.all Rec96.isRaw) || decide ((l.map (fun b => (Rec96.read b).e)).eraseDups.length > 1)

/-- The 32 raw records of a v register (R146). DESIGN CHOICE (log entry 86): VRADD has no fault for bytes that are no raw record; flag bits
7:3 and the reserved byte fall away and the anchor is read as its 16 bits. -/
def vRecs (v : BitVec 4096) : List Rec96 :=
  (List.range 32).map (fun i => Rec96.read (leBytes 16 (v.extractLsb' (128 * i) 128).toNat))

/-- Output formats (R145). -/
def badOut (c : Chain) (code : Nat) (sr : Bool) : Bool :=
  !(code == 8 || code == 6 || code == 7 || code == 3 || code == 4 || (code == 9 && c.family == some 3) || code == 10)
  || (sr && !(code == 3 || code == 4))

/-- Faults of slot I at issue. DEDUCED (log entry 24): ALIGN is asked of the output rows of a TFIN in every format. -/
def State.faultsI (s : State) (k : Nat) (r : Run) (is : Issue) (b : Bundle) : List Nat :=
  let w := slotWord b .I
  let op := opOf w
  let t := is.touches r.chain .I w
  let rg := coreOnly (t.1 ++ t.2)
  if op = 1 then
    let depth := (is.x (wStRk w)).toNat
    codes [
      (wMode w == 3 && off (is.x (wStRa w)).toNat 16, ftAlign),
      (depth == 0 || decide (depth > 2 ^ 20), ftChainDepth),
      (r.chain.isSome, ftChainOpen),
      (wMode w == 3 && rg == [] && badLoad (s.loadRecs k (is.loadRange w)), ftAnchorMode)] ++ rg
  else if op = 2 then
    let m := is.tmma w
    let rows := match r.chain with
      | some c => tileRows m.aAddr m.aStride c.m 1 ++ tileRows m.bAddr m.bStride c.n 1
      | none => tileRows m.aAddr m.aStride 1 1 ++ tileRows m.bAddr m.bStride 1 1
    let used := match r.chain with
      | some c => (c.ops.map (·.k)).foldl (· + ·) 0
      | none => 0
    codes [
      (rows.any (fun x => off x.1 16), ftAlign),
      (badPair r.chain m, ftFormatPair),
      (m.mx && m.k % 32 != 0, ftMxShape),
      (m.sparse && (m.k % 4 != 0 || (rg == [] && badPositions (s.coreByte k) m (match r.chain with
        | some c => c.m
        | none => 1))), ftSparseMeta),
      (r.chain.isNone, ftNoChain),
      (match r.chain with
        | some c => decide (used + m.k > c.depth)
        | none => false, ftChainDepth),
      (match r.chain with
        | some c => decide (c.ops.length ≥ 32)
        | none => false, ftChainLong),
      (match r.chain with
        | some c => familyOf m.fa == some 3 && c.mode != 0
        | none => false, ftAnchorMode)] ++ rg
  else if op = 3 then
    codes [
      (t.2.any (fun x => off x.1 16), ftAlign),
      (match r.chain with
        | some c => badOut c (wOfmt w) (wSr w)
        | none => badOut ⟨0, 0, 0, 0, none, [], []⟩ (wOfmt w) (wSr w) && wOfmt w != 9, ftOutFormat),
      (r.chain.isNone, ftNoChain),
      (anyMeets t.2 r.locked, ftOperandLock)] ++ rg
  else if op = 0x59 then
    codes [(((vRecs (is.v (wVs1 w))).zip (vRecs (is.v (wVs2 w)))).any (fun p => p.1.e != p.2.e), ftAnchorMode)]
  else []

/-- The lowest of some codes. -/
def lowest : List Nat → Option Nat
  | [] => none
  | c :: t => some (t.foldl min c)

/-- The fault of one slot at issue: the lowest code that it breaks (R155). -/
def State.slotFault (s : State) (k : Nat) (r : Run) (is : Issue) (b : Bundle) (sl : Slot) : Option Nat :=
  if badEncoding sl (slotWord b sl) then some ftEncoding
  else match sl with
    | .C => lowest (s.faultsC k r is b)
    | .A => lowest (s.faultsA k r is b)
    | .I => lowest (s.faultsI k r is b)

/-- The fault recorded for a bundle's slots: slot C, then A, then I (R155). -/
def State.slotsFault (s : State) (k : Nat) (r : Run) (is : Issue) (b : Bundle) : Option Nat :=
  slotsCAI.findSome? (s.slotFault k r is b)

/-! ### Stalls -/

/-- x registers held by atomics whose reply is out (R143, R152). -/
def Run.heldX (r : Run) : List Nat := r.fab.filterMap (fun o => if o.kind = .atomic ∧ o.rd ≠ 0 then some o.rd else none)

/-- Does a slot read or write a register that is held? -/
def Run.interlocked (r : Run) (sl : Slot) (w : Nat) : Bool :=
  (srcX sl w).any r.heldX.contains || (match destX sl w with
    | some d => r.heldX.contains d
    | none => false)

/-- Is a slot word an outward operation (R187)? -/
def isOutward (sl : Slot) (w : Nat) : Bool :=
  let op := opOf w
  match sl with
  | .C => op == 0x40 || op == 0x42 || op == 0x60 || op == 0x61 || op == 0x62 || op == 0x70 || op == 0x7F
  | .A => op == 0x21 || op == 0x22 || decide (0x30 ≤ op ∧ op ≤ 0x34)
  | .I => false

/-- Does a slot word take a value that enters the task from outside (R187)? TSTAT does too (log entry 41). -/
def isInward (sl : Slot) (w : Nat) : Bool :=
  let op := opOf w
  match sl with
  | .C => op == 0x41 || op == 0x43 || op == 0x63 || op == 0x64 || (op == 0x18 && rdsrInward (wImm w))
  | .A => op == 0x20 || decide (0x30 ≤ op ∧ op ≤ 0x34)
  | .I => false

/-- Does slot C wait: SWAIT, TUNBIND, TSEND, TRECV, CLNCH (R147–R149)? -/
def State.stallC (s : State) (k : Nat) (r : Run) (is : Issue) (w : Nat) : Bool :=
  let op := opOf w
  let ctx := r.task.ctx
  let e := s.endpoint (endKey k (wFn w % 8))
  if op = 0x41 then match r.waiting with
    | some (.over _) => false
    | some _ => true
    | none => match objOf (is.x (wRs1 w)) with
      | some (n, i) => n == s.node && s.holds ctx i && (match lookupKey s.sync i with
        | some o => decide (o.counter < (is.x (wRs2 w)).toNat)
        | none => false)
      | none => false
  else if op = 0x61 then e.boundBy ctx && e.credits != 16
  else if op = 0x62 then e.boundBy ctx && e.credits == 0
  else if op = 0x63 then !e.foreign ctx && (e.queue.isEmpty || e.claim.isNone)
  else if op = 0x70 then
    let g := (is.x (wRs1 w)).toNat
    s.memberOf ctx g && decide ((s.commOf g).length ≥ 16)
  else false

/-- Does slot A wait (R142, R143)? -/
def Run.stallA (r : Run) (w : Nat) : Bool :=
  let op := opOf w
  if op = 0x28 then decide (r.fab.length > wFn w)
  else decide (0x20 ≤ op ∧ op ≤ 0x22 ∨ 0x30 ≤ op ∧ op ≤ 0x34) && decide (r.fab.length ≥ 16)

/-- Does a bundle need more pending ranges than the core has free of its eight (R153)? -/
def Run.stallRanges (r : Run) (b : Bundle) : Bool :=
  let a := opOf (slotWord b .A)
  let n := ofBool (decide (0x20 ≤ a ∧ a ≤ 0x22 ∨ a = 0x0C)) + ofBool (opOf (slotWord b .I) == 3)
  n != 0 && decide (r.pendingCount + n > 8)

/-- The tile instructions in the queue at a time: those whose work has not ended (R145; log entry 90). -/
def Run.tileQueue (r : Run) (now : Nat) : List (Option Nat) :=
  r.tile.dropWhile (fun e => match e with
    | some t => decide (t ≤ now)
    | none => false)

/-- Does slot I wait (R144, R145): TWAIT for the finishes, a TMMA or TFIN for room in the queue of four? -/
def Run.stallI (r : Run) (now w : Nat) : Bool :=
  let op := opOf w
  if op = 4 then !r.finishes.isEmpty else (op == 2 || op == 3) && decide ((r.tileQueue now).length ≥ 4)

/-- Does a slot's access to local memory wait for background work (R153)? -/
def Run.stallMem (r : Run) (is : Issue) (sl : Slot) (w : Nat) : Bool :=
  let t := is.touches r.chain sl w
  anyMeets t.1 r.pendingWrites || anyMeets t.2 r.pendingWrites || anyMeets t.2 r.pendingReads

/-- How many values have entered the task before this slot of the bundle. -/
def Issue.inwardIndex (is : Issue) (b : Bundle) (sl : Slot) : Nat :=
  match sl with
  | .C => is.base
  | _ => is.base + ofBool (isInward .C (slotWord b .C))

/-- The value that a pair's primary has passed on, with the offsets of its poisoned lines (R187, R208). -/
def State.givenTo (s : State) (r : Run) (i : Nat) : Option (List Byte × List Nat) :=
  match r.partner with
  | some j => match s.runOf j with
    | some q => lookupKey q.given i
    | none => none
  | none => none

/-- Must the shadow of a pair wait for a value that the primary has not passed on? GETs and atomics wait in the
background. -/
def State.stallGiven (s : State) (r : Run) (is : Issue) (b : Bundle) : Bool :=
  r.partner.isSome && !r.primary && isInward .C (slotWord b .C) && (s.givenTo r (is.inwardIndex b .C)).isNone

/-- The bundle at a task's program counter. -/
def State.bundleAt (s : State) (r : Run) : Option Bundle :=
  match s.cores.bindings.find? (fun b => b.ctx == r.task.ctx && b.prog == r.task.prog) with
  | some b => b.bundles[r.pc]?
  | none => none

/-- Do slots issue on a core: it is neither being reset nor stopped by its partition (R410, R412)? -/
def State.canIssue (s : State) (k : Nat) : Bool :=
  !s.coreResetting k
  && (match s.partOfCluster (clusterOf k) with
      | some p => s.isOpen p
      | none => false)

/-- What a bundle's slots read (R151). -/
def Run.snapshot (r : Run) (b : Bundle) : Issue :=
  ⟨r.xs, r.vs, r.ags, r.flagsWord, r.fab.length, (slotsCAI.filter (fun sl => opOf (slotWord b sl) != 0)).map slotNum, r.pc + 1, r.entered⟩

/-- Outward operations of a bundle. -/
def outwardCount (b : Bundle) : Nat :=
  ofBool (isOutward .C (slotWord b .C)) + ofBool (isOutward .A (slotWord b .A))

/-- Must the bundle stall for the core's own sake (R151)? The shadow of a pair does not wait where only the primary acts. DEDUCED (log
entry 89): the background work that R153 waits for is that of earlier bundles; two slots of one bundle do not wait for each other. -/
def State.stallsOwn (s : State) (k : Nat) (r : Run) (is : Issue) (b : Bundle) : Bool :=
  slotsCAI.any (fun sl => r.interlocked sl (slotWord b sl) || r.stallMem is sl (slotWord b sl))
  || ((r.primary || r.partner.isNone) && s.stallC k r is (slotWord b .C))
  || r.stallA (slotWord b .A) || r.stallI s.time (slotWord b .I) || r.stallRanges b

/-- The bundle that the shadow of a pair issues together with its primary's: it waits only for the value that slot C of that bundle brings
into the task, which the primary's issue will pass on (R187, R188; DEDUCED, log entry 114). -/
def State.shadowReady (s : State) (j : Nat) (q : Run) : Option Bundle :=
  match s.bundleAt q with
  | none => none
  | some b =>
    let is := q.snapshot b
    if q.issue.isNone && q.fault.isNone && q.ending.isNone && !q.timedOut && s.canIssue j && isInward .C (slotWord b .C)
        && s.stallGiven q is b && !s.stallsOwn j q is b && !bundleFault b && (s.slotsFault j q is b).isNone then some b
    else none

/-- Must the primary of a pair wait until the shadow has issued its counterparts (R188), or stands ready to issue them with it? -/
def State.stallPair (s : State) (r : Run) (b : Bundle) : Bool :=
  match r.partner with
  | some j => r.primary && (match s.runOf j with
    | some q => decide (q.digests.length < r.released + outwardCount b)
        && !(q.digests.length == r.released && (s.shadowReady j q).isSome)
    | none => true)
  | none => false

/-- Must the bundle stall (R151, R187, R188)? -/
def State.stalls (s : State) (k : Nat) (r : Run) (is : Issue) (b : Bundle) : Bool :=
  s.stallsOwn k r is b || s.stallGiven r is b || s.stallPair r b

end Sys2Proof.Machine
end

