-- ==== Sys2Proof/Machine/Issue.lean ====
section
/-! DEFINITION. The issue of bundles (R134, R151, R155, R186–R188). A task command is the issue of one slot of the bundle
at a core's program counter. The first of them opens the bundle: faults and stalls are judged for the bundle as a whole
and every register is read. Each slot then acts once, and the last closes the bundle and moves the counter on. -/

namespace Sys2Proof.Machine

/-- What an outward operation's digest runs over (R188): opcode and operand fields, operand values, data bytes. -/
def State.outwardData (s : State) (k : Nat) (is : Issue) (sl : Slot) (w : Nat) : List Nat :=
  let data (a n : Nat) : List Nat := (s.mem.bytes (s.localAt k a) n).map (·.toNat)
  [w] ++ (srcX sl w).map (fun n => (is.x n).toNat)
  ++ (match sl with
      | .C => if opOf w = 0x70 then data (is.x (wRs2 w)).toNat 64 else []
      | .A => if opOf w = 0x21 ∨ opOf w = 0x22 then data (is.x (wRd w)).toNat (is.x (wRs2 w)).toNat else []
      | .I => [])

/-- The running digests after the outward operations of a bundle, slot C before slot A. -/
def State.bundleDigests (s : State) (k : Nat) (r : Run) (is : Issue) (b : Bundle) : List Word :=
  let ops := [Slot.C, Slot.A].filterMap (fun sl =>
    if isOutward sl (slotWord b sl) then some (s.outwardData k is sl (slotWord b sl)) else none)
  (ops.foldl (fun (acc : List Word × Word) o =>
    let d := Config.digestStep acc.2 o
    (acc.1 ++ [d], d)) (([] : List Word), r.digests.getLastD 0#64)).1

/-- The digests of a shadow, with those of the bundle that it stands ready to issue with its primary's (R188). -/
def State.shadowDigests (s : State) (j : Nat) (q : Run) : List Word :=
  q.digests ++ (match s.shadowReady j q with
    | some b => s.bundleDigests j q (q.snapshot b) b
    | none => [])

/-- Do a primary's digests agree with its shadow's for the operations of this bundle? -/
def State.pairAgrees (s : State) (r : Run) (ds : List Word) : Bool :=
  match r.partner with
  | some j => !r.primary || (match s.runOf j with
    | some q => ((s.shadowDigests j q).drop r.released).take ds.length == ds
    | none => false)
  | none => true

/-- A pair that disagrees stops: neither operation takes effect and the pair winds down (R188, R387): the disagreement is
logged, the fleet is warned and both physical cores go to the head of their cluster's tasting order. -/
def State.pairStop (s : State) (k : Nat) : State :=
  match s.runOf k with
  | none => s
  | some r =>
    let j := r.partner.getD k
    let halt (q : Run) : Run := ({ q with disagreed := true, ending := some false } : Run).wind
    let s1 := s.setRun k (halt r)
    let s2 := match s1.runOf j with
      | some q => s1.setRun j (halt q)
      | none => s1
    let pk := s.physOf k
    let pj := s.physOf j
    let s3 := (s2.log { code := 0x0204, kind := 3, unit := pk, action := 11, part := s.partOf r.task.ctx, ctx := some r.task.ctx
                        detail := leBytes 4 r.task.id ++ leBytes 2 r.pc ++ leBytes 2 pk ++ leBytes 2 pj, warning := true }).raise
      0x0A 3 pk []
    { s3 with cores := { s3.cores with
      tasteHead := [pk, pj] ++ s3.cores.tasteHead.filter (fun p => p != pk && p != pj)
      pairs := s3.cores.pairs ++ [⟨pk, pj, false, false⟩] } }

/-- A SWAIT that must wait is recorded as waiting (R147, R160). -/
def State.noteWait (s : State) (k : Nat) (r : Run) (is : Issue) (w : Nat) : State :=
  if opOf w = 0x41 ∧ r.waiting.isNone ∧ (r.primary ∨ r.partner.isNone) ∧ s.stallC k r is w then
    match objOf (is.x (wRs1 w)) with
    | some (_, i) => s.setRun k { r with waiting := some (.swait i (is.x (wRs2 w)) (wFn w)) }
    | none => s
  else s

/-- Open the bundle at a task's counter: the state, and whether its slots may act. -/
def State.openBundle (s : State) (k : Nat) (r : Run) (b : Bundle) : State × Bool :=
  let is := r.snapshot b
  if bundleFault b then (s.faultNow k ftEncoding 0, false)
  else if slotsCAI.any (fun sl => badEncoding sl (slotWord b sl)) then
    (s.faultNow k ((s.slotsFault k r is b).getD ftEncoding) 0, false)
  else if s.stalls k r is b then (s.noteWait k r is (slotWord b .C), false)
  else match s.slotsFault k r is b with
    | some c => (s.faultNow k c 0, false)
    | none =>
      let ds := if r.partner.isSome then s.bundleDigests k r is b else []
      if !s.pairAgrees r ds then (s.pairStop k, false)
      else
        (s.setRun k { r with
          issue := some is, opened := r.opened + 1, digests := r.digests ++ ds, released := r.released + (if r.partner.isSome then ds.length else 0)
          entered := r.entered + ofBool (isInward .C (slotWord b .C)) + ofBool (isInward .A (slotWord b .A)) }, true)

/-- Close the bundle once no slot is left to act: control goes on, and a counter past the last bundle is PC_RANGE at that
point (R140). A task that has stopped discards its open chain at this boundary (R155). -/
def State.closeBundle (s : State) (k : Nat) (sl : Slot) : State :=
  match s.runOf k with
  | none => s
  | some r => match r.issue with
    | none => s
    | some is =>
      let todo := is.todo.filter (· != slotNum sl)
      if todo ≠ [] then s.setRun k { r with issue := some { is with todo := todo } }
      else
        let gone := r.fault.isSome || r.disagreed || r.timedOut
        let s1 := s.setRun k { r with issue := none, waiting := none, pc := is.next, chain := if gone then none else r.chain }
        if r.ending.isNone ∧ r.fault.isNone ∧ is.next ≥ s.progLen r.task.ctx r.task.prog then
          s1.faultRun k ftPcRange is.next 0 (r.opened + 1)
        else s1

/-- A slot's effect, given what it reads. -/
abbrev Effect := Nat → Issue → Bundle → State → State

/-- Let one slot of the open bundle act. -/
def State.actSlot (s : State) (k : Nat) (sl : Slot) (w : Nat) (b : Bundle) (f : Effect) : State :=
  match s.runOf k with
  | none => s
  | some r => match r.issue with
    | none => s
    | some is =>
      if opOf w = 0 ∨ is.todo.contains (slotNum sl) then (f k is b s).closeBundle k sl else s

/-- The issue of the slot instruction `i` with effect `f`. Where the core runs no task, may not issue, or its bundle holds
another instruction in that slot, the event cannot come about and nothing changes. A task that ended or faulted opens no
further bundle; the slots of one already open still act, since they issued together. -/
def State.issue (s : State) (i : Instr) (f : Effect) : State :=
  match slotOf i with
  | none => s
  | some (k, sl, w) =>
    match s.runOf k with
    | none => s
    | some r =>
      if !s.canIssue k then s
      else match s.bundleAt r with
        | none => s
        | some b =>
          if slotWord b sl ≠ w then s
          else match r.issue with
            | some _ => s.actSlot k sl w b f
            | none =>
              if r.fault.isSome ∨ r.ending.isSome then s
              else
              let o := s.openBundle k r b
              if o.2 then o.1.actSlot k sl w b f else o.1

/-- Change the run of a core. -/
def State.modRun (s : State) (k : Nat) (f : Run → Run) : State :=
  match s.runOf k with
  | some r => s.setRun k (f r)
  | none => s

/-- Write an x register of a core's task. -/
def State.writeX (s : State) (k rd : Nat) (v : Word) : State := s.modRun k (fun r => r.writeX rd v)

/-- Write a v register of a core's task. -/
def State.writeV (s : State) (k vd : Nat) (v : BitVec 4096) : State := s.modRun k (fun r => r.writeV vd v)

/-- Control goes to a bundle. -/
def State.jump (s : State) (k t : Nat) : State :=
  s.modRun k (fun r => { r with issue := r.issue.map (fun is => { is with next := t }) })

/-- Is core k the shadow of a pair, whose outward operations are discarded (R187)? -/
def State.isShadow (s : State) (k : Nat) : Bool :=
  match s.runOf k with
  | some r => r.partner.isSome && !r.primary
  | none => false

/-- Is core k the primary of a pair? -/
def State.isPrimary (s : State) (k : Nat) : Bool :=
  match s.runOf k with
  | some r => r.partner.isSome && r.primary
  | none => false

/-- A pair's primary passes a value on to its shadow, poisoned lines marked (R187, R208). -/
def State.passOn (s : State) (k i : Nat) (v : List Byte) (marks : List Nat) : State :=
  if s.isPrimary k then s.modRun k (fun r => { r with given := insertKey r.given i (v, marks) }) else s

/-- A slot C value that enters the task: the shadow takes the primary's, any other core obtains it by `get` and passes it
on. -/
def State.enterC (s : State) (k : Nat) (is : Issue) (b : Bundle) (get : State → Word × State) : Word × State :=
  let i := is.inwardIndex b .C
  match s.runOf k with
  | none => (0#64, s)
  | some r =>
    if r.partner.isSome ∧ !r.primary then (BitVec.ofNat 64 (fromLe ((s.givenTo r i).getD ([], [])).1), s)
    else
      let p := get s
      (p.1, p.2.passOn k i (leBytes 8 p.1.toNat) [])

/-- NOP: the slot issues and does nothing (R134). -/
def execNop (k : LCore) (sl : Slot) (s : State) : Host.Outcome State Fault Refusal :=
  .next (s.issue (.nop k sl) (fun _ _ _ s => s))

end Sys2Proof.Machine
end

