-- ==== Sys2Proof/Machine/Scalar.lean ====
section
/-! DEFINITION. Scalar and branch instructions, slot C (R140). -/

namespace Sys2Proof.Machine

/-- A slot C instruction that writes x[rd] from what its bundle read. -/
def State.scalar (s : State) (i : Instr) (rd : XReg) (f : Issue → Word) : Host.Outcome State Fault Refusal :=
  .next (s.issue i (fun k is _ s => s.writeX k rd (f is)))

/-- A conditional branch: taken, control goes to the target; not taken, nothing changes. -/
def State.branch (s : State) (i : Instr) (b : BitVec 24) (taken : Issue → Bool) : Host.Outcome State Fault Refusal :=
  .next (s.issue i (fun k is _ s => if taken is then s.jump k ((is.next : Int) - 1 + b.toInt).toNat else s))

/-- The 24-bit immediate, sign-extended. -/
def sext24 (imm : BitVec 24) : Word := imm.signExtend 64

/-- The 24-bit immediate, zero-extended. -/
def zext24 (imm : BitVec 24) : Word := imm.setWidth 64

/-- 1 or 0 as a word. -/
def boolWord (b : Bool) : Word := if b then 1#64 else 0#64

/-- ADD: sum modulo 2^64 (R140). -/
def addWord (a b : Word) : Word := a + b

/-- ADD (R140). -/
def execAdd (k : LCore) (rd rs1 rs2 : XReg) (s : State) : Host.Outcome State Fault Refusal :=
  s.scalar (.add k rd rs1 rs2) rd (fun is => addWord (is.x rs1) (is.x rs2))

/-- SUB: difference modulo 2^64 (R140). -/
def subWord (a b : Word) : Word := a - b

/-- SUB (R140). -/
def execSub (k : LCore) (rd rs1 rs2 : XReg) (s : State) : Host.Outcome State Fault Refusal :=
  s.scalar (.sub k rd rs1 rs2) rd (fun is => subWord (is.x rs1) (is.x rs2))

/-- AND: bitwise and (R140). -/
def andWord (a b : Word) : Word := a &&& b

/-- AND (R140). -/
def execAnd (k : LCore) (rd rs1 rs2 : XReg) (s : State) : Host.Outcome State Fault Refusal :=
  s.scalar (.and k rd rs1 rs2) rd (fun is => andWord (is.x rs1) (is.x rs2))

/-- OR: bitwise or (R140). -/
def orWord (a b : Word) : Word := a ||| b

/-- OR (R140). -/
def execOr (k : LCore) (rd rs1 rs2 : XReg) (s : State) : Host.Outcome State Fault Refusal :=
  s.scalar (.or k rd rs1 rs2) rd (fun is => orWord (is.x rs1) (is.x rs2))

/-- XOR: bitwise exclusive or (R140). -/
def xorWord (a b : Word) : Word := a ^^^ b

/-- XOR (R140). -/
def execXor (k : LCore) (rd rs1 rs2 : XReg) (s : State) : Host.Outcome State Fault Refusal :=
  s.scalar (.xor k rd rs1 rs2) rd (fun is => xorWord (is.x rs1) (is.x rs2))

/-- SLL: shift left by rs2[5:0] (R140). -/
def sllWord (a b : Word) : Word := a <<< (b.toNat % 64)

/-- SLL (R140). -/
def execSll (k : LCore) (rd rs1 rs2 : XReg) (s : State) : Host.Outcome State Fault Refusal :=
  s.scalar (.sll k rd rs1 rs2) rd (fun is => sllWord (is.x rs1) (is.x rs2))

/-- SRL: logical shift right by rs2[5:0] (R140). -/
def srlWord (a b : Word) : Word := a >>> (b.toNat % 64)

/-- SRL (R140). -/
def execSrl (k : LCore) (rd rs1 rs2 : XReg) (s : State) : Host.Outcome State Fault Refusal :=
  s.scalar (.srl k rd rs1 rs2) rd (fun is => srlWord (is.x rs1) (is.x rs2))

/-- SRA: arithmetic shift right by rs2[5:0] (R140). -/
def sraWord (a b : Word) : Word := a.sshiftRight (b.toNat % 64)

/-- SRA (R140). -/
def execSra (k : LCore) (rd rs1 rs2 : XReg) (s : State) : Host.Outcome State Fault Refusal :=
  s.scalar (.sra k rd rs1 rs2) rd (fun is => sraWord (is.x rs1) (is.x rs2))

/-- MUL: low 64 bits of the product (R140). -/
def mulWord (a b : Word) : Word := a * b

/-- MUL (R140). -/
def execMul (k : LCore) (rd rs1 rs2 : XReg) (s : State) : Host.Outcome State Fault Refusal :=
  s.scalar (.mul k rd rs1 rs2) rd (fun is => mulWord (is.x rs1) (is.x rs2))

/-- MULHU: high 64 bits of the unsigned product (R140). -/
def mulhuWord (a b : Word) : Word := BitVec.ofNat 64 (a.toNat * b.toNat / 2 ^ 64)

/-- MULHU (R140). -/
def execMulhu (k : LCore) (rd rs1 rs2 : XReg) (s : State) : Host.Outcome State Fault Refusal :=
  s.scalar (.mulhu k rd rs1 rs2) rd (fun is => mulhuWord (is.x rs1) (is.x rs2))

/-- DIVU: unsigned quotient; all ones for a zero divisor (R140). -/
def divuWord (a b : Word) : Word := if b = 0#64 then BitVec.allOnes 64 else a / b

/-- DIVU (R140). -/
def execDivu (k : LCore) (rd rs1 rs2 : XReg) (s : State) : Host.Outcome State Fault Refusal :=
  s.scalar (.divu k rd rs1 rs2) rd (fun is => divuWord (is.x rs1) (is.x rs2))

/-- REMU: unsigned remainder; rs1 for a zero divisor (R140). -/
def remuWord (a b : Word) : Word := if b = 0#64 then a else a % b

/-- REMU (R140). -/
def execRemu (k : LCore) (rd rs1 rs2 : XReg) (s : State) : Host.Outcome State Fault Refusal :=
  s.scalar (.remu k rd rs1 rs2) rd (fun is => remuWord (is.x rs1) (is.x rs2))

/-- SLT: 1 if rs1 is less, signed (R140). -/
def sltWord (a b : Word) : Word := boolWord (decide (a.toInt < b.toInt))

/-- SLT (R140). -/
def execSlt (k : LCore) (rd rs1 rs2 : XReg) (s : State) : Host.Outcome State Fault Refusal :=
  s.scalar (.slt k rd rs1 rs2) rd (fun is => sltWord (is.x rs1) (is.x rs2))

/-- SLTU: 1 if rs1 is less, unsigned (R140). -/
def sltuWord (a b : Word) : Word := boolWord (decide (a.toNat < b.toNat))

/-- SLTU (R140). -/
def execSltu (k : LCore) (rd rs1 rs2 : XReg) (s : State) : Host.Outcome State Fault Refusal :=
  s.scalar (.sltu k rd rs1 rs2) rd (fun is => sltuWord (is.x rs1) (is.x rs2))

/-- MIN: signed minimum (R140). -/
def minWord (a b : Word) : Word := if a.toInt ≤ b.toInt then a else b

/-- MIN (R140). -/
def execMin (k : LCore) (rd rs1 rs2 : XReg) (s : State) : Host.Outcome State Fault Refusal :=
  s.scalar (.min k rd rs1 rs2) rd (fun is => minWord (is.x rs1) (is.x rs2))

/-- MAX: signed maximum (R140). -/
def maxWord (a b : Word) : Word := if a.toInt ≥ b.toInt then a else b

/-- MAX (R140). -/
def execMax (k : LCore) (rd rs1 rs2 : XReg) (s : State) : Host.Outcome State Fault Refusal :=
  s.scalar (.max k rd rs1 rs2) rd (fun is => maxWord (is.x rs1) (is.x rs2))

/-- ADDI: with a sign-extended immediate (R140). -/
def execAddi (k : LCore) (rd rs1 : XReg) (imm : BitVec 24) (s : State) : Host.Outcome State Fault Refusal :=
  s.scalar (.addi k rd rs1 imm) rd (fun is => is.x rs1 + sext24 imm)

/-- ANDI: with a zero-extended immediate (R140). -/
def execAndi (k : LCore) (rd rs1 : XReg) (imm : BitVec 24) (s : State) : Host.Outcome State Fault Refusal :=
  s.scalar (.andi k rd rs1 imm) rd (fun is => is.x rs1 &&& zext24 imm)

/-- ORI: with a zero-extended immediate (R140). -/
def execOri (k : LCore) (rd rs1 : XReg) (imm : BitVec 24) (s : State) : Host.Outcome State Fault Refusal :=
  s.scalar (.ori k rd rs1 imm) rd (fun is => is.x rs1 ||| zext24 imm)

/-- XORI: with a zero-extended immediate (R140). -/
def execXori (k : LCore) (rd rs1 : XReg) (imm : BitVec 24) (s : State) : Host.Outcome State Fault Refusal :=
  s.scalar (.xori k rd rs1 imm) rd (fun is => is.x rs1 ^^^ zext24 imm)

/-- LHI: rs1[47:0] with imm24[15:0] above it (R140). -/
def execLhi (k : LCore) (rd rs1 : XReg) (imm : BitVec 24) (s : State) : Host.Outcome State Fault Refusal :=
  s.scalar (.lhi k rd rs1 imm) rd (fun is => (is.x rs1 &&& 0x0000FFFFFFFFFFFF#64) ||| (zext24 imm <<< 48))

/-- LUI: imm24 shifted left by 24 (R140). -/
def execLui (k : LCore) (rd : XReg) (imm : BitVec 24) (s : State) : Host.Outcome State Fault Refusal :=
  s.scalar (.lui k rd imm) rd (fun _ => zext24 imm <<< 24)

/-- RDSR: a special register (R137); CORE, CYCLE and FABOUT enter a pair from its primary (R187). -/
def execRdsr (k : LCore) (rd : XReg) (idx : BitVec 24) (s : State) : Host.Outcome State Fault Refusal :=
  .next (s.issue (.rdsr k rd idx) (fun k is b s =>
    match s.runOf k with
    | none => s
    | some r =>
      let p := if rdsrInward idx.toNat then s.enterC k is b (fun s => s.special k r is idx.toNat) else s.special k r is idx.toNat
      p.2.writeX k rd p.1))

/-- BEQ: branch relative to this bundle if rs1 is equal (R140). -/
def execBeq (k : LCore) (rs1 rs2 : XReg) (off : BitVec 24) (s : State) : Host.Outcome State Fault Refusal :=
  s.branch (.beq k rs1 rs2 off) off (fun is => branchTaken 0x20 (is.x rs1) (is.x rs2))

/-- BNE: branch relative to this bundle if rs1 is not equal (R140). -/
def execBne (k : LCore) (rs1 rs2 : XReg) (off : BitVec 24) (s : State) : Host.Outcome State Fault Refusal :=
  s.branch (.bne k rs1 rs2 off) off (fun is => branchTaken 0x21 (is.x rs1) (is.x rs2))

/-- BLT: branch relative to this bundle if rs1 is less, signed (R140). -/
def execBlt (k : LCore) (rs1 rs2 : XReg) (off : BitVec 24) (s : State) : Host.Outcome State Fault Refusal :=
  s.branch (.blt k rs1 rs2 off) off (fun is => branchTaken 0x22 (is.x rs1) (is.x rs2))

/-- BGE: branch relative to this bundle if rs1 is not less, signed (R140). -/
def execBge (k : LCore) (rs1 rs2 : XReg) (off : BitVec 24) (s : State) : Host.Outcome State Fault Refusal :=
  s.branch (.bge k rs1 rs2 off) off (fun is => branchTaken 0x23 (is.x rs1) (is.x rs2))

/-- BLTU: branch relative to this bundle if rs1 is less, unsigned (R140). -/
def execBltu (k : LCore) (rs1 rs2 : XReg) (off : BitVec 24) (s : State) : Host.Outcome State Fault Refusal :=
  s.branch (.bltu k rs1 rs2 off) off (fun is => branchTaken 0x24 (is.x rs1) (is.x rs2))

/-- BGEU: branch relative to this bundle if rs1 is not less, unsigned (R140). -/
def execBgeu (k : LCore) (rs1 rs2 : XReg) (off : BitVec 24) (s : State) : Host.Outcome State Fault Refusal :=
  s.branch (.bgeu k rs1 rs2 off) off (fun is => branchTaken 0x25 (is.x rs1) (is.x rs2))

/-- JAL: rd takes the next bundle; branch (R140). -/
def execJal (k : LCore) (rd : XReg) (off : BitVec 24) (s : State) : Host.Outcome State Fault Refusal :=
  .next (s.issue (.jal k rd off) (fun k is _ s =>
    (s.writeX k rd (BitVec.ofNat 64 is.next)).jump k ((is.next : Int) - 1 + off.toInt).toNat))

/-- JALR: rd takes the next bundle; control goes to rs1 + imm24 (R140), the immediate sign-extended. -/
def execJalr (k : LCore) (rd rs1 : XReg) (imm : BitVec 24) (s : State) : Host.Outcome State Fault Refusal :=
  .next (s.issue (.jalr k rd rs1 imm) (fun k is _ s =>
    (s.writeX k rd (BitVec.ofNat 64 is.next)).jump k (is.x rs1 + sext24 imm).toNat))

end Sys2Proof.Machine
end

