-- ==== Sys2Proof/Machine/AddrMove.lean ====
section
/-! DEFINITION. Address and move instructions, slot A (R138, R141, R153, R220). -/

namespace Sys2Proof.Machine

/-- Is a byte of a local range in a marked line (R143)? -/
def State.markedAt (s : State) (k : Nat) (r : Range) : Bool := s.mem.poisoned (s.localAt k r.1) r.2

/-- Program counter of the task on a core. -/
def State.pcOf (s : State) (k : Nat) : Nat := match s.runOf k with
  | some r => r.pc
  | none => 0

/-- A use of marked lines by a slot of the bundle that is issuing is the fault POISON, detected after issue (R143, R155). -/
def State.useMarked (s : State) (k slot : Nat) (l : List Range) : State :=
  match s.runOf k with
  | some r => if l.any (s.markedAt k) then s.faultRun k ftPoison r.pc slot (r.opened - 1) else s
  | none => s

/-- The unit of R376 that holds a local address: the physical core or the cluster. -/
def State.storeUnit (s : State) (k a : Nat) : Nat × Nat := if a < 2 ^ 20 then (3, s.physOf k) else (2, clusterOf k)

/-- Context and partition of the task on a core, for an error record. -/
def State.ctxOf (s : State) (k : Nat) : Option Nat := (s.runOf k).map (·.task.ctx)

/-- A hard fault of a store line while jobs run (R221): a core's retirement is due, a cluster store's row enters the defect log. -/
def State.hardFault (s : State) (k a : Nat) : State :=
  if a < 2 ^ 20 then
    let p := s.physOf k
    if s.cores.hardFaults.any (fun h => h.1 == p) then s
    else { s with cores := { s.cores with hardFaults := s.cores.hardFaults ++ [(p, a / 512)] } }
  else
    let row := (a - 2 ^ 24) / 1024
    if s.flash.lists true 2 (clusterOf k) row then s else s.defectAt true 2 6 (clusterOf k) row 0x0307 0

/-- The read of one line of a store (R205, R220): a word that comes with an odd number of bits changed fails its parity. The read is
repeated once; a repeat that passes is logged, a second failure marks the line and is logged. -/
def State.storeLine (s : State) (k : Nat) (o : StoreLine) : State :=
  let a := 64 * o.line
  let u := s.storeUnit k a
  let ln := s.localAt k a / 64
  let s1 :=
    if s.mem.wordFails ln o.first = 0 then s
    else if s.mem.wordFails ln o.second = 0 then s.log { code := 0x0306, kind := u.1, unit := u.2, action := 2, ctx := s.ctxOf k }
    else { (s.log { code := 0x0307, cls := 1, kind := u.1, unit := u.2, action := 3, ctx := s.ctxOf k }) with mem := s.mem.mark ln }
  if o.hard then s1.hardFault k a else s1

/-- The reads of the lines of local ranges (R220): what the world does to the lines that it names among them. -/
def State.storeReads (s : State) (k : Nat) (l : List Range) (obs : List StoreLine) : State :=
  (obs.filter (fun o => l.any (meets (64 * o.line, 64)))).foldl (fun s o => s.storeLine k o) s

/-- A use of local ranges: their lines are read, and a line marked poisoned is the fault POISON (R143, R220). -/
def State.useLocal (s : State) (k slot : Nat) (l : List Range) (obs : List StoreLine) : State :=
  (s.storeReads k l obs).useMarked k slot l

/-- AGBASE: base := rs1, every index := 0 (R141). -/
def execAgbase (k : LCore) (ag : AReg) (rs1 : XReg) (s : State) : Host.Outcome State Fault Refusal :=
  .next (s.issue (.agbase k ag rs1) (fun k is _ s => s.modRun k (fun r =>
    let g := is.ag ag
    r.writeAg ag ⟨is.x rs1, g.dims.map (fun d => { d with index := 0#16 })⟩)))

/-- AGDIM: stride and count of a dimension (R141). -/
def execAgdim (k : LCore) (ag : AReg) (d : Fin 8) (rs1 rs2 : XReg) (s : State) : Host.Outcome State Fault Refusal :=
  .next (s.issue (.agdim k ag d rs1 rs2) (fun k is _ s => s.modRun k (fun r =>
    let g := is.ag ag
    r.writeAg ag { g with dims := modifyAt g.dims d (fun x =>
      { x with stride := (is.x rs1).setWidth 32, count := (is.x rs2).setWidth 16 }) })))

/-- AGSTEP: step a dimension (R138). -/
def execAgstep (k : LCore) (ag : AReg) (d : Fin 8) (s : State) : Host.Outcome State Fault Refusal :=
  .next (s.issue (.agstep k ag d) (fun k is _ s => s.modRun k (fun r => r.writeAg ag ((is.ag ag).step d))))

/-- AGRD: a register takes the yielded address (R141). -/
def execAgrd (k : LCore) (ag : AReg) (rd : XReg) (s : State) : Host.Outcome State Fault Refusal :=
  .next (s.issue (.agrd k ag rd) (fun k is _ s => s.writeX k rd (is.ag ag).addr))

/-- Bits per lane of a vector move. -/
def vmBits (w : Nat) : Nat := 32 / 2 ^ w

/-- Lanes of a width packed in bytes (R141). -/
def unpackLanes (w : Nat) (b : List Byte) : BitVec 4096 :=
  let n := fromLe b
  ofLanes ((List.range 128).map (fun i => n / 2 ^ (vmBits w * i) % 2 ^ vmBits w))

/-- The low bits of each lane, packed in bytes. -/
def packLanes (w : Nat) (v : BitVec 4096) : List Byte :=
  leBytes (vmBytes w) ((lanesOf v).foldr (fun x a => x % 2 ^ vmBits w + 2 ^ vmBits w * a) 0)

/-- VLD: 128 lanes of the width, zero-extended; the generator steps (R138, R141). A marked line is POISON. -/
def execVld (k : LCore) (v : VReg) (ag : AReg) (w : Fin 4) (obs : List StoreLine) (s : State) : Host.Outcome State Fault Refusal :=
  .next (s.issue (.vld k v ag w obs) (fun k is _ s =>
    let a := (is.ag ag).addr.toNat
    let s1 := s.useLocal k 1 [(a, vmBytes w)] obs
    (s1.writeV k v (unpackLanes w (s1.mem.bytes (s1.localAt k a) (vmBytes w)))).modRun k
      (fun r => r.writeAg ag ((is.ag ag).step 0))))

/-- VST: the low bits of each lane are stored; the generator steps (R138, R141). -/
def execVst (k : LCore) (v : VReg) (ag : AReg) (w : Fin 4) (s : State) : Host.Outcome State Fault Refusal :=
  .next (s.issue (.vst k v ag w) (fun k is _ s =>
    let a := (is.ag ag).addr.toNat
    ({ s with mem := s.mem.store (s.localAt k a) (packLanes w (is.v v)) }).modRun k
      (fun r => r.writeAg ag ((is.ag ag).step 0))))

/-- SLD: 64-bit load from rs1 + imm24 (R141). A marked line is POISON. -/
def execSld (k : LCore) (rd rs1 : XReg) (imm : BitVec 24) (obs : List StoreLine) (s : State) : Host.Outcome State Fault Refusal :=
  .next (s.issue (.sld k rd rs1 imm obs) (fun k is _ s =>
    let a := (is.x rs1 + sext24 imm).toNat
    let s1 := s.useLocal k 1 [(a, 8)] obs
    s1.writeX k rd (s1.mem.word (s1.localAt k a))))

/-- SST: 64-bit store to rs1 + imm24 (R141). -/
def execSst (k : LCore) (rs rs1 : XReg) (imm : BitVec 24) (s : State) : Host.Outcome State Fault Refusal :=
  .next (s.issue (.sst k rs rs1 imm) (fun k is _ s =>
    { s with mem := s.mem.store (s.localAt k (is.x rs1 + sext24 imm).toNat) (leBytes 8 (is.x rs).toNat) }))

/-- MOVE: copy bytes from local rs1 to local rd in the background (R141, R153). A marked source is POISON. -/
def execMove (k : LCore) (rd rs1 rs2 : XReg) (obs : List StoreLine) (s : State) : Host.Outcome State Fault Refusal :=
  .next (s.issue (.move k rd rs1 rs2 obs) (fun k is _ s =>
    (s.modRun k (fun r => { r with moves := r.moves ++ [⟨(is.x rs1).toNat, (is.x rd).toNat, (is.x rs2).toNat⟩] })).useLocal k 1
      [((is.x rs1).toNat, (is.x rs2).toNat)] obs))

/-- Store bytes whose 64-byte lines at the offsets given are marked poisoned (R143, R208). -/
def State.storeMarked (s : State) (a : Nat) (d : List Byte) (offs : List Nat) : State :=
  { s with mem := offs.foldl (fun m o => m.mark ((a + o) / 64)) (s.mem.store a d) }

/-- MOVE_COMPLETE: the bytes of the task's i-th pending MOVE have landed (R141, R153). -/
def execMoveComplete (k : LCore) (i : Nat) (s : State) : Host.Outcome State Fault Refusal :=
  .next (match s.runOf k with
    | none => s
    | some r => match r.moves[i]? with
      | none => s
      | some m =>
        let s1 := s.setRun k { r with moves := r.moves.eraseIdx i }
        s1.storeMarked (s.localAt k m.dst) (s.mem.bytes (s.localAt k m.src) m.bytes)
          (s.mem.poisonedOffsets (s.localAt k m.src) m.bytes))

end Sys2Proof.Machine
end

