-- ==== Sys2Proof/Machine/Tile.lean ====
section
/-! DEFINITION. Tile instructions, slot I (R95–R112, R144, R145). A chain's instructions are logged at issue with what they
capture; its finish computes the block. -/

namespace Sys2Proof.Machine

/-- A 12-bit two's-complement anchor (R95). -/
def anchor12 (v : Word) : Int := (v.setWidth 12).toInt

/-- TSTART: open a chain (R95, R102–R106, R144). LOAD reads its records at issue and takes their anchor. -/
def execTstart (k : LCore) (m1 n1 : Fin 128) (mode : Fin 4) (rk ra : XReg) (obs : List StoreLine) (s : State) :
    Host.Outcome State Fault Refusal :=
  .next (s.issue (.tstart k m1 n1 mode rk ra obs) (fun k is b s =>
    let lr := is.loadRange (slotWord b .I)
    let recs := if mode = 3 then (s.loadRecs k lr).map Rec96.read else []
    let anchor : Option Int := match mode with
      | 0 => some 32
      | 1 => some (anchor12 (is.x ra))
      | 2 => none
      | _ => some ((recs.map (·.e)).headD 32)
    (s.modRun k (fun r => { r with
      chain := some ⟨m1 + 1, n1 + 1, mode, (is.x rk).toNat, anchor, recs, []⟩ })).useLocal k 2 (if mode = 3 then [lr] else []) obs))

/-- Multiply-accumulates per core cycle of a format family (R128), and in ordered mode (R110). -/
def macRate (family : Option Nat) (sparse ordered : Bool) : Nat :=
  if ordered then 1024
  else (match family with
    | some 0 => 32768
    | some 4 => 8192
    | some 5 => 8192
    | _ => 16384) * (if sparse then 2 else 1)

/-- Time in ns that the work of a TMMA takes at the die's job frequency (R128; log entry 90). -/
def State.tileTime (s : State) (k : Nat) (r : Run) (c : Chain) (t : Tmma) : Nat :=
  let cycles := c.m * c.n * t.k / macRate (familyOf t.fa) t.sparse r.ordered + 1
  cycles * 1000 / s.fld (fPwrDieFjob (dieOf k))

/-- The queue of tile instructions with one more behind its earlier work (R145): a TMMA with its time, a TFIN without. -/
def Run.tilePush (r : Run) (now : Nat) (dur : Option Nat) : Run :=
  let q := r.tileQueue now
  let last := (q.filterMap id).foldl max now
  { r with tile := q ++ [dur.map (last + ·)] }

/-- The oldest finish is over, and every tile instruction before it. -/
def Run.tilePop (r : Run) : Run := { r with tile := (r.tile.dropWhile (·.isSome)).drop 1 }

/-- TMMA: log reduction steps of the open chain, with the addresses that it captures (R98, R138, R144). A marked operand
line is POISON. -/
def execTmma (k : LCore) (aga agb : AReg) (fa fb : Fin 16) (mx sparse : Bool) (rk rs : XReg) (obs : List StoreLine) (s : State) :
    Host.Outcome State Fault Refusal :=
  .next (s.issue (.tmma k aga agb fa fb mx sparse rk rs obs) (fun k is b s =>
    let t := is.tmma (slotWord b .I)
    match s.runOf k with
    | none => s
    | some r => match r.chain with
      | none => s
      | some c =>
        let q := r.tilePush s.time (some (s.tileTime k r c t))
        (s.setRun k { q with chain := some { c with ops := c.ops ++ [t] } }).useLocal k 2 (t.reads c.m c.n) obs))

/-- TFIN: close the chain and hand it to its finish (R144, R145). -/
def execTfin (k : LCore) (ago : AReg) (ofmt : Fin 16) (sat sr ftz : Bool) (rx : XReg) (s : State) :
    Host.Outcome State Fault Refusal :=
  .next (s.issue (.tfin k ago ofmt sat sr ftz rx) (fun k is _ s =>
    let g := is.ag ago
    s.modRun k (fun r => match r.chain with
      | none => r
      | some c =>
        let q := r.tilePush s.time none
        { q with chain := none, finishes := r.finishes ++ [⟨c, g.rowBase, g.rowStride, ofmt, sat, sr, ftz, is.x rx, false, r.pc⟩] })))

/-- TWAIT: the bundle stalled until every finish has written its output (R144). -/
def execTwait (k : LCore) (s : State) : Host.Outcome State Fault Refusal :=
  .next (s.issue (.twait k) (fun _ _ _ s => s))

/-- The flags and the mode that a finish leaves (R107, R108, R118): a raw chain that left the window is lost; any other
was replayed, and the task's later chains run ordered. -/
def Run.finished (r : Run) (f : Finish) (o : FinishOut) : Run :=
  let r1 := r.sticky o.invalid o.overflow
  if !o.window then r1 else if f.ofmt = 10 then r1.lost else { r1 with window := true, ordered := true }

/-- FINISH_COMPLETE: the oldest finish of the task tests its exact totals, replays in ordered mode where they left the
window, and writes its block (R101, R107–R119). A task that is already ordered runs the chain in ordered mode. -/
def execFinishComplete (k : LCore) (s : State) : Host.Outcome State Fault Refusal :=
  .next (match s.runOf k with
    | none => s
    | some r => match r.finishes with
      | [] => s
      | f :: rest =>
        let g := { f with ordered := r.ordered }
        let o := g.run (s.coreByte k) r.seed r.task.id
        let q := r.tilePop
        let s1 := s.setRun k (Run.finished { q with finishes := rest } f o)
        o.rows.foldl (fun s p => { s with mem := s.mem.store (coreStoreAt (s.physOf k) p.1.toNat) p.2 }) s1)

end Sys2Proof.Machine
end

