-- ==== Sys2Proof/Machine/Vector.lean ====
section
/-! DEFINITION. Vector instructions, slot I (R120, R125–R127, R146, R512). -/

namespace Sys2Proof.Machine

/-- A lane as an FP32 value. -/
def f32 (x : Nat) : Num := fFP32.decode x

/-- Lane-by-lane results of a slot I instruction go to v[vd], and their flags stick. -/
def State.vector (s : State) (i : Instr) (vd : VReg) (f : Issue → List Res) : Host.Outcome State Fault Refusal :=
  .next (s.issue i (fun k is _ s => s.modRun k (fun r =>
    (r.writeV vd (ofLanes ((f is).map (·.bits)))).sticky (anyInvalid (f is)) (anyOverflow (f is)))))

/-- Map lanes. -/
def lanes1 (f : Nat → Res) (a : BitVec 4096) : List Res := (lanesOf a).map f
def lanes2 (f : Nat → Nat → Res) (a b : BitVec 4096) : List Res := List.zipWith f (lanesOf a) (lanesOf b)

/-- One level of the fixed pairwise tree (R127). -/
def treeLevel (f : Nat → Nat → Res) : List Res → List Res
  | a :: b :: t =>
    let r := f a.bits b.bits
    ⟨r.bits, r.invalid || a.invalid || b.invalid, r.overflow || a.overflow || b.overflow⟩ :: treeLevel f t
  | l => l

/-- Seven levels of the tree over 128 lanes: lane 2i with lane 2i + 1, then pairs of pairs. -/
def treeReduce (f : Nat → Nat → Res) (l : List Nat) : Res :=
  ((List.range 7).foldl (fun l _ => treeLevel f l) (l.map (fun x => (⟨x, false, false⟩ : Res)))).headD ⟨0, false, false⟩

/-- A reduction's result in every lane. -/
def everyLane (r : Res) : List Res := List.replicate 128 r

/-- VADD: lane-by-lane addition (R125, R146). -/
def execVadd (k : LCore) (vd vs1 vs2 : VReg) (s : State) : Host.Outcome State Fault Refusal :=
  s.vector (.vadd k vd vs1 vs2) vd (fun is => lanes2 (fun a b => fadd (f32 a) (f32 b)) (is.v vs1) (is.v vs2))

/-- VSUB: lane-by-lane subtraction (R125, R146). -/
def execVsub (k : LCore) (vd vs1 vs2 : VReg) (s : State) : Host.Outcome State Fault Refusal :=
  s.vector (.vsub k vd vs1 vs2) vd (fun is => lanes2 (fun a b => fadd (f32 a) (f32 b).negate) (is.v vs1) (is.v vs2))

/-- VMUL: lane-by-lane multiplication (R125, R146). -/
def execVmul (k : LCore) (vd vs1 vs2 : VReg) (s : State) : Host.Outcome State Fault Refusal :=
  s.vector (.vmul k vd vs1 vs2) vd (fun is => lanes2 (fun a b => fmul (f32 a) (f32 b)) (is.v vs1) (is.v vs2))

/-- VDIV: lane-by-lane division, correctly rounded (R125, R146). -/
def execVdiv (k : LCore) (vd vs1 vs2 : VReg) (s : State) : Host.Outcome State Fault Refusal :=
  s.vector (.vdiv k vd vs1 vs2) vd (fun is => lanes2 (fun a b => fdiv (f32 a) (f32 b)) (is.v vs1) (is.v vs2))

/-- VMAX: lane-by-lane IEEE 754-2019 maximum (R125, R146). -/
def execVmax (k : LCore) (vd vs1 vs2 : VReg) (s : State) : Host.Outcome State Fault Refusal :=
  s.vector (.vmax k vd vs1 vs2) vd (fun is => lanes2 (fmaxmin true) (is.v vs1) (is.v vs2))

/-- VMIN: lane-by-lane IEEE 754-2019 minimum (R125, R146). -/
def execVmin (k : LCore) (vd vs1 vs2 : VReg) (s : State) : Host.Outcome State Fault Refusal :=
  s.vector (.vmin k vd vs1 vs2) vd (fun is => lanes2 (fmaxmin false) (is.v vs1) (is.v vs2))

/-- VFMA: vs1 × vs2 + vs3 with one rounding (R125, R146). -/
def execVfma (k : LCore) (vd vs1 vs2 vs3 : VReg) (s : State) : Host.Outcome State Fault Refusal :=
  s.vector (.vfma k vd vs1 vs2 vs3) vd (fun is =>
    List.zipWith (fun (p : Nat × Nat) c => ffma (f32 p.1) (f32 p.2) (f32 c)) ((lanesOf (is.v vs1)).zip (lanesOf (is.v vs2)))
      (lanesOf (is.v vs3)))

/-- VSQRT: lane-by-lane square root, correctly rounded (R125, R146). -/
def execVsqrt (k : LCore) (vd vs1 : VReg) (s : State) : Host.Outcome State Fault Refusal :=
  s.vector (.vsqrt k vd vs1) vd (fun is => lanes1 (fun a => fsqrt (f32 a)) (is.v vs1))

/-- VEXP: lane-by-lane exp (R126). -/
def execVexp (k : LCore) (vd vs1 : VReg) (s : State) : Host.Outcome State Fault Refusal :=
  s.vector (.vexp k vd vs1) vd (fun is => lanes1 (fun a => fexp (BitVec.ofNat 32 a)) (is.v vs1))

/-- VLOG: lane-by-lane log (R126). -/
def execVlog (k : LCore) (vd vs1 : VReg) (s : State) : Host.Outcome State Fault Refusal :=
  s.vector (.vlog k vd vs1) vd (fun is => lanes1 (fun a => flog (BitVec.ofNat 32 a)) (is.v vs1))

/-- VRSQRT: lane-by-lane reciprocal square root (R126). -/
def execVrsqrt (k : LCore) (vd vs1 : VReg) (s : State) : Host.Outcome State Fault Refusal :=
  s.vector (.vrsqrt k vd vs1) vd (fun is => lanes1 (fun a => frsqrt (BitVec.ofNat 32 a)) (is.v vs1))

/-- VTANH: lane-by-lane tanh (R126). -/
def execVtanh (k : LCore) (vd vs1 : VReg) (s : State) : Host.Outcome State Fault Refusal :=
  s.vector (.vtanh k vd vs1) vd (fun is => lanes1 (fun a => ftanh (BitVec.ofNat 32 a)) (is.v vs1))

/-- VSIG: lane-by-lane sigmoid (R126). -/
def execVsig (k : LCore) (vd vs1 : VReg) (s : State) : Host.Outcome State Fault Refusal :=
  s.vector (.vsig k vd vs1) vd (fun is => lanes1 (fun a => fsig (BitVec.ofNat 32 a)) (is.v vs1))

/-- VRSUM: the sum of the lanes by the fixed tree, in every lane (R127). -/
def execVrsum (k : LCore) (vd vs1 : VReg) (s : State) : Host.Outcome State Fault Refusal :=
  s.vector (.vrsum k vd vs1) vd (fun is => everyLane (treeReduce (fun a b => fadd (f32 a) (f32 b)) (lanesOf (is.v vs1))))

/-- VRMAX: the maximum of the lanes by the fixed tree, in every lane (R127). -/
def execVrmax (k : LCore) (vd vs1 : VReg) (s : State) : Host.Outcome State Fault Refusal :=
  s.vector (.vrmax k vd vs1) vd (fun is => everyLane (treeReduce (fmaxmin true) (lanesOf (is.v vs1))))

/-- VRMIN: the minimum of the lanes by the fixed tree, in every lane (R127). -/
def execVrmin (k : LCore) (vd vs1 : VReg) (s : State) : Host.Outcome State Fault Refusal :=
  s.vector (.vrmin k vd vs1) vd (fun is => everyLane (treeReduce (fmaxmin false) (lanesOf (is.v vs1))))

/-- VBCAST: every lane takes x[rs][31:0] (R146). -/
def execVbcast (k : LCore) (vd : VReg) (rs : XReg) (s : State) : Host.Outcome State Fault Refusal :=
  .next (s.issue (.vbcast k vd rs) (fun k is _ s =>
    s.writeV k vd (ofLanes (List.replicate 128 ((is.x rs).toNat % 2 ^ 32)))))

/-- VLANE: x[rs] takes a lane, zero-extended (R146). -/
def execVlane (k : LCore) (vs1 : VReg) (rs : XReg) (lane : Fin 128) (s : State) : Host.Outcome State Fault Refusal :=
  .next (s.issue (.vlane k vs1 rs lane) (fun k is _ s => s.writeX k rs (BitVec.ofNat 64 (laneOf (is.v vs1) lane))))

/-- One lane's conversion between format codes; lane i takes element index `base` + i (R122, R146, R512). -/
def cvtLane (frm dst : Nat) (sat sr : Bool) (seed : Word) (task : Nat) (base : Word) (p : Nat × Nat) : Res :=
  (elemOf dst).convert sat sr (srng seed task (base + BitVec.ofNat 64 p.2).toNat)
    ((elemOf frm).decode (p.1 % 2 ^ (elemOf frm).bits))

/-- VCVT: conversion between the formats of R139; narrow results sit in the low bits of each lane (R146, R512). -/
def execVcvt (k : LCore) (vd vs1 : VReg) (rs : XReg) (frm dst : Fin 16) (sr sat : Bool) (s : State) :
    Host.Outcome State Fault Refusal :=
  .next (s.issue (.vcvt k vd vs1 rs frm dst sr sat) (fun k is _ s => s.modRun k (fun r =>
    let l := (lanesOf (is.v vs1)).zipIdx.map (cvtLane frm dst sat sr r.seed r.task.id (is.x rs))
    (r.writeV vd (ofLanes (l.map (·.bits)))).sticky (anyInvalid l) (anyOverflow l))))

/-- VWRED: the window reduction at anchor x[rs][11:0], as FP32 in every lane; outside the window the register keeps its
contents and the task will complete WINDOW (R108, R127). -/
def execVwred (k : LCore) (vd vs1 : VReg) (rs : XReg) (s : State) : Host.Outcome State Fault Refusal :=
  .next (s.issue (.vwred k vd vs1 rs) (fun k is _ s => s.modRun k (fun r =>
    let g := windowReduce (anchor12 (is.x rs)) (lanesOf (is.v vs1))
    if g.window then r.lost
    else
      let y := g.toFP32 (anchor12 (is.x rs))
      (r.writeV vd (ofLanes (List.replicate 128 y.bits))).sticky y.invalid y.overflow)))

/-- Raw records in a v register from lane 0 on, other lanes zero (R146). -/
def ofRecs (l : List Rec96) : BitVec 4096 := BitVec.ofNat 4096 (fromLe (l.flatMap Rec96.bytes))

/-- VWREDR: as VWRED, the raw record in lanes 0–3 (R119, R127). -/
def execVwredr (k : LCore) (vd vs1 : VReg) (rs : XReg) (s : State) : Host.Outcome State Fault Refusal :=
  .next (s.issue (.vwredr k vd vs1 rs) (fun k is _ s => s.modRun k (fun r =>
    let a := anchor12 (is.x rs)
    let g := windowReduce a (lanesOf (is.v vs1))
    if g.window then r.lost
    else (r.writeV vd (ofRecs [if g.flags = 0 then ⟨g.total, a, 0⟩ else ⟨0, a, g.flags⟩])).sticky (g.flags == 6) false)))

/-- VRADD: 32 raw records added pairwise (R120, R146); a sum outside the window fails the combination with WINDOW and
leaves vd as it was. INVALID is set where +Inf meets −Inf (R118). -/
def execVradd (k : LCore) (vd vs1 vs2 : VReg) (s : State) : Host.Outcome State Fault Refusal :=
  .next (s.issue (.vradd k vd vs1 vs2) (fun k is _ s => s.modRun k (fun r =>
    let a := vRecs (is.v vs1)
    let b := vRecs (is.v vs2)
    let l := List.zipWith Rec96.add a b
    let r1 := r.sticky ((List.zipWith Rec96.infMeets a b).any id) false
    if l.any (·.isNone) then r1.lost else r1.writeV vd (ofRecs (l.filterMap id)))))

end Sys2Proof.Machine
end

