-- ==== Sys2Proof/Machine/Remote.lean ====
section
/-! DEFINITION. Fabric operations of tasks, slot A (R142, R143, R187, R235–R241), and the packets between modules that carry
requests and replies (R288). -/

namespace Sys2Proof.Machine

/-! ### Requests to other nodes -/

/-- Bytes of a far request's share (log entry 40). -/
def farShare : Nat := 2048

/-- Packet kinds of R288. -/
def pkRead : Nat := 0x10
def pkWrite : Nat := 0x11
def pkAtomic : Nat := 0x12
def pkSignal : Nat := 0x13
def pkData : Nat := 0x18
def pkAck : Nat := 0x19
def pkOld : Nat := 0x1A
def pkRefused : Nat := 0x1B

/-- Send a request for a context; its identifier. -/
def State.sendRequest (s : State) (kind gpa ctx op : Nat) (data : List Byte) : State × Nat :=
  let id := s.fab.nextId
  (({ s with fab := { s.fab with nextId := id + 1 } }).sendPkt kind (BitVec.ofNat 12 (gpaNode gpa)) (frameOf gpa)
    (requestBody gpa (s.jobTag ctx) ctx op id data) [], id)

/-- Cut a run at the end of each share. -/
def shares : Nat → Nat → Nat → Nat → List (Nat × Nat × Nat)
  | 0, _, _, _ => []
  | f + 1, g, off, n =>
    if n = 0 then [] else let k := min n farShare; (g, off, k) :: shares f (g + k) (off + k) (n - k)

/-- The shares of one translated piece: the whole piece at home, packets at another node. -/
def State.sharesOf (s : State) (g off n : Nat) : List (Nat × Nat × Nat) :=
  if gpaNode g = s.node.toNat then [(g, off, n)] else shares (n / farShare + 1) g off n

/-- Translate a run with a permission: its shares (global address, offset, length), or none where a page is unmapped or
refuses the access (R226). -/
def State.translateRun (s : State) (u : Option Nat) (ctx : Nat) (va n perm : Nat) : Option (List (Nat × Nat × Nat)) :=
  (pieces (n / 2 ^ 21 + 2) va 0 n).foldl (fun acc p => match acc, s.translateVia u ctx (BitVec.ofNat 64 p.1) perm with
    | some l, some g => some (l ++ s.sharesOf g p.2.1 p.2.2)
    | _, _ => none) (some [])

/-- Issue the shares of an operation: packets leave for those at another node. -/
def State.sendShares (s : State) (kind ctx op : Nat) (data : Nat → Nat → List Byte) (l : List (Nat × Nat × Nat)) :
    State × List Chunk :=
  l.foldl (fun (acc : State × List Chunk) p =>
    if gpaNode p.1 = s.node.toNat then (acc.1, acc.2 ++ [⟨none, p.1, p.2.1, p.2.2, none⟩])
    else
      let r := acc.1.sendRequest kind p.1 ctx op (data p.2.1 p.2.2)
      (r.1, acc.2 ++ [⟨some r.2, p.1, p.2.1, p.2.2, none⟩])) (s, [])

/-! ### Issue -/

/-- Add a fabric operation to the task on core k. -/
def State.addFab (s : State) (k : Nat) (o : FabOp) : State := s.modRun k (fun r => { r with fab := r.fab ++ [o] })

/-- Is a size of GET and PUT refused (R143)? -/
def badSize (n : Nat) : Bool := n == 0 || n % 64 != 0 || decide (n > 2 ^ 24)

/-- A fabric operation of a task's bundle as it issues: the bundle, how many bundles had issued, and the context's job tag (R230). -/
def State.fabOp (s : State) (r : Run) (kind : FabKind) (va : Word) (loc bytes : Nat) : FabOp :=
  { kind := kind, seq := r.opened - 1, tag := s.jobTag r.task.ctx, va := va, ok := true, loc := loc, bytes := bytes, bundle := r.pc
    aop := 0, arg := 0#64, cmp := 0#64, rd := 0, sig := none, chunks := [], inward := none }

/-- An operation with its shares goes out, or one that does not translate waits to fault (R142, R155, R226). -/
def State.goOut (s : State) (k : Nat) (r : Run) (o : FabOp) (pk perm : Nat) (data : Nat → Nat → List Byte) : State :=
  let u := some (clusterOf k)
  match s.translateRun u r.task.ctx o.va.toNat o.bytes perm with
  | none => s.addFab k { o with ok := false }
  | some l =>
    let p := (s.cacheRun u r.task.ctx o.va.toNat o.bytes).sendShares pk r.task.ctx o.aop data l
    p.1.addFab k { o with chunks := p.2 }

/-- A fault that an operation of slot A meets after its issue (R155). -/
def State.lateFault (s : State) (k : Nat) (o : FabOp) (fault : Nat) : State := s.faultRun k fault o.bundle 1 o.seq

/-- Issue a GET. -/
def State.issueGet (s : State) (k : Nat) (r : Run) (va : Word) (loc n : Nat) (inward : Option Nat) : State :=
  let o := { s.fabOp r .get va loc n with inward := inward }
  if badSize n then s.lateFault k o ftFabricSize else s.goOut k r o pkRead permRead (fun _ len => leBytes 4 len)

/-- Issue a PUT or PUTS. -/
def State.issuePut (s : State) (k : Nat) (r : Run) (kind : FabKind) (va : Word) (loc n : Nat) (sig : Option (Node × Nat)) : State :=
  s.goOut k r { s.fabOp r kind va loc n with sig := sig } pkWrite permWrite
    (fun off len => s.mem.bytes (s.localAt k (loc + off)) len)

/-- Issue an atomic: the operation, operand and compare value travel to the word's home (R240). -/
def State.issueAtomic (s : State) (k : Nat) (r : Run) (op : Nat) (va arg cmp : Word) (rd : Nat) (inward : Option Nat) : State :=
  s.goOut k r { s.fabOp r .atomic va 0 8 with aop := op, arg := arg, cmp := cmp, rd := rd, inward := inward } pkAtomic permAtomic
    (fun _ _ => leBytes 8 arg.toNat ++ leBytes 8 cmp.toNat)

/-- The number of the slot A value that enters a pair's task. -/
def Issue.inwardA (is : Issue) (b : Bundle) (r : Run) : Option Nat :=
  if r.partner.isSome then some (is.inwardIndex b .A) else none

/-- GET: copy from fabric to local memory in the background (R142). A pair's shadow waits for the primary's data (R187). -/
def execGet (k : LCore) (rd rs1 rs2 : XReg) (s : State) : Host.Outcome State Fault Refusal :=
  .next (s.issue (.get k rd rs1 rs2) (fun k is b s => match s.runOf k with
    | none => s
    | some r =>
      let loc := (is.x rd).toNat
      let n := (is.x rs2).toNat
      if s.isShadow k then
        if badSize n then s else s.addFab k { s.fabOp r .get (is.x rs1) loc n with inward := some (is.inwardIndex b .A) }
      else s.issueGet k r (is.x rs1) loc n (is.inwardA b r)))

/-- What PUT and PUTS share: the source's lines are read, a marked one is POISON; the shadow of a pair only compares (R143, R187,
R220). -/
def State.putEffect (s : State) (k : Nat) (kind : FabKind) (va : Word) (loc n : Nat) (sig : Option (Node × Nat))
    (obs : List StoreLine) : State :=
  match s.runOf k with
  | none => s
  | some r =>
    if badSize n then s.faultRun k ftFabricSize r.pc 1 (r.opened - 1)
    else
      let s1 := s.useLocal k 1 [(loc, n)] obs
      if s1.markedAt k (loc, n) ∨ s1.isShadow k then s1 else s1.issuePut k r kind va loc n sig

/-- PUT: copy from local memory to fabric in the background (R142). -/
def execPut (k : LCore) (rd rs1 rs2 : XReg) (obs : List StoreLine) (s : State) : Host.Outcome State Fault Refusal :=
  .next (s.issue (.put k rd rs1 rs2 obs) (fun k is _ s =>
    s.putEffect k .put (is.x rs1) (is.x rd).toNat (is.x rs2).toNat none obs))

/-- PUTS: as PUT; once every byte is written at its home, the sync object is signalled with 1 (R142, R237). -/
def execPuts (k : LCore) (rd rs1 rs2 rsig : XReg) (obs : List StoreLine) (s : State) : Host.Outcome State Fault Refusal :=
  .next (s.issue (.puts k rd rs1 rs2 rsig obs) (fun k is _ s =>
    s.putEffect k .puts (is.x rs1) (is.x rd).toNat (is.x rs2).toNat (objOf (is.x rsig)) obs))

/-- FWAIT: the bundle stalled until no more than n operations remained (R142). -/
def execFwait (k : LCore) (n : BitVec 5) (s : State) : Host.Outcome State Fault Refusal :=
  .next (s.issue (.fwait k n) (fun _ _ _ s => s))

/-- What the atomics share (R142, R143, R187, R240). -/
def State.atomicEffect (s : State) (k : Nat) (is : Issue) (b : Bundle) (op : Nat) (va arg cmp : Word) (rd : XReg) : State :=
  match s.runOf k with
  | none => s
  | some r =>
    if s.isShadow k then s.addFab k { s.fabOp r .atomic va 0 8 with rd := rd, inward := some (is.inwardIndex b .A) }
    else s.issueAtomic k r op va arg cmp rd (is.inwardA b r)

/-- AADD (R142, R240). -/
def execAadd (k : LCore) (rd rs1 rs2 : XReg) (s : State) : Host.Outcome State Fault Refusal :=
  .next (s.issue (.aadd k rd rs1 rs2) (fun k is b s => s.atomicEffect k is b 0 (is.x rs1) (is.x rs2) 0#64 rd))

/-- AMIN, signed (R142, R240). -/
def execAmin (k : LCore) (rd rs1 rs2 : XReg) (s : State) : Host.Outcome State Fault Refusal :=
  .next (s.issue (.amin k rd rs1 rs2) (fun k is b s => s.atomicEffect k is b 1 (is.x rs1) (is.x rs2) 0#64 rd))

/-- AMAX, signed (R142, R240). -/
def execAmax (k : LCore) (rd rs1 rs2 : XReg) (s : State) : Host.Outcome State Fault Refusal :=
  .next (s.issue (.amax k rd rs1 rs2) (fun k is b s => s.atomicEffect k is b 2 (is.x rs1) (is.x rs2) 0#64 rd))

/-- ASWP (R142, R240). -/
def execAswp (k : LCore) (rd rs1 rs2 : XReg) (s : State) : Host.Outcome State Fault Refusal :=
  .next (s.issue (.aswp k rd rs1 rs2) (fun k is b s => s.atomicEffect k is b 3 (is.x rs1) (is.x rs2) 0#64 rd))

/-- ACAS: if the word equals rd, write rs2 (R142, R240). -/
def execAcas (k : LCore) (rd rs1 rs2 : XReg) (s : State) : Host.Outcome State Fault Refusal :=
  .next (s.issue (.acas k rd rs1 rs2) (fun k is b s => s.atomicEffect k is b 4 (is.x rs1) (is.x rs2) (is.x rd) rd))

/-! ### Completion -/

/-- Does a share of an earlier operation of the task go to a frame of this operation (R235)? -/
def earlierFrame (earlier : List FabOp) (o : FabOp) : Bool :=
  o.chunks.any (fun c => c.id.isNone && earlier.any (fun e => e.chunks.any (fun d => frameOf d.gpa == frameOf c.gpa)))

/-- What one share brought: status, bytes, marked offsets. -/
structure Brought where
  status : Nat
  off : Nat
  data : List Byte
  poisoned : List Nat
  deriving DecidableEq, Repr

/-- Carry out one share: at this home now, under the job tag of its issue (R230), or from its reply. -/
def State.doShare (s : State) (k ctx : Nat) (o : FabOp) (c : Chunk) (lines : List LineObs) : State × Brought :=
  match c.id, c.reply with
  | some _, some r => (s, ⟨r.status.toNat, c.off, r.data, r.poisoned⟩)
  | some _, none => (s, ⟨4, c.off, [], []⟩)
  | none, _ =>
    let a := gpaLocal c.gpa
    let p : State × HomeAns := match o.kind with
      | .get => s.homeRead s.node ctx o.tag a c.len lines
      | .atomic => s.homeAtomic s.node ctx o.tag a o.aop o.arg o.cmp lines
      | _ => s.homeWrite s.node ctx o.tag a (s.mem.bytes (s.localAt k (o.loc + c.off)) c.len)
    (p.1, ⟨p.2.status, c.off, p.2.data, p.2.poisoned⟩)

/-- Carry out every share of an operation, in order. -/
def State.doShares (s : State) (k ctx : Nat) (o : FabOp) (lines : List LineObs) : State × List Brought :=
  o.chunks.foldl (fun (acc : State × List Brought) c =>
    let p := acc.1.doShare k ctx o c lines
    (p.1, acc.2 ++ [p.2])) (s, [])

/-- Was a share refused, unanswered or ended otherwise than OK or POISONED (R231, R299, R413)? -/
def Brought.refused (b : Brought) : Bool := b.status != 0 && b.status != 8

/-- Deliver a GET's data, marked where it came marked (R143). -/
def State.deliver (s : State) (k loc : Nat) (l : List Brought) : State :=
  l.foldl (fun s b => s.storeMarked (s.localAt k (loc + b.off)) b.data b.poisoned) s

/-- The bytes that a failed GET, or a GET of a task that ends by a fault, targets are undefined; the other operations target
none (R13 and the failure table of Task Programs). -/
def State.targetLost (s : State) (k : Nat) (o : FabOp) : State :=
  if o.kind = .get then s.forget (s.localAt k o.loc) o.bytes else s

/-- Does the task on a core wind down after a fault (R155)? -/
def State.winding (s : State) (k : Nat) : Bool := ((s.runOf k).bind (·.fault)).isSome

/-- A completed operation's outcome on the task (R142, R143, R155, R237). -/
def State.fabOutcome (s : State) (k ctx : Nat) (o : FabOp) (l : List Brought) : State :=
  if l.any Brought.refused then (s.targetLost k o).lateFault k o ftFabricPage
  else match o.kind with
    | .get =>
      let s1 := if s.winding k then s.targetLost k o else s.deliver k o.loc l
      match o.inward with
      | some i => s1.passOn k i (l.flatMap (·.data)) (l.flatMap (fun b => b.poisoned.map (· + b.off)))
      | none => s1
    | .put => s
    | .puts => match o.sig with
      | some g => s.sendSignal (clusterOf k) ctx g.1 g.2 1
      | none => s
    | .atomic =>
      if l.any (fun b => b.status == 8) then s.lateFault k o ftPoison
      else
        let d := (l.flatMap (·.data)).take 8
        let s1 := s.writeX k o.rd (BitVec.ofNat 64 (fromLe d))
        match o.inward with
        | some i => s1.passOn k i d []
        | none => s1

/-- The primary's value reaches a shadow's operation (R187). -/
def State.mirrorDone (s : State) (k : Nat) (o : FabOp) (d : List Byte) (marks : List Nat) : State :=
  match o.kind with
  | .get => if s.winding k then s.targetLost k o else s.storeMarked (s.localAt k o.loc) d marks
  | _ => s.writeX k o.rd (BitVec.ofNat 64 (fromLe d))

/-- Has the primary of a pair stopped, so that its value will not come? -/
def State.partnerStopped (s : State) (r : Run) : Bool :=
  match r.partner.bind s.runOf with
  | some q => q.fault.isSome || q.disagreed
  | none => true

/-- FABRIC_REPLY: the i-th outstanding operation of the task on core k completes (R142, R143, R235–R237). It cannot while a
reply is out or while an earlier operation to one of its frames stands. -/
def execFabricReply (k : LCore) (i : Nat) (lines : List LineObs) (s : State) : Host.Outcome State Fault Refusal :=
  .next (match s.runOf k with
    | none => s
    | some r => match r.fab[i]? with
      | none => s
      | some o =>
        let s1 := s.setRun k { r with fab := r.fab.eraseIdx i }
        if !o.ok then (s1.targetLost k o).lateFault k o ftFabricPage
        else if s.isShadow k then match s.givenTo r (o.inward.getD 0) with
          | some d => s1.mirrorDone k o d.1 d.2
          | none => if s.partnerStopped r then s1 else s
        else if o.chunks.any (fun c => c.id.isSome && c.reply.isNone) ∨ earlierFrame (r.fab.take i) o then s
        else
          let p := s1.doShares k r.task.ctx o lines
          p.1.fabOutcome k r.task.ctx o p.2)

end Sys2Proof.Machine
end

