-- ==== Sys2Proof/Machine/SyncToken.lean ====
section
/-! DEFINITION. Sync, token, collective-launch and end instructions, slot C (R147–R150, R160, R187), the arrival of tokens
and the completion of tasks (R82, R150, R155, R178–R190). -/

namespace Sys2Proof.Machine

/-! ### Sync objects -/

/-- Set an object's counter. -/
def State.setCounter (s : State) (i n : Nat) : State :=
  match lookupKey s.sync i with
  | some o => { s with sync := insertKey s.sync i { o with counter := n } }
  | none => s

/-- Context of the task on a core; an idle core has none. -/
def State.taskCtx (s : State) (k : Nat) : Nat := match s.runOf k with
  | some r => r.task.ctx
  | none => 0

/-- SSIG: a signal leaves for the object, local or remote (R147, R160). -/
def execSsig (k : LCore) (rs1 rs2 : XReg) (s : State) : Host.Outcome State Fault Refusal :=
  .next (s.issue (.ssig k rs1 rs2) (fun k is _ s =>
    if s.isShadow k then s
    else match objOf (is.x rs1) with
      | some (n, i) => s.sendSignal (clusterOf k) (s.taskCtx k) n i (is.x rs2).toNat
      | none => s))

/-- SWAIT: rd := 0 once the counter reached the target, 1 where the timeout expired (R147). -/
def execSwait (k : LCore) (rd rs1 rs2 : XReg) (fn : BitVec 19) (s : State) : Host.Outcome State Fault Refusal :=
  .next (s.issue (.swait k rd rs1 rs2 fn) (fun k is b s =>
    let p := s.enterC k is b (fun s => (match (s.runOf k).bind (·.waiting) with
      | some (.over r) => BitVec.ofNat 64 r
      | _ => 0#64, s))
    p.2.writeX k rd p.1))

/-- SRST: counter := 0 (R147, R160). -/
def execSrst (k : LCore) (rs1 : XReg) (s : State) : Host.Outcome State Fault Refusal :=
  .next (s.issue (.srst k rs1) (fun k is _ s =>
    if s.isShadow k then s
    else match objOf (is.x rs1) with
      | some (_, i) => s.setCounter i 0
      | none => s))

/-- SRD: rd := counter (R147, R160). -/
def execSrd (k : LCore) (rd rs1 : XReg) (s : State) : Host.Outcome State Fault Refusal :=
  .next (s.issue (.srd k rd rs1) (fun k is b s =>
    let p := s.enterC k is b (fun s => (match (objOf (is.x rs1)).bind (fun o => lookupKey s.sync o.2) with
      | some o => BitVec.ofNat 64 o.counter
      | none => 0#64, s))
    p.2.writeX k rd p.1))

/-- SWAIT_TIMEOUT: the timeout of the SWAIT on core k expires (R147); a timeout of 0 never does. -/
def execSwaitTimeout (k : LCore) (s : State) : Host.Outcome State Fault Refusal :=
  .next (s.modRun k (fun r => match r.waiting with
    | some (.swait _ _ t) => if t = 0 then r else { r with waiting := some (.over 1) }
    | _ => r))

/-! ### Token channels (R82, R148) -/

/-- TBIND: bind the send side to the peer's receive queue and claim that queue (R148). DESIGN CHOICE (log entry 113): two endpoints of one
logical core may be joined. -/
def execTbind (k : LCore) (e : Endp) (rs1 : XReg) (s : State) : Host.Outcome State Fault Refusal :=
  .next (s.issue (.tbind k e rs1) (fun k is _ s =>
    if s.isShadow k then s
    else
      let ctx := s.taskCtx k
      let key := endKey k e
      let peer := peerKey (is.x rs1)
      let s1 := s.setEndpoint key { (s.endpoint key) with peer := some (peer, ctx), credits := 16 }
      s1.setEndpoint peer { (s1.endpoint peer) with claim := some ctx }))

/-- Release a send side's binding and the claim on its peer's queue. -/
def State.unbindEnd (s : State) (key : Nat) : State :=
  match (s.endpoint key).peer with
  | some (peer, _) =>
    let s1 := s.setEndpoint key { (s.endpoint key) with peer := none, credits := 16 }
    s1.setEndpoint peer { (s1.endpoint peer) with claim := none }
  | none => s

/-- TUNBIND: with all 16 credits back, release the binding and the claim; a send side that the context has not bound has
nothing to release (R148). -/
def execTunbind (k : LCore) (e : Endp) (s : State) : Host.Outcome State Fault Refusal :=
  .next (s.issue (.tunbind k e) (fun k _ _ s =>
    if s.isShadow k ∨ !(s.endpoint (endKey k e)).boundBy (s.taskCtx k) then s else s.unbindEnd (endKey k e)))

/-- TSEND: spend a credit; the token leaves for the peer (R82, R148). -/
def execTsend (k : LCore) (e : Endp) (rs1 : XReg) (s : State) : Host.Outcome State Fault Refusal :=
  .next (s.issue (.tsend k e rs1) (fun k is _ s =>
    if s.isShadow k then s
    else
      let key := endKey k e
      let ep := s.endpoint key
      match ep.peer with
      | some (peer, _) =>
        let s1 := s.setEndpoint key { ep with credits := ep.credits - 1 }
        { s1 with cores := { s1.cores with tokens := s1.cores.tokens ++ [(peer, clusterOf k, is.x rs1)] } }
      | none => s))

/-- The send side bound to a receive queue. -/
def State.senderOf (s : State) (key : Nat) : Option Nat :=
  (s.cores.endpoints.find? (fun p => match p.2.peer with
    | some q => q.1 == key
    | none => false)).map Prod.fst

/-- A credit returns to the sender of a queue (R82). -/
def State.returnCredit (s : State) (key : Nat) : State :=
  match s.senderOf key with
  | some j => s.setEndpoint j { (s.endpoint j) with credits := min 16 ((s.endpoint j).credits + 1) }
  | none => s

/-- TRECV: take the oldest token of the receive queue; its credit returns (R82, R148). -/
def execTrecv (k : LCore) (rd : XReg) (e : Endp) (s : State) : Host.Outcome State Fault Refusal :=
  .next (s.issue (.trecv k rd e) (fun k is b s =>
    let p := s.enterC k is b (fun s =>
      let key := endKey k e
      let ep := s.endpoint key
      (ep.queue.headD 0#64, (s.setEndpoint key { ep with queue := ep.queue.tail }).returnCredit key))
    p.2.writeX k rd p.1))

/-- TSTAT: tokens queued, send credits, send side bound (R148). -/
def execTstat (k : LCore) (rd : XReg) (e : Endp) (s : State) : Host.Outcome State Fault Refusal :=
  .next (s.issue (.tstat k rd e) (fun k is b s =>
    let p := s.enterC k is b (fun s =>
      let ep := s.endpoint (endKey k e)
      (BitVec.ofNat 64 (ep.queue.length + ep.credits * 2 ^ 8 + ofBool ep.peer.isSome * 2 ^ 16), s))
    p.2.writeX k rd p.1))

/-- Take the first element whose key is `a` out of a list. -/
def takeFirst {α : Type} (a : Nat) : List (Nat × α) → Option (α × List (Nat × α))
  | [] => none
  | p :: t => if p.1 = a then some (p.2, t) else (takeFirst a t).map (fun q => (q.1, p :: q.2))

/-- Is a logical core's move under way, between steps 2 and 4 of R57? -/
def State.moveBegun (s : State) (k : Nat) : Bool :=
  match lookupKey s.cores.moves (clusterOf k) with
  | some m => m.lcore == k && m.begun
  | none => false

/-- The oldest token in flight to an endpoint, where none sent before it goes from the same cluster to another endpoint of the same
other cluster (R65), and the tokens left. -/
def State.tokenNext (s : State) (key : Nat) : Option (Word × List (Nat × Nat × Word)) :=
  match takeFirst key s.cores.tokens with
  | none => none
  | some ((src, v), rest) =>
    let cl := clusterOf (key / 8)
    let ahead := s.cores.tokens.takeWhile (fun t => t.1 != key)
    if src ≠ cl ∧ ahead.any (fun t => t.2.1 == src && clusterOf (t.1 / 8) == cl) then none else some (v, rest)

/-- A token reaches its receive queue (R82); the wrapper of a core that is reset as a whole absorbs it and returns the credit (R413). -/
def State.tokenIn (s : State) (key : Nat) (v : Word) : State :=
  if s.coreInReset (key / 8) then s.returnCredit key
  else
    let ep := s.endpoint key
    s.setEndpoint key { ep with queue := ep.queue ++ [v] }

/-- TOKEN_ARRIVAL: the oldest token in flight to an endpoint arrives (R65, R82, R83). While its core moves the network interface
holds it (R58). -/
def execTokenArrival (k : LCore) (e : Endp) (s : State) : Host.Outcome State Fault Refusal :=
  .next (
    let key := endKey k e
    match s.tokenNext key with
    | none => s
    | some (v, rest) =>
      let s1 := { s with cores := { s.cores with tokens := rest } }
      if s.moveBegun k then { s1 with cores := { s1.cores with heldTokens := s1.cores.heldTokens ++ [(key, v)] } }
      else s1.tokenIn key v)

/-- The tokens that a network interface held for a moved core are delivered in the order in which they arrived (R58). -/
def State.releaseTokens (s : State) (k : Nat) : State :=
  let mine := s.cores.heldTokens.filter (fun t => t.1 / 8 == k)
  mine.foldl (fun s t => s.tokenIn t.1 t.2)
    { s with cores := { s.cores with heldTokens := s.cores.heldTokens.filter (fun t => t.1 / 8 != k) } }

/-! ### Collective launch, task end -/

/-- CLNCH: copy the descriptor at local address rs2 into the group's communication queue (R149, R309). A marked line is
POISON. -/
def execClnch (k : LCore) (rs1 rs2 : XReg) (obs : List StoreLine) (s : State) : Host.Outcome State Fault Refusal :=
  .next (s.issue (.clnch k rs1 rs2 obs) (fun k is _ s0 =>
    let g := (is.x rs1).toNat
    let r : Range := ((is.x rs2).toNat, 64)
    let s := s0.storeReads k [r] obs
    if s.markedAt k r then s.useMarked k 0 [r]
    else if s.isShadow k then s
    else
      let q := s.commOf g ++ [s.mem.bytes (s.localAt k r.1) 64]
      { s with que := { s.que with comm := insertKey s.que.comm g q } }))

/-- TEND: the task issues nothing more and completes once its finishes, MOVEs and fabric operations have (R150); its result is x31 as
TEND reads it (R151, R180). -/
def execTend (k : LCore) (kind : Bool) (s : State) : Host.Outcome State Fault Refusal :=
  .next (s.issue (.tend k kind) (fun k is _ s => s.modRun k (fun r => { r with ending := some kind, endX := is.x 31 })))

/-- Has a task stopped issuing, with no background work left (R150, R155)? -/
def Run.over (r : Run) : Bool := (r.fault.isSome || r.ending.isSome || r.timedOut) && r.issue.isNone && r.quietNow

/-- Has the whole task, a pair's shadow too, stopped? -/
def State.taskOver (s : State) (r : Run) : Bool :=
  r.over && (match r.partner with
    | some j => (match s.runOf j with
      | some q => q.over || r.fault.isSome || r.disagreed || r.timedOut
      | none => true)
    | none => true)

/-- Status, fault, bundle and result with which a task completes (R107, R108, R150, R155, R188, R391). -/
def Run.outcome (r : Run) : Nat × Nat × Option Nat × Option Word :=
  let plain := match r.fault, r.ending with
    | some f, _ => (if f.1 = ftPoison then 8 else 4, f.1, some f.2, some 0#64)
    | none, some kind => (r.endStatus kind, 0, none, some r.endX)
    | none, none => (7, 0, some r.pc, none)
  if r.disagreed then (if plain.1 ≤ 1 then 4 else plain.1, plain.2.1, plain.2.2.1, none)
  else if r.timedOut ∧ r.fault.isNone then (7, 0, some r.pc, none) else plain

/-- TASK_COMPLETION: the task on core k, with its pair, ends: its record becomes due, its credits return and its cores go on
to the tasks that they hold (R80, R150, R155, R178, R180, R188). -/
def execTaskCompletion (k : LCore) (s : State) : Host.Outcome State Fault Refusal :=
  .next (match s.runOf k with
    | none => s
    | some r =>
      if !r.primary ∨ !s.taskOver r then s
      else
        let o := r.outcome
        let s1 := s.dropRun k
        let s2 := match r.partner with
          | some j => s1.dropRun j
          | none => s1
        let s3 := s2.closeTask r.task o.1 o.2.1 o.2.2.1 r.recFlags o.2.2.2 (some k) (!r.disagreed && !r.timedOut)
        let s4 := s3.startNext k
        match r.partner with
        | some j => s4.startNext j
        | none => s4)

end Sys2Proof.Machine
end

