-- ==== Sys2Proof/Machine/Access.lean ====
section
/-! DEFINITION. Accesses of the module's own engines to a context's fabric virtual space: descriptor and bundle fetches,
records, digest records, lees, collective sources and results (R226, R231, R237). A share at another node is answered by the
reply that the command carries. -/

namespace Sys2Proof.Machine

/-- The pieces of a run with their global addresses as a unit translates them, those at another node cut into shares of a packet each (R287,
log entry 40); none where a page is unmapped or refuses. -/
def State.gpaPiecesVia (s : State) (u : Option Nat) (ctx va n perm : Nat) : Option (List (Nat × Nat × Nat)) :=
  s.translateRun u ctx va n perm

/-- The same by the tables. -/
def State.gpaPieces (s : State) (ctx va n perm : Nat) : Option (List (Nat × Nat × Nat)) := s.gpaPiecesVia none ctx va n perm

/-- The worse of two statuses (R13). -/
def worse (a b : Nat) : Nat := max a b

/-- A unit reads a run: status (0 OK, 4 unmapped, refused or failed, 7 unanswered, 8 poisoned) and bytes; a home on another module
answers as given, and the lines of this one are read as R207 says. -/
def State.readRunVia (s : State) (u : Option Nat) (ctx va n : Nat) (far : FarReply) : State × Nat × List Byte :=
  match s.gpaPiecesVia u ctx va n permRead with
  | none => (s, 4, [])
  | some l =>
    let r := l.foldl (fun (acc : State × Nat × List Byte × List Byte) p =>
      let st := acc.1
      if gpaNode p.1 = st.node.toNat then
        let h := st.homeRead st.node ctx (st.jobTag ctx) (gpaLocal p.1) p.2.2 far.lines
        (h.1, worse acc.2.1 h.2.status, acc.2.2.1 ++ h.2.data, acc.2.2.2)
      else
        let q := st.sendRequest pkRead p.1 ctx 0 (leBytes 4 p.2.2)
        (q.1, worse acc.2.1 far.status.toNat, acc.2.2.1 ++ acc.2.2.2.take p.2.2, acc.2.2.2.drop p.2.2))
      (s.cacheRun u ctx va n, 0, [], far.bytes)
    (r.1, r.2.1, r.2.2.1)

/-- An engine without a translation cache reads a run. -/
def State.readRun (s : State) (ctx va n : Nat) (far : FarReply) : State × Nat × List Byte := s.readRunVia none ctx va n far

/-- A unit writes a run: status as for a read. -/
def State.writeRunVia (s : State) (u : Option Nat) (ctx va : Nat) (d : List Byte) (far : FarReply) : State × Nat :=
  match s.gpaPiecesVia u ctx va d.length permWrite with
  | none => (s, 4)
  | some l => l.foldl (fun (acc : State × Nat) p =>
      let st := acc.1
      let b := (d.drop p.2.1).take p.2.2
      if gpaNode p.1 = st.node.toNat then
        let h := st.homeWrite st.node ctx (st.jobTag ctx) (gpaLocal p.1) b
        (h.1, worse acc.2 h.2.status)
      else ((st.sendRequest pkWrite p.1 ctx 0 b).1, worse acc.2 far.status.toNat)) (s.cacheRun u ctx va d.length, 0)

/-- An engine without a translation cache writes a run. -/
def State.writeRun (s : State) (ctx va : Nat) (d : List Byte) (far : FarReply) : State × Nat := s.writeRunVia none ctx va d far

/-- The pieces of a destination run that a write can reach at this home, by local address, offset and length: each page by itself, for one
that is unmapped or refuses keeps its bytes (R226, R231). -/
def State.reached (s : State) (u : Option Nat) (ctx va n : Nat) : List (Nat × Nat × Nat) :=
  (pieces (n / 2 ^ 21 + 2) va 0 n).filterMap (fun p =>
    (s.translateVia u ctx (BitVec.ofNat 64 p.1) permWrite).bind (fun g =>
      if gpaNode g = s.node.toNat ∧ s.admits s.node ctx (s.jobTag ctx) 2 (gpaLocal g) then some (gpaLocal g, p.2.1, p.2.2) else none))

/-- Lines of what a write reached, by offset in the run, become poisoned (R208). -/
def State.markRun (s : State) (l : List (Nat × Nat × Nat)) (marks : List Nat) : State :=
  l.foldl (fun s p => (marks.filter (fun o => decide (p.2.1 ≤ o ∧ o < p.2.1 + p.2.2))).foldl
    (fun s o => s.markLine ((p.1 + (o - p.2.1)) / 64)) s) s

/-- What a write of a run can reach here becomes undefined, with the marks given (R208, R247). -/
def State.undefineRunVia (s : State) (u : Option Nat) (ctx va n : Nat) (marks : List Nat) : State :=
  let l := s.reached u ctx va n
  (l.foldl (fun s p => s.forget p.1 p.2.2) s).markRun l marks

/-- The same by the tables (R318–R320). -/
def State.undefineRun (s : State) (ctx va n : Nat) (marks : List Nat) : State := s.undefineRunVia none ctx va n marks

/-- A far reply that brings nothing and reports no failure. -/
def FarReply.ok : FarReply := ⟨0#8, [], []⟩

end Sys2Proof.Machine
end

