-- ==== Sys2Proof/Machine/PowerState.lean ====
section
/-! DEFINITION. The power state and the effective cap (R368, R369), the core voltage (R351) and the binding of pacts (R356). -/

namespace Sys2Proof.Machine

/-- Codes of PWR.INPUT.off_reason (R371). -/
def offRack : Nat := 1
def offHost : Nat := 2
def offThermal : Nat := 3
def offLeak : Nat := 4
def offFeeds : Nat := 5

/-- The input cap: of the image in force once POWER has completed (R15), else that of R335. -/
def State.inputCap (s : State) : Nat := match s.img.cfg with
  | some c => if s.stepDone 2 then c.inputCap else 3600
  | none => 3600

/-- A ceiling or host cap as it counts (R368): 1,800 W up to input_cap. -/
def clampCap (x cap : Nat) : Nat := max 1800 (min cap x)

/-- What orders or holds OFF now, by off_reason (R369); a rack order that runs a graceful notice does not yet (R370). -/
def State.offSources (s : State) : List Nat :=
  (if s.fld fPwrRackOrder = 2 ∧ s.fld fPwrRackNotice = 0 then [offRack] else []) ++ (if s.fld fPwrHostOrder = 2 then [offHost] else [])
  ++ (if s.pwr.holdThermal then [offThermal] else []) ++ (if s.pwr.holdLeak then [offLeak] else [])
  ++ (if s.pwr.holdFeeds then [offFeeds] else [])

/-- Does an order ask for REDUCED? -/
def State.reduced (s : State) : Bool := s.fld fPwrRackOrder == 1 || s.fld fPwrHostOrder == 1

/-- The effective cap and its source (R368); among equal caps the source of the lowest code. -/
def State.effectiveCap (s : State) : Nat × Nat :=
  let m := s.inputCap
  let less (a b : Nat × Nat) : Nat × Nat := if b.1 < a.1 then b else a
  let c := less (less (m, 0) (clampCap (s.fld fPwrRackCeiling) m, 1)) (clampCap (s.fld fPwrHostCap) m, 2)
  if s.reduced then less c (1800, 3) else c

/-- The power state (R368, R369): OFF until POWER completes. -/
def State.powerState (s : State) : Nat :=
  if !s.offSources.isEmpty ∨ !s.stepDone 2 then 2 else if s.reduced then 1 else 0

/-- Show the power state, the effective cap and the reason of OFF: the reason shown stays while its source lasts. -/
def State.pwrShow (s : State) : State :=
  let off := s.offSources
  let st := s.powerState
  let r := s.fld fPwrInputOffReason
  let s1 := s.setFlds [(fPwrInputCap, s.effectiveCap.1), (fPwrInputCapSource, s.effectiveCap.2), (fPwrInputState, st),
    (fPwrInputOffReason, if off.contains r then r else off.headD 0)]
  (if st = s.fld fPwrInputState then s1 else s1.event evPower st).faultSince s

/-! ### Core voltage (R351) -/

/-- VCORE in mV before trim at a job frequency in MHz: linear between the points of the table, rounded up to 5 mV. -/
def vcoreTable (f : Nat) : Nat :=
  let seg (f0 v0 f1 v1 : Nat) : Nat := (v0 * (f1 - f0) + (f - f0) * (v1 - v0) + 5 * (f1 - f0) - 1) / (5 * (f1 - f0)) * 5
  if f ≤ 800 then 550 else if f ≤ 1000 then seg 800 550 1000 600 else if f ≤ 1200 then seg 1000 600 1200 640
  else if f ≤ 1400 then seg 1200 640 1400 690 else if f ≤ 1600 then seg 1400 690 1600 740
  else if f ≤ 1800 then seg 1600 740 1800 810 else seg 1800 810 1900 850

/-- The setpoint of a die: the table less its trim, never below 0.55 V. -/
def vcoreOf (d f : Nat) : Nat := max 550 (vcoreTable f - Config.vcoreTrim d % 31)

/-- A die runs at a job frequency from now on; a raise of R349 stays on top. -/
def State.setJob (s : State) (d f : Nat) : State :=
  s.setFlds [(fPwrDieFjob d, f), (fPwrDieVcore d, vcoreOf d f + (if s.cores.raised.contains d then 20 else 0))]

/-! ### Pacts (R356–R358) -/

/-- pact_state codes of R371. -/
def paOff : Nat := 0
def paActive : Nat := 1
def paMissed : Nat := 2
def paConflict : Nat := 3
def paInvalid : Nat := 4
def paBroken : Nat := 5

/-- Dies that hold a cluster of a partition. -/
def State.diesOf (s : State) (p : Nat) : List Nat :=
  (List.range 4).filter (fun d => bitsOf (s.fld (fCtxPartClusters p)) (8 * d + 7) (8 * d) != 0)

/-- Is a partition bound to a pact that stands? -/
def State.pactBound (s : State) (p : Nat) : Bool :=
  s.bit (fPwrPartEnable p) && (s.fld (fPwrPartPactState p) == paActive || s.fld (fPwrPartPactState p) == paMissed)

/-- Partitions bound to a group's pact. -/
def State.pactParts (s : State) (g : Nat) : List Nat :=
  (List.range 4).filter (fun p => s.pactBound p && s.fld (fPwrPartGroup p) == g)

/-- A group is BROKEN: its pact shows so and its dies are in local mode (R358). -/
def State.pactsBroken (s : State) (g : Nat) : State :=
  let s1 := (s.pactParts g).foldl (fun s p => s.setFld (fPwrPartPactState p) paBroken) s
  { s1 with pwr := { s1.pwr with pacts := s1.pwr.pacts.filter (fun x => x.group != g) } }

end Sys2Proof.Machine
end

