-- ==== Sys2Proof/Machine/Route.lean ====
section
/-! DEFINITION. The routers: the next hop of a packet, detours, holds over a route change, the gateway map (R287–R299). -/

namespace Sys2Proof.Machine

/-- Rack index and cube position of a node ID (R25). -/
def rackOf (n : Node) : Nat := n.toNat / 64
def posOf (n : Node) : Nat := n.toNat % 64

/-- Number of racks of the hall. -/
def State.racks (s : State) : Nat := match s.img.cfg with
  | some c => c.racks
  | none => 0

/-- The module across a port (R28). -/
def nodeAcross (n : Node) (p : Nat) : Node := let q := cubePeer (rackOf n) (posOf n) p; BitVec.ofNat 12 (64 * q.1 + q.2)

/-- What the routes of a module depend on: the working ports as a mask, the gateway map, and the image's racks and detour tables
(R33, R291, R294). -/
structure RouteView where
  node : Node
  racks : Nat
  ports : Nat
  gw : List Word
  locals : List (BitVec 32)
  globals : List (BitVec 32)
  deriving DecidableEq, Repr

/-- Ports that work: UP_SEALED and admitted to routing (R291). -/
def State.workingPorts (s : State) : Nat :=
  s.fld fRtePortsRouted &&& (((List.range 32).filter (fun p => s.fld (fLnkPortStateState p) == stSealed)).map (2 ^ ·)).foldl (· + ·) 0

/-- The view now. -/
def State.routeView (s : State) : RouteView :=
  { node := s.node, racks := s.racks, ports := s.workingPorts, gw := (List.range 7).map (fun k => s.reg (rRteGw k))
    locals := (s.img.cfg.map (·.localMask)).getD [], globals := (s.img.cfg.map (·.globalMask)).getD [] }

/-- The view before a route change (R298). -/
def RouteView.before (v : RouteView) (c : Nat × Nat × List Word) : RouteView := { v with ports := c.2.1, gw := c.2.2 }

/-- Does a port work? -/
def RouteView.up (v : RouteView) (p : Nat) : Bool := bitOf v.ports p

/-- Working ports of a dimension or of the fold, in ascending order (R252). -/
def RouteView.portsOf (v : RouteView) (d : Nat) : List Nat := (List.range 28).filter (fun p => portClass p == d && v.up p)

/-- Positions in a rack that serve global dimension k. -/
def RouteView.gateways (v : RouteView) (k : Nat) : List Nat := (List.range 64).filter (fun q => (v.gw.getD k 0#64).getLsbD q)

/-- Number of ones of a six-bit position or rack number. -/
def ones (n : Nat) : Nat := ((List.range 6).filter (fun i => bitOf n i)).length

/-- The frame that a packet's flow takes (R293): of a request that of its address, of a reply that of its request. -/
def pktFrame (p : Pkt) : Nat := if classOf p.kind.toNat = some 1 then p.frame.toNat else frameOf (field p.body 0 8 % 2 ^ 52)

/-- The flow hash (R293): of a collective's packets, which a tunnelled edge sends by these routes, the flow is the group key. -/
def pktHash (p : Pkt) : Nat :=
  if classOf p.kind.toNat = some 2 then mix (field p.body 0 3 % 2 ^ 22) 0x9E3779B9
  else mix ((p.src.toNat * 2 ^ 20 ^^^ p.dst.toNat * 2 ^ 8 ^^^ pktFrame p % 2 ^ 32) % 2 ^ 32) 0x9E3779B9

/-- Entry h mod count of a list (R293). -/
def pick (h : Nat) (l : List Nat) : Option Nat := l[h % l.length]?

/-- gateway(k, p): the position that serves global dimension k (R293). -/
def RouteView.gateway (v : RouteView) (h k pos : Nat) : Option Nat :=
  let qs := v.gateways k
  let d := qs.foldl (fun m q => min m (ones (q ^^^ pos))) 7
  pick h (qs.filter (fun q => ones (q ^^^ pos) == d))

/-- What next_global chooses (R292): a global dimension by its gateways, a detour over one of this module's global ports, or none. -/
inductive GlobalHop where
  | dim (k : Nat)
  | detour (port : Nat)
  | none
  deriving DecidableEq, Repr

/-- The ports that a detour mask names (R33). -/
def maskPorts (m : BitVec 32) : List Nat := (List.range 32).filter (fun p => m.getLsbD p)

/-- next_global(rack(here), rack(dst)) (R292). -/
def RouteView.nextGlobal (v : RouteView) (h : Nat) (dst : Node) : GlobalHop :=
  let r := rackOf v.node
  let delta := r ^^^ rackOf dst
  let served (k : Nat) : Bool := decide (rackAcross r k < v.racks) && !(v.gateways k).isEmpty
  if ones delta > 3 ∧ served 6 then .dim 6
  else match (List.range 6).find? (fun k => bitOf delta k && served k) with
    | some k => .dim k
    | none =>
      let named := maskPorts (v.globals.getD (rackOf dst) 0#32)
      let open_ := named.filter (fun p => v.up p && decide (p ≥ 28) && decide (rackAcross r (globalDim (posOf v.node) (p - 28)) < v.racks))
      match pick h open_ with
      | some p => .detour p
      | none => .none

/-- The next hop of a packet: a port with the header it leaves with and whether it is a detour, this module, or none (R291). -/
inductive Hop where
  | port (p : Nat) (pkt : Pkt) (detour : Bool)
  | here
  | unreachable
  deriving DecidableEq, Repr

/-- A hop on a global port: the next stage, phase A (R291). -/
def globalHop (p : Pkt) (port : Option Nat) (detour : Bool) : Hop :=
  match port with
  | none => .unreachable
  | some q => if p.stage.val = 6 then .unreachable
    else .port q { p with stage := Fin.ofNat 8 (p.stage.val + 1), phase := 0, last := 7 } detour

/-- The module's global port of dimension k, where it works. -/
def RouteView.globalPort (v : RouteView) (k : Nat) : Option Nat :=
  ((List.range 4).map (28 + ·)).find? (fun q => globalDim (posOf v.node) (q - 28) == k && v.up q)

/-- A local hop towards position t of this rack (R291). -/
def RouteView.localHop (v : RouteView) (h t : Nat) (p : Pkt) : Hop :=
  let need := posOf v.node ^^^ t
  if p.phase.val = 0 ∧ p.last.val = 7 ∧ ones need > 3 ∧ v.portsOf 6 ≠ [] then
    match pick h (v.portsOf 6) with
    | some q => .port q { p with last := 6, adv := true } false
    | none => .unreachable
  else
    let d := ((List.range 6).find? (fun i => bitOf need i)).getD 0
    match pick h (v.portsOf d) with
    | some q => .port q { p with last := Fin.ofNat 8 d } false
    | none =>
      if p.phase.val = 2 then .unreachable
      else
        let named := (maskPorts (v.locals.getD t 0#32)).filter v.up
        let above (e : Nat) : Bool := p.last.val == 7 || decide (e > p.last.val)
        match (List.range 7).find? (fun e => above e && named.any (fun q => portClass q == e)) with
        | none => .unreachable
        | some e => match pick h (named.filter (fun q => portClass q == e)) with
          | some q => .port q { p with last := Fin.ofNat 8 e, adv := true } true
          | none => .unreachable

/-- next_hop(here, dst, hdr) (R291). -/
def RouteView.nextHop (v : RouteView) (p0 : Pkt) : Hop :=
  if p0.dst = v.node then .here
  else
    let p : Pkt := if p0.adv then { p0 with phase := Fin.ofNat 4 (p0.phase.val + 1), last := 7, adv := false } else p0
    let h := pktHash p
    if rackOf v.node = rackOf p.dst then v.localHop h (posOf p.dst) p
    else match v.nextGlobal h p.dst with
      | .none => .unreachable
      | .detour q => globalHop p (some q) true
      | .dim k => match v.gateway h k (posOf v.node) with
        | none => .unreachable
        | some t => if t = posOf v.node then globalHop p (v.globalPort k) false else v.localHop h t p

/-- The port that a hop takes. -/
def Hop.portOf : Hop → Option Nat
  | .port p _ _ => some p
  | _ => none

/-! ### Buffers (R289) -/

/-- The virtual channel that a packet takes on a port (R289): a collective one DOWN from the root (65), else UP (64), a COLL_CTRL packet too, which
says no direction (log entry 122); a request or reply L(stage, phase) on a local port, G(stage) on a global one. -/
def pktChannel (p : Pkt) (port : Nat) : Nat :=
  if pktClass p = 2 then (if p.kind = 0x21#8 then 65 else 64)
  else if port < 28 then p.stage.val * 4 + p.phase.val else 32 + p.stage.val

/-- Channels of the flits of a class that are queued on a port. -/
def PortSt.channels (x : PortSt) (port cls : Nat) : List Nat :=
  x.txq.filterMap (fun f => match f with
    | .pkt q _ _ => if pktClass q = cls then some (pktChannel q port) else none
    | .ctl _ => none)

/-- Flits that channels hold beyond the two reserved for each (R289). -/
def poolUse (l : List Nat) : Nat := (l.eraseDups.map (fun c => l.count c - 2)).foldl (· + ·) 0

/-- Has a port room for a packet: in the reserve of its channel and the class's pool of 256 flits, with none of its channel waiting
(R289)? -/
def PortSt.room (x : PortSt) (port : Nat) (p : Pkt) : Bool :=
  !x.blocked.any (fun b => pktClass b.1 == pktClass p && pktChannel b.1 port == pktChannel p port)
  && decide (poolUse (x.channels port (pktClass p) ++ List.replicate (p.len.val + 1) (pktChannel p port)) ≤ 256)

/-- The flits of a packet. -/
def pktFlits (p back : Pkt) : List LFlit := (List.range (p.len.val + 1)).map (fun i => .pkt p back i)

/-- A packet takes its place in a port's buffers, or waits for one. -/
def PortSt.take (x : PortSt) (port : Nat) (p back : Pkt) : PortSt :=
  if x.room port p then { x with txq := x.txq ++ pktFlits p back } else { x with blocked := x.blocked ++ [(p, back)] }

/-- The channel of an express flit (R289): DOWN for one that goes down a tree, else UP. -/
def XFlit.channel (f : XFlit) : Nat := if field f.content 2 1 / 64 = 1 then 65 else 64

/-- An express flit takes its place on a port. One that a forwarder passes on needs room as a packet does (R289); one sent here waits at its
source, for credits (R305). -/
def PortSt.xtake (x : PortSt) (f : XFlit) : PortSt :=
  let held := (x.xq.filter (·.fwd)).map XFlit.channel
  if f.fwd && (x.xwait.any (fun g => g.channel == f.channel) || decide (poolUse (held ++ [f.channel]) > 256)) then
    { x with xwait := x.xwait ++ [f] }
  else { x with xq := x.xq ++ [f] }

/-- Packets and express flits that waited move into buffers that have become free, in order. -/
def PortSt.unblock (x : PortSt) (port : Nat) : PortSt :=
  let y : PortSt := x.blocked.foldl (fun (y : PortSt) b => y.take port b.1 b.2) { x with blocked := [] }
  y.xwait.foldl PortSt.xtake { y with xwait := [] }

/-! ### Credits of trees (R305) -/

/-- Flits that a tree input's buffer holds: the credits of a group on a port. -/
def treeCredits : Nat := 16

/-- Credits of a group in use on a port. -/
def PortSt.usedCredits (x : PortSt) (key : Nat) : Nat := (lookupKey x.credits key).getD 0

/-- So many more are in use, or come back. -/
def PortSt.spend (x : PortSt) (key n : Nat) : PortSt := { x with credits := insertKey x.credits key (x.usedCredits key + n) }
def PortSt.refund (x : PortSt) (key n : Nat) : PortSt := { x with credits := insertKey x.credits key (x.usedCredits key - n) }

/-- The next of several groups after the one served last, in rising order round. -/
def nextAfter (last : Nat) (l : List Nat) : Option Nat :=
  match (l.filter (· > last)).foldl (fun m k => some (min k (m.getD k))) none with
  | some k => some k
  | none => l.foldl (fun m k => some (min k (m.getD k))) none

/-- The collective packet of this module that goes next, round-robin among the groups whose credits cover their next packet, and the port without
it. DEDUCED: a group is served by whole packets, since a slot can only continue the packet before it (R260, log entry 101). -/
def PortSt.nextTree (x : PortSt) : Option (Pkt × PortSt) :=
  let first (k : Nat) : Option Pkt := (x.tq.find? (fun t => t.1 == k)).map (·.2)
  let ready := (x.tq.map (·.1)).eraseDups.filter (fun k => (first k).any (fun q => decide (x.usedCredits k + q.len.val + 1 ≤ treeCredits)))
  (nextAfter x.served ready).bind (fun k => (first k).map (fun q =>
    (q, { (x.spend k (q.len.val + 1)) with tq := x.tq.eraseIdx ((x.tq.map (·.1)).idxOf k), served := k })))

/-- The express flit that goes next: one of no group, else flit by flit round-robin among the groups with credits, or with a flit under
another's (R264, R305); and the port without it. -/
def PortSt.nextExpress (x : PortSt) : Option (XFlit × PortSt) :=
  let may (k : Nat) : Bool := (x.xq.find? (fun f => f.group == some k)).any (fun f => f.fwd || decide (x.usedCredits k + 1 ≤ treeCredits))
  let g : Option (Option Nat) := if x.xq.any (·.group.isNone) then some none
    else (nextAfter x.xserved ((x.xq.filterMap (·.group)).eraseDups.filter may)).map some
  g.bind (fun k =>
    let i := (x.xq.map (·.group)).idxOf k
    (x.xq[i]?).map (fun f =>
      let y : PortSt := match k with
        | some n => { (if f.fwd then x else x.spend n 1) with xserved := n }
        | none => x
      (f, { y with xq := x.xq.eraseIdx i })))

/-! ### Forwarding (R288, R297, R298) -/

/-- Packet kinds that a router knows (R288). -/
def knownKind (k : Nat) : Bool := (classOf k).isSome

/-- Queue a link-control flit on a port (R279): type 0x01, the code, the parameters. -/
def ctlFlit (code : Nat) (params : List Byte) : LFlit := .ctl ((0x01#8 :: BitVec.ofNat 8 code :: params ++ List.replicate 64 0#8).take 64)
def State.sendCtl (s : State) (p code : Nat) (params : List Byte) : State :=
  s.modPort p (fun x => { x with txq := x.txq ++ [ctlFlit code params] })

/-- The router that a packet comes to (R251, R376): 1 on H1 for one of its ports; DESIGN CHOICE: a packet of this module comes to the one on H0
(log entry 122). -/
def routerOf (from_ : Option Nat) : Nat := ofBool (from_.any (· ≥ 16))

/-- Put a packet on its way: onto a port, or to this module. -/
def State.takeHop (s : State) (h : Hop) (p : Pkt) (from_ : Option Nat) : State :=
  match h with
  | .here => s.emit (.forward none p)
  | .port q pkt detour =>
    let s1 := (s.emit (.forward (some q) pkt)).modPort q (fun x => x.take q pkt p)
    if detour then s1.bump fRteErrDetours 1 else s1
  | .unreachable =>
    let s1 := s.bump fRteErrUnreachable 1
    if pktClass p = 0 ∧ !p.tunnel then
      let s2 := s1.log { code := 0x0404, kind := 8, unit := routerOf from_, action := 0, detail := leBytes 2 p.dst.toNat }
      s2.sendPkt 0x1B p.src (pktFrame p) (replyBody (field p.body 12 4) 7 []) []
    else s1

/-- Would a packet's next hop have been another before a change in force (R298)? -/
def State.moved (s : State) (p : Pkt) : Bool :=
  s.rte.changes.any (fun c => (((s.routeView.before c).nextHop p).portOf != (s.routeView.nextHop p).portOf))

/-- Route a packet: while a route change is fresh, one whose next hop differs from the one before it is held. -/
def State.routePacket (s : State) (p : Pkt) (from_ : Option Nat) : State :=
  if s.moved p then { s with rte := { s.rte with held := s.rte.held ++ [(p, from_)] } } else s.takeHop (s.routeView.nextHop p) p from_

/-- Has a packet reached the age of 64 µs (R298)? -/
def State.aged (s : State) (p : Pkt) : Bool := decide ((s.usNow + 256 - p.stamp.toNat) % 256 ≥ 64)

/-- ROUTER_FORWARD: a packet reaches this module's router from a port, or from this module (R288, R291, R297, R298). -/
def execRouterForward (p : Pkt) (fromPort : Option Port) (s : State) : Host.Outcome State Fault Refusal :=
  .next (
    if !knownKind p.kind.toNat then s.log { code := 0x0405, kind := 8, unit := routerOf (fromPort.map Fin.val), detail := leBytes 1 p.kind.toNat }
    else match fromPort with
      | none => s.routePacket { p with stamp := BitVec.ofNat 8 s.usNow, stage := 0, phase := 0, last := 7, adv := false } none
      | some q => if s.aged p then s.bump fRteErrAged 1 else s.routePacket p (some q.val))

/-- HOLD_RELEASE: 64 µs after a route change the packets held for it leave, with the current fabric time as stamp; those that another
change still holds wait on (R298). -/
def execHoldRelease (s : State) : Host.Outcome State Fault Refusal :=
  .next (
    let l := s.rte.held
    let s1 : State := { s with rte := { s.rte with held := [], changes := s.rte.changes.drop 1 } }
    l.foldl (fun s x => s.routePacket { x.1 with stamp := BitVec.ofNat 8 s.usNow } x.2) s1)

/-- A packet that a failed port hands back is sent at once, ahead of held and later ones, unless its age has reached 64 µs (R278,
R298). -/
def State.resendPacket (s : State) (port : Nat) (p : Pkt) : State :=
  if s.aged p then s.bump fRteErrAged 1 else s.takeHop (s.routeView.nextHop p) p (some port)

/-! ### Route changes (R294, R298, R307) -/

/-- Note that working ports or the gateway map change from what `old` has (R298). -/
def State.routeChanged (s : State) (old : RouteView) : State :=
  if s.routeView = old then s
  else
    ({ s with rte := { s.rte with changes := s.rte.changes ++ [(s.fabTime, old.ports, old.gw)] } }).bump fRteErrChanges 1

/-- Does an edge of a tree over this port still have a working port (R307)? -/
def State.edgeUp (s : State) (p : Nat) : Bool :=
  if p < 28 then (s.routeView.portsOf (portClass p)) != [] else s.routeView.up p

/-- Members of this module whose tree has an edge without a working port are tunnelled (R307). -/
def State.showTunnels (s : State) : State :=
  s.grp.trees.foldl (fun s t => match t.member with
    | some n =>
      let edges := t.children ++ (match t.parent with
        | some p => [p]
        | none => [])
      if edges.all s.edgeUp then s else s.setFld (fGrpGStateTunnelled n) 1
    | none => s) s

/-- Which global dimensions of this module's own ports work, as a ROUTE_UPDATE carries them. -/
def State.ownWorks (s : State) : List Bool := (List.range 7).map (fun k => (s.routeView.globalPort k).isSome)

/-- Set the bits of a position in the gateway map. -/
def State.setGateways (s : State) (pos : Nat) (works : List Bool) : State :=
  works.zipIdx.foldl (fun s w =>
    s.setReg (rRteGw w.2) (if w.1 then s.reg (rRteGw w.2) ||| (1#64 <<< pos) else s.reg (rRteGw w.2) &&& ~~~(1#64 <<< pos))) s

/-- Data of a ROUTE_UPDATE: position, generation and the dimensions that work (log entry 99). -/
def updateData (pos gen : Nat) (works : List Bool) : List Byte :=
  leBytes 1 pos ++ leBytes 2 gen ++ leBytes 1 ((works.zipIdx.map (fun w => ofBool w.1 * 2 ^ w.2)).foldl (· + ·) 0)

/-- Send a ROUTE_UPDATE on the working local ports but one, each to the module across, with the rank of its hop (R287, R288, R294). -/
def State.flood (s : State) (but : Option Nat) (data : List Byte) : State :=
  ((List.range 28).filter (fun p => s.routeView.up p && but != some p)).foldl (fun s p =>
    let pkt := { s.mkPkt 0x30 (nodeAcross s.node p) 0 (requestBody 0 0 0 0 0 data) with last := Fin.ofNat 8 (portClass p) }
    (s.emit (.forward (some p) pkt)).modPort p (fun x => x.take p pkt pkt)) s

/-- A global port of this module changed state: the gateway map follows and the rack hears of it (R294). -/
def State.floodOwn (s : State) : State :=
  let g := (s.rte.gen + 1) % 2 ^ 16
  let s1 : State := (s.setGateways (posOf s.node) s.ownWorks)
  ({ s1 with rte := { s1.rte with gen := g } }).flood none (updateData (posOf s.node) g s.ownWorks)

/-- The port that carries the flits of a tree edge now: its own, else another of the dimension or fold (R303, R307). -/
def State.edgePort (s : State) (p : Nat) : Option Nat :=
  if s.routeView.up p then some p else if p < 28 then (s.routeView.portsOf (portClass p)).head? else none

/-- Ports of a tree at this module. -/
def Tree.ports (t : Tree) : List Nat := t.children ++ t.parent.toList

/-- The tree edge that a port belongs to, by the edge's own port: itself, or one of its dimension or fold (R303, R307). -/
def Tree.edgeOn (t : Tree) (p : Nat) : Nat :=
  if t.ports.contains p then p
  else (t.ports.find? (fun q => decide (q < 28) && decide (p < 28) && portClass q == portClass p)).getD p

/-- A forwarder (R304): no member here, and one child. -/
def Tree.forwards (t : Tree) : Bool := t.member.isNone && t.children.length == 1

/-- The edge on which a forwarder passes on what comes on another. -/
def Tree.across (t : Tree) (port : Nat) : Option Nat := if t.children.contains port then t.parent else t.children.head?

/-- A packet of a group on a tunnelled edge: a request packet to the module across (R307). -/
def State.tunnelPkt (s : State) (port : Nat) (p : Pkt) : State :=
  s.routePacket { p with tunnel := true, dst := nodeAcross s.node port, stamp := BitVec.ofNat 8 s.usNow } none

/-- An express flit on a tunnelled edge: a packet of its kind; its key's upper bits say whether it goes up, down or is control (R307, R325). -/
def State.tunnelFlit (s : State) (port : Nat) (x : XFlit) : State :=
  if x.group.isNone then s
  else s.tunnelPkt port (s.mkPkt (0x20 + min 2 (field x.content 2 1 / 64)) (nodeAcross s.node port) 0 x.content)

/-- What waits on the own port of a tunnelled edge leaves as far as credits cover it (R305, R307). -/
def State.tunnelOut (port : Nat) : Nat → State → State
  | 0, s => s
  | f + 1, s => match (s.portSt port).nextExpress, (s.portSt port).nextTree with
    | some (x, y), _ => State.tunnelOut port f ((s.modPort port (fun _ => y)).tunnelFlit port x)
    | none, some (q, y) => State.tunnelOut port f ((s.modPort port (fun _ => y)).tunnelPkt port q)
    | none, none => s

/-- The same, where the edge is tunnelled. -/
def State.tunnelled (s : State) (port : Nat) : State :=
  if (s.edgePort port).isNone then State.tunnelOut port ((s.portSt port).xq.length + (s.portSt port).tq.length) s else s

/-- A packet of a group leaves this module on a tree edge, under its credits (R305). -/
def State.treePacket (s : State) (port key : Nat) (p : Pkt) : State :=
  (s.modPort ((s.edgePort port).getD port) (fun x => { x with tq := x.tq ++ [(key, p)] })).tunnelled port

/-- One that a forwarder passes on, or that comes back from a failed port, goes under the credits that it has (R305, R307). -/
def State.passPacket (s : State) (port : Nat) (p : Pkt) : State :=
  match s.edgePort port with
  | some q => s.modPort q (fun x => x.take q p p)
  | none => s.tunnelPkt port p

/-- An express flit goes out on a tree edge. -/
def State.treeFlit (s : State) (port : Nat) (x : XFlit) : State :=
  match s.edgePort port with
  | some q => (s.emit (.flit q x.content)).modPort q (·.xtake x)
  | none => if x.fwd then s.tunnelFlit port x else (s.modPort port (·.xtake x)).tunnelled port

/-- Credits of a group come back on a port (R305): a forwarder hands them on to the edge that its flits come from. -/
def State.creditIn (s : State) (p : Nat) (c : BitVec 22 × Fin 17) : State :=
  let key := c.1.toNat
  match s.grp.trees.find? (fun t => t.key == key) with
  | none => s.modPort p (·.refund key c.2)
  | some t =>
    let q := t.edgeOn p
    if t.forwards then match t.across q with
      | some r => s.emit (.credit r key c.2)
      | none => s
    else (s.modPort ((s.edgePort q).getD q) (·.refund key c.2)).tunnelled q

/-- What a tree edge has waiting on one port, and its credits in use, move to another (R305, R307), for the groups named. -/
def State.moveEdge (s : State) (a b : Nat) (keys : Nat → Bool) : State :=
  let x := s.portSt a
  let mine (f : XFlit) : Bool := f.group.any keys
  if a = b then s
  else (s.modPort a (fun x => { x with
    tq := x.tq.filter (fun t => !keys t.1), xq := x.xq.filter (fun f => !mine f), xwait := x.xwait.filter (fun f => !mine f)
    credits := x.credits.filter (fun c => !keys c.1) })).modPort b (fun y =>
      (x.credits.filter (fun c => keys c.1)).foldl (fun (y : PortSt) c => y.spend c.1 c.2)
        { y with tq := y.tq ++ x.tq.filter (fun t => keys t.1), xq := y.xq ++ x.xq.filter mine, xwait := y.xwait ++ x.xwait.filter mine })

/-- After a change of a port's admission: the route change, the flood for a global port, the tunnelled trees. -/
def State.portChanged (s : State) (old : RouteView) (p : Nat) : State :=
  let s1 := if p ≥ 28 ∧ s.bit fRteStateJoined then s.floodOwn else s
  (s1.routeChanged old).showTunnels

/-- A joined module admits a port that is UP_SEALED (R331); the traffic of the tree edges that are its own comes back to it (R307). -/
def State.admitPort (s : State) (p : Nat) : State :=
  if s.bit fRteStateJoined then
    ((s.setFld fRtePortsRouted (s.fld fRtePortsRouted ||| 2 ^ p)).portChanged s.routeView p).moveEdge ((s.edgePort p).getD p) p
      (fun k => s.grp.trees.any (fun t => t.key == k && t.ports.contains p))
  else s

/-- Ports UP_SEALED. -/
def State.sealedPorts (s : State) : List Nat := (List.range 32).filter (fun p => s.fld (fLnkPortStateState p) == stSealed)

/-- JOIN completes (R331, R332): the module is joined, its own bits of the gateway map are those of the ports that still work, and ports
sealed meanwhile are admitted too. -/
def State.joinEnd (s : State) : State :=
  let s1 := s.setFld fRteStateJoined 1
  let s2 := if (s1.setGateways (posOf s1.node) s1.ownWorks).routeView = s1.routeView then s1 else s1.floodOwn
  (s.sealedPorts.filter (fun p => !bitOf (s.fld fRtePortsRouted) p)).foldl State.admitPort s2

/-- Is generation a newer than b, of 16 bits? -/
def newer16 (a b : Nat) : Bool := decide ((a + 2 ^ 16 - b) % 2 ^ 16 ≠ 0 ∧ (a + 2 ^ 16 - b) % 2 ^ 16 < 2 ^ 15)

/-- ROUTE_UPDATE: applied and forwarded once; an older one is discarded (R294). -/
def execRouteUpdate (m : RouteMsg) (s : State) : Host.Outcome State Fault Refusal :=
  .next (
    let pos := m.pos.toNat
    let stale := (lookupKey s.rte.updates pos).any (fun g => !newer16 m.gen.toNat g)
    if pos = posOf s.node ∨ stale then s
    else
      let v := s.routeView
      let s1 : State := { s with rte := { s.rte with updates := insertKey s.rte.updates pos m.gen.toNat } }
      ((s1.setGateways pos (m.works.take 7)).routeChanged v).flood (some m.arrived.val)
        (updateData pos m.gen.toNat m.works))

end Sys2Proof.Machine
end

