-- ==== Sys2Proof/Machine/Groups.lean ====
section
/-! DEFINITION. Groups and their trees (R301–R308, R333, R334). -/

namespace Sys2Proof.Machine

/-- Local numbers of a partition (R300): the first and the count. -/
def State.groupRange (s : State) (p : Nat) : Nat × Nat :=
  match s.img.cfg with
  | some c => (((c.parts.take p).map (·.groupIds)).foldl (· + ·) 0, (c.parts[p]?.map (·.groupIds)).getD 0)
  | none => (0, 0)

/-- Group states and reasons of R333. -/
def gFree : Nat := 0
def gForming : Nat := 1
def gReady : Nat := 2
def gBroken : Nat := 3
def grNoMember : Nat := 1
def grTag : Nat := 2
def grNoSlots : Nat := 3
def grQuota : Nat := 4
def grFetch : Nat := 5
def grDuplicate : Nat := 6
def grTimeout : Nat := 7
def grPeerLeft : Nat := 8

/-- Change a context's use of groups, and its over mark (R84, R306). -/
def State.setGroupUse (s : State) (c n : Nat) : State :=
  (s.setFld (fCtxQgroupsUse c) n).setFld (fCtxQgroupsOver c) (ofBool (decide (n > s.fld (fCtxQgroupsLimit c))))

/-- A local number returns to FREE with a reason, and its context's charge is released (R302, R308). -/
def State.freeGroup (s : State) (n reason : Nat) : State :=
  let c := s.fld (fGrpGStatContext n)
  let s1 := s.setGroupUse c (s.fld (fCtxQgroupsUse c) - 1)
  let s2 := ((s1.setReg (rGrpGState n) 0#64).setFld (fGrpGStateReason n) reason).setReg (rGrpGStat n) 0#64
  let s3 := ((s2.setReg (rGrpGQbase n) 0#64).setReg (rGrpGQcfg n) 0#64).setReg (rGrpGQstate n) 0#64
  { s3 with
    grp := { s3.grp with forming := eraseKey s3.grp.forming n, inflight := eraseKey s3.grp.inflight n, led := eraseKey s3.grp.led n
                         early := eraseKey s3.grp.early n }
    que := { s3.que with comm := eraseKey s3.que.comm n } }

/-- The tree of a group at this module. -/
def State.treeOf (s : State) (key : Nat) : Option Tree := s.grp.trees.find? (fun t => t.key == key)

/-- Take a tree out; its reduction context returns to its store (R304). -/
def State.dropTree (s : State) (key : Nat) : State :=
  match s.treeOf key with
  | none => s
  | some t =>
    let s1 := { s with grp := { s.grp with
      trees := s.grp.trees.filter (fun u => u.key != key), gathers := s.grp.gathers.filter (fun g => g.key != key)
      arriving := s.grp.arriving.filter (fun g => g.key != key) } }
    let back (s : State) (free transit : Fld) : State :=
      let s := s.setFld free (s.fld free + 1)
      if t.store.isNone then s.setFld transit (s.fld transit + 1) else s
    if t.hub = 1 then back s1 fGrpSlotsFreeH0 fGrpSlotsTransitH0
    else if t.hub = 2 then back s1 fGrpSlotsFreeH1 fGrpSlotsTransitH1 else s1

/-- Write GRP.CMD.result. -/
def State.grpResult (s : State) (code : Nat) : State := s.setFld fGrpCmdResult code

/-- Group key of a leader's node and number (R301). -/
def groupKey (node n : Nat) : Nat := node * 1024 + n

/-- Number of a step of formation in a GROUP_SETUP packet (log entry 99). -/
def stepCode : SetupStep → Nat
  | .joined => 0
  | .check => 1
  | .answer => 2
  | .commit => 3
  | .fail => 4
  | .left => 5

/-- Data of a GROUP_SETUP packet: step, key, rank, member, size, parent, depth, reason, children (log entry 99). -/
def setupData (m : SetupMsg) : List Byte :=
  leBytes 1 (stepCode m.step) ++ leBytes 3 m.key.toNat ++ leBytes 2 m.rank.toNat
  ++ leBytes 1 (match m.member with
    | some c => 128 + c.val
    | none => 0)
  ++ leBytes 2 m.members.toNat
  ++ leBytes 1 (match m.parent with
    | some p => p.val
    | none => 255)
  ++ leBytes 1 m.depth.val ++ leBytes 1 m.reason.val ++ leBytes 4 (maskOf (m.children.map Fin.val))

/-- A GROUP_SETUP packet of this module that says no more than its step. -/
def State.setupMsg (s : State) (step : SetupStep) (key reason : Nat) : SetupMsg :=
  { step := step, key := BitVec.ofNat 22 key, sender := s.node, member := none, members := 0#13, rank := 0#12, tag := 0#16, parent := none
    children := [], depth := 0, reason := Fin.ofNat 16 reason }

/-- Send a GROUP_SETUP packet to a module (R288, R302). -/
def State.sendSetup (s : State) (node : Nat) (m : SetupMsg) : State :=
  s.sendPkt 0x31 (BitVec.ofNat 12 node) 0 (requestBody 0 m.tag.toNat (match m.member with
    | some c => c.val
    | none => 0) 0 0 (setupData m)) []

/-- Send one to several modules. -/
def State.sendSetups (s : State) (nodes : List Nat) (m : SetupMsg) : State := nodes.foldl (fun s n => s.sendSetup n m) s

/-- Entries of a rank map (R301): node and context. -/
def mapEntries (b : List Byte) (n : Nat) : List (Nat × Nat) :=
  (List.range n).map (fun i => let v := field b (4 * i) 4; (bitsOf v 11 0, bitsOf v 22 16))

/-! ### Reduction contexts and tree tables (R304) -/

/-- The hub that takes a group's reduction context: the one with more of its tree ports, H0 on a tie (R251, R304). -/
def hubOf (ports : List Nat) : Nat :=
  if (ports.filter (· ≥ 16)).length > (ports.filter (· < 16)).length then 2 else 1

/-- Contexts free to a partition's reservation, or to transit, on a hub (R31, R304). -/
def State.slotsFree (s : State) (store : Option Nat) (hub : Nat) : Nat :=
  match store with
  | none => if hub = 1 then s.fld fGrpSlotsTransitH0 else s.fld fGrpSlotsTransitH1
  | some p =>
    let have_ := match (s.img.cfg.bind (fun c => c.parts[p]?)) with
      | some c => if hub = 1 then c.slotsH0 else c.slotsH1
      | none => 0
    have_ - (s.grp.trees.filter (fun t => t.hub == hub && t.store == some p)).length

/-- The hub a new context comes from; 0 where neither has one free. -/
def State.pickHub (s : State) (store : Option Nat) (ports : List Nat) : Nat :=
  let h := hubOf ports
  if s.slotsFree store h > 0 then h else if s.slotsFree store (3 - h) > 0 then 3 - h else 0

/-- Take a reduction context (R304). -/
def State.takeSlot (s : State) (store : Option Nat) (hub : Nat) : State :=
  let take (s : State) (free transit : Fld) : State :=
    let s := s.setFld free (s.fld free - 1)
    if store.isNone then s.setFld transit (s.fld transit - 1) else s
  if hub = 1 then take s fGrpSlotsFreeH0 fGrpSlotsTransitH0
  else if hub = 2 then take s fGrpSlotsFreeH1 fGrpSlotsTransitH1 else s

/-- Entries of a router's tree table (R304). -/
def tableSize : Nat := 4096

/-- Is a tree in the tree table of a hub's router: it has a port or its reduction context there (R251, R303)? -/
def Tree.onHub (t : Tree) (hub : Nat) : Bool := t.hub == hub || t.ports.any (fun p => (if p < 16 then 1 else 2) == hub)

/-- Has every router that a tree needs room in its table (R304)? -/
def State.tableRoom (s : State) (t : Tree) : Bool :=
  [1, 2].all (fun h => !t.onHub h || decide ((s.grp.trees.filter (fun u => u.onHub h)).length < tableSize))

/-- The FORMING number that a setup names here. -/
def State.formingFor (s : State) (key ctx : Nat) : Option Nat :=
  (s.grp.forming.find? (fun f => s.fld (fGrpGStateKey f.1) == key && s.fld (fGrpGStatContext f.1) == ctx)).map Prod.fst

/-- The number of this module's member of a group. -/
def State.memberFor (s : State) (key : Nat) : Option Nat :=
  (List.range 1024).find? (fun n => s.fld (fGrpGStateState n) != gFree && s.fld (fGrpGStateKey n) == key)

/-- This module checks and reserves its part of a tree (R302, R304): the reason of the first check that fails, or 0. A tree table without
room counts as no slot (log entry 102). -/
def State.reserve (s : State) (m : SetupMsg) : State × Nat :=
  let key := m.key.toNat
  let needs : Bool := match m.member with
    | some _ => !m.children.isEmpty
    | none => decide (m.children.length ≥ 2)
  let mem := m.member.bind (fun c => s.formingFor key c)
  let store := m.member.bind (fun c => s.partOf c)
  let parent := m.parent.map Fin.val
  let children := m.children.map Fin.val
  let hub := if needs then s.pickHub store (children ++ parent.toList) else 0
  let t : Tree := ⟨key, parent, children, hub, store, mem, false, 0⟩
  if m.member.isSome ∧ mem.isNone then (s, grNoMember)
  else if m.member.any (fun c => s.jobTag c != m.tag.toNat) then (s, grTag)
  else if (needs ∧ hub = 0) ∨ !s.tableRoom t then (s, grNoSlots)
  else if m.member.any (fun c => decide (s.fld (fCtxQgroupsUse c) > s.fld (fCtxQgroupsLimit c))) then (s, grQuota)
  else
    let s1 : State := { (s.takeSlot store hub) with grp := { s.grp with trees := s.grp.trees ++ [t] } }
    (match mem with
      | some n => s1.setFlds [(fGrpGStateHub n, hub), (fGrpGStateRank n, m.rank.toNat), (fGrpGStateMembers n, m.members.toNat),
          (fGrpGStatDepth n, m.depth)]
      | none => s1, 0)

/-- The leader commits: the group is READY here with its sequence at 0 (R302, R313, R333). -/
def State.setupCommit (s : State) (key : Nat) : State :=
  match s.treeOf key with
  | none => s
  | some t =>
    let s1 := { s with grp := { s.grp with
      trees := s.grp.trees.map (fun u => if u.key = key then { u with committed := true } else u) } }
    match t.member with
    | none => s1
    | some n =>
      let timeout := ((lookupKey s.grp.forming n).map (·.timeout)).getD 0
      ({ s1 with grp := { s1.grp with forming := eraseKey s1.grp.forming n } }).setFlds
        [(fGrpGStateState n, gReady), (fGrpGStateReason n, 0), (fGrpGStatSeq n, 0), (fGrpGQcfgTimeout n, timeout)]

/-- Formation failed, or a peer left (R302, R308): every reservation is released and a FORMING number returns to FREE with a reason; a
READY one becomes BROKEN. -/
def State.setupFail (s : State) (key formReason readyReason : Nat) : State :=
  match s.memberFor key with
  | none => s.dropTree key
  | some n =>
    if s.fld (fGrpGStateState n) = gForming then (s.dropTree key).freeGroup n formReason
    else if s.fld (fGrpGStateState n) = gReady then
      (s.setFlds [(fGrpGStateState n, gBroken), (fGrpGStateReason n, readyReason)]).pactsBroken n
    else s

/-! ### The tree (R303) -/

/-- A router's view as a leader knows it. -/
def routerView (racks : Nat) (r : RouterObs) : RouteView :=
  { node := r.node, racks := racks, ports := r.ports.toNat, gw := r.gw, locals := r.locals, globals := r.globals }

/-- The view of a module of which nothing else is known: every port that the hall gives it works, in its whole rack (log entry 102). -/
def plainView (racks : Nat) (n : Node) : RouteView :=
  let there (pos g : Nat) : Bool := decide (rackAcross (rackOf n) (globalDim pos g) < racks)
  { node := n, racks := racks
    ports := 2 ^ 28 - 1 + 2 ^ 28 * maskOf ((List.range 4).filter (there (posOf n)))
    gw := (List.range 7).map (fun k => BitVec.ofNat 64
      (maskOf ((List.range 64).filter (fun q => (List.range 4).any (fun g => globalDim q g == k && there q g)))))
    locals := [], globals := [] }

/-- The view that the leader takes for a module. -/
def State.viewOf (s : State) (views : List RouterObs) (n : Node) : RouteView :=
  if n = s.node then s.routeView
  else match views.find? (fun v => v.node == n) with
    | some v => routerView s.racks v
    | none => plainView s.racks n

/-- Follow the route of R291 from a module until it meets a module already on the tree, whose edges are listed as (module, port to its
parent); none where no route leads there. -/
def State.treeWalk (s : State) (views : List RouterObs) (edges : List (Nat × Nat)) : Nat → Pkt → Node → List (Nat × Nat) →
    Option (List (Nat × Nat))
  | 0, _, _, _ => none
  | f + 1, p, n, path =>
    if n = s.node ∨ edges.any (fun e => e.1 == n.toNat) then some (edges ++ path.reverse)
    else match (s.viewOf views n).nextHop p with
      | .port q p1 _ => s.treeWalk views edges f p1 (nodeAcross n q) ((n.toNat, q) :: path)
      | _ => none

/-- The most hops of a route: stages 0 to 6 of three phases of seven hops, and six global hops (R296). -/
def routeFuel : Nat := 160

/-- The edges of a group's tree, its members taken in rank order (R303). -/
def State.treeEdges (s : State) (views : List RouterObs) (key : Nat) (map : List (Nat × Nat)) : Option (List (Nat × Nat)) :=
  (map.drop 1).foldl (fun acc m => acc.bind (fun edges =>
    let p : Pkt := { s.mkPkt 0x20 s.node 0 (leBytes 3 key) with src := BitVec.ofNat 12 m.1 }
    s.treeWalk views edges routeFuel p (BitVec.ofNat 12 m.1) [])) (some [])

/-- Hops from a module to the root. -/
def hopsUp (edges : List (Nat × Nat)) : Nat → Nat → Nat
  | 0, _ => 0
  | f + 1, n => match edges.lookup n with
    | some q => 1 + hopsUp edges f (nodeAcross (BitVec.ofNat 12 n) q).toNat
    | none => 0

/-- The check that the leader sends to a module of the tree (R302, R303). -/
def State.partOfTree (s : State) (n key : Nat) (f : Forming) (edges : List (Nat × Nat)) (node : Nat) : SetupMsg :=
  let port (q : Nat) : Sys2Proof.Port := Fin.ofNat 32 q
  let ctx := s.fld (fGrpGStatContext n)
  { s.setupMsg .check key 0 with
    member := (f.map.lookup node).map (Fin.ofNat 128)
    members := BitVec.ofNat 13 f.members
    rank := BitVec.ofNat 12 ((f.map.map Prod.fst).idxOf node)
    tag := BitVec.ofNat 16 (s.jobTag ctx)
    parent := (edges.lookup node).map port
    children := (edges.filter (fun e => (nodeAcross (BitVec.ofNat 12 e.1) e.2).toNat == node)).map (fun e => port e.2)
    depth := Fin.ofNat 32 (min 31 ((f.map.map (fun m => hopsUp edges routeFuel m.1)).foldl max 0)) }

/-! ### The leader (R301, R302, R308) -/

/-- The modules of a group that this module leads or forms, itself left out. -/
def State.ledNodes (s : State) (n : Nat) : List Nat :=
  ((((lookupKey s.grp.forming n).map (fun f => f.map.map Prod.fst)).getD [] ++ (lookupKey s.grp.led n).getD []).eraseDups).filter
    (· != s.node.toNat)

/-- Formation fails at the leader: every reservation is released and each member returns to FREE, with the reason here and NO_MEMBER there
(R302). -/
def State.formFail (s : State) (n reason : Nat) : State :=
  let key := s.fld (fGrpGStateKey n)
  ((s.sendSetups (s.ledNodes n) (s.setupMsg .fail key reason)).dropTree key).freeGroup n reason

/-- The leader has met every JOIN: it builds the tree, reserves its own part and asks the modules of the tree (R302, R303). A member that no
route reaches fails the formation with NO_MEMBER (log entry 102). -/
def State.formTree (s : State) (n : Nat) (f : Forming) : State :=
  let key := s.fld (fGrpGStateKey n)
  match s.treeEdges f.views key f.map with
  | none => s.formFail n grNoMember
  | some edges =>
    let nodes := (edges.map Prod.fst).eraseDups
    let r := s.reserve (s.partOfTree n key f edges s.node.toNat)
    if r.2 ≠ 0 then r.1.formFail n r.2
    else
      let s1 : State := { r.1 with grp := { r.1.grp with
        forming := insertKey r.1.grp.forming n { f with asked := nodes }, led := insertKey r.1.grp.led n nodes } }
      nodes.foldl (fun s m => s.sendSetup m (s.partOfTree n key f edges m)) s1

/-- Has the leader met every JOIN, and not yet asked? -/
def Forming.ready (f : Forming) : Bool := f.leader && f.asked.isEmpty && (f.map.drop 1).all (fun m => f.met.contains m.1)

/-- Form the group if every JOIN has been met. -/
def State.tryForm (s : State) (n : Nat) : State :=
  match lookupKey s.grp.forming n with
  | some f => if f.ready then s.formTree n f else s
  | none => s

/-- A JOIN reaches the leader; one that comes before the CREATE is kept for it (R301, log entry 102). -/
def State.joinMet (s : State) (key node ctx : Nat) : State :=
  match (s.memberFor key).bind (fun n => (lookupKey s.grp.forming n).map (fun f => (n, f))) with
  | some (n, f) =>
    if f.leader then ({ s with grp := { s.grp with forming := insertKey s.grp.forming n { f with met := f.met ++ [node] } } }).tryForm n else s
  | none => { s with grp := { s.grp with joins := s.grp.joins ++ [(key, node, ctx)] } }

/-- A module answers the leader: the first failure ends the formation, the last success commits it (R302). -/
def State.answerIn (s : State) (key node reason : Nat) : State :=
  match (s.memberFor key).bind (fun n => (lookupKey s.grp.forming n).map (fun f => (n, f))) with
  | none => s
  | some (n, f) =>
    if !f.asked.contains node then s
    else if reason ≠ 0 then s.formFail n reason
    else
      let left := f.asked.filter (· != node)
      if left.isEmpty then (s.sendSetups (s.ledNodes n) (s.setupMsg .commit key 0)).setupCommit key
      else { s with grp := { s.grp with forming := insertKey s.grp.forming n { f with asked := left } } }

/-- A membership of this module ends: the leader tells every other module of the group, a member the leader (R308); one that is still
forming at the leader fails (R302). -/
def State.leaveGroup (s : State) (n : Nat) : State :=
  let key := s.fld (fGrpGStateKey n)
  let s1 :=
    if s.fld (fGrpGStateLeader n) = 1 then
      s.sendSetups (s.ledNodes n) (s.setupMsg (if s.fld (fGrpGStateState n) = gForming then .fail else .left) key grPeerLeft)
    else s.sendSetup (key / 1024) (s.setupMsg .left key grPeerLeft)
  (s1.dropTree key).freeGroup n 0

/-- A member has left (R308): the leader passes it on; the group is BROKEN here; where this module is no member and the leader left, its
part of the tree ends. -/
def State.peerLeft (s : State) (key node : Nat) : State :=
  let s1 := match s.memberFor key with
    | some n =>
      if s.fld (fGrpGStateLeader n) = 1 then s.sendSetups ((s.ledNodes n).filter (· != node)) (s.setupMsg .left key grPeerLeft) else s
    | none => s
  if (s.memberFor key).isNone ∧ node ≠ key / 1024 then s1 else s1.setupFail key grNoMember grPeerLeft

/-! ### Commands (R301, R308, R333, R334) -/

/-- GRP.CMD CREATE (R301, R302, R334): checks, the number starts FORMING and the leader reads the rank map. -/
def State.groupCreate (s : State) (v : Word) (far : FarReply) (views : List RouterObs) : State :=
  let ctx := getBits v fGrpCmdContext
  let n := getBits v fGrpCmdNumber
  let members := s.fld fGrpArg1Members
  let formMs := s.fld fGrpArg1FormMs
  match (if s.active ctx then s.partOf ctx else none) with
  | none => s.grpResult 1
  | some p =>
    let rg := s.groupRange p
    if !s.isOpen p then s.grpResult 1
    else if n < rg.1 ∨ n ≥ rg.1 + rg.2 ∨ members < 2 ∨ members > 4096 ∨ formMs < 1 ∨ formMs > 10000 then s.grpResult 2
    else if s.fld (fGrpGStateState n) ≠ gFree then s.grpResult 3
    else if s.fld (fCtxQgroupsUse ctx) + 1 > s.fld (fCtxQgroupsLimit ctx) then s.grpResult 4
    else if (s.gpaPieces ctx (s.reg rGrpArg0).toNat (4 * members) permRead).isNone then s.grpResult 7
    else
      let key := groupKey s.node.toNat n
      let s1 := (s.grpResult 0).setGroupUse ctx (s.fld (fCtxQgroupsUse ctx) + 1)
      let s2 := s1.setFlds [(fGrpGStateReason n, 0), (fGrpGStateTunnelled n, 0), (fGrpGStateLeader n, 1), (fGrpGStateState n, gForming),
        (fGrpGStateHub n, 0), (fGrpGStateRank n, 0), (fGrpGStateMembers n, members), (fGrpGStateKey n, key), (fGrpGStatContext n, ctx)]
      let r := s2.readRun ctx (s.reg rGrpArg0).toNat (4 * members) far
      let m := mapEntries r.2.2 members
      if r.2.1 ≠ 0 then r.1.freeGroup n grFetch
      else if (m.map Prod.fst).eraseDups.length ≠ members ∨ m.head? ≠ some (s.node.toNat, ctx) then r.1.freeGroup n grDuplicate
      else
        let met := (r.1.grp.joins.filter (fun j => j.1 == key)).map (fun j => j.2.1)
        let f : Forming := ⟨members, true, m, s.fld fGrpArg1Timeout, views, met, []⟩
        ({ r.1 with grp := { r.1.grp with
          forming := insertKey r.1.grp.forming n f, joins := r.1.grp.joins.filter (fun j => j.1 != key) } }).tryForm n

/-- GRP.CMD JOIN (R301, R334): the lowest free local number of the partition starts FORMING, and the leader hears of it. -/
def State.groupJoin (s : State) (v : Word) : State :=
  let ctx := getBits v fGrpCmdContext
  match (if s.active ctx then s.partOf ctx else none) with
  | none => s.grpResult 1
  | some p =>
    let rg := s.groupRange p
    if !s.isOpen p then s.grpResult 1
    else match ((List.range rg.2).map (rg.1 + ·)).find? (fun n => s.fld (fGrpGStateState n) == gFree) with
      | none => s.grpResult 3
      | some n =>
        if s.fld (fCtxQgroupsUse ctx) + 1 > s.fld (fCtxQgroupsLimit ctx) then s.grpResult 4
        else
          let key := (s.reg rGrpArg0).toNat % 2 ^ 22
          let s1 := ((s.grpResult 0).setFld fGrpCmdNumber n).setGroupUse ctx (s.fld (fCtxQgroupsUse ctx) + 1)
          let s2 := s1.setFlds [(fGrpGStateReason n, 0), (fGrpGStateTunnelled n, 0), (fGrpGStateLeader n, 0), (fGrpGStateState n, gForming),
            (fGrpGStateHub n, 0), (fGrpGStateRank n, 0), (fGrpGStateMembers n, 0), (fGrpGStateKey n, key), (fGrpGStatContext n, ctx)]
          let s3 : State := { s2 with grp := { s2.grp with
            forming := insertKey s2.grp.forming n ⟨0, false, [], s.fld fGrpArg1Timeout, [], [], []⟩ } }
          s3.sendSetup (key / 1024) { s3.setupMsg .joined key 0 with member := some (Fin.ofNat 128 ctx) }

/-- GRP.CMD DESTROY (R308, R334). -/
def State.groupDestroy (s : State) (v : Word) : State :=
  let ctx := getBits v fGrpCmdContext
  let n := getBits v fGrpCmdNumber
  if !s.active ctx ∨ !((s.partOf ctx).any s.isOpen) then s.grpResult 1
  else if s.fld (fGrpGStateState n) = gFree ∨ s.fld (fGrpGStatContext n) ≠ ctx then s.grpResult 6
  else if s.commOf n ≠ [] ∨ s.fld (fGrpGQstateHead n) ≠ s.fld (fGrpGQstateTail n) ∨ (lookupKey s.grp.inflight n).isSome then
    s.grpResult 5
  else (s.grpResult 0).leaveGroup n

/-- A host write of GRP.CMD (R333). -/
def State.grpCmdWrite (s : State) (v : Word) (far : FarReply) (views : List RouterObs) : State :=
  let s1 := s.writeUnder takesAll rGrpCmd v
  if getBits v fGrpCmdGo = 0 then s1
  else match getBits v fGrpCmdOp with
    | 1 => s1.groupCreate v far views
    | 2 => s1.groupJoin v
    | 3 => s1.groupDestroy v
    | _ => s1.grpResult 6

/-- GROUP_CREATE (R301). -/
def execGroupCreate (v : Word) (rankMap : FarReply) (views : List RouterObs) (s : State) : Host.Outcome State Fault Refusal :=
  .next (s.hostWrite rGrpCmd (withOp v fGrpCmdGo fGrpCmdOp 1) { HostObs.plain with far := rankMap, views := views }
    (fun s => s.grpCmdWrite (withOp v fGrpCmdGo fGrpCmdOp 1) rankMap views))

/-- GROUP_JOIN (R301). -/
def execGroupJoin (v : Word) (s : State) : Host.Outcome State Fault Refusal :=
  .next (s.hostWrite rGrpCmd (withOp v fGrpCmdGo fGrpCmdOp 2) HostObs.plain
    (fun s => s.grpCmdWrite (withOp v fGrpCmdGo fGrpCmdOp 2) FarReply.ok []))

/-- GROUP_DESTROY (R308). -/
def execGroupDestroy (v : Word) (s : State) : Host.Outcome State Fault Refusal :=
  .next (s.hostWrite rGrpCmd (withOp v fGrpCmdGo fGrpCmdOp 3) HostObs.plain
    (fun s => s.grpCmdWrite (withOp v fGrpCmdGo fGrpCmdOp 3) FarReply.ok []))

/-! ### Formation -/

/-- GROUP_SETUP: a setup packet reaches a member, a module of the tree or the leader (R301–R304, R308). -/
def execGroupSetup (m : SetupMsg) (s : State) : Host.Outcome State Fault Refusal :=
  .next (
    let key := m.key.toNat
    match m.step with
    | .joined => s.joinMet key m.sender.toNat (m.member.getD 0)
    | .check =>
      let r := s.reserve m
      r.1.sendSetup (key / 1024) { m with step := .answer, sender := s.node, reason := Fin.ofNat 16 r.2 }
    | .answer => s.answerIn key m.sender.toNat m.reason
    | .commit => s.setupCommit key
    | .fail => s.setupFail key grNoMember grPeerLeft
    | .left => s.peerLeft key m.sender.toNat)

/-- FORM_TIMEOUT: a FORMING group's timeout expires and it returns to FREE; the leader releases the other members (R301, R302). -/
def execFormTimeout (g : Grp) (s : State) : Host.Outcome State Fault Refusal :=
  .next (if s.fld (fGrpGStateState g) ≠ gForming then s
    else if s.fld (fGrpGStateLeader g) = 1 then s.formFail g grTimeout
    else (s.dropTree (s.fld (fGrpGStateKey g))).freeGroup g grTimeout)

end Sys2Proof.Machine
end

