-- ==== Sys2Proof/Machine/CollData.lean ====
section
/-! DEFINITION. What collectives compute on (R310–R316): descriptors, seals, digests, elements and their reduction. -/

namespace Sys2Proof.Machine

/-! ### Descriptors, seals, digests -/

/-- A collective descriptor (R310). -/
structure CDesc where
  tag : Nat
  op : Nat
  type : Nat
  redop : Nat
  quiet : Bool
  sat : Bool
  wait : Option Nat
  done : Option (Node × Nat)
  src : Word
  dst : Word
  count : Nat
  root : Nat
  anchor : Nat
  timeout : Nat
  reservedOk : Bool
  deriving DecidableEq, Repr

/-- The wait field of a descriptor (R175): object index. -/
def waitField (v : Nat) : Option Nat := if bitOf v 31 then some (bitsOf v 13 0) else none

/-- The done field of a descriptor (R175): node and object. -/
def doneField (v : Nat) : Option (Node × Nat) :=
  if bitOf v 31 then some (BitVec.ofNat 12 (bitsOf v 25 14), bitsOf v 13 0) else none

/-- Read a descriptor. -/
def CDesc.read (b : List Byte) : CDesc :=
  { tag := field b 0 4, op := field b 4 1, type := field b 5 1, redop := field b 6 1
    quiet := bitOf (field b 7 1) 0, sat := bitOf (field b 7 1) 1
    wait := waitField (field b 8 4), done := doneField (field b 12 4)
    src := BitVec.ofNat 64 (field b 16 8), dst := BitVec.ofNat 64 (field b 24 8), count := field b 32 4
    root := bitsOf (field b 36 2) 11 0, anchor := bitsOf (field b 38 2) 11 0, timeout := field b 40 4
    reservedOk := field b 7 1 < 4 && field b 44 20 == 0 && field b 36 2 < 4096 && field b 38 2 < 4096 }

/-- Bytes of an element of a type code; 0 for a code that is no type (R310). -/
def collBytes (t : Nat) : Nat :=
  match t with
  | 3 => 1
  | 4 => 1
  | 6 => 2
  | 7 => 2
  | 8 => 4
  | 9 => 4
  | 10 => 16
  | 16 => 8
  | _ => 0

/-- Bits of the float or integer type of a code. -/
def isIntType (t : Nat) : Bool := t == 9 || t == 16

/-- Is a redop allowed for a type (R311)? -/
def redopOk (redop t : Nat) : Bool :=
  match redop with
  | 0 => true
  | 1 => t != 10
  | 2 => t != 10
  | 3 => isIntType t
  | 4 => isIntType t
  | _ => false

/-- Elements that an op delivers at a member (R311). -/
def resultCount (op count n : Nat) : Nat := if op = 1 then count / n else if op = 3 then n * count else count

/-- Does a descriptor hold to R310 and R311 for a group of n, this member's rank being r? -/
def CDesc.wellFormed (d : CDesc) (n : Nat) : Bool :=
  d.reservedOk && decide (d.op ≤ 5)
  && (if d.op = 5 then d.count == 0 else collBytes d.type != 0 && decide (1 ≤ d.count ∧ d.count ≤ 2 ^ 26))
  && (if d.op ≤ 2 then redopOk d.redop d.type else true)
  && (if d.op = 1 then d.count % n == 0 else true)
  && (if d.op = 2 ∨ d.op = 4 then decide (d.root < n) else true)

/-- Does this member contribute, and does it receive (R311)? -/
def contributes (op root rank : Nat) : Bool := op != 5 && (op != 4 || root == rank)
def receives (op root rank : Nat) : Bool := op != 5 && (op != 2 || root == rank)

/-- The word w of R314. -/
def CDesc.word (d : CDesc) : Word :=
  BitVec.ofNat 64 (d.op + 2 ^ 8 * d.type + 2 ^ 16 * d.redop + 2 ^ 24 * d.anchor + 2 ^ 36 * d.root + 2 ^ 48 * ofBool d.sat)

/-- Fields of the word. -/
def wOp (w : Word) : Nat := bitsOf w.toNat 7 0
def wType (w : Word) : Nat := bitsOf w.toNat 15 8
def wRedop (w : Word) : Nat := bitsOf w.toNat 23 16
def wAnchor (w : Word) : Int := signed 12 (bitsOf w.toNat 35 24)
def wRoot (w : Word) : Nat := bitsOf w.toNat 47 36
def wSatF (w : Word) : Bool := bitOf w.toNat 48

/-- The descriptor seal (R314). -/
def dsealOf (key seq : Nat) (w : Word) (count : Nat) : Word :=
  srng (BitVec.ofNat 64 key) seq w.toNat ^^^ srng (BitVec.ofNat 64 key) (seq ^^^ 2 ^ 31) count

/-- The modulus of the digests (R316). -/
def digestP : Nat := 2 ^ 61 - 1

/-- Digest of numbered elements (R316). -/
def digestSum (key seq : Nat) (l : List (Nat × Int)) : Nat :=
  (l.map (fun p => (srng (BitVec.ofNat 64 key) seq p.1).toNat % digestP * (p.2 % (digestP : Int)).toNat)).foldl
    (fun a x => (a + x) % digestP) 0

/-- Is SUM the reduction? -/
def isSum (w : Word) : Bool := decide (wOp w ≤ 2) && wRedop w == 0

/-- Does the operation carry a digest (R316, R319)? -/
def hasDigest (w : Word) : Bool := isSum w || wOp w == 3 || wOp w == 4

/-- Does it end with a joint verdict instead (R319)? -/
def hasVerdict (w : Word) : Bool := decide (wOp w ≤ 2) && wRedop w != 0

/-! ### Elements -/

/-- Anchor of a reduction (R312): 64 for integers, else the descriptor's. -/
def redAnchor (w : Word) : Int := if isIntType (wType w) then 64 else wAnchor w

/-- An element's contribution to SUM (R312): value, flags, whether it lies outside the window, whether its record's anchor
differs. -/
def sumPartial (w : Word) (b : List Byte) : Int × Nat × Bool × Bool :=
  match wType w with
  | 9 => (signed 32 (fromLe b), 0, false, false)
  | 16 => (signed 64 (fromLe b), 0, false, false)
  | 10 => let r := Rec96.read b; (r.n, r.flags, !inWindow r.n, decide (r.e ≠ wAnchor w) || !Rec96.isRaw b)
  | t => match (elemOf t).decode (fromLe b) with
    | .fin neg m e => let n := enterWindow (wAnchor w) neg m e; (n, 0, leftAtEntry n, false)
    | x => (0, flagOf x, false, false)

/-- An element's partial for MAX, MIN, AND and OR: its value for integers, its bits for floats. -/
def plainPartial (w : Word) (b : List Byte) : Int :=
  match wType w with
  | 9 => signed 32 (fromLe b)
  | 16 => signed 64 (fromLe b)
  | _ => (fromLe b : Nat)

/-- The elements of a contribution. -/
def elemsOf (n : Nat) (b : List Byte) : List (List Byte) :=
  (List.range (b.length / max 1 n)).map (fun i => (b.drop (i * n)).take n)

/-- MAX or MIN of float bits of a type, as VMAX and VMIN (R146, R312). -/
def floatPick (t : Nat) (wantMax : Bool) (a b : Nat) : Nat :=
  let x := (elemOf t).decode a
  let y := (elemOf t).decode b
  if x.isNaN || y.isNaN then ((elemOf t).convert false false 0#64 .nan).bits
  else if x.below y = wantMax then b else a

/-- The number that an element digests (R316): integers and raw records by value, elements of a float SUM by the value they have in the window,
flags apart. Of a float in ALL_GATHER or BROADCAST, which is not converted, it is its bits (log entry 105). -/
def elemNumber (w : Word) (b : List Byte) : Int :=
  match wType w with
  | 9 => signed 32 (fromLe b)
  | 16 => signed 64 (fromLe b)
  | 10 => (Rec96.read b).n
  | _ => if isSum w then (sumPartial w b).1 else (fromLe b : Nat)

/-- Combine two partials by MAX, MIN, AND or OR (R312). -/
def combine (w : Word) (a b : Int) : Int :=
  let t := wType w
  match wRedop w with
  | 1 => if isIntType t then max a b else (floatPick t true a.toNat b.toNat : Nat)
  | 2 => if isIntType t then min a b else (floatPick t false a.toNat b.toNat : Nat)
  | 3 => ((BitVec.ofInt 64 a) &&& (BitVec.ofInt 64 b)).toInt
  | _ => ((BitVec.ofInt 64 a) ||| (BitVec.ofInt 64 b)).toInt

/-- The root's conversion of one total to the element type (R312). -/
def rootElem (w : Word) (n : Int) (flags : Nat) : List Byte :=
  let t := wType w
  if !isSum w then leBytes (collBytes t) (toBits (8 * collBytes t) n)
  else if t = 9 then leBytes 4 (convertInt 32 (.fin (decide (n < 0)) n.natAbs 0)).bits
  else if t = 16 then leBytes 8 (convertInt 64 (.fin (decide (n < 0)) n.natAbs 0)).bits
  else if t = 10 then Rec96.bytes ⟨if flags = 0 then n else 0, wAnchor w, flags⟩
  else
    let x : Num := if flags = 0 then .fin (decide (n < 0)) n.natAbs (wAnchor w - 64) else specialNum flags
    let r := match x with
      | .fin _ 0 _ => (⟨0, false, false⟩ : Res)
      | _ => (elemOf t).convert (wSatF w) false 0#64 x
    leBytes (collBytes t) r.bits

/-! ### Messages -/

/-- Numbered elements of a message's data (R316): a reduction's by place, a part's from its offset. -/
def CollMsg.numbered (m : CollMsg) : List (Nat × Int) :=
  m.values.zipIdx.map (fun v => (v.2, v.1))
  ++ m.parts.flatMap (fun p => (elemsOf (collBytes (wType m.w)) p.data).zipIdx.map (fun e => (p.off + e.2, elemNumber m.w e.1)))

/-- The digest of a message's data (R316, R317). -/
def CollMsg.dataDigest (m : CollMsg) : Nat := digestSum m.key m.seq m.numbered

/-- A message whose data a fault has changed: amounts added to partials, or combined with bytes of the result, by place. -/
def CollMsg.damage (m : CollMsg) (errs : List (Nat × Nat)) : CollMsg :=
  { m with
    values := m.values.zipIdx.map (fun v => v.1 + (((errs.lookup v.2).getD 0 : Nat) : Int))
    parts := m.parts.map (fun p => { p with data := p.data.zipIdx.map (fun b =>
      b.1 ^^^ BitVec.ofNat 8 ((errs.lookup (p.off * collBytes (wType m.w) + b.2)).getD 0)) }) }

/-- The same message with no data and a status, naming a node (R315, R318). -/
def CollMsg.ended (m : CollMsg) (status node : Nat) : CollMsg :=
  { m with child := none, status := status, lowNode := node, parts := [], values := [], flags := [], digest := 0#64, slices := [] }

end Sys2Proof.Machine
end

