-- ==== Sys2Proof/Machine/CollWire.lean ====
section
/-! DEFINITION. Collectives on the wire (R324, R325, R327): express flits and packets, how a message is laid out in them and read from
them, and how it leaves on a tree port. -/

namespace Sys2Proof.Machine

/-- Does a collective run on the express class (R324): at most 256 bytes and 64 elements, or BARRIER? -/
def expressColl (w : Word) (count : Nat) : Bool := wOp w == 5 || (decide (count * collBytes (wType w) ≤ 256) && decide (count ≤ 64))

/-- Is it a concatenation, whose data are elements in their type? -/
def isGather (w : Word) : Bool := wOp w == 3 || wOp w == 4

/-- Cut a list into pieces of n. -/
def chunksOf {α : Type} (n : Nat) (l : List α) : List (List α) :=
  (List.range ((l.length + n - 1) / n)).map (fun i => (l.drop (i * n)).take n)

/-! ### Layouts -/

/-- The 44-byte content of an express flit (R325): key with 0 up, 1 down, 2 control; index; sequence; origin; data flits; status; payload. -/
def xContent (key code index seq origin flits status : Nat) (payload : List Byte) : List Byte :=
  leBytes 3 (key % 2 ^ 22 + code * 2 ^ 22) ++ leBytes 1 index ++ leBytes 4 seq ++ leBytes 2 origin ++ leBytes 1 flits ++ leBytes 1 status
  ++ (payload ++ List.replicate 32 0#8).take 32

/-- A 16-byte partial (R325): the value in [115:0], nan, pinf and ninf in [118:116] from the highest (log entry 104). -/
def partialBytes (n : Int) (flags : Nat) : List Byte :=
  leBytes 16 (toBits 116 n + 2 ^ 116 * (ofBool (bitOf flags 0) * 4 + ofBool (bitOf flags 1) * 2 + ofBool (bitOf flags 2)))

/-- Value and flags of a partial. -/
def readPartial (b : List Byte) : Int × Fin 8 :=
  let v := field b 0 16
  (signed 116 (v % 2 ^ 116), Fin.ofNat 8 (ofBool (bitOf v 118) + 2 * ofBool (bitOf v 117) + 4 * ofBool (bitOf v 116)))

/-- Payload of a check flit, and data of a seal packet (R325, R327): digest, seal, lowest rank and its node. Bit 15 beside the rank is the void
bit (R314), bit 14 says that more of the message follows (log entry 104). -/
def checkBytes (digest dseal : Word) (rank node : Nat) (void more : Bool) : List Byte :=
  leBytes 8 digest.toNat ++ leBytes 8 dseal.toNat ++ leBytes 2 (rank % 4096 + ofBool more * 2 ^ 14 + ofBool void * 2 ^ 15) ++ leBytes 2 node

/-- Body of a collective packet (R327): key and direction, flags ([0] the seal packet, [1] digests of slices), sequence, element offset,
data. -/
def collBody (key code flags seq off : Nat) (d : List Byte) : List Byte :=
  leBytes 3 (key % 2 ^ 22 + code * 2 ^ 22) ++ leBytes 1 flags ++ leBytes 4 seq ++ leBytes 8 off ++ d

/-- Data bytes of a collective packet here: with header and body it fits the 16 flits of a tree input's buffer (R305, log entry 101). -/
def collPacketBytes : Nat := 960

/-! ### Laying out (R325, R327) -/

/-- The data flits of one series of payload bytes. -/
def dataFlits (m : CollMsg) (code origin status : Nat) (bytes : List Byte) : List (List Byte) :=
  let l := chunksOf 32 bytes
  l.zipIdx.map (fun c => xContent m.key code c.2 m.seq origin l.length status c.1)

/-- A check flit. -/
def checkFlit (m : CollMsg) (code origin flits status : Nat) (digest : Word) (rank node : Nat) (more : Bool) : List Byte :=
  xContent m.key code 32 m.seq origin flits status (checkBytes digest m.dseal rank node m.void more)

/-- An element as the value of a partial. -/
def elemPartials (eb : Nat) (d : List Byte) : List Byte := (elemsOf eb d).flatMap (fun e => partialBytes (fromLe e : Nat) 0)

/-- A message upwards as express flits: partials of a reduction, or each part of a concatenation with a check flit of its own; the message's
check flit stands last. -/
def expressUp (m : CollMsg) : List (List Byte) :=
  let eb := collBytes (wType m.w)
  let vals := m.values.zipIdx.flatMap (fun v => partialBytes v.1 (((m.flags[v.2]?).map Fin.val).getD 0))
  dataFlits m 0 m.lowNode 0 vals
  ++ m.parts.flatMap (fun p => dataFlits m 0 p.node 0 (elemPartials eb p.data)
    ++ [checkFlit m 0 p.node (chunksOf 32 (elemPartials eb p.data)).length 0 0#64 (p.off / max 1 m.count) p.node true])
  ++ [checkFlit m 0 m.lowNode (chunksOf 32 vals).length 0 m.digest m.lowRank m.lowNode false]

/-- Bytes of 32 data flits, the most that one check flit closes (R325). -/
def expressRun : Nat := 1024

/-- A message downwards as express flits: the packed result, each 32 flits but the last closed by a check flit of their own, since a
concatenation can be longer (R311; log entry 104); the digests of slices by rank; the check flit with the final status. -/
def expressDown (m : CollMsg) : List (List Byte) :=
  let runs := chunksOf expressRun (m.parts.flatMap (·.data))
  let root := m.key / 1024
  runs.zipIdx.flatMap (fun r => dataFlits m 1 root m.status r.1
    ++ (if r.2 + 1 < runs.length then [checkFlit m 1 root 32 m.status 0#64 0 root true] else []))
  ++ m.slices.zipIdx.map (fun d => checkFlit m 1 root 0 m.status d.1 d.2 root true)
  ++ [checkFlit m 1 root (chunksOf 32 ((runs.getLast?).getD [])).length m.status m.digest m.lowRank m.lowNode false]

/-- A message upwards as packet bodies: the seal packet, with how many elements follow, then partials or elements. -/
def bulkUp (m : CollMsg) : List (List Byte) :=
  let eb := collBytes (wType m.w)
  let n := m.values.length + ((m.parts.map (fun p => p.data.length / max 1 eb)).foldl (· + ·) 0)
  [collBody m.key 0 1 m.seq 0 (checkBytes m.digest m.dseal m.lowRank m.lowNode m.void false ++ leBytes 8 n)]
  ++ (chunksOf 60 m.values.zipIdx).zipIdx.map (fun c => collBody m.key 0 0 m.seq (60 * c.2)
    (c.1.flatMap (fun v => partialBytes v.1 (((m.flags[v.2]?).map Fin.val).getD 0))))
  ++ m.parts.flatMap (fun p => (chunksOf collPacketBytes p.data).zipIdx.map (fun c =>
    collBody m.key 0 0 m.seq (p.off + c.2 * (collPacketBytes / max 1 eb)) c.1))

/-- A message downwards as packet bodies: results, digests of slices, the final packet with digest, seal and status, and how many elements and
digests came before it (log entry 104). -/
def bulkDown (m : CollMsg) : List (List Byte) :=
  let eb := collBytes (wType m.w)
  (chunksOf collPacketBytes (m.parts.flatMap (·.data))).zipIdx.map (fun c =>
    collBody m.key 1 0 m.seq (c.2 * (collPacketBytes / max 1 eb)) c.1)
  ++ (chunksOf 120 m.slices).zipIdx.map (fun c => collBody m.key 1 2 m.seq (120 * c.2) (c.1.flatMap (fun d => leBytes 8 d.toNat)))
  ++ [collBody m.key 1 1 m.seq 0 (checkBytes m.digest m.dseal m.lowRank m.lowNode m.void false ++ leBytes 1 m.status
    ++ leBytes 8 ((m.parts.map (fun p => p.data.length / max 1 eb)).foldl (· + ·) 0) ++ leBytes 4 m.slices.length)]

/-! ### Reading (R325, R327) -/

/-- Key, direction code, and sequence of a unit. -/
def unitKey (u : CollIn) : Nat := field u.bytes 0 3 % 2 ^ 22
def unitSeq (u : CollIn) : Nat := field u.bytes 4 4

/-- Index of an express flit, flags of a packet. -/
def unitMark (u : CollIn) : Nat := field u.bytes 3 1

/-- Payload of a unit. -/
def unitData (u : CollIn) : List Byte := u.bytes.drop (if u.express then 12 else 16)

/-- Rank field of a check. -/
def checkRank (d : List Byte) : Nat := field d 16 2

/-- Is a unit a check flit or seal packet, and does it end its part only? -/
def isCheck (u : CollIn) : Bool := if u.express then unitMark u == 32 else bitOf (unitMark u) 0
def moreFollows (u : CollIn) : Bool := u.express && bitOf (checkRank (unitData u)) 14

/-- Does a packet carry digests of slices? -/
def isSlices (u : CollIn) : Bool := !u.express && bitOf (unitMark u) 1

/-- Element bytes of a unit's data: 16 for the partials of a reduction on its way up, 8 for digests. -/
def unitElem (up : Bool) (u : CollIn) : Nat :=
  if isSlices u then 8 else if up && !isGather u.w then 16 else max 1 (collBytes (wType u.w))

/-- Element offset of a packet (R327). -/
def unitOff (u : CollIn) : Nat := field u.bytes 8 8

/-- Place a packet among others by its element offset; one that is there stays (R327). -/
def placeUnit (u : CollIn) : List CollIn → List CollIn
  | [] => [u]
  | v :: t => if unitOff u = unitOff v then v :: t else if unitOff u < unitOff v then u :: v :: t else v :: placeUnit u t

/-- The data of a message, or the digests of its slices, in order: express flits as they came, packets by their element offsets. -/
def dataUnits (slices : Bool) (l : List CollIn) : List CollIn :=
  let mine := l.filter (fun x => !isCheck x && isSlices x == slices)
  if mine.all (·.express) then mine else mine.foldl (fun acc u => placeUnit u acc) []

/-- Elements that units carry. -/
def elemCount (up : Bool) (l : List CollIn) : Nat := (l.map (fun x => (unitData x).length / unitElem up x)).foldl (· + ·) 0

/-- Has the whole message arrived? Of packets, the seal packet or final packet says how much it has (log entry 104). -/
def arrivedWhole (up : Bool) (l : List CollIn) : Bool :=
  match l.getLast? with
  | none => false
  | some u =>
    if u.express then isCheck u && !moreFollows u
    else match l.find? isCheck with
      | none => false
      | some c =>
        let d := unitData c
        if up then decide (field d 20 8 ≤ elemCount up (dataUnits false l))
        else decide (field d 21 8 ≤ elemCount up (dataUnits false l)) && decide (field d 29 4 ≤ elemCount up (dataUnits true l))

/-- The 16-byte partials of a unit. -/
def unitPartials (u : CollIn) : List (Int × Fin 8) := (elemsOf 16 (unitData u)).map readPartial

/-- The parts of a concatenation in express flits: the data before each check flit, at its rank. -/
def expressParts (eb count : Nat) (gatherAll : Bool) : List CollIn → List Byte → List CollPart
  | [], _ => []
  | u :: t, acc =>
    if isCheck u then
      if moreFollows u then
        ⟨field (unitData u) 18 2, if gatherAll then checkRank (unitData u) % 4096 * count else 0, acc.take (count * eb)⟩ :: expressParts eb count gatherAll t []
      else expressParts eb count gatherAll t []
    else expressParts eb count gatherAll t (acc ++ (unitPartials u).flatMap (fun p => leBytes eb p.1.toNat))

/-- Put a packet's data behind the part that it continues, or begin one. -/
def joinPart (eb : Nat) (l : List CollPart) (off : Nat) (d : List Byte) : List CollPart :=
  match l.find? (fun p => p.off + p.data.length / max 1 eb == off) with
  | some p => l.map (fun q => if q = p then { q with data := q.data ++ d } else q)
  | none => l ++ [⟨0, off, d⟩]

/-- The message that units spell. -/
def readMsg (up : Bool) (port : Nat) (l : List CollIn) : CollMsg :=
  let u : CollIn := (l.getLast?).getD ⟨0, true, [], 0#64, 0#32, 0#8, false⟩
  let chk := (l.find? (fun x => isCheck x && !moreFollows x)).getD u
  let c := unitData chk
  let eb := collBytes (wType u.w)
  let datas := dataUnits false l
  let vals := if up ∧ !isGather u.w then (datas.flatMap unitPartials).take u.count.toNat else []
  let parts : List CollPart :=
    if up then
      (if !isGather u.w then []
       else if u.express then expressParts eb u.count.toNat (wOp u.w == 3) l []
       else datas.foldl (fun acc x => joinPart eb acc (unitOff x) (unitData x)) [])
    else match datas.flatMap unitData with
      | [] => []
      | b => [⟨0, 0, b⟩]
  let slices := if up ∨ wOp u.w ≠ 1 then []
    else if u.express then (l.filter (fun x => isCheck x && moreFollows x)).map (fun x => BitVec.ofNat 64 (field (unitData x) 0 8))
    else (dataUnits true l).flatMap (fun x => (elemsOf 8 (unitData x)).map (fun b => BitVec.ofNat 64 (fromLe b)))
  { key := unitKey u, seq := unitSeq u, child := if up then some port else none, dseal := BitVec.ofNat 64 (field c 8 8)
    void := bitOf (checkRank c) 15, w := u.w, count := u.count.toNat, lowRank := checkRank c % 4096, lowNode := field c 18 2
    values := vals.map (·.1), flags := vals.map (·.2), parts := parts, digest := BitVec.ofNat 64 (field c 0 8), slices := slices
    status := if up then (l.map (·.status.toNat)).foldl max 0 else if u.express then field chk.bytes 11 1 else field c 20 1
    poisoned := l.any (·.poisoned) }

/-- A control flit, or a packet of kind COLL_CTRL (R315, R319, R325): status, and the node it names. -/
def readCtrl (child : Bool) (u : CollIn) : CollMsg :=
  let status := if u.express then field u.bytes 11 1 else field (unitData u) 2 1
  let node := if u.express then field u.bytes 8 2 else field (unitData u) 0 2
  { key := unitKey u, seq := unitSeq u, child := if child then some u.port.val else none, dseal := 0#64, void := false, w := u.w
    count := u.count.toNat, lowRank := 0, lowNode := node, values := [], flags := [], parts := [], digest := 0#64, slices := [], status := status
    poisoned := u.poisoned }

/-! ### Leaving and arriving -/

/-- A message leaves on a tree port, as express flits or as packets (R324, R325, R327), from a forwarder in the place of what it passes on.
Verdicts are always express (R319). -/
def State.sendColl (s : State) (t : Tree) (dir : CollDir) (port : Nat) (m : CollMsg) : State :=
  let x := expressColl m.w m.count
  let flits (s : State) (l : List (List Byte)) : State := l.foldl (fun s b => s.treeFlit port ⟨some m.key, b, t.forwards⟩) s
  let packets (s : State) (kind : Nat) (l : List (List Byte)) : State :=
    l.foldl (fun s b =>
      let p := s.mkPkt kind (nodeAcross s.node port) 0 b
      if t.forwards then s.passPacket port p else s.treePacket port m.key p) s
  let s1 := s.emit (.coll dir port m)
  match dir with
  | .up => if x then flits s1 (expressUp m) else packets s1 0x20 (bulkUp m)
  | .down => if x then flits s1 (expressDown m) else packets s1 0x21 (bulkDown m)
  | .ctl =>
    if x || hasVerdict m.w then flits s1 [xContent m.key 2 0 m.seq m.lowNode 0 m.status []]
    else packets s1 0x22 [collBody m.key 2 0 m.seq 0 (leBytes 2 m.lowNode ++ leBytes 1 m.status)]

/-- Flits of a unit: credits of the tree input it took (R305). -/
def unitFlitCount (u : CollIn) : Nat := if u.express then 1 else flitsLess u.bytes.length + 1

/-- A reduction context or member interface has taken a unit: its credits go back (R305). -/
def State.creditBack (s : State) (u : CollIn) : State := s.emit (.credit u.port.val (unitKey u) (unitFlitCount u))

/-- A unit joins those of its message that have arrived; with the last one the message is whole. -/
def State.unitIn (s : State) (up : Bool) (u : CollIn) : State × Option CollMsg :=
  let mine (a : Arriving) : Bool := a.key == unitKey u && a.seq == unitSeq u && a.port == u.port.val && a.up == up
  let l := ((s.grp.arriving.find? mine).map (·.units)).getD [] ++ [u]
  let others := s.grp.arriving.filter (fun a => !mine a)
  if arrivedWhole up l then ({ s with grp := { s.grp with arriving := others } }, some (readMsg up u.port.val l))
  else ({ s with grp := { s.grp with arriving := others ++ [⟨unitKey u, unitSeq u, u.port.val, up, l⟩] } }, none)

/-- A forwarder passes a unit on, unit by unit and under the credits that its source holds at the end (R304, R305). -/
def State.passUnit (s : State) (port : Nat) (u : CollIn) : State :=
  if u.express then s.treeFlit port ⟨some (unitKey u), u.bytes, true⟩
  else s.passPacket port (s.mkPkt (0x20 + min 2 (field u.bytes 2 1 / 64)) (nodeAcross s.node port) 0 u.bytes)

end Sys2Proof.Machine
end

