-- ==== Sys2Proof/Machine/Collectives.lean ====
section
/-! DEFINITION. Carrying out collectives (R309–R327): reduction contexts, digest arbitration, results and completion. -/

namespace Sys2Proof.Machine

/-! ### State helpers -/

/-- Replace what a context has gathered of a collective. -/
def State.setGathered (s : State) (g : Gathered) : State :=
  { s with grp := { s.grp with
    gathers := g :: s.grp.gathers.filter (fun h => !(h.key == g.key && h.seq == g.seq)) } }

/-- Discard what was gathered and has arrived of a collective. -/
def State.dropColl (s : State) (key seq : Nat) : State :=
  { s with grp := { s.grp with
    gathers := s.grp.gathers.filter (fun h => !(h.key == key && h.seq == seq))
    arriving := s.grp.arriving.filter (fun h => !(h.key == key && h.seq == seq)) } }

/-- What was gathered so far. -/
def State.gathered (s : State) (key seq : Nat) : Gathered :=
  (s.grp.gathers.find? (fun h => h.key == key && h.seq == seq)).getD ⟨key, seq, [], []⟩

/-- Send a message to each child of a tree. -/
def State.sendDown (s : State) (t : Tree) (dir : CollDir) (m : CollMsg) : State := t.children.foldl (fun s p => s.sendColl t dir p m) s

/-- A tree has seen the end of a sequence: what is here of it is discarded, and later units of it where it has no member here (R321). -/
def State.passed (s : State) (t : Tree) (seq : Nat) : State :=
  let s1 := s.dropColl t.key seq
  { s1 with grp := { s1.grp with
    trees := s1.grp.trees.map (fun u => if u.key = t.key ∧ u.member.isNone then { u with next := max u.next (seq + 1) } else u) } }

/-- A collective ends at this member (R313, R320): the sequence advances, GRP.G.STAT shows the status, the record
becomes due and the done signal follows it only for OK. -/
def State.collEnd (s : State) (n status : Nat) (offender : Nat) : State :=
  match lookupKey s.grp.inflight n with
  | none => s
  | some c =>
    let ctx := s.fld (fGrpGStatContext n)
    let s1 := { s with grp := { s.grp with inflight := eraseKey s.grp.inflight n } }
    let s2 := s1.setFlds [(fGrpGStatSeq n, c.seq + 1), (fGrpGStatLastStatus n, status), (fGrpGStatMismatchNode n, offender)]
    let r := s2.otherRec 2 n c.tag status 0 ctx
    r.1.due ⟨r.1.fld (fGrpGQcfgRing n), r.2, if status = 0 then c.done else none, false, c.quiet && decide (status = 0), false, none⟩

/-- The bytes of dst of a collective that ends WINDOW, TIMEOUT, POISONED or ABORTED are undefined (R318–R320); MISMATCH ends before any
result comes down, and leaves them. -/
def State.collLost (s : State) (n status : Nat) : State :=
  if status = 5 ∨ status = 7 ∨ status = 8 ∨ status = 0x0A then
    match lookupKey s.grp.inflight n with
    | none => s
    | some c =>
      if receives (wOp c.w) (wRoot c.w) (s.fld (fGrpGStateRank n)) then
        let bytes := resultCount (wOp c.w) c.count (max 1 (s.fld (fGrpGStateMembers n))) * collBytes (wType c.w)
        s.undefineRun (s.fld (fGrpGStatContext n)) c.dst.toNat bytes []
      else s
  else s

/-- Complete a collective at this member: what becomes of its destination, then its end (R313, R318–R320). -/
def State.collComplete (s : State) (n status : Nat) (offender : Nat) : State := (s.collLost n status).collEnd n status offender

/-- End every collective in flight (R400). -/
def State.endCollectives (s : State) (status : Nat) : State :=
  let s1 := s.grp.inflight.foldl (fun s p => s.collComplete p.1 status 0) s
  { s1 with grp := { s1.grp with gathers := [], arriving := [] } }

/-! ### Results at a member -/

/-- The bytes of a result that belong to a rank (R311), and the offset of their first element. -/
def resultSlice (w : Word) (count members rank : Nat) (b : List Byte) : Nat × List Byte :=
  let eb := collBytes (wType w)
  let n := resultCount (wOp w) count (max 1 members)
  if wOp w = 1 then (rank * n, (b.drop (rank * n * eb)).take (n * eb)) else (0, b.take (n * eb))

/-- A member's check of a result without digest against its own contribution (R319). -/
def verdictOk (w : Word) (own : List Int) (result : List Int) : Bool :=
  (own.zip result).all (fun p => combine w p.1 p.2 == p.2)

/-- A verdict (R319). -/
def verdictMsg (m : CollMsg) (ok : Bool) : CollMsg := m.ended (if ok then 0 else 0x0A) 0

/-- Does a digest unit that handles data get the digest it is given, at first or when it recomputes (R317, R318)? -/
def digestHolds (m : CollMsg) (want : Word) (errs : List (Nat × Nat)) (unit : Word) : Bool :=
  BitVec.ofNat 64 (m.damage errs).dataDigest ^^^ unit == want

/-- What a member makes of a result: it completed or does not take part; it waits for the joint verdict, with its own; its check of the digest
failed (R318, R319). -/
inductive MemberEnd where
  | over
  | verdict (ok : Bool)
  | failed
  deriving DecidableEq, Repr

/-- A DOWN message at this module's member (R313, R315, R317–R320): a status ends the collective, and waits where it has not been started
here; a result is written to dst and its digest checked, once more where it disagrees. -/
def State.memberDown (s : State) (t : Tree) (m : CollMsg) (end_ : DigestObs) : State × MemberEnd :=
  match t.member with
  | none => (s, .over)
  | some n => match lookupKey s.grp.inflight n with
    | none =>
      if m.status = 0 then (s, .over) else ({ s with grp := { s.grp with early := insertKey s.grp.early n m } }, .over)
    | some c =>
      if c.seq ≠ m.seq then (s, .over)
      else if m.status ≠ 0 then (s.collComplete n m.status (if m.status = 6 then m.lowNode else 0), .over)
      else
        let ctx := s.fld (fGrpGStatContext n)
        let rank := s.fld (fGrpGStateRank n)
        let all := m.parts.flatMap (·.data)
        let slice := resultSlice c.w c.count (s.fld (fGrpGStateMembers n)) rank all
        let takes := receives (wOp c.w) (wRoot c.w) rank
        let mine : CollMsg := { m with w := c.w, values := [], parts := [⟨0, slice.1, slice.2⟩] }
        let want := if wOp c.w = 1 then m.slices.getD rank 0#64 else m.digest
        let first := digestHolds mine want end_.first end_.unit1
        let good := !takes || !hasDigest c.w || first || digestHolds mine want end_.second end_.unit2
        let got := ((mine.damage (if first then end_.first else end_.second)).parts.flatMap (·.data))
        let s1 := if takes then (s.writeRun ctx c.dst.toNat got FarReply.ok).1 else s
        if !good then (s1.collComplete n 0x0A 0, .failed)
        else if hasVerdict c.w then
          let ok := verdictOk c.w c.own ((elemsOf (collBytes (wType c.w)) all).map (plainPartial c.w))
          ({ s1 with grp := { s1.grp with inflight := insertKey s1.grp.inflight n { c with verdict := some 0 } } }, .verdict ok)
        else (s1.collComplete n 0 0, .over)

/-! ### Reduction contexts -/

/-- Inputs a reduction context waits for: its children and its own member. -/
def Tree.expects (t : Tree) : Nat := t.children.length + ofBool t.member.isSome

/-- Add lists of partials, the shorter with zeros. -/
def addLists : List Int → List Int → List Int
  | [], l => l
  | l, [] => l
  | a :: x, b :: y => (a + b) :: addLists x y

/-- Combine lists of partials. -/
def combineLists (w : Word) : List Int → List Int → List Int
  | [], l => l
  | l, [] => l
  | a :: x, b :: y => combine w a b :: combineLists w x y

/-- OR of lists of flags. -/
def orFlags : List (Fin 8) → List (Fin 8) → List (Fin 8)
  | [], l => l
  | l, [] => l
  | a :: x, b :: y => ⟨(a.val ||| b.val) % 8, Nat.mod_lt _ (by decide)⟩ :: orFlags x y

/-- The lower-ranked of two inputs. -/
def lowerInput (a b : CollMsg) : CollMsg := if b.lowRank < a.lowRank then b else a

/-- One merge step of two inputs whose seals agree (R312, R316). -/
def mergeTwo (a b : CollMsg) : CollMsg :=
  let w := a.w
  let l := lowerInput a b
  { a with
    lowRank := l.lowRank, lowNode := l.lowNode
    values := if isSum w then addLists a.values b.values else combineLists w a.values b.values
    flags := orFlags a.flags b.flags
    parts := a.parts ++ b.parts
    digest := BitVec.ofNat 64 ((a.digest.toNat + b.digest.toNat) % digestP)
    status := max a.status b.status
    poisoned := a.poisoned || b.poisoned }

/-- The offender among differing inputs (R315): the lowest rank whose seal differs from that of the lowest-ranked input; none
where all agree and none is void. -/
def offender (l : List CollMsg) : Option Nat :=
  match l with
  | [] => none
  | a :: t =>
    let low := t.foldl lowerInput a
    let bad := l.filter (fun m => decide (m.dseal ≠ low.dseal) || m.void)
    match bad with
    | [] => none
    | b :: u => some (u.foldl lowerInput b).lowNode

/-- The router of a tree here: that of its reduction context, else the one with more of its ports (R304). -/
def Tree.router (t : Tree) : Nat := if t.hub = 0 then hubOf t.ports else t.hub

/-- Insert a part by offset. -/
def insertPart (p : CollPart) : List CollPart → List CollPart
  | [] => [p]
  | q :: t => if p.off ≤ q.off then p :: q :: t else q :: insertPart p t

/-- The root's result of the merged input (R312, R313): status and packed bytes. -/
def rootResult (m : CollMsg) : Nat × List Byte :=
  let w := m.w
  if m.poisoned then (8, [])
  else if m.status ≠ 0 then (m.status, [])
  else if wOp w = 5 then (0, [])
  else if isGather w then (0, (m.parts.foldr insertPart []).flatMap (·.data))
  else
    let l := m.values.zipIdx.map (fun p => (p.1, ((m.flags[p.2]?).map Fin.val).getD 0))
    if isSum w ∧ l.any (fun p => p.2 == 0 && !inWindow p.1) then (5, [])
    else (0, (l.map (fun p => rootElem w p.1 p.2)).flatten)

/-- Flag an adder lane suspect, or retire its checker (R318, R388): never the last working lane of a router. -/
def State.laneVerdict (s : State) (hub lane : Nat) (checker : Bool) (m : CollMsg) : State :=
  let unit := 2 + 4 * (hub - 1) + lane % 4
  let lanes := (List.range 4).map (fun i => 2 + 4 * (hub - 1) + i)
  let last := (lanes.filter (fun u => u != unit && !s.grp.suspect.contains u)).isEmpty
  if checker then
    let s1 := (s.log { code := 0x0502, kind := 8, unit := unit, action := 5, defect := s.canList, warning := true }).raise 0x0A 8 unit []
    ({ s1 with grp := { s1.grp with checkers := unit :: s1.grp.checkers } }).defect 8 8 unit 0 0x0502 0
  else
    let s1 := (s.log { code := 0x0503, cls := 1, kind := 8, unit := unit, defect := !last && s.canList, warning := true
                       detail := leBytes 4 m.key ++ leBytes 4 m.seq }).raise 0x0A 8 unit []
    if last then s1
    else ({ s1 with grp := { s1.grp with suspect := unit :: s1.grp.suspect } }).defect 8 8 unit 0 0x0503 0

/-- What a hop still meets of the faults of a lane (R388): contexts have left a suspect one, and a third checker stands in for a retired one. -/
def State.laneFaults (s : State) (hub : Nat) (obs : DigestObs) : DigestObs :=
  let unit := 2 + 4 * (hub - 1) + obs.lane % 4
  let a : DigestObs := if s.grp.suspect.contains unit then { obs with first := [], second := [] } else obs
  if s.grp.checkers.contains unit then { a with unit1 := 0#64, unit2 := 0#64 } else a

/-- A hop's check of the digest of what it hands on (R317, R318): a first disagreement is recomputed; where that agrees it was transient; else
the next digest unit arbitrates: with the digest of the inputs the hop's checker is retired, with the hop's output its data path is suspect.
The data that goes on, and whether the collective does. -/
def State.hopCheck (s : State) (t : Tree) (m : CollMsg) (seen : DigestObs) : State × CollMsg × Bool :=
  let hub := t.router
  let obs := s.laneFaults hub seen
  if !hasDigest m.w ∨ m.status ≠ 0 then (s, m.damage obs.first, true)
  else if digestHolds m m.digest obs.first obs.unit1 then (s, m.damage obs.first, true)
  else
    let again := m.damage obs.second
    if digestHolds m m.digest obs.second obs.unit2 then (s.log { code := 0x0501, kind := 8, unit := hub - 1, action := 1 }, again, true)
    else if BitVec.ofNat 64 again.dataDigest = m.digest then (s.laneVerdict hub obs.lane true m, again, true)
    else (s.laneVerdict hub obs.lane false m, again, false)

/-- Verdicts of a collective gathered at this module: with all of them the root sends the joint verdict, another sends its
own up (R319). -/
def State.verdictAdd (s : State) (t : Tree) (m : CollMsg) : State :=
  let g := s.gathered t.key m.seq
  let g1 := { g with verdicts := g.verdicts ++ [m] }
  if g1.verdicts.length < t.expects then s.setGathered g1
  else
    let ok := g1.verdicts.all (fun v => decide (v.status = 0))
    let s1 := s.dropColl t.key m.seq
    match t.parent with
    | some p => s1.sendColl t .ctl p (verdictMsg m ok)
    | none =>
      let d := verdictMsg m ok
      let s2 := s1.sendDown t .ctl d
      match t.member with
      | some n => s2.collComplete n d.status 0
      | none => s2

/-- A status goes down the tree from here, this module's member included (R313, R315). -/
def State.statusDown (s : State) (t : Tree) (m : CollMsg) (status node : Nat) : State :=
  let d := m.ended status node
  (((s.sendDown t .down d).memberDown t d DigestObs.clean).1).passed t m.seq

/-- A collective that a hop or a member on the way down ends is ABORTED at every member (R318): the branch below has it from here, the root
sends it to the rest. -/
def State.abortUp (s : State) (t : Tree) (m : CollMsg) : State :=
  match t.parent with
  | some p => s.sendColl t .ctl p (m.ended 0x0A 0)
  | none => s

/-- An abort ends a collective in flight at this module's member, and waits for one that it has not started (R318, R320). -/
def State.memberAbort (s : State) (t : Tree) (m : CollMsg) : State :=
  match t.member with
  | none => s
  | some n => match lookupKey s.grp.inflight n with
    | some c => if c.seq = m.seq then s.collComplete n 0x0A 0 else s
    | none => if m.seq = s.fld (fGrpGStatSeq n) then { s with grp := { s.grp with early := insertKey s.grp.early n (m.ended 0x0A 0) } } else s

/-- A member's check at the end has failed twice (R318): a deferred error names its router, and no lane (R388). -/
def State.endFailed (s : State) (t : Tree) (m : CollMsg) : State :=
  s.log { code := 0x0503, cls := 1, kind := 8, unit := t.router - 1, detail := leBytes 4 m.key ++ leBytes 4 m.seq }

/-- A DOWN message passes this module: its router checks what it replicates, its member takes its part, whose verdict, if one is due, joins
the others; only the joint verdict then ends the sequence (R313, R317–R319). -/
def State.downHere (s : State) (t : Tree) (m : CollMsg) (hop end_ : DigestObs) : State :=
  let ck := s.hopCheck t m hop
  if !ck.2.2 then (ck.1.statusDown t m 0x0A 0).abortUp t m
  else
    let r := ck.1.memberDown t ck.2.1 end_
    match r.2 with
    | .over =>
      let s1 := r.1.sendDown t .down ck.2.1
      if hasVerdict m.w && m.status == 0 then s1 else s1.passed t m.seq
    | .verdict ok => (r.1.sendDown t .down ck.2.1).verdictAdd t (verdictMsg m ok)
    | .failed => ((((r.1.endFailed t m).sendDown t .down (m.ended 0x0A 0)).passed t m.seq).abortUp t m)

/-- The root turns merged UP traffic into a result (R312, R313), with its digest, and for REDUCE_SCATTER those of the slices (R317). -/
def State.rootDown (s : State) (t : Tree) (m : CollMsg) (hop end_ : DigestObs) : State :=
  let r := rootResult m
  if r.1 ≠ 0 then s.statusDown t m r.1 0
  else
    let d0 : CollMsg := { m with
      child := none, status := 0, parts := if r.2.isEmpty then [] else [⟨0, 0, r.2⟩], values := [], flags := [], slices := [] }
    let members := (t.member.map (fun n => s.fld (fGrpGStateMembers n))).getD 0
    let dig (x : CollMsg) : Word := if hasDigest m.w then BitVec.ofNat 64 x.dataDigest else 0#64
    let slices := if wOp m.w = 1 ∧ hasDigest m.w then
        (List.range members).map (fun rank =>
          let c := resultSlice m.w m.count members rank r.2
          dig { d0 with parts := [⟨0, c.1, c.2⟩] })
      else []
    s.downHere t { d0 with digest := dig d0, slices := slices } hop end_

/-- Stop a collective whose seals differ (R315): MISMATCH goes to the root, and from it down. -/
def State.mismatch (s : State) (t : Tree) (m : CollMsg) (node : Nat) : State :=
  let s1 := s.dropColl t.key m.seq
  match t.parent with
  | some p => s1.sendColl t .ctl p (m.ended 6 node)
  | none => s1.statusDown t m 6 node

/-- An input reaches a reduction context, which merges its inputs once all are there and their seals agree (R304, R313, R315, R317). -/
def State.upInput (s : State) (t : Tree) (m : CollMsg) (hop end_ : DigestObs) : State :=
  if m.key ≠ t.key then s
  else
    let g := s.gathered t.key m.seq
    let g1 := { g with inputs := g.inputs ++ [m] }
    if g1.inputs.length < t.expects then s.setGathered g1
    else match offender g1.inputs with
      | some node => s.mismatch t m node
      | none => match g1.inputs with
        | [] => s
        | a :: l =>
          let merged := { (l.foldl mergeTwo a) with child := none }
          let s1 := s.setGathered { g1 with inputs := [] }
          let ck := s1.hopCheck t merged hop
          match t.parent with
          | some p => ck.1.sendColl t .up p (if ck.2.2 then ck.2.1 else { ck.2.1 with status := 0x0A })
          | none => if ck.2.2 then ck.1.rootDown t ck.2.1 DigestObs.clean end_ else ck.1.statusDown t merged 0x0A 0

/-! ### Commands -/

/-- The contribution of a member (R311, R312, R316): partials, flags, data at its place, whether an element left the window, whether a
record voids the seal. -/
def contribution (w : Word) (rank node count : Nat) (b : List Byte) : List Int × List (Fin 8) × List CollPart × Bool × Bool :=
  let es := elemsOf (collBytes (wType w)) b
  if isGather w then
    ([], [], if b.isEmpty then [] else [⟨node, if wOp w = 3 then rank * count else 0, b⟩], false, false)
  else if isSum w then
    let l := es.map (sumPartial w)
    (l.map (·.1), l.map (fun p => ⟨p.2.1 % 8, Nat.mod_lt _ (by decide)⟩), [], l.any (fun p => p.2.1 == 0 && p.2.2.1), l.any (·.2.2.2))
  else (es.map (plainPartial w), [], [], false, false)

/-- Collectives of a group end at once with ABORTED where the group is BROKEN (R308), before they touch any byte. -/
def State.collAbortEntry (s : State) (n : Nat) (d : CDesc) : State :=
  let c : Coll := ⟨d.tag, d.quiet, d.word, d.count, d.dst, d.done, s.fld (fGrpGStatSeq n), [], none⟩
  ({ s with grp := { s.grp with inflight := insertKey s.grp.inflight n c } }).collEnd n 0x0A 0

/-- COLLECTIVE_START: a member starts the collective at the head of its communication queue once the one before it completed
and its wait object fired: it reads its contribution, seals and sends it (R311–R316). -/
def State.collStart (s : State) (n : Nat) (far : FarReply) (hop end_ : DigestObs) : State :=
  match s.commOf n with
  | [] => s
  | b :: rest =>
    let d := CDesc.read b
    let ctx := s.fld (fGrpGStatContext n)
    let s0 := { s with que := { s.que with comm := insertKey s.que.comm n rest } }
    if (lookupKey s.grp.inflight n).isSome then s
    else if s.fld (fGrpGStateState n) = gBroken then s0.collAbortEntry n d
    else if s.fld (fGrpGStateState n) ≠ gReady then s
    else
      let holdsWait : Bool := match d.wait with
        | some i => s.holds ctx i
        | none => true
      let holdsDone : Bool := match d.done with
        | some (nd, i) => nd != s.node || s.holds ctx i
        | none => true
      let seq := s.fld (fGrpGStatSeq n)
      if holdsWait && !s.waitOver d.wait then s
      else match (lookupKey s.grp.early n).filter (fun m => m.seq == seq) with
      | some m =>
        let c : Coll := ⟨d.tag, d.quiet, d.word, d.count, d.dst, d.done, seq, [], none⟩
        let s1 := s0.dropColl (s.fld (fGrpGStateKey n)) seq
        ({ s1 with grp := { s1.grp with inflight := insertKey s1.grp.inflight n c, early := eraseKey s1.grp.early n } }).collEnd n m.status
          (if m.status = 6 then m.lowNode else 0)
      | none => match s.treeOf (s.fld (fGrpGStateKey n)) with
        | none => s
        | some t =>
          let members := s.fld (fGrpGStateMembers n)
          let rank := s.fld (fGrpGStateRank n)
          let w := d.word
          let eb := collBytes d.type
          let okShape := d.wellFormed members && holdsWait && holdsDone
          let srcN := if contributes d.op d.root rank then d.count * eb else 0
          let dstN := if receives d.op d.root rank then resultCount d.op d.count members * eb else 0
          let okMap := (s.gpaPieces ctx d.src.toNat srcN permRead).isSome && (s.gpaPieces ctx d.dst.toNat dstN permWrite).isSome
          let valid := okShape && okMap
          let rd := if valid then s0.readRun ctx d.src.toNat srcN far else (s0, 0, [])
          let ct := contribution w rank s.node.toNat d.count rd.2.2
          let void := !valid || ct.2.2.2.2
          let m0 : CollMsg :=
            { key := t.key, seq := seq, child := none, dseal := if void then BitVec.allOnes 64 else dsealOf t.key seq w d.count, void := void
              w := w, count := d.count, lowRank := rank, lowNode := s.node.toNat, values := ct.1, flags := ct.2.1, parts := ct.2.2.1
              digest := 0#64, slices := [], status := if ct.2.2.2.1 then 5 else if rd.2.1 = 4 then 0x0A else 0, poisoned := rd.2.1 == 8 }
          let m : CollMsg := { m0 with digest := if hasDigest w then BitVec.ofNat 64 m0.dataDigest else 0#64 }
          let c : Coll := ⟨d.tag, d.quiet, w, d.count, d.dst, d.done, seq, ct.1, none⟩
          let s1 := { rd.1 with grp := { rd.1.grp with inflight := insertKey rd.1.grp.inflight n c } }
          if t.children.isEmpty then match t.parent with
            | some p => s1.sendColl t .up p m
            | none => s1
          else s1.upInput t m hop end_

/-- COLLECTIVE_START (R310–R316, R324). -/
def execCollectiveStart (g : Grp) (far : FarReply) (hop end_ : DigestObs) (s : State) : Host.Outcome State Fault Refusal :=
  .next (s.collStart g far hop end_)

/-- Is a sequence late (R321): one that this module's member, or its place in the tree, has left behind? -/
def State.lateColl (s : State) (t : Tree) (seq : Nat) : Bool :=
  match t.member with
  | some n => decide (seq < s.fld (fGrpGStatSeq n))
  | none => decide (seq < t.next)

/-- A collective's unit at this module's place in the tree, at the port of its edge; late ones are discarded (R321), their credits with them
back, but for an abort (R318). -/
def State.treeUnit (s : State) (u : CollIn) (abort : Bool) (f : Tree → CollIn → State) : State :=
  match s.treeOf (unitKey u) with
  | none => s
  | some t => if s.lateColl t (unitSeq u) && !abort then s.creditBack u else f t { u with port := Fin.ofNat 32 (t.edgeOn u.port) }

/-- A forwarder passes a unit on (R304, R305). With the last one it has checked the digest of what it forwards (R317): where that fails, an abort
goes on in its place, and one up to the root (R318). A fault of its data shows in the check: the units go on as they came (log entry 122). -/
def State.forwardUnit (s : State) (t : Tree) (up : Bool) (u : CollIn) (hop : DigestObs) : State :=
  match t.across u.port with
  | none => s
  | some q =>
    let r := s.unitIn up u
    match r.2 with
    | none => r.1.passUnit q u
    | some m =>
      let ck := r.1.hopCheck t m hop
      if !ck.2.2 then (if up then ck.1 else ck.1.statusDown t m 0x0A 0).abortUp t m
      else if up || (hasVerdict m.w && m.status == 0) then ck.1.passUnit q u else (ck.1.passUnit q u).passed t m.seq

/-- COLL_UP: a unit from a child; with the last one the input reaches a reduction context or the root (R313–R318); a forwarder passes it
up. -/
def execCollUp (u : CollIn) (hop end_ : DigestObs) (s : State) : Host.Outcome State Fault Refusal :=
  .next (s.treeUnit u false (fun t u =>
    if t.forwards then s.forwardUnit t true u hop
    else
      let r := (s.creditBack u).unitIn true u
      match r.2 with
      | some m => r.1.upInput t m hop end_
      | none => r.1))

/-- COLL_DOWN: a unit from the parent; with the last one the result, or a final status, goes down the tree and reaches this module's member
(R313, R317–R320). -/
def execCollDown (u : CollIn) (hop end_ : DigestObs) (s : State) : Host.Outcome State Fault Refusal :=
  .next (s.treeUnit u false (fun t u =>
    if t.forwards then s.forwardUnit t false u hop
    else
      let r := (s.creditBack u).unitIn false u
      match r.2 with
      | some m => r.1.downHere t m hop end_
      | none => r.1))

/-! ### Pacts on the tree (R357) -/

/-- Byte 3 of a pact's control flit. DESIGN CHOICE: the manual gives no layout; abort waves have 0xA0 there (R398, log entry 108). -/
def pactMark : Nat := 0xB0

/-- The control flit of an offer or a result: the epoch and the code in the payload (log entry 108). -/
def pactFlit (key : Nat) (k : Word) (origin code : Nat) : List Byte :=
  xContent key 2 pactMark (k.toNat % 2 ^ 32) origin 0 0 (leBytes 8 k.toNat ++ leBytes 1 code)

/-- Send a pact's flit on a tree edge. -/
def State.sendPact (s : State) (key : Nat) (k : Word) (code port : Nat) : State :=
  s.treeFlit port ⟨some key, pactFlit key k s.node.toNat code, false⟩

/-- The result goes on to the children; the member here takes it until t_k + 120 µs (R357, R358). -/
def State.pactTake (s : State) (t : Tree) (k : Word) (code : Nat) : State :=
  let s1 := t.children.foldl (fun s p => s.sendPact t.key k code p) s
  match t.member with
  | some g =>
    if s.fabTime ≤ k.toNat * 1000000 + 120000 then
      { s1 with pwr := { s1.pwr with pacts := s1.pwr.pacts.map (fun x =>
        if x.group = g ∧ x.epoch = k ∧ x.result.isNone then { x with result := some code } else x) } }
    else s1
  | none => s1

/-- An offer joins those of its epoch: once every child and the member here have offered, the minimum goes up, or at the root down. -/
def State.pactOfferIn (s : State) (t : Tree) (k : Word) (src code : Nat) : State :=
  let old := match s.pwr.offers.find? (fun o => o.key == t.key && o.epoch == k) with
    | some o => o.codes
    | none => []
  let codes := insertKey old src code
  let want := t.children ++ (if t.member.isSome then [32] else [])
  let rest := s.pwr.offers.filter (fun o => o.key != t.key)
  if want.all (fun p => (lookupKey codes p).isSome) then
    let c := (codes.map (·.2)).foldl min 44
    let s1 := { s with pwr := { s.pwr with offers := rest } }
    match t.parent with
    | some p => s1.sendPact t.key k c p
    | none => s1.pactTake t k c
  else { s with pwr := { s.pwr with offers := rest ++ [⟨t.key, k, codes⟩] } }

/-- Epoch and code of a pact's flit. -/
def pactEpoch (u : CollIn) : Word := BitVec.ofNat 64 (field (unitData u) 0 8)
def pactCode (u : CollIn) : Nat := field (unitData u) 8 1

/-- A pact's flit arrives on a tree edge: an offer from a child, the result from the parent. Codes above 44 are none (R357). A forwarder passes
it on. -/
def State.pactIn (s : State) (u : CollIn) : State :=
  match s.treeOf (unitKey u) with
  | none => s
  | some t =>
    let port := t.edgeOn u.port
    if t.forwards then match t.across port with
      | some q => s.passUnit q u
      | none => s
    else
      let s1 := s.emit (.credit port t.key 1)
      if pactCode u > 44 then s1
      else if t.children.contains port then s1.pactOfferIn t (pactEpoch u) port (pactCode u)
      else s1.pactTake t (pactEpoch u) (pactCode u)

/-- Is a control message an abort (R318), and no verdict or MISMATCH? -/
def isAbort (m : CollMsg) : Bool := m.status == 0x0A && !hasVerdict m.w

/-- Control on its way up: MISMATCH, a verdict or an abort, which the root sends down (R315, R318, R319). -/
def State.ctrlUp (s : State) (t : Tree) (m : CollMsg) : State :=
  if m.status = 6 then s.mismatch t m m.lowNode
  else if hasVerdict m.w then s.verdictAdd t m
  else
    let s1 := s.dropColl t.key m.seq
    match t.parent with
    | some p => s1.sendColl t .ctl p (m.ended 0x0A 0)
    | none => (s1.sendDown t .ctl (m.ended 0x0A 0)).memberAbort t m

/-- Control on its way down: an abort, or the joint verdict for a member that waits for it (R318, R319). -/
def State.ctrlDown (s : State) (t : Tree) (m : CollMsg) : State :=
  let s1 := (s.sendDown t .ctl m).passed t m.seq
  if isAbort m then s1.memberAbort t m
  else match t.member with
    | some n => if (lookupKey s1.grp.inflight n).any (fun c => c.seq == m.seq && c.verdict.isSome) then s1.collComplete n m.status 0 else s1
    | none => s1

/-- COLL_CTRL: MISMATCH, an abort or a verdict on its way up, or the joint verdict or an abort on its way down (R315, R318, R319); or a pact's offer or
result (R357). A forwarder passes it on. -/
def execCollCtrl (u : CollIn) (s : State) : Host.Outcome State Fault Refusal :=
  .next (if u.express && unitMark u == pactMark then s.pactIn u else s.treeUnit u (isAbort (readCtrl true u)) (fun t u =>
    let up := t.children.contains u.port.val
    let m := readCtrl up u
    if t.forwards then match t.across u.port with
      | some q =>
        let s1 := if isAbort m then s.dropColl t.key m.seq else s
        if up then s1.passUnit q u else (s1.passUnit q u).passed t m.seq
      | none => s
    else if up then (s.creditBack u).ctrlUp t m else (s.creditBack u).ctrlDown t m))

end Sys2Proof.Machine
end

