-- ==== Sys2Proof/Machine/Copy.lean ====
section
/-! DEFINITION. Copies (R242–R248): descriptors, parts, checkpoint digests and completion; timeouts of requests to other
nodes (R248, R299). -/

namespace Sys2Proof.Machine

/-- Bytes of a copy part. -/
def partBytes : Nat := 2 ^ 21

/-- Offset and length of part j of a copy (R243). -/
def partRange (bytes j : Nat) : Nat × Nat := (j * partBytes, min partBytes (bytes - j * partBytes))

/-- A copy from its descriptor (R242). -/
def copyOf (ctx q : Nat) (b : List Byte) : Copy :=
  { ctx := ctx, queue := q, tag := field b 0 4, op := field b 4 1, quiet := bitOf (field b 5 1) 0
    wait := waitField (field b 8 4), done := doneField (field b 12 4)
    src := BitVec.ofNat 64 (field b 16 8), dst := BitVec.ofNat 64 (field b 24 8), bytes := field b 32 4
    dig := BitVec.ofNat 64 (field b 40 8), pattern := BitVec.ofNat 64 (field b 48 8), seed := 0#64, started := false
    parts := List.replicate ((field b 32 4 + partBytes - 1) / partBytes) ⟨none, 0#64, false⟩ }

/-- Does a descriptor hold to R242, R243 and R245? -/
def State.copyValid (s : State) (c : Copy) (b : List Byte) : Bool :=
  decide (c.op ≤ 2) && decide (field b 5 1 ≤ 1) && field b 6 2 == 0 && field b 36 4 == 0 && field b 56 8 == 0
  && c.bytes % 64 == 0 && decide (64 ≤ c.bytes ∧ c.bytes ≤ 2 ^ 26)
  && c.dst.toNat % 64 == 0 && (c.op == 2 || c.src.toNat % 64 == 0) && c.dig.toNat % 64 == 0
  && (c.op == 1 || c.dig == 0#64) && (c.op == 2 || c.pattern == 0#64)
  && (match c.wait with
      | some i => s.holds c.ctx i
      | none => true)
  && (match c.done with
      | some (n, i) => n != s.node || s.holds c.ctx i
      | none => true)

/-- A copy completes (R247): its record is due, and its done signal after it where every part is OK. -/
def State.copyRecord (s : State) (c : Copy) (status parts : Nat) : State :=
  let r := s.otherRec 1 c.queue c.tag status parts c.ctx
  r.1.due ⟨r.1.fld (fQueXqCfgRing c.ctx c.queue), r.2, if status = 0 then c.done else none, false,
    c.quiet && decide (status = 0), false, none⟩

/-- A fetched copy descriptor joins its queue, or completes at once where it breaks a rule (R245). -/
def State.copyAccept (s : State) (ctx q : Nat) (b : List Byte) : State :=
  let c := copyOf ctx q b
  if s.copyValid c b then ({ s with que := { s.que with copies := s.que.copies ++ [c] } }).refreshReady
  else s.copyRecord c 4 0xFFFFFFFF

/-- The index of the first copy of a queue that satisfies a test. -/
def State.copyIdx (s : State) (ctx q : Nat) (p : Copy → Bool) : Option Nat :=
  s.que.copies.findIdx? (fun c => c.ctx == ctx && c.queue == q && p c)

/-- COPY_START: the next copy of a queue starts, in queue order, once its wait object fired and fewer than four run; its
seed is latched (R244, R246). -/
def execCopyStart (c : Ctx) (q : Fin 4) (s : State) : Host.Outcome State Fault Refusal :=
  .next (match s.copyIdx c q (fun x => !x.started) with
    | none => s
    | some i =>
      let running := (s.que.copies.filter (fun x => x.ctx == c.val && x.queue == q.val && x.started)).length
      match s.que.copies[i]? with
      | some x =>
        if x.wait.isSome ∨ running ≥ 4 then s
        else
          let y := { x with started := true, seed := s.reg (rTaskSeed c) }
          { s with que := { s.que with copies := setAt s.que.copies i y } }
      | none => s)

/-- The digest of a part (R246). -/
def partDigest (seed : Word) (tag off : Nat) (b : List Byte) : Nat :=
  ((List.range (b.length / 8)).map (fun i =>
    (srng seed tag (off / 8 + i)).toNat % digestP * (field b (8 * i) 8 % digestP))).foldl (fun a x => (a + x) % digestP) 0

/-- The bytes of a FILL (R242). -/
def fillBytes (pattern : Word) (n : Nat) : List Byte := (List.replicate (n / 8) (leBytes 8 pattern.toNat)).flatten

/-- Offsets of the poisoned lines of a run that lie at this home. -/
def State.runMarks (s : State) (u : Option Nat) (ctx va n perm : Nat) : List Nat :=
  ((s.gpaPiecesVia u ctx va n perm).getD []).flatMap (fun p =>
    if gpaNode p.1 = s.node.toNat then (s.mem.poisonedOffsets (gpaLocal p.1) p.2.2).map (· + p.2.1) else [])

/-- Node of the home of a fabric address; this one where it does not translate. -/
def State.nodeOfVa (s : State) (u : Option Nat) (ctx : Nat) (va : Word) : Nat :=
  match s.translateVia u ctx va permWrite with
  | some g => gpaNode g
  | none => s.node.toNat

/-- A part disagreed twice: COPY_DIGEST is logged with the destination; a third within an hour for one destination sends
PATH_SUSPECT (R246, R388). -/
def State.digestFailed (s : State) (c : Copy) (node : Nat) (part : Nat) : State :=
  let nd : Node := BitVec.ofNat 12 node
  let hist := s.err.copyDigests.filter (fun p => decide (s.time < p.2 + 3600 * 10 ^ 9)) ++ [(nd, s.time)]
  let third := decide ((hist.filter (fun p => p.1 == nd)).length ≥ 3)
  let s1 := s.log { code := 0x0408, part := s.partOf c.ctx, ctx := some c.ctx, warning := third
                    detail := leBytes 2 node ++ leBytes 4 c.tag ++ leBytes 1 part }
  let s2 := { s1 with err := { s1.err with copyDigests := hist } }
  if third then s2.raise 0x0B 0 0 (leBytes 2 node) else s2

/-- The transfer of one part: state, status and digest entry (R243, R246–R248); where the digests disagree it is sent once more. A refused access ends it PARTIAL, whatever code the
answer carries (R231, R297). The bytes of a part that fails are undefined. -/
def State.copyPart (s : State) (c : Copy) (j : Nat) (obs : PartObs) : State × Nat × Word :=
  let r := partRange c.bytes j
  let src := c.src.toNat + r.1
  let dst := c.dst.toNat + r.1
  let u := some (unitCopy c.queue)
  let rd : State × Nat × List Byte :=
    if c.op = 2 then (s, 0, fillBytes c.pattern r.2) else s.readRunVia u c.ctx src r.2 obs.far
  if rd.2.1 ≠ 0 ∧ rd.2.1 ≠ 8 then (rd.1.undefineRunVia u c.ctx dst r.2 [], 4, 0#64)
  else
    let marks := if rd.2.1 = 8 then rd.1.runMarks u c.ctx src r.2 permRead else []
    let once := rd.1.writeRunVia u c.ctx dst rd.2.2 obs.sink
    let wr := if c.op = 1 ∧ once.2 = 0 ∧ rd.2.1 = 0 ∧ obs.disagree.val ≠ 0 then once.1.writeRunVia u c.ctx dst rd.2.2 obs.sink else once
    let node := s.nodeOfVa u c.ctx (BitVec.ofNat 64 dst)
    if wr.2 ≠ 0 then (wr.1.undefineRunVia u c.ctx dst r.2 [], 4, 0#64)
    else if rd.2.1 = 8 then (wr.1.undefineRunVia u c.ctx dst r.2 marks, 8, 0#64)
    else if c.op ≠ 1 then (wr.1, 0, 0#64)
    else
      let d := partDigest c.seed c.tag r.1 rd.2.2
      if obs.disagree.val = 2 then
        ((wr.1.undefineRunVia u c.ctx dst r.2 []).digestFailed c node j, 4, BitVec.ofNat 64 d)
      else (wr.1, 0, BitVec.ofNat 64 (d + 2 ^ 63))

/-- Complete a copy whose parts have all ended: the digest record, then the completion record (R246, R247). -/
def State.copyFinish (s : State) (i : Nat) (c : Copy) (recordOk : Bool) (sink : FarReply) : State :=
  if c.parts.any (fun p => p.status.isNone) then s
  else
    let s1 := { s with que := { s.que with copies := s.que.copies.eraseIdx i } }
    let st := (c.parts.map (fun p => p.status.getD 0)).foldl max 0
    let bits := (c.parts.zipIdx.map (fun p => if p.1.status = some 0 then 0 else 2 ^ p.2)).foldl (· + ·) 0
    if c.op = 1 then
      let rec_ := c.parts.flatMap (fun p => leBytes 8 p.digest.toNat)
      let w := if recordOk then s1.writeRunVia (some (unitCopy c.queue)) c.ctx c.dig.toNat rec_ sink else (s1, 4)
      w.1.copyRecord c (if w.2 = 0 then st else max st 4) bits
    else s1.copyRecord c st bits

/-- A part of copy i of the list ends with a status and digest entry. -/
def State.partEnd (s : State) (i j status : Nat) (d : Word) (again recordOk : Bool) (sink : FarReply) : State :=
  match s.que.copies[i]? with
  | some c =>
    let c1 := { c with parts := modifyAt c.parts j (fun _ => ⟨some status, d, again⟩) }
    ({ s with que := { s.que with copies := setAt s.que.copies i c1 } }).copyFinish i c1 recordOk sink
  | none => s

/-- The copy that an event of a queue's i-th running copy concerns, where its part j still runs. -/
def State.runningPart (s : State) (ctx q i j : Nat) : Option (Nat × Copy) :=
  match (s.que.copies.zipIdx.filter (fun p => p.1.ctx == ctx && p.1.queue == q && p.1.started))[i]? with
  | some (c, idx) => match c.parts[j]? with
    | some p => if p.status.isNone then some (idx, c) else none
    | none => none
  | none => none

/-- COPY_PART_END: a part of a running copy ends (R243, R246–R248). -/
def execCopyPartEnd (c : Ctx) (q : Fin 4) (i : Nat) (part : Fin 32) (obs : PartObs) (s : State) : Host.Outcome State Fault Refusal :=
  .next (match s.runningPart c q i part with
    | none => s
    | some (idx, x) =>
      let r := s.copyPart x part obs
      r.1.partEnd idx part r.2.1 r.2.2 (decide (obs.disagree.val ≠ 0)) obs.record obs.sink)

/-- Does a run touch another node? -/
def State.runIsFar (s : State) (u : Option Nat) (ctx va n perm : Nat) : Bool :=
  ((s.gpaPiecesVia u ctx va n perm).getD []).any (fun p => gpaNode p.1 != s.node.toNat)

/-- PART_TIMEOUT: a node that a part needs stops answering: TIMEOUT after 100 ms (R248). A part whose every byte has its
home here waits for no other node. -/
def execPartTimeout (c : Ctx) (q : Fin 4) (i : Nat) (part : Fin 32) (s : State) : Host.Outcome State Fault Refusal :=
  .next (match s.runningPart c q i part with
    | none => s
    | some (idx, x) =>
      let r := partRange x.bytes part
      let u := some (unitCopy q)
      if s.runIsFar u c (x.dst.toNat + r.1) r.2 permWrite ∨ (x.op ≠ 2 ∧ s.runIsFar u c (x.src.toNat + r.1) r.2 permRead) then
        (s.undefineRunVia u c (x.dst.toNat + r.1) r.2 []).partEnd idx part 7 0#64 false true FarReply.ok
      else s)

/-- The bytes of a copy's parts that have not ended are undefined (R247). -/
def State.loseParts (s : State) (c : Copy) : State :=
  (c.parts.zipIdx.filter (fun p => p.1.status.isNone)).foldl (fun s p =>
    let r := partRange c.bytes p.2
    s.undefineRunVia (some (unitCopy c.queue)) c.ctx (c.dst.toNat + r.1) r.2 []) s

/-- End every running copy's unfinished parts with a status (R248, R400, R407). -/
def State.endCopies (s : State) (status : Nat) : State :=
  let running := s.que.copies.filter (·.started)
  let s1 := { s with que := { s.que with copies := s.que.copies.filter (fun c => !c.started) } }
  running.foldl (fun s c =>
    let c1 := { c with parts := c.parts.map (fun p => if p.status.isNone then ⟨some status, 0#64, p.sentTwice⟩ else p) }
    let s2 := s.loseParts c
    ({ s2 with que := { s2.que with copies := s2.que.copies ++ [c1] } }).copyFinish s2.que.copies.length c1 true FarReply.ok) s1

/-- Record the answer to a request of a task: the chunk that carries the identifier. -/
def Run.answer (r : Run) (id : Nat) (a : Reply) : Run :=
  { r with fab := r.fab.map (fun o => { o with chunks := o.chunks.map (fun c =>
      if c.id = some id ∧ c.reply.isNone then { c with reply := some a } else c) }) }

/-- An answer reaches the task that waits for it; one that no task waits for is discarded (R413). -/
def State.answer (s : State) (id : Nat) (a : Reply) : State :=
  { s with cores := { s.cores with runs := s.cores.runs.map (fun p => (p.1, p.2.answer id a)) } }

/-- REQUEST_TIMEOUT: no answer to a request within 100 ms (R299). -/
def execRequestTimeout (id : BitVec 32) (s : State) : Host.Outcome State Fault Refusal :=
  .next (s.answer id.toNat ⟨id, 7#8, [], []⟩)

end Sys2Proof.Machine
end

