-- ==== Sys2Proof/Machine/Reset.lean ====
section
/-! DEFINITION. Resets and what starts them (R373, R393–R401, R405–R415): the lees, abort waves, the compute-domain reset up to
the point where its tasting begins, and the warm reset. -/

namespace Sys2Proof.Machine

/-! ### The lees (R393–R395) -/

/-- A piece of the lees: its length, the context it belongs to and what is known of its bytes, by offset; every other byte the
manual leaves open (log entry 6). -/
structure LeesSeg where
  len : Nat
  ctx : Option Nat
  data : List (Nat × List Byte)
  deriving DecidableEq, Repr

/-- Clusters of a partition. -/
def State.clustersOf (s : State) (p : Nat) : List Nat :=
  (List.range 32).filter (fun n => bitOf (s.fld (fCtxPartClusters p)) n)

/-- Contexts of a partition. -/
def State.contextsOf (s : State) (p : Nat) : List Nat := (List.range 128).filter (fun c => s.partOf c == some p)

/-- Wait reason of a core's task (R391): what its next bundle waits for. -/
def State.waitReason (s : State) (k : Nat) (r : Run) : Nat :=
  match s.bundleAt r with
  | none => 6
  | some b =>
    let is := r.snapshot b
    let c := slotWord b .C
    if (r.primary || r.partner.isNone) && s.stallC k r is c then
      (if opOf c = 0x41 then 0 else if opOf c = 0x63 then 1 else if opOf c = 0x62 then 2 else if opOf c = 0x70 then 3 else 6)
    else if opOf (slotWord b .A) = 0x28 ∧ r.stallA (slotWord b .A) then 4
    else if r.stallI s.time (slotWord b .I) then 5
    else 6

/-- An address generator in a core record: base, then count, stride and index of its five dimensions. -/
def AG.bytes (g : AG) : List Byte :=
  leBytes 8 g.base.toNat ++ g.dims.flatMap (fun d => leBytes 2 d.count.toNat ++ leBytes 4 d.stride.toNat ++ leBytes 2 d.index.toNat)

/-- The record of a physical core (R394); of a core that does not answer (`silent`) little but the respond flag is known. -/
def State.leesCore (s : State) (silent : Nat → Bool) (phys : Nat) : LeesSeg :=
  let fixed : List (Nat × List Byte) := [(8, leBytes 1 (s.coreState phys)), (15, [0#8]), (24, List.replicate 40 0#8)]
  let answers : List (Nat × List Byte) := [(10, leBytes 1 (if silent phys then 0 else 0x10))]
  match (s.lcoreOf phys).bind (fun k => (s.runOf k).map (fun r => (k, r))) with
  | none => ⟨512, none, [(5, [0xFF#8])] ++ fixed ++ answers⟩
  | some (k, r) =>
      let head : List (Nat × List Byte) :=
        (0, leBytes 4 r.task.id ++ leBytes 1 r.task.prog ++ leBytes 1 r.task.ctx) :: fixed
      if silent phys then ⟨512, some r.task.ctx, head ++ answers⟩
      else
        let anchor : Int := match r.chain with
          | some c => c.anchorOf (s.coreByte k)
          | none => 0
        let fl := r.recFlags % 8 + 8 * ofBool r.chain.isSome + 16
        let ops := match r.chain with
          | some c => c.ops.length
          | none => 0
        ⟨512, some r.task.ctx, head ++
          [(6, leBytes 2 r.pc), (9, leBytes 1 (s.waitReason k r) ++ leBytes 1 fl ++ leBytes 1 r.fab.length
              ++ leBytes 2 (toBits 16 anchor) ++ leBytes 1 ops), (64, r.ags.flatMap AG.bytes), (256, r.xs.flatMap (fun x => leBytes 8 x.toNat))]⟩

/-- A task as its descriptor (R175). -/
def Task.bytes (t : Task) : List Byte :=
  let w := match t.wait with
    | some i => 2 ^ 31 + i
    | none => 0
  let d := match t.done with
    | some (n, i) => 2 ^ 31 + n.toNat * 2 ^ 14 + i
    | none => 0
  leBytes 4 t.id ++ leBytes 1 t.prog ++ leBytes 1 (ofBool t.shadow + 2 * ofBool t.quiet + 4 * ofBool t.decant) ++ leBytes 2 0
  ++ leBytes 4 w ++ leBytes 4 d ++ t.args.flatMap (fun a => leBytes 8 a.toNat)

/-- The pool of a cluster in the lees. -/
def State.leesPool (s : State) (n : Nat) : List LeesSeg :=
  let ts := s.cores.pool.filter (fun t => t.cluster == n)
  ts.map (fun t => ⟨64, some t.ctx, [(0, t.bytes)]⟩) ++ [⟨64 * (512 - ts.length) + 64, none, []⟩]

/-- Queues, rings and communication queues of a context in the lees: sixteen bytes each. -/
def State.leesQueues (s : State) (c : Nat) : List LeesSeg :=
  List.replicate (28 + ((List.range 1024).filter (fun n =>
    s.fld (fGrpGStateState n) != gFree && s.fld (fGrpGStatContext n) == c)).length) ⟨16, some c, []⟩

/-- The pieces of a partition's lees, in the order of R394. -/
def State.leesSegs (s : State) (p : Nat) (silent : Nat → Bool) : List LeesSeg :=
  let cls := s.clustersOf p
  let ctxs := s.contextsOf p
  [⟨64, none, []⟩]
  ++ cls.flatMap (fun n => (List.range 18).map (fun j => s.leesCore silent (n * 18 + j)))
  ++ cls.flatMap s.leesPool ++ ctxs.flatMap s.leesQueues
  ++ (s.sync.filter (fun o => ctxs.contains o.2.holder)).map (fun o => ⟨32, some o.2.holder, []⟩)

/-- Start of a partition's lees area. -/
def leesAt (p : Nat) : Nat := contextSpaceEnd + p * 2 ^ 22

/-- Which physical cores do not answer the capture in time (R394): those that the command names by logical core; where the reset comes of
itself, those that are being reset and, which nothing here tells, others by a free value (log entry 116). -/
def State.silentCores (s : State) (given : Option (List Nat)) (phys : Nat) : Bool :=
  match given with
  | some l => (match s.lcoreOf phys with
    | some k => l.contains k
    | none => false)
  | none => bitOf (Config.freeNat s.free) phys || (match s.lcoreOf phys with
    | some k => s.coreInReset k
    | none => false)

/-- Capture a partition's lees (R393, R394). -/
def State.capture (s0 : State) (p seq code : Nat) (silent : Option (List Nat)) : State :=
  let segs := s0.leesSegs p (s0.silentCores silent)
  let s := { s0 with free := s0.free + 1 }
  let placed := (segs.foldl (fun (acc : Nat × List (Nat × LeesSeg)) g => (acc.1 + g.len, acc.2 ++ [(acc.1, g)])) (0, [])).2
  let s1 := s.forget (leesAt p) (2 ^ 22)
  let m := placed.foldl (fun m g => g.2.data.foldl (fun m d => m.put (leesAt p + g.1 + d.1) d.2) m) s1.mem
  let rec_ : Lees := ⟨p, seq, code, BitVec.ofNat 64 s.stampTime, placed.map (fun g => (g.1, g.2.len, g.2.ctx))⟩
  let e := { s1.err with lees := s1.err.lees.filter (fun l => l.part != p) ++ [rec_] }
  ({ s1 with mem := m, err := e }).setFld fErrLeesValid (s1.fld fErrLeesValid ||| 2 ^ p)

/-! ### The compute-domain reset (R410) -/

/-- Causes of RST.PART (R432). -/
def rcHost : Nat := 1
def rcFatal : Nat := 2
def rcEscalated : Nat := 3
def rcWave : Nat := 4

/-- Step 4: every task of the partition that was fetched ends ABORTED. -/
def State.abortPart (s : State) (p : Nat) : State :=
  let cls := s.clustersOf p
  let mine (k : Nat) : Bool := cls.contains (clusterOf k)
  let ks := (s.cores.runs.map Prod.fst).filter mine
  let nexts := (s.cores.next.filter (fun x => mine x.1)).map Prod.snd
  let pool := s.cores.pool.filter (fun t => cls.contains t.cluster)
  let fed := s.que.fed.filter (fun t => s.partOf t.ctx == some p)
  let s1 := ks.foldl State.abortRun (s.setFlds (cls.map (fun n => (fTstClRunning n, 0))))
  let s2 := (nexts ++ pool ++ fed).foldl State.abortTask s1
  { s2 with
    cores := { s2.cores with
      runs := s2.cores.runs.filter (fun x => !mine x.1), next := s2.cores.next.filter (fun x => !mine x.1)
      reserved := s2.cores.reserved.filter (fun x => !mine x.1)
      pool := s2.cores.pool.filter (fun t => !cls.contains t.cluster)
      wavesDue := s2.cores.wavesDue.map (fun w => (w.1, w.2.filter (fun k => !mine k)))
      tasting := s2.cores.tasting.filter (fun t => !cls.contains t.1) }
    que := { s2.que with fed := s2.que.fed.filter (fun t => s.partOf t.ctx != some p) } }

/-- Step 5: descriptors not yet fetched are discarded. -/
def State.dropUnfetched (s : State) (p : Nat) : State :=
  (s.contextsOf p).foldl (fun s c => (List.range 16).foldl (fun s q =>
    s.setFld (fQueCqStateHead c q) (s.fld (fQueCqStateTail c q))) s) s

/-- Step 7: queued tokens and those on their way go, every send side returns to 16 credits. -/
def State.dropTokens (s : State) (p : Nat) : State :=
  let mine (key : Nat) : Bool := s.partOfCluster (clusterOf (key / 8)) == some p
  { s with cores := { s.cores with
    endpoints := s.cores.endpoints.map (fun e => if mine e.1 then (e.1, { e.2 with queue := [], credits := 16 }) else e)
    tokens := s.cores.tokens.filter (fun t => !mine t.1)
    heldTokens := s.cores.heldTokens.filter (fun t => !mine t.1) } }

/-- Step 8: core stores and cluster stores are cleared. -/
def State.clearStores (s : State) (p : Nat) : State :=
  (s.clustersOf p).foldl (fun s n =>
    (List.range 18).foldl (fun s j => s.clearMem (coreStoreAt (n * 18 + j) 0) (2 ^ 20))
      (s.clearMem (clusterStoreAt n 0) (2 ^ 23))) s

/-- Is a unit part of a partition's compute domain? -/
def RUnit.inPart (s : State) (p : Nat) : RUnit → Bool
  | .engine k _ => s.partOfCluster (clusterOf k) == some p
  | .core k => s.partOfCluster (clusterOf k) == some p
  | .cluster n => s.partOfCluster n == some p
  | .domain q => q.val == p

/-- The number of a partition as the syntax has it. -/
def partFin (p : Nat) : Sys2Proof.Part := ⟨p % 4, Nat.mod_lt _ (by decide)⟩

/-- Steps 1–8 of a compute-domain reset, for a cause, with the record that caused it (R410, R411, R414): a partition already
RESETTING takes only the hold, one that is CLOSED or DOWN is left. -/
def State.domainReset (s : State) (p cause seq code : Nat) (hold : Bool) (silent : Option (List Nat)) : State :=
  let st := s.fld (fCtxPartState p)
  if st = pResetting then (if hold then s.setFld (fRstPartHeld p) 1 else s)
  else if st ≠ pOpen then s
  else
    let s1 := (s.setFlds [(fCtxPartState p, pResetting), (fRstPartResetting p, 1), (fRstPartCause p, cause),
      (fRstPartHeld p, ofBool hold)]).bump (fRstPartCount p) 1
    let s2 := (((((s1.capture p seq code silent).abortPart p).dropUnfetched p).dropTokens p).clearStores p).refreshReady
    { s2 with cores := { s2.cores with
      resetting := s2.cores.resetting.filter (fun u => !RUnit.inPart s p u) ++ [.domain (partFin p)]
      resetAt := insertKey s2.cores.resetAt p s.time } }

/-! ### Abort waves (R396–R401) -/

/-- Modes of ERR.CTL (R396). -/
def modeService : Nat := 0

/-- The content of a wave flit (R398). -/
def waveFlit (origin gen domain code hops : Nat) : List Byte :=
  leBytes 3 (2 ^ 22 - 1 + 2 * 2 ^ 22) ++ [0xA0#8] ++ leBytes 4 gen ++ leBytes 2 origin ++ leBytes 2 domain ++ leBytes 2 code
  ++ leBytes 1 hops ++ List.replicate 29 0#8

/-- Send a wave on every UP_SEALED port but one. -/
def State.waveOut (s : State) (but : Option Nat) (origin gen domain code hops : Nat) : State :=
  ((List.range 32).filter (fun p => s.fld (fLnkPortStateState p) == stSealed && but != some p)).foldl
    (fun s p => s.sendExpress p (waveFlit origin gen domain code hops)) s

/-- Remember a wave, among the last 64. -/
def State.noteWave (s : State) (origin : Node) (gen : Nat) : State :=
  let l := s.err.waves ++ [(origin, gen)]
  { s with err := { s.err with waves := l.drop (l.length - 64) } }

/-- Halt every copy queue that runs (R400). -/
def State.haltCopies (s : State) : State :=
  (List.range 128).foldl (fun s c => (List.range 4).foldl (fun s q =>
    if s.fld (fQueXqStateState c q) = 1 then s.setFld (fQueXqStateState c q) 2 else s) s) s

/-- Act on a wave (R400): collectives and running copies end ABORTED, ABORT_WAVE is logged and every OPEN partition's compute
domain is reset. -/
def State.waveAct (s : State) (origin gen code : Nat) : State :=
  let s1 := ((s.endCollectives 0x0A).endCopies 0x0A).haltCopies
  let seq := s1.err.seq
  let s2 := s1.log { code := 0x0504, cls := 2, action := 7, detail := leBytes 2 origin ++ leBytes 4 gen ++ leBytes 2 code }
  (List.range 4).foldl (fun s p => s.domainReset p rcWave seq 0x0504 false none) s2

/-- Start a wave with a code (R397). -/
def State.waveSend (s : State) (code : Nat) : State :=
  let gen := s.err.waveGen + 1
  let s1 := { s with err := { s.err with waveGen := gen } }
  (s1.waveOut none s.node.toNat gen (s.fld fErrCtlDomain) code 0).noteWave s.node gen

/-- Start a wave and act on it here, as in every mode but SERVICE (R400). -/
def State.waveStart (s : State) (code : Nat) : State :=
  let s1 := s.waveSend code
  s1.waveAct s.node.toNat s1.err.waveGen code

/-! ### The warm reset (R406–R408) -/

/-- Causes of RST.CAUSE (R432). -/
def caCold : Nat := 0
def caPerst : Nat := 1
def caHotReset : Nat := 2
def caFlr : Nat := 3
def caHost : Nat := 4
def caRack : Nat := 5
def caFatal : Nat := 6
def caWatchdog : Nat := 7
def caPowerOff : Nat := 8

/-- Register fields that a warm reset keeps (R405, R408, R415): the rack manager's ceiling and order, the management link and its key,
the I3C address, and what the seal-loop monitor shows now. -/
def warmKept : List Fld :=
  [fPwrRackCeiling, fPwrRackOrder, fPwrRackGraceful, fMgtLinkUp, fMgtLinkGlobal, fMgtLinkFec, fMgtLinkKey, fMgtAddrhiAddr,
   fMgtAddrloAddr, fMgtI3cEid, fMgtI3cDynAddr, fSecStateSealClosed]

/-- What the inputs show at the end of the auxiliary stage, from which on the host can read it (R415): PRESENCE_N, and the feeds' contacts
and volts (R336, R506, R508). -/
def State.sampleInputs (s : State) : State :=
  s.setFlds [(fSecStatePresence, ofBool s.pins.presence), (fPwrFeedAMate, ofBool s.pins.mateA), (fPwrFeedBMate, ofBool s.pins.mateB),
    (fPwrFeedAVolts, s.pins.voltsA), (fPwrFeedBVolts, s.pins.voltsB)]

/-- Warnings that no reset ends (R483): those of the coolant, until their condition ends, LEAK and SENSING_LOST, until DRY. -/
def outlasts (code : Nat) : Bool := code == 1 || code == 2 || code == 3 || code == 4 || code == 7 || code == 8

/-- What every reset does in flash (R452): a pending enrolment and a pending debug change take effect. -/
def Flash.atReset (f : Flash) : Flash :=
  let f1 := match f.debugPending with
    | some d => { f with debug := d, debugPending := none }
    | none => f
  match f1.ownerPending with
  | some k => ({ f1 with owner := some k, ownerPending := none, floor := 0, win0 := 0#64, win1 := 0#64, requireIde := true } : Flash).wrote 6 [0]
  | none => f1

/-- State of the staged bundle (R466): 0 NONE, 2 STAGED, 3 FAILED. -/
def Flash.stagedState (f : Flash) : Nat := match f.staged with
  | some b => if b.failed then 3 else 2
  | none => 0

/-- The security registers that follow flash and the firmware that runs (R466). -/
def State.showSec (s : State) : State :=
  let f := s.flash
  s.setFlds [(fSecStateZeroised, ofBool f.zeroised), (fSecStateDebug, ofBool f.debug), (fSecStateDebugPending, ofBool f.debugPending.isSome),
    (fSecStateOwner, ofBool f.owner.isSome), (fSecStateEnrollPending, ofBool f.ownerPending.isSome),
    (fSecOwnerKeyId, match f.owner with
      | some k => (keyTag k).toNat
      | none => 0),
    (fSecSvnFusedMin, f.svnFused), (fSecSvnFloor, f.svnFloor), (fSecSvnRunning, s.sec.running.svn),
    (fSecSvnStaged, match f.staged with
      | some b => b.bank.svn
      | none => 0),
    (fSecFwRunning, s.sec.running.vintage),
    (fSecFwStaged, match f.staged with
      | some b => b.bank.vintage
      | none => 0),
    (fSecFwstateMode, match f.staged with
      | some b => ofBool b.together
      | none => 0),
    (fSecFwstateStagedState, if s.sec.receiving.isSome || s.sec.writing.isSome then 1 else f.stagedState),
    (fSecFwstateActive, f.active), (fSecWin0Mask, f.win0.toNat), (fSecWin1Mask, f.win1.toNat), (fSecIdeRequireIde, ofBool f.requireIde)]

/-- Fields that reload from flash at a start (R408): the start count, the defect log, the fatal-module errors, what the image
chapter and the screen keep, the security state. -/
def State.loadFlash (s : State) : State :=
  let f := s.flash
  let serial := match f.image with
    | some b => field b 16 8
    | none => 0
  ({ s with img := { s.img with startC := f.sinceFull.getD 255 } }.setFlds [(fRstCauseBoot, f.boot), (fErrDlogEntries, f.defects.length), (fErrCountFatalModule, min 255 f.fatalCount),
    (fCuveeFloorFloor, f.floor), (fCuveeStoredSerial, serial), (fCuveeResultStoredValid, ofBool f.image.isSome),
    (fMemcScreenSinceFull, f.sinceFull.getD 255)]
    |>.setFlds ((List.range 12).map (fun k => (fMemcStkDisturbMeasured k, min 65535 ((lookupKey f.disturb k).getD 0))))).showSec

/-- A fresh random SEC.NONCE (R451). -/
def State.freshNonce (s : State) : State :=
  let f := s.takeFree
  f.2.setReg rSecNonce f.1

/-- The inactive bank is written with a bundle, or its write has failed: then it holds none, and the bundle is marked FAILED (R458, R459,
R465). -/
def Flash.stage (f : Flash) (b : FwStaged) (ok : Bool) : Flash :=
  ({ f with
    banks := setAt f.banks (1 - f.active) (if ok then b.bank else FwBank.blank)
    staged := some { b with failed := !ok } } : Flash).wrote (1 - f.active) (List.range b.sectors)

/-- Flash when a reset or the loss of VAUX cuts a write short: a bundle still being written is marked FAILED (R465). -/
def State.flashCut (s : State) : Flash := match s.sec.writing with
  | some b => s.flash.stage b false
  | none => s.flash

/-- The records that are due since an earlier state are written before a reset takes them, where they still can be: to a ring in host
memory with space, and no record waits before them (log entry 91). -/
def State.flushSince (s before : State) : State :=
  (s.que.recs.drop before.que.recs.length).foldl (fun t w =>
    let key := ringKey w.record.ctx w.ring
    let waits := before.que.recs.any (fun x => !x.quiet && ringKey x.record.ctx x.ring == key)
    if w.quiet ∨ waits ∨ !t.ringOn key ∨ !t.bit (fQueRingCfgLoc w.record.ctx w.ring) ∨ t.ringSpace key = 0 then t
    else
      let n := t.fld (fQueRingCfgLog2size w.record.ctx w.ring)
      let p := t.fld (fQueRingStateTail w.record.ctx w.ring)
      let a := t.fld (fQueRingBaseBase w.record.ctx w.ring) * 32 + p % 2 ^ n * 32
      let b := w.record.bytes (ringGen p n)
      ((t.emit (.hostWrite a (b.take 31))).emit (.hostWrite (a + 31) (b.drop 31))).setFld
        (fQueRingStateTail w.record.ctx w.ring) ((p + 1) % 2 ^ 24)) s

/-- At the module's own reset the isolation wrappers end the parts of running copies ISOLATED (R248) and collectives in flight ABORTED
(R320); where the PCIe link stays up, their records are still written. -/
def State.isolate (s : State) (cause : Nat) : State :=
  if !(s.que.copies.any (·.started)) && s.grp.inflight.isEmpty then s
  else
    let s1 := (s.endCollectives 0x0A).endCopies 0x09
    if cause ≤ caFlr then s1 else s1.flushSince s

/-- A start after a reset: everything at reset but flash, the VAUX domain where it lasted, and what the model counts for
itself; the start count rises. -/
def State.restart (s0 : State) (cause code aux : Nat) : State :=
  let s := s0.isolate cause
  let f := s.flashCut.atReset
  let s1 : State := { State.reset with
    flash := ({ f with boot := f.boot + 1 } : Flash).wrote 6 [2], free := s.free, out := s.out, pending := s.pending
    fab := { State.reset.fab with moduleKey := s.fab.keys + 1, keys := s.fab.keys + 1 }
    sec := { State.reset.sec with running := f.banks.getD f.active FwBank.blank } }
  (s1.loadFlash.setFlds [(fRstCauseCause, cause), (fRstCauseCode, code), (fBringStateAux, aux)]).freshNonce

/-! ### The outputs (R491, R507, R508) -/

/-- LOCATE_N asserted: any source's request is on. -/
def State.locateOn (s : State) : Bool := s.bit fMgtCtlLocateHost || s.mgmt.locateConfig || s.mgmt.locatePldm

/-- ATTN_N asserted: a warning is active, a bundle is staged or the presence window is open. -/
def State.attnOn (s : State) : Bool := !s.mgmt.active.isEmpty || s.flash.stagedState == 2 || s.sec.window.isSome

/-- SVC_DO of itself: high-impedance while SVC_EN is deasserted, else high between frames (R505, R508). -/
def State.svcDo (s : State) : SvcDo := if s.pins.svcEn then .high else .highZ

/-- The levels of LOCATE_N, FAULT_N, ATTN_N and SVC_DO. Until the auxiliary stage ends the indicators are released after a cold reset, and
all four held after a warm one; without VAUX they are released (R507, R508). -/
def State.outputs (s : State) : PinLevels :=
  if !s.pins.vaux then ⟨false, false, false, .highZ⟩
  else if s.fld fBringStateAux ≤ 1 then s.pins.held.getD ⟨false, false, false, s.svcDo⟩
  else ⟨s.locateOn, s.faultOn, s.attnOn, s.svcDo⟩

/-- Is an offset in the MSI-X table and pending-bit array (R4)? -/
def msixAt (off : Nat) : Bool := decide (0x01400000 ≤ off ∧ off < 0x01404000)

/-- A warm reset (R405, R407, R408, R415): as a start, with the VAUX domain kept: management key, send counter and floors, what
`warmKept` names, the feeds, the power holds, the outputs, the warnings that outlast a reset (R483); the MSI-X table and the BAR4 size stay but where PCIe resets the function.
Corrected records still queued are counted as lost (R380). The auxiliary stage runs, or waits while PERST_N is asserted. The reason
of OFF shows on while what holds it lasts. -/
def State.warm (s : State) (cause code aux : Nat) : State :=
  let s0 := s.restart cause code (if s.pins.perst then 0 else aux)
  let pcie := cause == caPerst || cause == caHotReset || cause == caFlr
  let s1 : State := if pcie then s0 else { s0 with
    regs := s.regs.foldl (fun l r => if msixAt r.1 then writeKey regReset l r.1 r.2 else l) s0.regs
    fab := { s0.fab with bar4Log2 := s.fab.bar4Log2 } }
  let lost := (s.mgmt.queue.filter (·.corrected)).length
  let m := { s1.mgmt with key := s.mgmt.key, sendCtr := s.mgmt.sendCtr, floors := s.mgmt.floors, dropped := s.mgmt.dropped + lost
                          active := s.mgmt.active.filter (fun w => outlasts w.1) }
  let w := { s1.pwr with validA := s.pwr.validA.map (fun _ => 0), validB := s.pwr.validB.map (fun _ => 0)
                         holdThermal := s.pwr.holdThermal, holdLeak := s.pwr.holdLeak, holdFeeds := s.pwr.holdFeeds }
  let x := { s1.sec with pressed := s.sec.pressed, openRun := s.sec.openRun }
  ((({ s1 with mgmt := m, pwr := w, sec := x, pins := { s.pins with held := some s.outputs } }).setFlds
    (warmKept.map (fun f => (f, s.fld f)))).setFld fPwrInputOffReason (s.fld fPwrInputOffReason)).pwrShow

/-- Every rail but VAUX is removed (R347, R368). -/
def State.railsOff (s : State) : State :=
  s.setFlds ((List.range 12).flatMap (fun r => [(fPwrRailPhasesOk r, 0), (fPwrRailMv r, 0)]) ++ (List.range 4).map (fun d => (fPwrDieVcore d, 0)))

/-- An order or a hold changed (R368, R369, R406, R426): OFF after POWER has completed is a warm reset that keeps what holds it, a
host order among them; before that a running POWER step fails with HELD_OFF. -/
def State.pwrUpdate (s : State) : State :=
  let off := s.offSources
  if off.isEmpty then s.pwrShow
  else if s.stepDone 2 then
    let r := s.fld fPwrInputOffReason
    let s1 := (s.setFld fPwrInputOffReason (if off.contains r then r else off.headD 0)).warm caPowerOff 0 1
    (((if s.fld fPwrHostOrder = 2 then s1.setFld fPwrHostOrder 2 else s1).setFld fPwrInputOffReason
      (if off.contains r then r else off.headD 0))).pwrShow
  else
    let s1 := if s.bit fBringStateBusy ∧ s.fld fBringStateStep = 2 then
        ({ s with img := { s.img with stepRes := 5 } }).railsOff.setFlds
          ([fPwrFeedAState, fPwrFeedBState].filterMap (fun f => if s.fld f = 4 then none else some (f, 0)))
      else s
    s1.pwrShow

/-- A fatal-domain error (R373, R396): logged; in every mode but SERVICE a wave leaves; the partitions concerned are reset. -/
def State.fatalDomain (s : State) (e : ErrArg) (parts : List Nat) (cause : Nat) : State :=
  let seq := s.err.seq
  let s1 := s.log { e with cls := 2 }
  let wave := s.fld fErrCtlMode != modeService
  let s2 := if wave then s1.waveSend e.code else s1
  let s3 := parts.foldl (fun s p => s.domainReset p cause seq e.code false none) s2
  if wave then s3.waveAct s.node.toNat s3.err.waveGen e.code else s3

/-- A fatal-module error (R373, R396, R400, R406): logged; in every mode but SERVICE a wave leaves and is acted on here too; the module is
reset. -/
def State.fatalModule (s : State) (e : ErrArg) (cause : Nat) : State :=
  let s1 := s.log { e with cls := 3, action := 8 }
  let s2 := if s.fld fErrCtlMode = modeService then s1 else (s1.waveStart e.code).flushSince s1
  s2.warm cause e.code 1

end Sys2Proof.Machine
end

