-- ==== Sys2Proof/Machine/Moves.lean ====
section
/-! DEFINITION. Monitors, tasting, retirement, moves of logical cores, and the levels of reset below the module (R57–R60, R81,
R188, R383–R392, R410–R414). -/

namespace Sys2Proof.Machine

/-- What the tasting of a physical core remembers. -/
def State.coreLog (s : State) (phys : Nat) : CoreLog := (lookupKey s.cores.logs phys).getD ⟨0, 0, [], [], []⟩

/-- Replace it. -/
def State.setCoreLog (s : State) (phys : Nat) (l : CoreLog) : State :=
  { s with cores := { s.cores with logs := insertKey s.cores.logs phys l } }

/-- The times within the last 24 hours, with now. -/
def State.recent (s : State) (l : List Nat) : List Nat := l.filter (fun t => decide (s.time < t + dayNs)) ++ [s.time]

/-! ### Tasks given back (R57, R412) -/

/-- Put a task back into its pool, in queue order. -/
def backToPool (l : List Task) (t : Task) : List Task :=
  match l with
  | [] => [t]
  | u :: l => if t.place < u.place then t :: u :: l else u :: backToPool l t

/-- The tasks given to a core that have not started return to its pool (R412), with those of a primary whose shadow it was to
run. -/
def State.returnNext (s : State) (k : Nat) : State :=
  let ks := k :: (s.cores.reserved.filter (fun p => p.2 == k)).map Prod.fst
  let back := (s.cores.next.filter (fun p => ks.contains p.1)).map Prod.snd
  { s with cores := { s.cores with
    next := s.cores.next.filter (fun p => !ks.contains p.1)
    reserved := s.cores.reserved.filter (fun p => !ks.contains p.1)
    pool := back.foldl backToPool s.cores.pool } }

/-- A move of a logical core is due: its credits are withdrawn, and tasks it was given return to the pool (R57 step 1, R80,
log entry 80). -/
def State.moveDue (s : State) (n : Nat) (m : CoreMove) : State :=
  (({ s with cores := { s.cores with moves := insertKey s.cores.moves n m } }).returnNext m.lcore).settle

/-! ### Retirement (R57–R60, R385) -/

/-- Take a core out of the tasting orders; the last core that TST.REQ asked for ends its request (R428). -/
def State.forgetTaste (s : State) (phys : Nat) : State :=
  let l := s.cores.asked.filter (· != phys)
  let s1 := { s with cores := { s.cores with
    tasteHead := s.cores.tasteHead.filter (· != phys), mustTaste := s.cores.mustTaste.filter (· != phys), asked := l } }
  if s.cores.asked.contains phys ∧ l.isEmpty then s1.setFlds [(fTstReqStatus, 0), (fTstReqBusy, 0)] else s1

/-- Is a core of the cluster overdue (R386)? -/
def State.anyOverdue (s : State) (n : Nat) : Bool :=
  (List.range 18).any (fun j => decide (s.coreState (n * 18 + j) ≤ 1 ∧ s.time > (s.coreLog (n * 18 + j)).lastPass + hourNs))

/-- A cluster's overdue clears, and with it its warning (R386, R483). -/
def State.overdueClear (s : State) (n : Nat) : State :=
  if s.bit (fTstClOverdue n) && !s.anyOverdue n then
    (s.setFld (fTstClOverdue n) 0).clearWarning 0x09 2 n
  else s

/-- CORE_RETIRED is logged with the source and the fabric time of the last pass, and the core enters the defect log, for a fault of its
store with the row (R385, R389). -/
def State.retireLog (s : State) (phys source row : Nat) : State :=
  ((s.log { code := 0x0202, kind := 3, unit := phys, action := 5, part := s.partOfCluster (phys / 18), defect := s.canList
            detail := leBytes 1 source ++ leBytes 8 (s.coreLog phys).passAt }).defect 3 source phys row 0x0202 0).bump
    (fTstClRetired (phys / 18)) 1

/-- Show whether a command of RST.CTL still awaits the reset of a partition (R432). -/
def State.rstAwait (s : State) (ps : List Nat) : State :=
  ({ s with cores := { s.cores with rstParts := ps } }).setFld fRstCtlBusy (ofBool !ps.isEmpty)

/-- The reset of a partition that a command awaits is over. -/
def State.rstOver (s : State) (p : Nat) : State := if s.cores.rstParts.contains p then s.rstAwait (s.cores.rstParts.filter (· != p)) else s

/-- A partition goes DOWN (R60, R67): its compute domain stays held in reset. Cores whose retirement is due are RETIRED without a move, and
a riddling move that has not begun does not come about. -/
def State.partDown (s : State) (p reason : Nat) : State :=
  let mine (n : Nat) : Bool := s.partOfCluster n == some p
  let due := s.cores.retireDue.filter (fun q => mine (q / 18))
    ++ (s.cores.moves.filter (fun m => mine m.1 && m.2.retire && !m.2.begun)).map (fun m => m.2.from_)
  let s1 := due.foldl (fun s q => s.setCoreState q 2) s
  (({ (s1.setFlds [(fCtxPartState p, pDown), (fCtxPartDownReason p, reason), (fRstPartResetting p, 0), (fRstPartHeld p, 0)]) with
    cores := { s1.cores with
      resetting := s1.cores.resetting.filter (fun u => u != RUnit.domain (partFin p))
      moves := s1.cores.moves.filter (fun m => !mine m.1 || m.2.begun)
      retireDue := s1.cores.retireDue.filter (fun q => !mine (q / 18)) } }).rstOver p).faultSince s

/-- down_reason codes of CTX.PART (R88). -/
def drNoSpare : Nat := 1
def drDefects : Nat := 2

/-- A retirement without a spare (R60): the core is RETIRED without a move, NO_SPARE resets the compute domain, which stays
held. Tasks that were fetched while an earlier reset held it end ABORTED too. -/
def State.noSpare (s : State) (phys : Nat) : State :=
  let s1 := (s.setCoreState phys 2).overdueClear (phys / 18)
  match s.partOfCluster (phys / 18) with
  | some p =>
    let s2 := s1.fatalDomain { code := 0x0203, kind := 3, unit := phys, action := 7, part := some p } [p] rcFatal
    ((s2.abortPart p).dropUnfetched p).partDown p drNoSpare
  | none => s1

/-- The spare that a move takes: one that is not being tasted, the tested one only where it is the only one (R384). DESIGN CHOICE (log
entry 80): of several, the lowest. -/
def State.moveTarget (s : State) (n : Nat) : Option Nat :=
  let sp := s.sparesOf n
  let busy (p : Nat) : Bool := match lookupKey s.cores.tasting n with
    | some t => t.core == p
    | none => false
  match sp.find? (fun p => !busy p) with
  | some p => some p
  | none => sp.head?

/-- Start the retirement of a logical core's physical core: a move to a spare, one at a time in a cluster, ahead of a riddling move
that has not begun. A riddling move that has begun completes first, and its source is then a spare (R57, R59, R60). -/
def State.retireActive (s : State) (phys : Nat) : State :=
  let n := phys / 18
  match s.lcoreOf phys with
  | none => s.setCoreState phys 2
  | some k =>
    let wait : State := ({ s with cores := { s.cores with retireDue := s.cores.retireDue ++ [phys] } }).returnNext k
    match lookupKey s.cores.moves n with
    | some m =>
      if m.begun ∧ !m.retire then wait
      else if (s.sparesOf n).isEmpty then s.noSpare phys
      else if m.begun ∨ m.retire then wait
      else s.moveDue n ⟨k, phys, none, true, false⟩
    | none => if (s.sparesOf n).isEmpty then s.noSpare phys else s.moveDue n ⟨k, phys, none, true, false⟩

/-- A move that has not begun meets a cluster without a SPARE core: a riddling move ends, a retirement goes on without a move (R59,
R60). -/
def State.spareLost (s : State) (n : Nat) : State :=
  match lookupKey s.cores.moves n with
  | some m =>
    if m.begun ∨ !(s.sparesOf n).isEmpty then s
    else
      let s1 := { s with cores := { s.cores with moves := eraseKey s.cores.moves n } }
      if m.retire then s1.noSpare m.from_ else s1
  | none => s

/-- Retire a physical core for a source of R389, with the row of its store that failed (R385). -/
def State.retireAt (s : State) (phys source row : Nat) : State :=
  let s1 := (s.retireLog phys source row).forgetTaste phys
  (if s.coreState phys = 1 then (s1.setCoreState phys 2).spareLost (phys / 18)
  else if s.coreState phys = 0 then s1.retireActive phys
  else s1).overdueClear (phys / 18)

/-- Retire a physical core for a source that names no row. -/
def State.retire (s : State) (phys source : Nat) : State := s.retireAt phys source 0

/-- End the tasting test of a cluster. -/
def State.tasteEnd (s : State) (n : Nat) : State :=
  ({ s with cores := { s.cores with tasting := eraseKey s.cores.tasting n } }).setFld (fTstClRunning n) 0

/-! ### Moves (R57, R58, R363) -/

/-- A core whose store met a hard fault is retired, where that has not come about (R221, R389). -/
def State.hardRetire (s : State) (h : Nat × Nat) : State :=
  let s1 := { s with cores := { s.cores with hardFaults := s.cores.hardFaults.filter (fun x => x.1 != h.1) } }
  (if s.coreState h.1 ≤ 1 then s1.retireAt h.1 6 h.2 else s1).settle

/-- MOVE_BEGIN: the source core runs no task and a spare enters MOVING (R57 step 2, R384): a riddling move waits while its spare is
tasted, a retirement abandons the test. The spare that a riddling move named is taken while it is SPARE, else another; without any,
R59 and R60 apply. A core whose store met a hard fault is retired first (R221). -/
def execMoveBegin (n : Cluster) (s : State) : Host.Outcome State Fault Refusal :=
  .next (match s.cores.hardFaults.find? (fun h => h.1 / 18 == n.val), lookupKey s.cores.moves n with
    | some h, _ => s.hardRetire h
    | none, none => s
    | none, some m =>
      let target := match m.to_ with
        | some b => if s.coreState b = 1 then some b else s.moveTarget n
        | none => s.moveTarget n
      let tested (b : Nat) : Bool := match lookupKey s.cores.tasting n with
        | some t => t.core == b
        | none => false
      if m.begun then s
      else match target with
        | none => (s.spareLost n).settle
        | some b =>
          if (s.runOf m.lcore).isSome ∨ s.coreResetting m.lcore ∨ (!m.retire ∧ tested b) then s
          else
            let s1 := if tested b then s.tasteEnd n else s
            let m1 : CoreMove := { m with to_ := some b, begun := true }
            ({ s1 with cores := { s1.cores with moves := insertKey s1.cores.moves n m1 } }).setCoreState b 3)

/-- A logical core takes a spare in place of its physical core (R57 steps 3 and 4). -/
def State.moveCore (s : State) (k a b : Nat) (retire : Bool) : State :=
  let owner := lookupKey s.cores.storeOwner a
  let m := (s.mem.copy (coreStoreAt a 0) (coreStoreAt b 0) (2 ^ 20)).clear (coreStoreAt a 0) (2 ^ 20)
  let own := match owner with
    | some c => insertKey (eraseKey s.cores.storeOwner a) b c
    | none => eraseKey s.cores.storeOwner b
  let s1 := { s with mem := m, cores := { s.cores with storeOwner := own } }
  ((s1.setMap k (b % 18)).setCoreState b 0).setCoreState a (if retire then 2 else 1)

/-- Steps 3 and 4 of a move of cluster n to spare b: the core store is copied, every line of it read with the parity check of R220, the map
names the spare, and what the network interface held is delivered (R57, R58). -/
def State.moveEnd (s : State) (n : Nat) (m : CoreMove) (b : Nat) (lines : List StoreLine) : State :=
  let s0 := s.storeReads m.lcore [(0, 2 ^ 20)] lines
  let s1 := s0.moveCore m.lcore m.from_ b m.retire
  (({ s1 with cores := { s1.cores with moves := eraseKey s1.cores.moves n } }).releaseTokens m.lcore).overdueClear n

/-- The next retirement due in a cluster starts. -/
def State.retireNext (s : State) (n : Nat) : State :=
  match s.cores.retireDue.find? (fun p => p / 18 == n) with
  | some p => ({ s with cores := { s.cores with retireDue := s.cores.retireDue.filter (· != p) } }).retireActive p
  | none => s

/-- MOVE_COMPLETE_MAP: the move of a cluster that has begun ends; credits resume, and the next retirement due starts (R57, R59). -/
def execMoveCompleteMap (o : MoveCopy) (s : State) : Host.Outcome State Fault Refusal :=
  .next (match lookupKey s.cores.moves o.cluster with
    | none => s
    | some m => match m.to_ with
      | none => s
      | some b => if !m.begun then s else ((s.moveEnd o.cluster m b o.lines).retireNext o.cluster).settle)

/-- What moves are due in a cluster whose cores all stand idle come about at once, as in step 9 of R410: the one that has begun, and every
retirement; a riddling move that has not begun keeps waiting. At most so many. -/
def State.flushMoves : Nat → State → Nat → State
  | 0, s, _ => s
  | f + 1, s, n =>
    match lookupKey s.cores.moves n with
    | some m =>
      let done (b : Nat) : State := State.flushMoves f (s.moveEnd n m b []) n
      if m.begun then (match m.to_ with
        | some b => done b
        | none => s)
      else if m.retire then (match s.moveTarget n with
        | some b => done b
        | none => s.spareLost n)
      else s.spareLost n
    | none => if s.cores.retireDue.any (fun p => p / 18 == n) then State.flushMoves f (s.retireNext n) n else s

/-! ### Tasting (R81, R383–R387) -/

/-- May a physical core be tasted now (R81, R384)? -/
def State.tasteable (s : State) (phys : Nat) : Bool :=
  let n := phys / 18
  let moving := match lookupKey s.cores.moves n with
    | some m => m.from_ == phys
    | none => false
  if moving || s.cores.retireDue.contains phys then false
  else if s.coreState phys = 1 then true
  else if s.coreState phys = 0 then match s.lcoreOf phys with
    | some k => s.coreIdle k && !s.coreResetting k && (s.cores.mustTaste.contains phys
        || !(s.cores.pool.any (fun t => t.ready && t.cluster == n)))
    | none => false
  else false

/-- The core of a cluster that is tasted next: those at the head of the order, else the one whose last pass is the oldest. -/
def State.tastePick (s : State) (n : Nat) : Option Nat :=
  let cs := ((List.range 18).map (n * 18 + ·)).filter s.tasteable
  match (s.cores.tasteHead ++ s.cores.mustTaste).find? cs.contains with
  | some p => some p
  | none => cs.foldl (fun (best : Option Nat) p => match best with
      | none => some p
      | some q => if (s.coreLog p).lastPass < (s.coreLog q).lastPass then some p else some q) none

/-- TASTING_START (R81, R383, R384). -/
def execTastingStart (n : Cluster) (s : State) : Host.Outcome State Fault Refusal :=
  .next (match lookupKey s.cores.tasting n, s.tastePick n with
    | none, some p =>
      ({ s with cores := { s.cores with tasting := insertKey s.cores.tasting n ⟨p, false⟩ } }).setFlds
        [(fTstClRunning n, 1), (fTstClCore n, p % 18)]
    | _, _ => s)

/-- Unresolved disagreements of a cluster's cores in the last 24 hours (R387, R404). -/
def State.unresolvedNow (s : State) (n : Nat) : Nat :=
  min 255 (((List.range 18).map (fun j =>
    ((s.coreLog (n * 18 + j)).unresolved.filter (fun t => decide (s.time < t + dayNs))).length)).foldl (· + ·) 0)

/-- Show them. -/
def State.showUnresolved (s : State) (n : Nat) : State :=
  s.setFld (fTstClUnresolved n) (s.unresolvedNow n)

/-- One unresolved disagreement counts against a core; the third in 24 hours retires it (R387). -/
def State.unresolved (s : State) (phys : Nat) : State :=
  let l := s.recent (s.coreLog phys).unresolved
  let s1 := (s.setCoreLog phys { s.coreLog phys with unresolved := l }).showUnresolved (phys / 18)
  if l.length ≥ 3 then s1.retire phys 3 else s1

/-- A core of a stopped pair passed: once both have, the disagreement stays unresolved (R387). -/
def State.pairPassed (s : State) (phys : Nat) : State :=
  let ps := s.cores.pairs.map (fun p =>
    { p with aPassed := p.aPassed || p.a == phys, bPassed := p.bPassed || p.b == phys })
  let s1 := { s with cores := { s.cores with pairs := ps.filter (fun p => !(p.aPassed && p.bPassed)) } }
  (ps.filter (fun p => p.aPassed && p.bPassed)).foldl (fun s p => (s.unresolved p.a).unresolved p.b) s1

/-- A core passes a test: its credits come back, and its cluster may be overdue no more (R386). -/
def State.tastePass (s : State) (phys : Nat) : State :=
  let s1 := ((s.setCoreLog phys { s.coreLog phys with lastPass := s.time, passAt := s.fabTime }).forgetTaste phys).bump
    (fTstClPasses (phys / 18)) 1
  (s1.pairPassed phys).overdueClear (phys / 18)

/-- A core of a stopped pair is retired: the disagreement is resolved (R387). -/
def State.dropPairs (s : State) (phys : Nat) : State :=
  { s with cores := { s.cores with pairs := s.cores.pairs.filter (fun p => p.a != phys && p.b != phys) } }

/-- A core fails a test and passes its repeat: TASTE_TRANSIENT; the second within 24 hours retires it, else it goes back to service (R385). -/
def State.tasteTransient (s : State) (phys : Nat) (item : Byte) : State :=
  let l := s.recent (s.coreLog phys).transients
  let s1 := ((s.log { code := 0x0201, kind := 3, unit := phys, part := s.partOfCluster (phys / 18), detail := [item] }).setCoreLog phys
    { s.coreLog phys with transients := l }).bump (fTstClTransients (phys / 18)) 1
  if l.length ≥ 2 then (s1.dropPairs phys).retire phys 2 else s1.tastePass phys

/-- TASTING_RESULT (R385): a failure repeats at once; a repeat that passes is a transient, the second in 24 hours or a repeat
that fails retires the core. -/
def execTastingResult (n : Cluster) (pass : Bool) (item : Byte) (s : State) : Host.Outcome State Fault Refusal :=
  .next (match lookupKey s.cores.tasting n with
    | none => s
    | some t =>
      if pass then
        (if t.again then (s.tasteEnd n).tasteTransient t.core item else (s.tasteEnd n).tastePass t.core).settle
      else if t.again then
        ((s.tasteEnd n).dropPairs t.core).retire t.core 2
      else { s with cores := { s.cores with tasting := insertKey s.cores.tasting n { t with again := true } } })

/-- TASTE_OVERDUE: a core of the cluster has not passed for 60 minutes (R386). -/
def execTasteOverdue (n : Cluster) (s : State) : Host.Outcome State Fault Refusal :=
  .next ((s.setFld (fTstClOverdue n) 1).raise 0x09 2 n [])

/-! ### Monitors (R188, R391, R392) -/

/-- STALL: the progress monitor of a core reaches its limit (R391). -/
def execStall (k : LCore) (s : State) : Host.Outcome State Fault Refusal :=
  .next (match s.runOf k with
    | none => s
    | some r =>
      if r.stallLogged ∨ r.issue.isSome ∨ s.fld fErrPmonLimit = 0 then s
      else
        let ends := s.bit fErrPmonAction
        let r1 : Run := { r with stallLogged := true }
        let s1 := (s.setRun k (if ends then ({ r1 with timedOut := true } : Run).wind else r1)).log
          { code := 0x0205, kind := 3, unit := s.physOf k, action := if ends then 11 else 0, part := s.partOf r.task.ctx
            ctx := some r.task.ctx, detail := leBytes 4 r.task.id ++ leBytes 2 r.pc ++ leBytes 1 (s.waitReason k r) }
        match (if ends then r.partner else none) with
        | some j => s1.modRun j (fun q => ({ q with timedOut := true } : Run).wind)
        | none => s1)

/-- SHADOW_TIMEOUT: the counterpart of a primary's outward operation has not issued within 65,536 cycles: the pair stops
(R188). -/
def execShadowTimeout (k : LCore) (s : State) : Host.Outcome State Fault Refusal :=
  .next (match s.runOf k with
    | none => s
    | some r => match s.bundleAt r with
      | some b => if r.issue.isNone && r.fault.isNone && r.ending.isNone && s.stallPair r b then s.pairStop k else s
      | none => s)

/-! ### Levels of reset (R392, R412, R413) -/

/-- The task of a core that is reset ends ABORTED, with its pair; its prefetched task returns to the pool; the core must pass a
test before it gets a credit. -/
def State.resetCore (s : State) (k : Nat) : State :=
  let p := s.physOf k
  let s1 := match s.runOf k with
    | some r =>
      let other := if r.primary then r.partner else none
      let prim := if r.primary then k else r.partner.getD k
      let s2 := s.abortRun prim
      let s3 := s2.dropRun k
      match other with
      | some j => s3.dropRun j
      | none => s3
    | none => s
  let s4 := s1.returnNext k
  { s4 with cores := { s4.cores with
    mustTaste := if s4.cores.mustTaste.contains p then s4.cores.mustTaste else s4.cores.mustTaste ++ [p]
    wavesDue := s4.cores.wavesDue.map (fun w => (w.1, w.2.filter (· != k))) } }

/-- A unit's reset starts. -/
def State.startReset (s : State) (u : RUnit) : State :=
  { s with cores := { s.cores with resetting := s.cores.resetting ++ [u] } }

/-- A core hangs (R392): its engine, or the core, is reset and its task ends ABORTED; a second hang within 24 hours retires
it. -/
def State.hang (s : State) (k : LCore) (e : Option (Fin 4)) : State :=
  match s.runOf k with
  | none => s
  | some r =>
    if s.coreResetting k then s
    else
      let p := s.physOf k
      let kind := if e.isSome then 4 else 3
      let unit := match e with
        | some x => p * 4 + x
        | none => p
      let s1 := s.log { code := 0x0206, kind := kind, unit := unit, action := 6, part := s.partOf r.task.ctx
                        ctx := some r.task.ctx, detail := leBytes 4 r.task.id ++ leBytes 2 r.pc }
      let s2 := (s1.resetCore k).startReset (match e with
        | some x => .engine k x
        | none => .core k)
      let l := s2.recent (s2.coreLog p).hangs
      let s3 := s2.setCoreLog p { s2.coreLog p with hangs := l }
      (if l.length ≥ 2 then s3.retire p 4 else s3).refreshReady

/-- HANG_PROBE: the 1 ms probe of every core that holds a task; one whose sequencer does not answer is hung (R392). -/
def execHangProbe (silent : List LCore) (s : State) : Host.Outcome State Fault Refusal :=
  .next (silent.foldl (fun s k => s.hang k none) s)

/-- CORE_HANG (R392). -/
def execCoreHang (k : LCore) (e : Option (Fin 4)) (s : State) : Host.Outcome State Fault Refusal := .next (s.hang k e)

/-- Replace a unit's reset by that of the level above it (R412). A cluster is its eighteen physical cores, the spares too (R405). -/
def State.escalate (s : State) (u : RUnit) : State :=
  let s1 := { s with cores := { s.cores with resetting := s.cores.resetting.filter (fun v => v != u) } }
  match u with
  | .engine k _ => s1.startReset (.core k)
  | .core k =>
    let n := clusterOf k
    let s2 := ((List.range 16).map (n * 16 + ·)).foldl State.resetCore s1
    let all := ((List.range 18).map (n * 18 + ·)).filter (fun p => decide (s2.coreState p ≤ 1 ∧ !s2.cores.mustTaste.contains p))
    let s3 := { s2 with cores := { s2.cores with mustTaste := s2.cores.mustTaste ++ all } }
    (if h : n < 32 then s3.startReset (.cluster ⟨n, h⟩) else s3).refreshReady
  | .cluster n => match s.partOfCluster n with
    | some p => s1.fatalDomain { code := 0x0207, kind := 2, unit := n, action := 7, part := some p } [p] rcEscalated
    | none => s1
  | .domain _ => s1.warm caFatal 0 1

/-- RESET_DEADLINE: a unit has not reported itself reset in time (R412). -/
def execResetDeadline (u : RUnit) (s : State) : Host.Outcome State Fault Refusal :=
  .next (if s.cores.resetting.contains u then s.escalate u else s)

/-- Step 9 of R410 for a physical core that fails its test (R385): where the repeat passes it is a transient, else the core is retired; the
move that this causes is part of the step. -/
def State.reopenOne (s : State) (x : TasteFail) : State :=
  State.flushMoves 24 (if x.passes then s.tasteTransient x.core x.item else (s.dropPairs x.core).retire x.core 2) (x.core.val / 18)

/-- Steps 9 and 10 of R410: every ACTIVE and SPARE core is tasted, failing cores are retired, spares before the moves of the others, and
the partition is OPEN. -/
def State.reopen (s : State) (p : Nat) (failed : List TasteFail) : State :=
  let up (s : State) : Bool := s.fld (fCtxPartState p) == pResetting
  let s0 := (s.clustersOf p).foldl (fun s n => if up s then State.flushMoves 24 s n else s) s
  let mine := failed.filter (fun x => s0.partOfCluster (x.core / 18) == some p && decide (s0.coreState x.core ≤ 1))
  let bad := mine.filter (fun x => s0.coreState x.core == 1) ++ mine.filter (fun x => s0.coreState x.core == 0)
  let s1 := bad.foldl (fun s x => if up s then s.reopenOne x else s) s0
  if !up s1 then s1
  else
    let good := ((s1.clustersOf p).flatMap (fun n => (List.range 18).map (n * 18 + ·))).filter
      (fun q => decide (s1.coreState q ≤ 1) && !bad.any (fun x => x.core.val == q))
    let s2 := good.foldl State.tastePass s1
    let t0 := (lookupKey s2.cores.resetAt p).getD s2.time
    (s2.setFlds [(fCtxPartState p, pOpen), (fRstPartResetting p, 0), (fRstPartHeld p, 0)]
      |>.setFld (fRstPartLastUs p) (min (2 ^ 24 - 1) ((s2.time - t0) / 1000)))

/-- RESET_REPORTED: a unit reports itself reset (R410–R412): a compute domain that is not held goes on to steps 9 and 10; a
lower unit's cores wait for their test. -/
def execResetReported (u : RUnit) (failed : List TasteFail) (s : State) : Host.Outcome State Fault Refusal :=
  .next (if !s.cores.resetting.contains u then s
    else
      let s1 := { s with cores := { s.cores with resetting := s.cores.resetting.filter (fun v => v != u) } }
      match u with
      | .domain p => (if s1.bit (fRstPartHeld p) then s1 else s1.reopen p failed).rstOver p
      | _ => s1)

/-! ### RST.CTL (R410, R411, R432) -/

/-- Partitions that a mask names. -/
def maskParts (m : Nat) : List Nat := (List.range 4).filter (fun p => bitOf m p)

/-- A host write of RST.CTL. DOMAIN runs until the reset of every partition that it names has reported (DEDUCED, log entry 115); a go while a
command runs ends WRONG_STATE (R432). -/
def State.rstCtlWrite (s : State) (v : Word) (silent : List LCore) (failed : List TasteFail) : State :=
  let s1 := s.writeUnder takesAll rRstCtl v
  let ps := maskParts (getBits v fRstCtlParts)
  let res (s : State) (c : Nat) : State := s.setFld fRstCtlResult c
  if getBits v fRstCtlGo = 0 then s1
  else if s.bit fRstCtlBusy then res s1 3
  else match getBits v fRstCtlOp with
    | 1 =>
      if ps.any (fun p => s.fld (fCtxPartState p) == pClosed || s.fld (fCtxPartState p) == pDown) then res s1 1
      else
        let s2 := ps.foldl (fun s p =>
          s.domainReset p rcHost 0 0 (getBits v fRstCtlHold == 1) (some (silent.map Fin.val))) s1
        (res s2 0).rstAwait (ps.filter (fun p => s2.cores.resetting.contains (.domain (partFin p))))
    | 2 =>
      if ps.any (fun p => !s.bit (fRstPartHeld p)) then res s1 2
      else res (ps.foldl (fun s p =>
        let s := s.setFld (fRstPartHeld p) 0
        if s.cores.resetting.contains (.domain (partFin p)) then s else s.reopen p failed) s1) 0
    | 3 => s1.warm caHost 0 1
    | _ => res s1 3

/-- DOMAIN (R410, R411). -/
def execDomain (v : Word) (silent : List LCore) (s : State) : Host.Outcome State Fault Refusal :=
  .next (s.hostWrite rRstCtl (withOp v fRstCtlGo fRstCtlOp 1) { HostObs.plain with silent := silent } (fun s => s.rstCtlWrite (withOp v fRstCtlGo fRstCtlOp 1) silent []))

/-- RELEASE (R411). -/
def execRelease (v : Word) (failed : List TasteFail) (s : State) : Host.Outcome State Fault Refusal :=
  .next (s.hostWrite rRstCtl (withOp v fRstCtlGo fRstCtlOp 2) { HostObs.plain with failed := failed } (fun s => s.rstCtlWrite (withOp v fRstCtlGo fRstCtlOp 2) [] failed))

/-- MODULE (R406). -/
def execModule (v : Word) (s : State) : Host.Outcome State Fault Refusal :=
  .next (s.hostWrite rRstCtl (withOp v fRstCtlGo fRstCtlOp 3) HostObs.plain (fun s => s.rstCtlWrite (withOp v fRstCtlGo fRstCtlOp 3) [] []))

end Sys2Proof.Machine
end

