-- ==== Sys2Proof/Machine/Sync.lean ====
section
/-! DEFINITION. The SYNC block, the arrival of signals and the waves of the pour (R159–R167, R197, R349). -/

namespace Sys2Proof.Machine

/-- Write SYNC.CMD.result. -/
def State.syncResult (s : State) (c : Nat) : State := s.setFld fSyncCmdResult c

/-- Change a context's use of sync objects, and its over mark (R84, R86). -/
def State.setSyncUse (s : State) (c n : Nat) : State :=
  (s.setFld (fCtxQsyncUse c) n).setFld (fCtxQsyncOver c) (ofBool (decide (n > s.fld (fCtxQsyncLimit c))))

/-- The lowest free object of a die (R159, R164). -/
def State.freeObj (s : State) (die : Nat) : Option Nat :=
  ((List.range 4096).map (die * 4096 + ·)).find? (fun i => (lookupKey s.sync i).isNone)

/-- SYNC ALLOC: the quota is checked first (R164). -/
def State.syncAlloc (s : State) (ctx die : Nat) : State :=
  if s.fld (fCtxQsyncUse ctx) + 1 > s.fld (fCtxQsyncLimit ctx) then s.syncResult 3
  else match s.freeObj die with
    | none => s.syncResult 4
    | some i =>
      ((({ s with sync := insertKey s.sync i ⟨ctx, 0, 1, false, false⟩ }).setSyncUse ctx (s.fld (fCtxQsyncUse ctx) + 1)).setFld
        fSyncCmdIndex i).syncResult 0

/-- Free an object. -/
def State.syncDrop (s : State) (ctx i : Nat) : State :=
  ({ s with sync := eraseKey s.sync i }).setSyncUse ctx (s.fld (fCtxQsyncUse ctx) - 1)

/-- SYNC ARM (R160): the object fires at once where its counter reaches F and it had not fired before. -/
def State.syncArm (s : State) (i fire : Nat) (heavy remote : Bool) : State :=
  match lookupKey s.sync i with
  | none => s
  | some o =>
    let s1 := { s with sync := insertKey s.sync i { o with fire := fire, heavy := heavy, remote := remote } }
    s.wakeAll s1 i (!o.fired && decide (o.counter ≥ fire)) heavy

/-- A host write of SYNC.CMD (R164, R197). DESIGN CHOICE (log entry 95): a reserved op for a context that is not ACTIVE is WRONG_STATE. -/
def State.syncCmdWrite (s : State) (v : Word) : State :=
  let s1 := s.writeUnder takesAll rSyncCmd v
  let ctx := getBits v fSyncCmdContext
  let i := getBits v fSyncCmdIndex
  let op := getBits v fSyncCmdOp
  if getBits v fSyncCmdGo = 0 then s1
  else if op = 0 ∨ op > 6 then s1.syncResult 6
  else if !s.active ctx then s1.syncResult 1
  else if op = 1 then s1.syncAlloc ctx (getBits v fSyncCmdDie)
  else if !s.holds ctx i then s1.syncResult 2
  else match op with
    | 2 => if s.waiters i ≠ 0 then s1.syncResult 5 else (s1.syncDrop ctx i).syncResult 0
    | 3 => (s1.syncArm i (s.fld fSyncFireFire) (getBits v fSyncCmdHeavy == 1) (getBits v fSyncCmdRemote == 1)).syncResult 0
    | 4 => (s1.applySignal i (s.fld fSyncValueValue)).syncResult 0
    | 5 => (s1.setCounter i 0).syncResult 0
    | _ => match lookupKey s.sync i with
      | some o => ((s1.setFld fSyncValueValue o.counter).setFld fSyncFireFire o.fire).syncResult 0
      | none => s1

/-- SYNC_ALLOC (R164). -/
def execSyncAlloc (v : Word) (s : State) : Host.Outcome State Fault Refusal :=
  .next (s.hostWrite rSyncCmd (withOp v fSyncCmdGo fSyncCmdOp 1) HostObs.plain (fun s => s.syncCmdWrite (withOp v fSyncCmdGo fSyncCmdOp 1)))

/-- SYNC_FREE (R164). -/
def execSyncFree (v : Word) (s : State) : Host.Outcome State Fault Refusal :=
  .next (s.hostWrite rSyncCmd (withOp v fSyncCmdGo fSyncCmdOp 2) HostObs.plain (fun s => s.syncCmdWrite (withOp v fSyncCmdGo fSyncCmdOp 2)))

/-- SYNC_ARM (R160). -/
def execSyncArm (v : Word) (s : State) : Host.Outcome State Fault Refusal :=
  .next (s.hostWrite rSyncCmd (withOp v fSyncCmdGo fSyncCmdOp 3) HostObs.plain (fun s => s.syncCmdWrite (withOp v fSyncCmdGo fSyncCmdOp 3)))

/-- SYNC_SIGNAL (R160, R163). -/
def execSyncSignal (v : Word) (s : State) : Host.Outcome State Fault Refusal :=
  .next (s.hostWrite rSyncCmd (withOp v fSyncCmdGo fSyncCmdOp 4) HostObs.plain (fun s => s.syncCmdWrite (withOp v fSyncCmdGo fSyncCmdOp 4)))

/-- SYNC_RESET (R160). -/
def execSyncReset (v : Word) (s : State) : Host.Outcome State Fault Refusal :=
  .next (s.hostWrite rSyncCmd (withOp v fSyncCmdGo fSyncCmdOp 5) HostObs.plain (fun s => s.syncCmdWrite (withOp v fSyncCmdGo fSyncCmdOp 5)))

/-- SYNC_READ (R160, R197). -/
def execSyncRead (v : Word) (s : State) : Host.Outcome State Fault Refusal :=
  .next (s.hostWrite rSyncCmd (withOp v fSyncCmdGo fSyncCmdOp 6) HostObs.plain (fun s => s.syncCmdWrite (withOp v fSyncCmdGo fSyncCmdOp 6)))

/-! ### Signals -/

/-- A local signal at its object (R163): it applies while the issuing context holds the object, else it is dropped. -/
def State.localSignal (s : State) (ctx i v : Nat) : State :=
  if s.holds ctx i then s.applySignal i v
  else s.log { code := 0x020D, kind := 15, unit := i, part := s.partOf ctx, ctx := some ctx
               detail := leBytes 1 ctx ++ leBytes 8 v }

/-- A remote signal at its object (R163): it applies where a context holds the object with its remote attribute set. -/
def State.remoteSignal (s : State) (node : Node) (i v : Nat) : State :=
  match lookupKey s.sync i with
  | some o => if o.remote then s.applySignal i v
    else s.log { code := 0x0406, kind := 15, unit := i, detail := leBytes 2 node.toNat ++ leBytes 2 i }
  | none => s.log { code := 0x0406, kind := 15, unit := i, detail := leBytes 2 node.toNat ++ leBytes 2 i }

/-- May the i-th signal in flight arrive: none sent before it goes from the same stop to the same die service stop (R65, R161)? -/
def State.signalTurn (s : State) (i : Nat) : Bool :=
  match s.cores.signals[i]? with
  | none => false
  | some p => (s.cores.signals.take i).all (fun q => q.1 != p.1 || p.1 == serviceStop (p.2.obj.toNat / 4096)
      || q.2.obj.toNat / 4096 != p.2.obj.toNat / 4096)

/-- Where a signal of this module stands among those in flight, if it may arrive. -/
def State.signalAt (s : State) (m : SigMsg) : Option Nat :=
  (List.range s.cores.signals.length).find? (fun i => (s.cores.signals[i]?.map Prod.snd) == some m && s.signalTurn i)

/-- The object that a SIGNAL packet names, and its value (R147, R288). -/
def signalObj (p : Pkt) : Nat := field p.body 0 8 % 2 ^ 14
def signalValue (p : Pkt) : Nat := field p.body 16 8

/-- SECDED on an object's state before the signal is applied (R165). -/
def State.signalEcc (s : State) (i : Nat) (ecc : EccObs) (f : State → State) : State :=
  match ecc with
  | .double => s.fatalModule { code := 0x020C, kind := 15, unit := i } caFatal
  | .single => f (s.log { code := 0x020B, kind := 15, unit := i })
  | .clean => f s

/-- SIGNAL: a signal reaches its object's die service stop (R160–R165): one of this module, which was issued and is on its way, or the
packet of another's. -/
def execSignal (m : SigIn) (ecc : EccObs) (s : State) : Host.Outcome State Fault Refusal :=
  .next (
    match m with
    | .packet p => s.signalEcc (signalObj p) ecc (fun s => s.remoteSignal p.src (signalObj p) (signalValue p))
    | .own m => match s.signalAt m with
      | none => s
      | some k =>
        ({ s with cores := { s.cores with signals := s.cores.signals.eraseIdx k } }).signalEcc m.obj.toNat ecc (fun s =>
          match m.fromCtx with
          | some c => s.localSignal c m.obj.toNat m.value.toNat
          | none => s))

/-- POUR_WAVE: the next wave of at most sixteen wake-ups of a die goes out (R166). -/
def execPourWave (d : Die) (s : State) : Host.Outcome State Fault Refusal :=
  .next (
    let l := (lookupKey s.cores.wavesDue d).getD []
    let s1 := { s with cores := { s.cores with wavesDue := insertKey s.cores.wavesDue d (l.drop 16) } }
    if l = [] then s else (l.take 16).foldl State.waveWake s1)

/-- SETPOINT_RETURN: VCORE of a die returns from the pre-notice's raised setpoint (R349). -/
def execSetpointReturn (d : Die) (s : State) : Host.Outcome State Fault Refusal :=
  .next (if s.cores.raised.contains d.val then
    ({ s with cores := { s.cores with raised := s.cores.raised.filter (· != d.val) } }).setFld (fPwrDieVcore d)
      (s.fld (fPwrDieVcore d) - 20)
    else s)

end Sys2Proof.Machine
end

