-- ==== Sys2Proof/Machine/Queues.lean ====
section
/-! DEFINITION. Queues, rings and doorbells, descriptor fetches, pools and completion records, the decant pair (R77–R80,
R169–R196, R309, R513). -/

namespace Sys2Proof.Machine

/-! ### Enable and disable (R170, R196) -/

/-- Result codes of R196. -/
def qDone : Nat := 0
def qNoContext : Nat := 1
def qCluster : Nat := 2
def qRing : Nat := 3
def qSize : Nat := 4
def qAlign : Nat := 5
def qBusy : Nat := 6
def qWrongState : Nat := 7

/-- The first result of an enable that breaks a rule (R170); `unit` is the size of an entry of the ring. -/
def enableResult (active off clusterOk ringOk : Bool) (log2 base unit : Nat) : Nat :=
  if !active then qNoContext
  else if !off then qWrongState
  else if !clusterOk then qCluster
  else if !ringOk then qRing
  else if log2 < 4 ∨ log2 > 16 then qSize
  else if base % (unit * 2 ^ log2) ≠ 0 then qAlign
  else qDone

/-- The registers of a queue or ring: its CFG, the fields of its STATE and the enable bit. -/
structure QRegs where
  cfg : Nat
  enable : Fld
  result : Fld
  state : Fld
  head : Fld
  tail : Fld
  deriving DecidableEq, Repr

/-- Apply an enable or disable whose result is known; a CFG write with enable 0 to a queue or ring that is OFF is no command
(R170). -/
def State.cfgApply (s : State) (q : QRegs) (v : Word) (onResult offResult : Nat) : State :=
  if getBits v q.enable = 1 then
    if onResult = qDone then
      ((s.writeUnder takesAll q.cfg v).setFlds [(q.state, 1), (q.head, 0), (q.tail, 0), (q.result, qDone)])
    else s.setFld q.result onResult
  else if s.fld q.state = 0 then s.writeUnder takesAll q.cfg v
  else if offResult = qDone then s.setFlds [(q.enable, 0), (q.state, 0), (q.result, qDone)]
  else s.setFld q.result offResult

/-- Registers of a compute queue, a copy queue, a ring and a communication queue. -/
def cqRegs (c q : Nat) : QRegs :=
  ⟨rQueCqCfg c q, fQueCqCfgEnable c q, fQueCqStateResult c q, fQueCqStateState c q, fQueCqStateHead c q, fQueCqStateTail c q⟩
def xqRegs (c q : Nat) : QRegs :=
  ⟨rQueXqCfg c q, fQueXqCfgEnable c q, fQueXqStateResult c q, fQueXqStateState c q, fQueXqStateHead c q, fQueXqStateTail c q⟩
def ringRegs (c r : Nat) : QRegs :=
  ⟨rQueRingCfg c r, fQueRingCfgEnable c r, fQueRingStateResult c r, fQueRingStateState c r, fQueRingStateHead c r, fQueRingStateTail c r⟩
def commRegs (n : Nat) : QRegs :=
  ⟨rGrpGQcfg n, fGrpGQcfgEnable n, fGrpGQstateResult n, fGrpGQstateState n, fGrpGQstateHead n, fGrpGQstateTail n⟩

/-- Does a queue hold descriptors that are not fetched, unless it is HALTED (R170)? -/
def State.unfetched (s : State) (q : QRegs) : Bool := s.fld q.head != s.fld q.tail && s.fld q.state != 2

/-- Tasks of a compute queue that were fetched and have not completed. -/
def State.queueTasks (s : State) (c q : Nat) : Bool :=
  let mine (t : Task) : Bool := t.ctx == c && t.queue == q
  s.cores.pool.any mine || s.que.fed.any mine || s.cores.next.any (fun p => mine p.2) || s.cores.runs.any (fun p => mine p.2.task)

/-- Does a mask name clusters, all of them in the context's partition (R78)? -/
def State.maskOk (s : State) (c mask : Nat) : Bool :=
  mask != 0 && (match s.partOf c with
    | some p => mask &&& s.fld (fCtxPartClusters p) == mask
    | none => false)

/-- A host write of QUE.CQ.CFG. -/
def State.cqCfgWrite (s : State) (c q : Nat) (v : Word) : State :=
  let r := cqRegs c q
  s.cfgApply r v
    (enableResult (s.active c) (s.fld r.state == 0) (s.maskOk c (getBits v (fQueCqCfgClusters c q)))
      (s.ringOn (ringKey c (getBits v (fQueCqCfgRing c q)))) (getBits v (fQueCqCfgLog2size c q)) (s.fld (fQueCqBaseBase c q) * 32) 64)
    (if !s.active c then qNoContext else if s.unfetched r || s.queueTasks c q then qBusy else qDone)

/-- A host write of QUE.XQ.CFG. -/
def State.xqCfgWrite (s : State) (c q : Nat) (v : Word) : State :=
  let r := xqRegs c q
  s.cfgApply r v
    (enableResult (s.active c) (s.fld r.state == 0) true (s.ringOn (ringKey c (getBits v (fQueXqCfgRing c q))))
      (getBits v (fQueXqCfgLog2size c q)) (s.fld (fQueXqBaseBase c q) * 32) 64)
    (if !s.active c then qNoContext
     else if s.unfetched r || s.que.copies.any (fun x => x.ctx == c && x.queue == q) then qBusy else qDone)

/-- Is an enabled queue bound to a ring, or does a record wait for it? -/
def State.ringUsed (s : State) (c r : Nat) : Bool :=
  (List.range 16).any (fun q => s.fld (fQueCqStateState c q) != 0 && s.fld (fQueCqCfgRing c q) == r)
  || (List.range 4).any (fun q => s.fld (fQueXqStateState c q) != 0 && s.fld (fQueXqCfgRing c q) == r)
  || (List.range 1024).any (fun n => s.fld (fGrpGQstateState n) != 0 && s.fld (fGrpGStatContext n) == c && s.fld (fGrpGQcfgRing n) == r)
  || s.que.recs.any (fun w => w.record.ctx == c && w.ring == r)

/-- A host write of QUE.RING.CFG. -/
def State.ringCfgWrite (s : State) (c r : Nat) (v : Word) : State :=
  let q := ringRegs c r
  let s1 := s.cfgApply q v
    (enableResult (s.active c) (s.fld q.state == 0) true true (getBits v (fQueRingCfgLog2size c r)) (s.fld (fQueRingBaseBase c r) * 32) 32)
    (if !s.active c then qNoContext else if s.ringUsed c r then qBusy else qDone)
  if s.fld q.state = 0 ∧ s1.fld q.state ≠ 0 then
    { s1 with que := { s1.que with ringIrq := eraseKey s1.que.ringIrq (ringKey c r) } }
  else s1

/-- A host write of GRP.G.QCFG: configured once the group is READY (R309). -/
def State.commCfgWrite (s : State) (n : Nat) (v : Word) : State :=
  let q := commRegs n
  let c := s.fld (fGrpGStatContext n)
  let free := s.fld (fGrpGStateState n) == gFree
  s.cfgApply q v
    (enableResult (!free && s.active c) (s.fld q.state == 0 && s.fld (fGrpGStateState n) == gReady) true
      (s.ringOn (ringKey c (getBits v (fGrpGQcfgRing n)))) (getBits v (fGrpGQcfgLog2size n)) (s.fld (fGrpGQbaseBase n) * 32) 64)
    (if free || !s.active c then qNoContext
     else if s.unfetched q || s.commOf n != [] || (lookupKey s.grp.inflight n).isSome then qBusy else qDone)

/-- The CFG register of queue q of a context: 0–15 compute, 16–19 copy. -/
def queueCfg (c q : Nat) : Nat := if q < 16 then rQueCqCfg c q else rQueXqCfg c (q - 16)

/-- A host write of a queue's CFG. -/
def State.queueCfgWrite (s : State) (c q : Nat) (v : Word) : State :=
  if q < 16 then s.cqCfgWrite c q v else s.xqCfgWrite c (q - 16) v

/-- QUEUE_ENABLE: a CFG write with enable 1 (R170). -/
def execQueueEnable (c : Ctx) (q : Fin 20) (v : Word) (s : State) : Host.Outcome State Fault Refusal :=
  .next (s.hostWrite (queueCfg c q) (putBits v (fQueCqCfgEnable 0 0) 1) HostObs.plain (fun s => s.queueCfgWrite c q (putBits v (fQueCqCfgEnable 0 0) 1)))

/-- QUEUE_DISABLE: a CFG write with enable 0 (R170). -/
def execQueueDisable (c : Ctx) (q : Fin 20) (v : Word) (s : State) : Host.Outcome State Fault Refusal :=
  .next (s.hostWrite (queueCfg c q) (putBits v (fQueCqCfgEnable 0 0) 0) HostObs.plain (fun s => s.queueCfgWrite c q (putBits v (fQueCqCfgEnable 0 0) 0)))

/-- RING_ENABLE (R170). -/
def execRingEnable (c : Ctx) (r : Fin 8) (v : Word) (s : State) : Host.Outcome State Fault Refusal :=
  .next (s.hostWrite (rQueRingCfg c r) (putBits v (fQueRingCfgEnable 0 0) 1) HostObs.plain (fun s => s.ringCfgWrite c r (putBits v (fQueRingCfgEnable 0 0) 1)))

/-- RING_DISABLE (R170). -/
def execRingDisable (c : Ctx) (r : Fin 8) (v : Word) (s : State) : Host.Outcome State Fault Refusal :=
  .next (s.hostWrite (rQueRingCfg c r) (putBits v (fQueRingCfgEnable 0 0) 0) HostObs.plain (fun s => s.ringCfgWrite c r (putBits v (fQueRingCfgEnable 0 0) 0)))

/-- COMM_QUEUE_ENABLE (R170, R309). -/
def execCommQueueEnable (g : Grp) (v : Word) (s : State) : Host.Outcome State Fault Refusal :=
  .next (s.hostWrite (rGrpGQcfg g) (putBits v (fGrpGQcfgEnable 0) 1) HostObs.plain (fun s => s.commCfgWrite g (putBits v (fGrpGQcfgEnable 0) 1)))

/-- COMM_QUEUE_DISABLE (R170, R309). -/
def execCommQueueDisable (g : Grp) (v : Word) (s : State) : Host.Outcome State Fault Refusal :=
  .next (s.hostWrite (rGrpGQcfg g) (putBits v (fGrpGQcfgEnable 0) 0) HostObs.plain (fun s => s.commCfgWrite g (putBits v (fGrpGQcfgEnable 0) 0)))

/-! ### Doorbells (R171, R172) -/

/-- A discarded doorbell write is logged (R7, R172). -/
def State.doorbellLog (s : State) (c off : Nat) (v : Word) : State :=
  s.log { code := 0x0102, kind := 13, part := s.partOf c, ctx := some c, detail := leBytes 2 off ++ leBytes 8 v.toNat }

/-- Is a context in use: not FREE? -/
def State.inUse (s : State) (c : Nat) : Bool := s.fld (fCtxCtlState c) != 0

/-- May the tail of a ring of 2^n go to t (R172)? -/
def tailOk (t head tail n : Nat) : Bool :=
  decide ((t + 2 ^ 24 - head) % 2 ^ 24 ≤ 2 ^ n) && decide ((t + 2 ^ 24 - tail) % 2 ^ 24 ≤ 2 ^ n)

/-- A tail doorbell on a queue (R172). -/
def State.tailWrite (s : State) (c off : Nat) (q : QRegs) (log2 : Nat) (allowed : Bool) (t : Nat) (v : Word) : State :=
  if !s.inUse c ∨ !allowed ∨ s.fld q.state ≠ 1 ∨ !tailOk t (s.fld q.head) (s.fld q.tail) log2 then s.doorbellLog c off v
  else s.setFld q.tail t

/-- Is the partition of a context DOWN? -/
def State.isDown (s : State) (c : Nat) : Bool := match s.partOf c with
  | some p => s.fld (fCtxPartState p) == pDown
  | none => false

/-- A doorbell that is read answers the STATE register of its queue or ring (R172). -/
def State.doorbellRead (s : State) (off : Nat) : State :=
  s.emit (.hostRead 8 (if !s.answers 0x200000 then BitVec.allOnes 64 else s.reg off))

/-- Registers, log2 of the ring size and STATE register of queue q of a context: 0–15 compute, 16–19 copy. -/
def State.queueAt (s : State) (c q : Nat) : QRegs × Nat × Nat :=
  if q < 16 then (cqRegs c q, s.fld (fQueCqCfgLog2size c q), rQueCqState c q)
  else (xqRegs c (q - 16), s.fld (fQueXqCfgLog2size c (q - 16)), rQueXqState c (q - 16))

/-- TAIL_DOORBELL of a compute or copy queue (R7, R60, R172). -/
def execTailDoorbell (c : Ctx) (q : Fin 20) (acc : HostAcc) (s : State) : Host.Outcome State Fault Refusal :=
  .next (
    let x := s.queueAt c q
    match acc with
    | .rd => s.doorbellRead x.2.2
    | .wr v =>
      if s.takesWrites 0x200000 then s.tailWrite c (8 * q) x.1 x.2.1 (decide (q.val ≥ 16) || !s.isDown c) (v.toNat % 2 ^ 24) v else s)

/-- A head doorbell on a ring (R172, R183). -/
def State.headWrite (s : State) (c r : Nat) (v : Word) : State :=
  let h := v.toNat % 2 ^ 24
  let q := ringRegs c r
  let old := s.fld q.head
  if !s.inUse c ∨ s.fld q.state = 0 ∨ (h + 2 ^ 24 - old) % 2 ^ 24 > (s.fld q.tail + 2 ^ 24 - old) % 2 ^ 24 then
    s.doorbellLog c (0xC0 + 8 * r) v
  else ((s.setFld q.head h).ringShow (ringKey c r)).settle

/-- HEAD_DOORBELL of a completion ring (R172, R183). -/
def execHeadDoorbell (c : Ctx) (r : Fin 8) (acc : HostAcc) (s : State) : Host.Outcome State Fault Refusal :=
  .next (match acc with
    | .rd => s.doorbellRead (rQueRingState c r)
    | .wr v => if s.takesWrites 0x200000 then s.headWrite c r v else s)

/-- COMM_DOORBELL (R309): a read answers zero. -/
def execCommDoorbell (c : Ctx) (acc : HostAcc) (s : State) : Host.Outcome State Fault Refusal :=
  .next (match acc with
    | .rd => s.emit (.hostRead 8 (if s.answers 0x200000 then 0#64 else BitVec.allOnes 64))
    | .wr v =>
      if !s.takesWrites 0x200000 then s
      else
        let n := bitsOf v.toNat 57 48
        let t := bitsOf v.toNat 23 0
        let st := s.fld (fGrpGStateState n)
        let extra := decide (v.toNat ≠ n * 2 ^ 48 + t)
        let member := decide (st = gReady ∨ st = gBroken) && s.fld (fGrpGStatContext n) == c.val
        s.tailWrite c 0x400 (commRegs n) (s.fld (fGrpGQcfgLog2size n)) (member && !extra) t v)

/-! ### Descriptor fetches (R174, R175) -/

/-- The task of a descriptor (R175). -/
def taskOf (ctx q place : Nat) (b : List Byte) : Task :=
  let f := field b 5 1
  { ctx := ctx, queue := q, id := field b 0 4, prog := field b 4 1 % 64, shadow := bitOf f 0, quiet := bitOf f 1, decant := bitOf f 2
    wait := waitField (field b 8 4), done := doneField (field b 12 4)
    args := (List.range 6).map (fun i => BitVec.ofNat 64 (field b (16 + 8 * i) 8)), cluster := 0, ready := false, place := place }

/-- What a fetch brings: status and bytes; none where the observation does not fit the ring's location. -/
def State.fetchBytes (s : State) (ctx addr : Nat) (host : Bool) (obs : FetchObs) : Option (State × Nat × List Byte) :=
  if host then match obs with
    | .bytes b => some (s, 0, b)
    | .poisoned b => some (s, 8, b)
    | .pcieError => some (s, 4, [])
    | _ => none
  else
    let far := match obs with
      | .far r => r
      | .mine l => { FarReply.ok with lines := l }
      | _ => FarReply.ok
    some (s.readRun ctx addr 64 far)

/-- A fetch failure: a record with tag 0xFFFF_FFFF, and the queue is HALTED (R174, R183). -/
def State.fetchFailed (s : State) (q : QRegs) (kind queue ctx ring status : Nat) : State :=
  let r := (s.setFld q.state 2).otherRec kind queue 0xFFFFFFFF (if status = 8 then 8 else 4) 0 ctx
  r.1.due ⟨ring, { r.2 with fault := ftFabricPage }, none, false, false, true, none⟩

/-- Fetch one descriptor: state and its bytes, where it arrived. -/
def State.fetch (s : State) (q : QRegs) (kind queue ctx ring base log2 : Nat) (host : Bool) (obs : FetchObs) :
    State × Option (List Byte) :=
  if s.fld q.state ≠ 1 ∨ s.fld q.head = s.fld q.tail ∨ s.ringBlocks (ringKey ctx ring) then (s, none)
  else match s.fetchBytes ctx (base + s.fld q.head % 2 ^ log2 * 64) host obs with
    | none => (s, none)
    | some r =>
      if r.2.1 = 0 then (r.1.setFld q.head ((s.fld q.head + 1) % 2 ^ 24), some (r.2.2 ++ List.replicate 64 0#8 |>.take 64))
      else (r.1.fetchFailed q kind queue ctx ring r.2.1, none)

/-- Slots free in a cluster's pool (R79). -/
def State.poolFree (s : State) (n : Nat) : Nat := 512 - (s.cores.pool.filter (fun t => t.cluster == n)).length

/-- Clusters that a compute queue is bound to. -/
def State.boundClusters (s : State) (c q : Nat) : List Nat :=
  (List.range 32).filter (fun n => bitOf (s.fld (fQueCqCfgClusters c q)) n)

/-- DESCRIPTOR_FETCH (R79, R174, R183, R309). -/
def execDescriptorFetch (q : QRef) (obs : FetchObs) (s : State) : Host.Outcome State Fault Refusal :=
  .next (match q with
    | .compute c q =>
      if s.que.fed.any (fun t => t.ctx == c.val && t.queue == q.val) ∨ s.isDown c
          ∨ ((s.boundClusters c q).all (fun n => s.poolFree n == 0)) then s
      else
        let r := s.fetch (cqRegs c q) 0 q c (s.fld (fQueCqCfgRing c q)) (s.fld (fQueCqBaseBase c q) * 32)
          (s.fld (fQueCqCfgLog2size c q)) (s.bit (fQueCqCfgLoc c q)) obs
        match r.2 with
        | some b =>
          { r.1 with que := { r.1.que with
            fed := r.1.que.fed ++ [taskOf c q r.1.que.place b], place := r.1.que.place + 1 } }
        | none => r.1
    | .copy c q =>
      let r := s.fetch (xqRegs c q) 1 q c (s.fld (fQueXqCfgRing c q)) (s.fld (fQueXqBaseBase c q) * 32)
        (s.fld (fQueXqCfgLog2size c q)) (s.bit (fQueXqCfgLoc c q)) obs
      match r.2 with
      | some b => r.1.copyAccept c q b
      | none => r.1
    | .comm g =>
      if (s.commOf g).length ≥ 16 then s
      else
        let c := s.fld (fGrpGStatContext g)
        let r := s.fetch (commRegs g) 2 g c (s.fld (fGrpGQcfgRing g)) (s.fld (fGrpGQbaseBase g) * 32)
          (s.fld (fGrpGQcfgLog2size g)) (s.bit (fGrpGQcfgLoc g)) obs
        match r.2 with
        | some b => { r.1 with que := { r.1.que with comm := insertKey r.1.que.comm g (r.1.commOf g ++ [b]) } }
        | none => r.1)

/-! ### Pools (R77–R80, R176, R177) -/

/-- The bound cluster whose pool has the most free slots, the lowest of several (R79). -/
def State.placeFor (s : State) (c q : Nat) : Option Nat :=
  (s.boundClusters c q).foldl (fun (best : Option Nat) n =>
    if s.poolFree n = 0 then best
    else match best with
      | none => some n
      | some m => if s.poolFree n > s.poolFree m then some n else some m) none

/-- Does the context hold the objects that a task names here (R176)? -/
def State.objsHeld (s : State) (t : Task) : Bool :=
  (match t.wait with
   | some i => s.holds t.ctx i
   | none => true)
  && (match t.done with
   | some (n, i) => n != s.node || s.holds t.ctx i
   | none => true)

/-- Is a program of a context bound in a cluster (R156)? -/
def State.boundIn (s : State) (c prog n : Nat) : Bool :=
  s.cores.bindings.any (fun b => b.ctx == c && b.prog == prog && b.place.any (fun p => p.1 == n))

/-- The queues whose next descriptor waits for a slot of pool n, as context × 16 + queue (R79). -/
def State.waitingFor (s : State) (n : Nat) : List Nat :=
  (s.que.fed.map (fun t => t.ctx * 16 + t.queue)).filter (fun x => s.placeFor (x / 16) (x % 16) == some n)

/-- The first of `l` after `ptr` in ascending order, going round to the least. -/
def turnAfter (ptr : Nat) (l : List Nat) : Option Nat :=
  match (l.filter (fun x => decide (x > ptr))).min? with
  | some x => some x
  | none => l.min?

/-- The queue that pool n credits next: round-robin after the one it last credited, at first from queue 0 of context 0 (R79,
log entry 83). -/
def State.creditNext (s : State) (n : Nat) : Option Nat :=
  match lookupKey s.cores.credPtr n with
  | some ptr => turnAfter ptr (s.waitingFor n)
  | none => (s.waitingFor n).min?

/-- POOL_ENTRY: the pool whose turn it is credits the queue, and its descriptor enters (R79, R176, R177). DESIGN CHOICE (log entry
83): a task that breaks both checks of R176 reports SYNC_OWNER, and NO_PROGRAM too has bundle 0. -/
def execPoolEntry (c : Ctx) (q : Fin 16) (s : State) : Host.Outcome State Fault Refusal :=
  .next (match s.que.fed.find? (fun t => t.ctx == c.val && t.queue == q.val), s.placeFor c q with
    | some t, some n =>
      if s.creditNext n ≠ some (c.val * 16 + q.val) then s
      else
      let s1 := { s with que := { s.que with fed := s.que.fed.filter (fun u => u.place != t.place) }
                         cores := { s.cores with credPtr := insertKey s.cores.credPtr n (c.val * 16 + q.val) } }
      if !s.objsHeld t then s1.closeTask t 4 ftSyncOwner (some 0) (8 * ofBool t.shadow) none none false
      else if !s.boundIn c t.prog n then s1.closeTask t 4 ftNoProgram (some 0) (8 * ofBool t.shadow) none none false
      else
        let u := { t with cluster := n }
        ({ s1 with cores := { s1.cores with pool := s1.cores.pool ++ [u] } }).settle
    | _, _ => s)

/-- TASK_PULL: core k pulls the task that its pool gives it (R77, R80, R186). -/
def execTaskPull (k : LCore) (s : State) : Host.Outcome State Fault Refusal :=
  .next (match s.serve (clusterOf k) s.cores.pool with
    | some (j, t, turn) => if j = k.val then ((s.takeTask k t turn).giveTask k t).settle else s
    | none => s)

/-! ### Records (R178–R185, R190, R513) -/

/-- Show the level of the decant queue (R194). -/
def State.decantShow (s : State) : State :=
  (s.setFld fDecantLevelLevel s.que.decant.length).setFld fDecantLoLow
    (match s.que.decant.head? with
     | some e => e.toNat % 2 ^ 31
     | none => 0xFFFFFFFE)

/-- Push a result to the decant queue (R190): state, and whether it was taken. -/
def State.decantPush (s : State) (v : Word) : State × Bool :=
  if v.getLsbD 63 then (s, false)
  else if s.que.decant.length ≥ 256 then (s.bump fDecantSpillSpill 1, false)
  else (({ s with que := { s.que with decant := s.que.decant ++ [v] } }).decantShow, true)

/-- The done signal that follows a record (R178). -/
def State.doneSignal (s : State) (w : RecWait) : State :=
  match w.done with
  | some (n, i) => s.sendSignal (if w.record.kind = 0 then serviceStop (w.record.core / 128 % 4) else hubStop) w.record.ctx n i 1
  | none => s

/-- Count a record towards its ring's interrupt (R184). -/
def State.ringCount (s : State) (key : Nat) : State :=
  let c := key / 8
  let r := key % 8
  let n := (lookupKey s.que.ringIrq key).getD 0 + 1
  if s.bit (fQueRingCfgIrq c r) ∧ n ≥ max 1 (s.fld (fQueRingCfgCount c r)) then
    { (s.msix (s.fld (fQueRingCfgVector c r))) with que := { s.que with ringIrq := insertKey s.que.ringIrq key 0 } }
  else { s with que := { s.que with ringIrq := insertKey s.que.ringIrq key n } }

/-- Write a record into its ring (R181): two posted writes, byte 31 last; whether it could be written. -/
def State.recordBytes (s : State) (w : RecWait) (linkOk : Bool) : State × Bool :=
  let c := w.record.ctx
  let r := w.ring
  let n := s.fld (fQueRingCfgLog2size c r)
  let p := s.fld (fQueRingStateTail c r)
  let a := s.fld (fQueRingBaseBase c r) * 32 + p % 2 ^ n * 32
  let b := w.record.bytes (ringGen p n)
  if s.bit (fQueRingCfgLoc c r) then
    if linkOk then ((s.emit (.hostWrite a (b.take 31))).emit (.hostWrite (a + 31) (b.drop 31)), true) else (s, false)
  else
    let far : FarReply := if linkOk then FarReply.ok else ⟨4#8, [], []⟩
    let x := s.writeRun c a (b.take 31) far
    if x.2 ≠ 0 then (x.1, false)
    else
      let y := x.1.writeRun c (a + 31) (b.drop 31) far
      (y.1, y.2 == 0)

/-- Take element i out of the waiting records. -/
def State.dropRec (s : State) (i : Nat) : State := { s with que := { s.que with recs := s.que.recs.eraseIdx i } }

/-- Write a record that is due (R178, R181, R183, R184, R190), or lose it (R513). -/
def State.writeRec (s : State) (i : Nat) (w : RecWait) (linkOk : Bool) : State :=
  let key := ringKey w.record.ctx w.ring
  let c := w.record.ctx
  let r := w.ring
  let x := s.recordBytes w linkOk
  if x.2 then
    let s1 := ((x.1.dropRec i).setFld (fQueRingStateTail c r) ((s.fld (fQueRingStateTail c r) + 1) % 2 ^ 24)).ringShow key
    let s2 := (s1.ringCount key).doneSignal w
    (if w.decant then (s2.decantPush w.record.result).1 else s2).settle
  else
    ((x.1.dropRec i).log { code := 0x0107, kind := 0, unit := 0, part := s.partOf c, ctx := some c
                           detail := leBytes 1 r ++ leBytes 4 w.record.tag ++ leBytes 1 w.record.kind }).settle

/-- The point of a quiet record (R185, R190): no record, but where the decant pair refuses its entry. -/
def State.quietRec (s : State) (i : Nat) (w : RecWait) (linkOk : Bool) : State :=
  if w.decant then
    let d := s.decantPush w.record.result
    if d.2 then ((d.1.dropRec i).doneSignal w).settle
    else
      let w1 : RecWait := { w with quiet := false, decant := false }
      let s1 : State := { d.1 with que := { d.1.que with recs := setAt d.1.que.recs i w1 } }
      if s1.ringSpace (ringKey w.record.ctx w.ring) = 0 then s1 else s1.writeRec i w1 linkOk
  else ((s.dropRec i).doneSignal w).settle

/-- RECORD_WRITE: the next due record of a ring is written (R179–R185, R513). While the ring is full only quiet ones pass. -/
def execRecordWrite (c : Ctx) (r : Fin 8) (linkOk : Bool) (s : State) : Host.Outcome State Fault Refusal :=
  .next (
    let key := ringKey c r
    let full := s.ringSpace key == 0 || !s.ringOn key
    match s.que.recs.findIdx? (fun w => ringKey w.record.ctx w.ring == key && (w.quiet || !full)) with
    | some i => match s.que.recs[i]? with
      | some w => if w.quiet then s.quietRec i w linkOk else s.writeRec i w linkOk
      | none => s
    | none => s.ringShow key)

/-- The holdoff of a result ring expires with records not yet covered (R184). -/
def State.resultHoldoff (s : State) (c : Ctx) (r : Fin 8) : State :=
  let key := ringKey c r
  if s.bit (fQueRingCfgIrq c r) ∧ s.fld (fQueRingCfgHoldoff c r) ≠ 0 ∧ (lookupKey s.que.ringIrq key).getD 0 ≠ 0 then
    { (s.msix (s.fld (fQueRingCfgVector c r))) with que := { s.que with ringIrq := insertKey s.que.ringIrq key 0 } }
  else s

/-- The holdoff of the error ring expires (R184, R379). -/
def State.errHoldoff (s : State) : State :=
  if s.bit fErrRingCfgIrq ∧ s.fld fErrRingCfgHoldoff ≠ 0 ∧ s.err.ringFirst then
    { (s.msix (s.fld fErrRingCfgVector)) with err := { s.err with ringCount := 0, ringFirst := false } }
  else s

/-- INTERRUPT_HOLDOFF: the holdoff of a ring expires with records not yet covered (R184, R379). -/
def execInterruptHoldoff (r : RingRef) (s : State) : Host.Outcome State Fault Refusal :=
  .next (match r with
    | .result c r => s.resultHoldoff c r
    | .errors => s.errHoldoff)

/-! ### The decant pair (R190–R194) -/

/-- A host read of BAR0 of so many bytes: all bits set during the auxiliary stage, held while the supervisor restores, otherwise
`f` (R415, R472). -/
def State.hostRead (s : State) (off bytes : Nat) (f : State → State) : State :=
  if !s.answers off then s.emit (.hostRead bytes (BitVec.ofNat 64 (2 ^ (8 * bytes) - 1)))
  else if s.holding then s.hold ⟨off, bytes, .rd, HostObs.plain⟩
  else f s

/-- Read DECANT_LO (R191). -/
def State.readDecantLo (s : State) : State :=
  match s.que.decant with
  | [] => s.emit (.hostRead 4 0xFFFFFFFE#64)
  | e :: l =>
    let s1 := if s.que.latch.isSome then s.bump fDecantLostLost 1 else s
    let hi : BitVec 32 := BitVec.ofNat 32 (e.toNat / 2 ^ 31)
    let s2 := { s1 with que := { s1.que with decant := l, latch := some hi } }
    ((s2.setFld fDecantHiHigh hi.toNat).decantShow).emit (.hostRead 4 (BitVec.ofNat 64 (e.toNat % 2 ^ 31)))

/-- Read DECANT_HI (R191). -/
def State.readDecantHi (s : State) : State :=
  (({ s with que := { s.que with latch := none } }).setFld fDecantHiHigh 0).emit
    (.hostRead 4 ((s.que.latch.getD 0#32).setWidth 64))

/-- Read a counter of the compatibility page, which clears it (R194). -/
def State.readCounter (s : State) (f : Fld) : State := (s.setFld f 0).emit (.hostRead 4 (BitVec.ofNat 64 (s.fld f)))

/-- DECANT_LO_READ (R191). -/
def execDecantLoRead (s : State) : Host.Outcome State Fault Refusal := .next (s.hostRead rDecantLo 4 State.readDecantLo)

/-- DECANT_HI_READ (R191). -/
def execDecantHiRead (s : State) : Host.Outcome State Fault Refusal := .next (s.hostRead rDecantHi 4 State.readDecantHi)

/-- DECANT_LOST_READ (R194). -/
def execDecantLostRead (s : State) : Host.Outcome State Fault Refusal :=
  .next (s.hostRead rDecantLost 4 (fun s => s.readCounter fDecantLostLost))

/-- DECANT_SPILL_READ (R194). -/
def execDecantSpillRead (s : State) : Host.Outcome State Fault Refusal :=
  .next (s.hostRead rDecantSpill 4 (fun s => s.readCounter fDecantSpillSpill))

/-- Does the module log an access that is badly sized or aligned (R415)? From a reset until the auxiliary stage has ended it logs none. -/
def State.logsAccess (s : State) : Bool := s.pins.vaux && decide (s.fld fBringStateAux ≥ 2)

/-- An access of another size or alignment to the compatibility page is logged with its offset (R192). -/
def State.compatLog (s : State) (off size : Nat) : State :=
  s.log { code := 0x0104, kind := 13, detail := leBytes 4 off ++ leBytes 4 size }

/-- A read of so many bytes returns all bits set. -/
def State.readOnes (s : State) (size : Nat) : State := s.emit (.hostBytes (List.replicate size 0xFF#8))

/-- An access that BAR0 takes only to turn it away: held while the supervisor restores (R472); before the auxiliary stage has ended a read
returns all ones and nothing is logged (R415). -/
def State.badAccess (s : State) (off size : Nat) (acc : HostAcc) (f : State → State) : State :=
  if !s.logsAccess then (if acc = .rd then s.readOnes size else s)
  else if s.holding then s.hold ⟨off, size, acc, HostObs.plain⟩
  else f s

/-- What becomes of a badly sized or aligned access to the compatibility page (R192). -/
def State.compatBad (s : State) (off size : Nat) (acc : HostAcc) : State :=
  if acc = .rd then (s.compatLog off size).emit .completerAbort else s.compatLog off size

/-- DECANT_BAD_ACCESS: an access to the compatibility page of another size or alignment (R192, R415, R472). An aligned access of 32 bits is
none of these. -/
def execDecantBadAccess (off : BitVec 12) (size : Nat) (acc : HostAcc) (s : State) : Host.Outcome State Fault Refusal :=
  .next (
    let at_ := rDecantLo + off.toNat
    if size = 4 ∧ off.toNat % 4 = 0 then s else s.badAccess at_ size acc (fun s => s.compatBad at_ size acc))

/-- DECANT_WRITE: a 32-bit write to the compatibility page is discarded without error (R192). -/
def execDecantWrite (_off : BitVec 12) (_v : BitVec 32) (s : State) : Host.Outcome State Fault Refusal := .next s

/-- A member's timeout of the collective in flight expires: it ends with TIMEOUT and the group is BROKEN (R321). -/
def State.collTimeout (s : State) (n : Nat) : State :=
  match lookupKey s.grp.inflight n with
  | none => s
  | some c =>
    (((s.dropColl (s.fld (fGrpGStateKey n)) c.seq).collComplete n 7 0).setFlds
      [(fGrpGStateState n, gBroken), (fGrpGStateReason n, grTimeout)]).pactsBroken n

/-- The timeout of a collective at a module that only carries it (R321): what it gathered is discarded, and its late flits will be. -/
def State.transitTimeout (s : State) (key seq : Nat) : State :=
  match s.treeOf key with
  | none => s
  | some t => s.passed t seq

end Sys2Proof.Machine
end

