-- ==== Sys2Proof/Machine/Memory.lean ====
section
/-! DEFINITION. Memory stacks and requests at their homes (R205–R215, R220, R229–R241, R382): reads, writes and atomics of other
nodes, their answers, re-reads, poison, remaps, the patrol scrub, refresh. -/

namespace Sys2Proof.Machine

/-! ### Rows, banks, remaps -/

/-- The key of a row that a command names. -/
def keyOfRow (r : RowRef) : RowKey := ⟨r.stack, r.pc, r.bank, r.row⟩

/-- The key of the bank of a row. -/
def RowKey.bankKey (r : RowKey) : RowKey := { r with row := 0 }

/-- Location of a row in the defect log (R389). -/
def RowKey.location (r : RowKey) : Nat := r.pc * 2 ^ 20 + r.bank * 2 ^ 14 + r.row

/-- A remap that finds no spare (R214). -/
def State.spareExhausted (s : State) (stack : Nat) : State :=
  ((s.setFld (fMemcStkSpareExhausted stack) 1).log { code := 0x0305, kind := 5, unit := stack, warning := true }).raise 0x0D 5 stack []

/-- A bank waits to be remapped, once at a time; one that a spare has replaced can be due again (R213). -/
def State.dueBank (s : State) (b : RowKey) : State :=
  if s.dram.bankDue.contains b then s
  else { s with dram := { s.dram with bankDue := s.dram.bankDue ++ [b] } }

/-- Show the spares that a stack uses (R222). -/
def State.showSpares (s : State) (st : Nat) : State :=
  s.setFlds [(fMemcStkSpareRows st, (s.dram.rows.filter (fun r => r.stack == st)).length),
    (fMemcStkSpareBanks st, (s.dram.banks.filter (fun r => r.stack == st)).length)]

/-- ROW_REMAP: a row that is due is remapped to the row-spare area, or the remap fails and its bank is due (R213, R214). -/
def execRowRemap (r : RowRef) (ok : Bool) (s : State) : Host.Outcome State Fault Refusal :=
  .next (
    let k := keyOfRow r
    if !s.dram.rowDue.contains k then s
    else
      let s1 := { s with dram := { s.dram with rowDue := s.dram.rowDue.filter (· != k) } }
      if !s.dram.rows.contains k ∧ (s.dram.rows.filter (fun x => x.stack == k.stack)).length ≥ 1024 then s1.spareExhausted k.stack
      else if !ok then s1.dueBank k.bankKey
      else
        let s2 := { s1 with dram := { s1.dram with
          rows := s1.dram.rows.filter (· != k) ++ [k], rereads := s1.dram.rereads.filter (fun p => p.1 != k) } }
        let s3 := ((s2.showSpares k.stack).stackLast 3 k).log { code := 0x0303, kind := 5, unit := k.stack, action := 4, defect := s.canList
                                                                detail := k.detail }
        let s4 := s3.defect 5 5 k.stack k.location 0x0303 0
        if (s4.dram.rows.filter (fun x => x.bankKey == k.bankKey)).length ≥ 8 then s4.dueBank k.bankKey else s4)

/-- BANK_REMAP: a bank that is due is remapped to a bank spare (R213, R214). -/
def execBankRemap (r : RowRef) (s : State) : Host.Outcome State Fault Refusal :=
  .next (
    let k := (keyOfRow r).bankKey
    if !s.dram.bankDue.contains k then s
    else
      let s1 := { s with dram := { s.dram with bankDue := s.dram.bankDue.filter (· != k) } }
      if (s.dram.banks.filter (fun x => x.stack == k.stack)).length ≥ 111 then s1.spareExhausted k.stack
      else
        let s2 := { s1 with dram := { s1.dram with banks := s1.dram.banks ++ [k] } }
        (((s2.showSpares k.stack).stackLast 3 k).log { code := 0x0304, kind := 5, unit := k.stack, action := 4, defect := s.canList
                                                       detail := k.detail }).defect 5 5 k.stack k.location 0x0304 2)

/-- STACK_DEAD (R210). -/
def execStackDead (st : Stack) (s : State) : Host.Outcome State Fault Refusal :=
  .next (s.fatalModule { code := 0x0308, kind := 5, unit := st } caFatal)

/-! ### What the cells of a stack hold (R447) -/

/-- The number of the key pair that guards a line: the key of the context that owns its frame or its lees record, the module's own in the
module region and where the lees has no context. -/
def State.lineKey (s : State) (line : Nat) : Nat :=
  let a := 64 * line
  if a < contextSpaceEnd then (match lookupKey s.fab.frames (a / 2 ^ 21) with
    | some f => f.key
    | none => s.fab.moduleKey)
  else
    let p := (a - contextSpaceEnd) / 2 ^ 22
    let within (r : Nat × Nat × Option Nat) : Bool := decide (leesAt p + r.1 ≤ a ∧ a < leesAt p + r.1 + r.2.1)
    match (s.err.lees.find? (fun l => l.part == p)).bind (fun l => (l.recs.find? within).bind (fun r => r.2.2)) with
    | some c => (lookupKey s.fab.keyOf c).getD s.fab.moduleKey
    | none => s.fab.moduleKey

/-- The 64 bytes that a stack holds of a line: its contents under AES-256-XTS, the line's number as tweak (R447, log entry 10). -/
def State.lineStored (s : State) (line : Nat) : List Byte :=
  xtsLine (beBytes 64 (Config.keyPair (s.lineKey line)).toNat) line (s.mem.bytes (64 * line) 64)

/-! ### Requests of other nodes (R229–R241, R288) -/

/-- Is a request for this module's memory? -/
def State.isHome (s : State) (q : Req) : Bool := gpaNode q.gpa.toNat == s.node.toNat

/-- Answer a request. -/
def State.answerTo (s : State) (q : Req) (kind : Nat) (h : HomeAns) : State :=
  if h.status = 0 ∨ (h.status = 8 ∧ kind = pkData) then
    s.sendPkt kind q.src (frameOf q.gpa.toNat) (replyBody q.id.toNat h.status h.data) h.poisoned
  else s.sendPkt pkRefused q.src (frameOf q.gpa.toNat) (replyBody q.id.toNat h.status []) []

/-- READ: a read reaches its home (R207, R208, R229–R231). -/
def execRead (q : Req) (obs : List LineObs) (s : State) : Host.Outcome State Fault Refusal :=
  .next (if !s.isHome q then s
    else
      let a := gpaLocal q.gpa.toNat
      let h := s.homeRead q.src q.ctx q.job.toNat a q.len obs
      h.1.answerTo q pkData h.2)

/-- WRITE: a write reaches its home (R208, R229–R231, R236). -/
def execWrite (q : Req) (s : State) : Host.Outcome State Fault Refusal :=
  .next (if !s.isHome q then s
    else
      let h := s.homeWrite q.src q.ctx q.job.toNat (gpaLocal q.gpa.toNat) q.data
      h.1.answerTo q pkAck h.2)

/-- ATOMIC: an atomic reaches its home (R208, R240, R241): operand and compare value as eight bytes each. -/
def execAtomic (q : Req) (obs : List LineObs) (s : State) : Host.Outcome State Fault Refusal :=
  .next (if !s.isHome q then s
    else
      let h := s.homeAtomic q.src q.ctx q.job.toNat (gpaLocal q.gpa.toNat) q.op.toNat
        (BitVec.ofNat 64 (field q.data 0 8)) (BitVec.ofNat 64 (field q.data 8 8)) obs
      h.1.answerTo q pkOld h.2)

/-- DATA: the answer to a read (R142, R143). -/
def execData (r : Reply) (s : State) : Host.Outcome State Fault Refusal := .next (s.answer r.id.toNat r)

/-- ACK: the answer to a write (R236). -/
def execAck (r : Reply) (s : State) : Host.Outcome State Fault Refusal := .next (s.answer r.id.toNat r)

/-- OLD: the answer to an atomic (R240). -/
def execOld (r : Reply) (s : State) : Host.Outcome State Fault Refusal := .next (s.answer r.id.toNat r)

/-- REFUSED: a home refuses a request (R231); a status that is no refusal counts as PARTIAL. -/
def execRefused (r : Reply) (s : State) : Host.Outcome State Fault Refusal :=
  .next (s.answer r.id.toNat (if r.status = 0#8 then { r with status := 4#8 } else r))

/-! ### Scrub, refresh, temperature, replays -/

/-- Lines of a stack. -/
def stackLines : Nat := 750000000

/-- Progress of the patrol scrub (R209, R222): a line counts once in a pass, which ends once every line of every stack has been read. -/
def State.scrubCount (s : State) (st line : Nat) : State :=
  let l := if s.dram.scrubbed.contains (st, line) then s.dram.scrubbed else (st, line) :: s.dram.scrubbed
  let least := (List.range 12).foldl (fun m i => min m (l.filter (fun p => p.1 == i)).length) stackLines
  if least = stackLines then
    ({ s with dram := { s.dram with scrubbed := [], scrubSkip := [] } }).setFld fMemcScrubProgress 0
  else ({ s with dram := { s.dram with scrubbed := l } }).setFld fMemcScrubProgress (least * 100 / stackLines)

/-- PATROL_SCRUB: a controller's scrub reads a line (R207, R209); a line found poisoned is not read again in the period. -/
def execPatrolScrub (st : Stack) (line : Nat) (obs : LineObs) (s : State) : Host.Outcome State Fault Refusal :=
  .next (if s.fld (fMemcStkStateState st) ≠ 3 ∨ s.bit fMemcScrubPaused ∨ (s.rowOf (64 * line)).stack ≠ st.val
        ∨ s.dram.scrubSkip.contains line then s
    else
      let s1 := (s.activateRow (s.rowOf (64 * line))).lineRead { obs with line := line }
      let s2 := if s1.mem.poison.contains line then { s1 with dram := { s1.dram with scrubSkip := line :: s1.dram.scrubSkip } } else s1
      s2.scrubCount st line)

/-- REFRESH: a stack's refresh window ends; activations count from zero (R211, R212). -/
def execRefresh (st : Stack) (s : State) : Host.Outcome State Fault Refusal :=
  .next { s with dram := { s.dram with acts := s.dram.acts.filter (fun p => p.1.stack != st.val) } }

/-- STACK_TEMPERATURE_READ: the controller reads its stack's temperature and passes it to the thermal model (R211). -/
def execStackTemperatureRead (st : Stack) (t : Int) (s : State) : Host.Outcome State Fault Refusal :=
  .next { s with dram := { s.dram with temps := insertKey s.dram.temps st t } }

/-- Number of a path in the detail of its records: kind, then number (log entry 7). -/
def pathDetail : PathRef → List Byte
  | .trellis n => leBytes 1 0 ++ leBytes 2 n
  | .dieLink n => leBytes 1 1 ++ leBytes 2 n
  | .hubLink => leBytes 1 2 ++ leBytes 2 0
  | .storePort c => leBytes 1 3 ++ leBytes 2 c
  | .clusterPort n => leBytes 1 4 ++ leBytes 2 n
  | .cipher st => leBytes 1 5 ++ leBytes 2 st

/-- Kind and unit of a path's records. -/
def pathUnit : PathRef → Nat × Nat
  | .storePort c => (3, c)
  | .clusterPort n => (2, n)
  | .cipher st => (5, st)
  | _ => (0, 0)

/-- A trellis, die-to-die or hub link (R382). -/
def isLinkPath : PathRef → Bool
  | .trellis _ | .dieLink _ | .hubLink => true
  | .storePort _ | .clusterPort _ | .cipher _ => false

/-- WORD_REPLAY: a word that came with a parity mismatch is replayed (R205, R206, R382): clean, or after four failures its line is
delivered poisoned; a second escalation of a link within 1 ms is PATH_DEAD, a store port follows R220. -/
def execWordReplay (path : PathRef) (clean : Bool) (line : Nat) (s : State) : Host.Outcome State Fault Refusal :=
  .next (
    let u := pathUnit path
    if clean then s.log { code := 0x0208, kind := u.1, unit := u.2, action := 1, detail := pathDetail path }
    else
      let s1 := s.markLine line
      if !(isLinkPath path) ∧ u.1 ≠ 5 then
        s1.log { code := 0x0307, cls := 1, kind := u.1, unit := u.2, action := 3, detail := leBytes 8 (64 * line) }
      else
        let s2 := s1.log { code := 0x0209, cls := 1, kind := u.1, unit := u.2, action := 3, detail := pathDetail path }
        let again := isLinkPath path && s2.err.paths.any (fun p => p.1 == path && decide (s2.time < p.2 + 10 ^ 6))
        let s3 := { s2 with err := { s2.err with paths := (path, s2.time) :: s2.err.paths.filter (fun p => p.1 != path) } }
        if again then s3.fatalModule { code := 0x020A, kind := u.1, unit := u.2, detail := pathDetail path } caFatal else s3)

end Sys2Proof.Machine
end

