-- ==== Sys2Proof/Machine/ImageLoad.lean ====
section
/-! DEFINITION. Bring-up steps (R420, R421), the structure image's staging, verify and load (R14–R19, R44–R48), memory training
and screening (R215–R218), DEFECTS (R55, R221, R423, R424). -/

namespace Sys2Proof.Machine

/-! ### Steps (R420, R431) -/

/-- Results of BRING.STATE (R431). -/
def brDone : Nat := 0
def brOrder : Nat := 1
def brBusy : Nat := 2
def brImage : Nat := 3
def brNoFeed : Nat := 4
def brHeldOff : Nat := 5
def brRail : Nat := 6
def brClock : Nat := 7
def brStack : Nat := 8
def brPartDown : Nat := 9
def brNoPartition : Nat := 10
def brSecure : Nat := 11

/-- The auxiliary stage has ended well. -/
def State.auxDone (s : State) : Bool := s.fld fBringStateAux == 2

/-- BRING.CTL with go and a step's number. -/
def bringGo (n : Nat) : Word := putBits (putBits 0#64 fBringCtlGo 1) fBringCtlStep n

/-- Start step n (R420): refused with ORDER or BUSY, else `f` gives what the step does and the result that it will report. -/
def State.startStep (s : State) (n : Nat) (obs : HostObs) (f : State → State × Nat) : State :=
  s.hostWrite rBringCtl (bringGo n) obs (fun s =>
    let s1 := s.setFld fBringCtlStep n
    if s.bit fBringStateBusy then s1.setFld fBringStateResult brBusy
    else if !s.auxDone ∨ s.stepDone n ∨ (n ≥ 2 ∧ !s.stepDone (n - 1)) then s1.setFld fBringStateResult brOrder
    else
      let s2 := s1.setFlds [(fBringStateStep, n), (fBringStateBusy, 1)]
      let r := f s2
      { r.1 with img := { r.1.img with stepRes := r.2, stepAt := r.1.time } })

/-- POWER has completed (R337, R368): stages that still precharge carry the load or stand by, the power state shows. -/
def State.powered (s : State) : State :=
  let fin (f : Fld) (cold : Bool) (s : State) : State := if s.fld f = 1 then s.setFld f (if cold then 2 else 3) else s
  (fin fPwrFeedBState (s.bit fPwrFeedMode && !s.bit fPwrFeedPrimary) (fin fPwrFeedAState (s.bit fPwrFeedMode && s.bit fPwrFeedPrimary) s)).pwrShow

/-- Stack states of R222. -/
def stkTraining : Nat := 1
def stkScreening : Nat := 2
def stkReady : Nat := 3
def stkFailed : Nat := 4

/-- The screen ends: its outcome shows in each stack's state and the patrol scrub goes on (R209, R218, R222). -/
def State.screenEnd (s : State) : State :=
  ((List.range 12).foldl (fun s st => if s.fld (fMemcStkStateState st) = stkScreening then
      s.setFld (fMemcStkStateState st) (if s.fld (fMemcStkStateScreenResult st) = 0 then stkReady else stkFailed)
    else s) s).setFld fMemcScrubPaused 0

/-- Is SECURE still waiting: a port attests, and 12 s have not passed (R421, R445)? -/
def State.secureWaits (s : State) : Bool :=
  s.fld fBringStateStep == 9 && s.img.stepRes == brDone && decide (s.time < s.img.stepAt + 12 * 10 ^ 9)
  && (List.range 32).any (fun p => bitsOf (s.fld fSecPortsPorts) (2 * p + 1) (2 * p) == 3)

/-- OPEN has completed: no fatal-module record is newer, and the mode becomes SERVICE unless host software has written ERR.CTL (R396, R425,
R508). -/
def State.opened (s : State) : State :=
  let s1 : State := { s with flash := ({ s.flash with fatalSinceOpen := false } : Flash).wrote 6 [1] }
  (if s1.bit fErrCtlHostSet then s1 else s1.setFld fErrCtlMode 0).faultSince s

/-- STEP_RESULT: the running step ends: its result, whether it completed, its duration (R421, R431); a load's outcome shows
(R47). SECURE does not end while ports attest, but for its bound of 12 s (R445). -/
def execStepResult (ms : BitVec 32) (s : State) : Host.Outcome State Fault Refusal :=
  .next (if !s.bit fBringStateBusy ∨ s.secureWaits then s
    else
      let n := s.fld fBringStateStep
      let ok := s.img.stepRes == brDone || s.img.stepRes == brPartDown
      let s1 := s.setFlds [(fBringStateBusy, 0), (fBringStateResult, s.img.stepRes), (fBringTimeStepMs, ms.toNat)]
      let s2 := if ok then (s1.setFld fBringStateDone (s1.fld fBringStateDone ||| 2 ^ (n - 1))).setFld fBringTimeTotalMs
          (s1.fld fBringTimeTotalMs + ms.toNat)
        else s1
      let s2 := if ok ∧ n = 11 then s2.opened else if ok ∧ n = 2 then s2.powered else if n = 5 then s2.screenEnd else if ok ∧ n = 10 then s2.joinEnd else s2
      match s2.img.result with
      | some r =>
        ({ s2 with img := { s2.img with result := none } }).setFlds
          [(fCuveeResultReason, r.1), (fCuveeResultSection, r.2), (fCuveeResultMode, 0), (fCuveeResultBusy, 0)]
      | none => s2)

/-! ### Staging and verify (R45–R48) -/

/-- What the checks compare an image with. -/
def State.imageCtx (s : State) : ImageCtx := ⟨s.flash.owner, s.flash.floor, keyTag deviceKey⟩

/-- A source's bytes; none where it holds none. -/
def sourceBytes (l : List Byte) : Option (List Byte) := if l = [] then none else some l

/-- What the staging buffer counts as to a check (R46): its bytes, and one more where bytes beyond 16,384 were discarded since it was
empty, so that the length check fails. -/
def State.stagedBytes (s : State) : List Byte := s.img.staged ++ (if s.img.excess then [0#8] else [])

/-- A host write of CUVEE.DATA (R46, R47). -/
def State.cuveeDataWrite (s : State) (v : Word) : State :=
  if s.bit fCuveeResultBusy then
    s.log { code := 0x0106, kind := 13, detail := leBytes 4 rCuveeData ++ leBytes 4 (s.fld fCuveeFillFill) }
  else
    let l := s.img.staged ++ leBytes 8 v.toNat
    ({ s with img := { s.img with staged := l.take 16384, excess := s.img.excess || decide (l.length > 16384) } }).setFld fCuveeFillFill
      (min 16384 l.length)

/-- A host write of CUVEE.CTL (R45–R47): clear before verify, both ignored while a check runs. -/
def State.cuveeCtlWrite (s : State) (v : Word) : State :=
  let s1 := s.writeUnder takesAll rCuveeCtl v
  if s.bit fCuveeResultBusy then s1
  else
    let s2 := if getBits v fCuveeCtlClear = 1 then
        ({ s1 with img := { s1.img with staged := [], excess := false } }).setFld fCuveeFillFill 0 else s1
    if getBits v fCuveeCtlVerify = 1 ∧ s.auxDone then
      ({ s2 with img := { s2.img with verify := some s2.stagedBytes } }).setFld fCuveeResultBusy 1
    else s2

/-- CUVEE_DATA_WRITE (R46, R47). -/
def execCuveeDataWrite (v : Word) (s : State) : Host.Outcome State Fault Refusal :=
  .next (s.hostWrite rCuveeData v HostObs.plain (fun s => s.cuveeDataWrite v))

/-- CUVEE_CLEAR (R46, R47). -/
def execCuveeClear (v : Word) (s : State) : Host.Outcome State Fault Refusal :=
  .next (s.hostWrite rCuveeCtl (putBits v fCuveeCtlClear 1) HostObs.plain (fun s => s.cuveeCtlWrite (putBits v fCuveeCtlClear 1)))

/-- VERIFY (R45, R46). -/
def execVerify (v : Word) (s : State) : Host.Outcome State Fault Refusal :=
  .next (s.hostWrite rCuveeCtl (putBits v fCuveeCtlVerify 1) HostObs.plain (fun s => s.cuveeCtlWrite (putBits v fCuveeCtlVerify 1)))

/-- VERIFY_RESULT: the verify ends (R43, R45, R48). -/
def execVerifyResult (s : State) : Host.Outcome State Fault Refusal :=
  .next (match s.img.verify with
    | none => s
    | some b =>
      let r := checkImage s.imageCtx true (sourceBytes b)
      ({ s with img := { s.img with verify := none } }).setFlds
        [(fCuveeResultReason, r.1), (fCuveeResultSection, r.2), (fCuveeResultMode, 1), (fCuveeResultBusy, 0)])

/-! ### IMAGE (R14–R19, R44) -/

/-- The partition of a context under an image. -/
def Cuvee.partOf (c : Cuvee) (ctx : Nat) : Option Nat :=
  c.parts.findIdx? (fun p => decide (p.ctxFirst ≤ ctx ∧ ctx < p.ctxFirst + p.ctxCount))

/-- Register fields that the image fills once IMAGE has accepted it (R15, R408). -/
def Cuvee.fields (c : Cuvee) : List (Fld × Nat) :=
  (List.range 128).flatMap (fun x => match c.partOf x with
    | some p => [(fCtxCtlInRange x, 1), (fCtxCtlPartition x, p)]
    | none => [])
  ++ [(fCtxCapPartitions, c.parts.length)]
  ++ (List.range 32).flatMap (fun p => (fLnkPortStateWidthMin p, c.widths.getD (portClass p) 16) :: (match c.cabling.getD p none with
    | some (n, q) => [(fLnkPortCablePlanNode p, n.toNat), (fLnkPortCablePlanPort p, q)]
    | none => []))
  ++ [(fGrpSlotsFreeH0, 64), (fGrpSlotsFreeH1, 64), (fGrpSlotsTransitH0, 64 - sumOver (·.slotsH0) c.parts),
      (fGrpSlotsTransitH1, 64 - sumOver (·.slotsH1) c.parts), (fPwrInputImageCap, c.inputCap), (fThmCoolThrottle, c.throttle),
      (fThmLeakPolicy, c.leakPolicy)]
  ++ c.parts.zipIdx.flatMap (fun p => [(fPwrPartCeiling p.2, p.1.budget), (fPwrPartBudget p.2, p.1.budget)])
  ++ [(fSupStateMode, c.supMode)]

/-- The accepted image takes effect (R17, R44); in spare mode supervisor cores 1 and 2 become spares (R470). -/
def State.imageAccept (s : State) (b : List Byte) (staged flashOk : Bool) : State :=
  let c := parseImage b
  let s1 := { s with img := { s.img with cfg := some c }, flash := ({ s.flash with floor := c.serial } : Flash).wrote 6 [1] }
  let sp (f : Fld) : List (Fld × Nat) := if c.supMode = 1 ∧ s.fld f = 0 then [(f, 1)] else []
  let s2 := ((s1.setFlds c.fields).setFlds (sp fSupStateCore1 ++ sp fSupStateCore2)).setFlds ([(fCuveeActiveSerial, c.serial), (fCuveeFloorFloor, c.serial)]
    ++ (List.range 6).map (fun i => (fCuveeDigestDigest i, field c.digest (8 * i) 8)))
  if !staged then s2
  else if flashOk ∧ !s.flash.failWrites then
    ({ s2 with flash := ({ s2.flash with image := some b } : Flash).wrote 2 (List.range ((b.length + 4095) / 4096)) }).setFlds [(fCuveeStoredSerial, c.serial), (fCuveeResultStoredValid, 1)]
  else s2.log { code := 0x0705, kind := 0 }

/-- What IMAGE does: any verify is abandoned, the source is checked, an accepted image takes effect. -/
def State.imageStep (s : State) (flashOk : Bool) : State × Nat :=
  let staged := s.fld fCuveeCtlSource == 0
  let src := if staged then sourceBytes s.stagedBytes else s.flash.image
  let r := checkImage s.imageCtx staged src
  let s1 := ({ s with img := { s.img with verify := none, result := some r } }).setFld fCuveeResultBusy 1
  if r.1 = rsnAccepted then (s1.imageAccept (src.getD []) staged flashOk, brDone) else (s1, brImage)

/-- IMAGE: step 1 (R14–R49). -/
def execImage (flashOk : Bool) (s : State) : Host.Outcome State Fault Refusal :=
  .next (s.startStep 1 { HostObs.plain with flashOk := flashOk } (fun s => s.imageStep flashOk))

/-! ### MEMTRAIN and MEMSCREEN (R212, R215–R218) -/

/-- Training of every stack: state, and whether every stack trained (R216). -/
def State.train (s : State) (obs : List TrainObs) : State × Bool :=
  let s1 := (List.range 12).foldl (fun s st => s.setFlds [(fMemcStkStateState st, stkTraining), (fMemcStkStateTrainResult st, 0),
    (fMemcStkStateLanesRepaired st, 0)]) s
  let s2 := obs.foldl (fun s o => s.setFlds [(fMemcStkStateLanesRepaired o.stack, o.lanes.toNat), (fMemcStkStateTrainResult o.stack, o.result),
    (fMemcStkStateState o.stack, if o.result = 0 then stkTraining else stkFailed)]) s1
  (s2, obs.all (fun o => o.result == 0))

/-- The interleave in force (R32, R203). -/
def State.setInterleave (s : State) : State := match s.img.cfg with
  | some c => s.setFlds [(fMemcMapKey, c.key), (fMemcMapValid, 1), (fMemcMapScope, c.scope), (fMemcMapGranule, c.granule)]
  | none => s

/-- MEMTRAIN: step 4 (R216). -/
def execMemtrain (obs : List TrainObs) (s : State) : Host.Outcome State Fault Refusal :=
  .next (s.startStep 4 { HostObs.plain with train := obs } (fun s => let r := s.setInterleave.train obs; (r.1, if r.2 then brDone else brStack)))

/-- Does this start screen FULL (R42)? -/
def Cuvee.screensFull (c : Cuvee) (since : Nat) : Bool := c.depth == 1 || (c.fullEvery != 0 && decide (since + 1 ≥ c.fullEvery))

/-- Apply again every remap that the defect log lists and does not mark repaired (R215). -/
def State.applyLogged (s : State) : State :=
  let l := s.flash.defects.filter (fun d => d.kind == 5 && d.flags % 2 == 0)
  let key (d : Defect) : RowKey := ⟨d.unit, bitsOf d.location 25 20, bitsOf d.location 19 14, bitsOf d.location 13 0⟩
  { s with dram := { s.dram with
    rows := ((l.filter (fun d => d.flags / 2 % 2 == 0)).map key).eraseDups
    banks := ((l.filter (fun d => d.flags / 2 % 2 == 1)).map key).eraseDups
    rowDue := [], bankDue := [], acts := [], rereads := [] } }

/-- A row or bank that the screen finds bad is listed and remapped, unless it is listed already. -/
def State.screenBad (s : State) (bank : Bool) (r : RowRef) : State :=
  let k := if bank then (keyOfRow r).bankKey else keyOfRow r
  if (if bank then s.dram.banks else s.dram.rows).contains k then s
  else
    let s1 := s.defect 5 5 k.stack k.location 0 (if bank then 2 else 0)
    { s1 with dram := { s1.dram with
      rows := if bank then s1.dram.rows else s1.dram.rows ++ [k], banks := if bank then s1.dram.banks ++ [k] else s1.dram.banks } }

/-- A row remap becomes a post-package repair (R215): it leaves the table and its entry is marked. -/
def State.rowRepaired (s : State) (r : RowRef) : State :=
  let k := keyOfRow r
  let hit (d : Defect) : Bool := d.kind == 5 && d.unit == k.stack && d.location == k.location && d.flags == 0
  { s with
    dram := { s.dram with rows := s.dram.rows.filter (· != k) }
    flash := ({ s.flash with defects := s.flash.defects.map (fun d => if hit d then { d with flags := 1 } else d) } : Flash).wrote 3
      ((List.range 64).filter (fun n => ((s.flash.defects.drop (256 * n)).take 256).any hit)) }

/-- Disturb threshold of a count (R212). -/
def disturbThreshold (n : Nat) : Nat := min 2048 (max 256 (n / 4))

/-- Disturb counts: measured by a FULL screen, else from flash (R212). -/
def State.setDisturb (s : State) (full : Bool) (obs : List (Stack × Nat)) : State :=
  let s1 := if full then obs.foldl (fun s p => { s with flash := ({ s.flash with disturb := insertKey s.flash.disturb p.1 p.2 } : Flash).wrote 6 [2] }) s else s
  (List.range 12).foldl (fun s st => match lookupKey s.flash.disturb st with
    | some n => s.setFlds [(fMemcStkDisturbMeasured st, min 65535 n), (fMemcStkDisturbThreshold st, disturbThreshold n)]
    | none => s.setFld (fMemcStkDisturbThreshold st) 512) s1

/-- A screen of every stack, SCREENING with the scrub paused until it ends: the state, and whether the spares cover the defects (R215, R217, R218). All of memory reads zero
after it. DEDUCED (log entry 45): every screen that is run ends with a result, so NOT_RUN never shows. -/
def State.screen (s : State) (full : Bool) (obs : ScreenObs) : State × Bool :=
  let s1 := obs.badBanks.foldl (fun s r => s.screenBad true r) (obs.badRows.foldl (fun s r => s.screenBad false r) s.applyLogged)
  let s2 := (obs.repaired.foldl State.rowRepaired s1).setDisturb full obs.disturb
  let bad (st : Nat) : Bool := obs.overCapacity.any (fun x => x.val == st)
    || decide ((s2.dram.rows.filter (fun r => r.stack == st)).length > 1024)
    || decide ((s2.dram.banks.filter (fun r => r.stack == st)).length > 111)
  let s3 := (List.range 12).foldl (fun s st => (s.showSpares st).setFlds [(fMemcStkStateScreenResult st, ofBool (bad st)),
    (fMemcStkStateState st, stkScreening)]) s2
  let s4 := s3.clearMem 0 memoryEnd
  let e := { s4.err with lees := [] }
  (({ s4 with err := e }).setFlds [(fMemcScreenSeconds, obs.seconds.toNat), (fMemcScreenDepth, ofBool full), (fErrLeesValid, 0), (fMemcScrubPaused, 1)],
    !((List.range 12).any bad))

/-- Record the count C of starts since the last FULL screen (R42). -/
def State.setSinceFull (s : State) (c : Option Nat) : State :=
  ({ s with flash := ({ s.flash with sinceFull := c } : Flash).wrote 6 [2] }).setFld fMemcScreenSinceFull (c.getD 255)

/-- MEMSCREEN: step 5 (R42, R215–R218). C counts earlier starts: it is taken as it stood when this start began, so that a repeat of the
step in one start has the same depth and counts once. -/
def execMemscreen (obs : ScreenObs) (s : State) : Host.Outcome State Fault Refusal :=
  .next (s.startStep 5 { HostObs.plain with screen := obs } (fun s => match s.img.cfg with
    | none => (s, brStack)
    | some c =>
      let full := c.screensFull s.img.startC
      let r := s.screen full obs
      (r.1.setSinceFull (if full then some 0 else if s.img.startC ≥ 255 then s.flash.sinceFull else some (s.img.startC + 1)),
        if r.2 then brDone else brStack)))

/-! ### DEFECTS (R55, R221, R423, R424) -/

/-- One unit under the union rule (R423). -/
structure Verdict where
  row : Bool
  kind : Nat
  unit : Nat
  location : Nat
  fused : Bool
  failed : Bool
  listed : Bool
  deriving DecidableEq, Repr

/-- Is the unit usable? -/
def Verdict.usable (v : Verdict) : Bool := !v.fused && !v.failed && !v.listed

/-- The log action for a unit: a discrepancy that is not listed is entered, source START_TEST or FUSE. -/
def State.unionLog (s : State) (v : Verdict) : State :=
  if v.listed ∨ v.fused = v.failed then s
  else s.defectAt v.row v.kind (if v.failed then 1 else 9) v.unit v.location 0 0

/-- Verdicts on numbered units, or on rows of units, that fuses, test or log name; every other is good. -/
def Flash.verdicts (f : Flash) (row : Bool) (kind : Nat) (fused failed : List (Nat × Nat)) : List Verdict :=
  let logged := (f.defects.filter (fun d => d.row == row && d.kind == kind)).map (fun d => (d.unit, d.location))
  ((fused ++ failed ++ logged).eraseDups).map (fun u =>
    ⟨row, kind, u.1, u.2, fused.contains u, failed.contains u, logged.contains u⟩)

/-- What DEFECTS finds of every kind of unit. -/
def State.defectVerdicts (s : State) (o : DefectObs) : List Verdict :=
  let f := s.flash
  let one (l : List Nat) : List (Nat × Nat) := l.map (fun x => (x, 0))
  f.verdicts false 3 (one f.fuseCores) (one (o.cores.map Fin.val))
  ++ f.verdicts true 3 f.fuseCoreRows (o.coreRows.map (fun p => (p.1.val, p.2.val)))
  ++ f.verdicts true 2 f.fuseClusterRows (o.clusterRows.map (fun p => (p.1.val, p.2.val)))
  ++ f.verdicts false 8 (one f.fuseAdders) (one (o.adders.map (fun a => 2 + a.val)))
  ++ f.verdicts false 7 (one f.fuseLanes) (one (o.lanes.map Fin.val))

/-- Is a physical core usable (R221, R423)? -/
def coreUsableIn (vs : List Verdict) (p : Nat) : Bool :=
  !(vs.any (fun v => !v.row && v.kind == 3 && v.unit == p && !v.usable))
  && decide ((vs.filter (fun v => v.row && v.kind == 3 && v.unit == p && !v.usable)).length ≤ 8)

/-- The map and the core states of a cluster (R55). -/
def State.buildMap (s : State) (vs : List Verdict) (n : Nat) : State :=
  let good := (List.range 18).filter (fun j => coreUsableIn vs (n * 18 + j))
  let s1 := (List.range 18).foldl (fun s j => s.setCoreState (n * 18 + j)
    (if !good.contains j then 2 else if (good.take 16).contains j then 0 else 1)) s
  let s2 := (good.take 16).zipIdx.foldl (fun s p => s.setMap (n * 16 + p.2) p.1) s1
  good.foldl (fun s j => s.setCoreLog (n * 18 + j) ⟨s.time, s.fabTime, [], [], []⟩) s2

/-- Is a cluster fit: sixteen usable cores and a store within its spare rows (R221, R424)? -/
def clusterFit (vs : List Verdict) (n : Nat) : Bool :=
  decide (((List.range 18).filter (fun j => coreUsableIn vs (n * 18 + j))).length ≥ 16)
  && decide ((vs.filter (fun v => v.row && v.kind == 2 && v.unit == n && !v.usable)).length ≤ 64)

/-- DEFECTS: step 6 (R55, R221, R423, R424). -/
def execDefects (obs : DefectObs) (s : State) : Host.Outcome State Fault Refusal :=
  .next (s.startStep 6 { HostObs.plain with defects := obs } (fun s => match s.img.cfg with
    | none => (s, brNoPartition)
    | some c =>
      let vs := s.defectVerdicts obs
      let s1 := (List.range 32).foldl (fun s n => s.buildMap vs n) (vs.foldl State.unionLog s)
      let down (p : PartCfg) : Bool := (maskClusters p.clusters).any (fun n => !clusterFit vs n)
      let s2 := c.parts.zipIdx.foldl (fun s p => (s.setFlds [(fCtxPartClusters p.2, p.1.clusters.toNat),
          (fCtxPartComposition p.2, p.1.composition)]).setFlds
        (if down p.1 then [(fCtxPartState p.2, pDown), (fCtxPartDownReason p.2, drDefects)] else [])) s1
      let mask := (c.parts.zipIdx.map (fun p => if down p.1 then 2 ^ p.2 else 0)).foldl (· + ·) 0
      let s3 := s2.setFlds [(fBringDefectsDown, mask),
        (fBringDefectsFuseOnly, (vs.filter (fun v => v.fused && !v.failed)).length),
        (fBringDefectsTestOnly, (vs.filter (fun v => v.failed && !v.fused)).length),
        (fBringDefectsUnusable, ((List.range 576).filter (fun p => !coreUsableIn vs p)).length)]
      let s4 : State := { s3 with
        grp := { s3.grp with suspect := (vs.filter (fun v => v.kind == 8 && !v.usable)).map (·.unit) }
        img := { s3.img with lanesBad := (vs.filter (fun v => v.kind == 7 && !v.usable)).map (·.unit) } }
      (s4.faultSince s, if c.parts.all down then brNoPartition else if mask ≠ 0 then brPartDown else brDone)))

end Sys2Proof.Machine
end

