-- ==== Sys2Proof/Machine/Contexts.lean ====
section
/-! DEFINITION. Contexts (R70–R74), quota limits (R84–R87) and programs (R131, R132). -/

namespace Sys2Proof.Machine

/-- Results of CTX.CTL (R73). -/
def cxDone : Nat := 0
def cxNotInRange : Nat := 1
def cxNotOpen : Nat := 2
def cxWrongState : Nat := 3
def cxBusy : Nat := 4

/-- Context states (R88). -/
def cFree : Nat := 0
def cActive : Nat := 1
def cClosing : Nat := 2

/-- The quotas of a context: its entry of the image, or the default entry (R41). -/
def State.quotaOf (s : State) (c : Nat) : QuotaCfg := match s.img.cfg with
  | some i => (i.quotas.lookup c).getD i.quotaDefault
  | none => ⟨0, 0, 0, 1⟩

/-- A create that succeeds (R71): ACTIVE, a new key domain, quotas from the image, every use zero. -/
def State.ctxOpen (s : State) (c : Nat) : State :=
  let q := s.quotaOf c
  let s1 := s.setFlds [(fCtxCtlState c, cActive), (fCtxQsyncCeiling c, q.syncObjects), (fCtxQsyncLimit c, q.syncObjects),
    (fCtxQpagesCeiling c, q.pages), (fCtxQpagesLimit c, q.pages), (fCtxQgroupsCeiling c, q.groups),
    (fCtxQgroupsLimit c, q.groups), (fCtxQbwCeiling c, q.bwShare), (fCtxQbwShare c, q.bwShare),
    (fCtxQsyncUse c, 0), (fCtxQsyncOver c, 0), (fCtxUpagesUse c, 0), (fCtxUpagesOver c, 0), (fCtxQgroupsUse c, 0),
    (fCtxQgroupsOver c, 0)]
  { s1 with fab := { s1.fab with keys := s1.fab.keys + 1, keyOf := insertKey s1.fab.keyOf c (s1.fab.keys + 1) } }

/-- The outcome of a create (R71, R73). -/
def State.createResult (s : State) (c : Nat) : Nat :=
  if s.fld (fCtxCtlState c) ≠ cFree then cxWrongState
  else match s.partOf c with
    | none => cxNotInRange
    | some p => if s.isOpen p then cxDone else cxNotOpen

/-- Does anything of a context keep it from being destroyed (R72)? -/
def State.ctxBusy (s : State) (c : Nat) : Bool :=
  let left (q : QRegs) : Bool := s.fld q.state != 0 && s.fld q.head != s.fld q.tail
  let mine (t : Task) : Bool := t.ctx == c
  (List.range 16).any (fun q => left (cqRegs c q)) || (List.range 4).any (fun q => left (xqRegs c q))
  || s.que.copies.any (fun x => x.ctx == c) || s.que.fed.any mine || s.cores.pool.any mine
  || s.cores.next.any (fun p => mine p.2) || s.cores.runs.any (fun p => mine p.2.task)
  || s.grp.inflight.any (fun p => s.fld (fGrpGStatContext p.1) == c)

/-- The outcome of a destroy (R72, R73). -/
def State.destroyResult (s : State) (c : Nat) : Nat :=
  if s.fld (fCtxCtlState c) ≠ cActive then cxWrongState else if s.ctxBusy c then cxBusy else cxDone

/-- A host write of CTX.CTL (R70–R73). A destroy that succeeds takes a bound host window away at once. -/
def State.ctxCtlWrite (s : State) (c : Nat) (v : Word) : State :=
  let create := getBits v (fCtxCtlCreate c) == 1
  let destroy := getBits v (fCtxCtlDestroy c) == 1
  let res (s : State) (r : Nat) : State := s.setFld (fCtxCtlResult c) r
  if !create && !destroy then s
  else if create && destroy then res s cxWrongState
  else if create then
    let r := s.createResult c
    if r = cxDone then res (s.ctxOpen c) r else res s r
  else
    let r := s.destroyResult c
    if r = cxDone then
      let s1 := s.setFld (fCtxCtlState c) cClosing
      res (if s1.bit fZfHostwinOn && s1.fld fZfHostwinCtx == c then s1.setFld fZfHostwinOn 0 else s1) r
    else res s r

/-- CTX_CREATE (R70, R71, R73). -/
def execCtxCreate (c : Ctx) (v : Word) (s : State) : Host.Outcome State Fault Refusal :=
  .next (s.hostWrite (rCtxCtl c) (putBits v (fCtxCtlCreate 0) 1) HostObs.plain (fun s => s.ctxCtlWrite c (putBits v (fCtxCtlCreate 0) 1)))

/-- CTX_DESTROY (R70, R72, R73). -/
def execCtxDestroy (c : Ctx) (v : Word) (s : State) : Host.Outcome State Fault Refusal :=
  .next (s.hostWrite (rCtxCtl c) (putBits v (fCtxCtlDestroy 0) 1) HostObs.plain (fun s => s.ctxCtlWrite c (putBits v (fCtxCtlDestroy 0) 1)))

/-! ### What a closing context gives back (R72, R75, R76, R132) -/

/-- Sync objects of a context are released. -/
def State.releaseSync (s : State) (c : Nat) : State :=
  ((s.sync.filter (fun o => o.2.holder == c)).map Prod.fst).foldl (fun s i => s.syncDrop c i) s

/-- Page mappings of a context are released, with its frames (R229). -/
def State.releasePages (s : State) (c : Nat) : State :=
  let ls := s.fab.leaves.filter (fun p => p.1 / 2 ^ 31 == c)
  let s1 := { s with fab := { s.fab with leaves := s.fab.leaves.filter (fun p => p.1 / 2 ^ 31 != c) } }
  let s1 := s1.cacheDrop (ls.map Prod.fst)
  let s2 := (ls.flatMap (fun p => s.leafFrames p.2)).foldl (fun s f => s.dropFrame c f) s1
  (s2.setPageUse c 0).showTables

/-- Group memberships of a context end, and the groups hear of it (R308). -/
def State.releaseGroups (s : State) (c : Nat) : State :=
  ((List.range 1024).filter (fun n => s.fld (fGrpGStateState n) != gFree && s.fld (fGrpGStatContext n) == c)).foldl State.leaveGroup s

/-- A binding ends: its bundles and regions are free in every cluster of its mask (R132). -/
def State.dropBinding (s : State) (c prog : Nat) : State :=
  { s with cores := { s.cores with bindings := s.cores.bindings.filter (fun b => !(b.ctx == c && b.prog == prog)) } }

/-- The stores that a context owns are cleared and its programs unbound; its token channels end. -/
def State.releaseStores (s : State) (c : Nat) : State :=
  let owned := (s.cores.storeOwner.filter (fun o => o.2 == c)).map Prod.fst
  let s1 := owned.foldl (fun s p => s.clearMem (coreStoreAt p 0) (2 ^ 20)) s
  let regs := (s.cores.bindings.filter (fun b => b.ctx == c)).flatMap (fun b => b.regions.flatMap (fun r => r.2.map (fun x => (r.1, x))))
  let s2 := regs.foldl (fun s r => s.clearMem (clusterStoreAt r.1 (r.2 * 2 ^ 20)) (2 ^ 20)) s1
  let eps := s2.cores.endpoints.map (fun e =>
    let gone := e.2.claim == some c
    let e1 : EndpointSt := { e.2 with peer := if e.2.peer.any (fun p => p.2 == c) then none else e.2.peer
                                      claim := if gone then none else e.2.claim, queue := if gone then [] else e.2.queue }
    (e.1, e1))
  { s2 with cores := { s2.cores with
    storeOwner := s2.cores.storeOwner.filter (fun o => o.2 != c), bindings := s2.cores.bindings.filter (fun b => b.ctx != c)
    endpoints := eps } }

/-- Queues and rings of a context are OFF. -/
def State.releaseQueues (s : State) (c : Nat) : State :=
  let off (s : State) (q : QRegs) : State := s.setFlds [(q.enable, 0), (q.state, 0)]
  let s1 := (List.range 16).foldl (fun s q => off s (cqRegs c q)) s
  let s2 := (List.range 4).foldl (fun s q => off s (xqRegs c q)) s1
  let s3 := (List.range 8).foldl (fun s r => off s (ringRegs c r)) s2
  { s3 with que := { s3.que with ringIrq := s3.que.ringIrq.filter (fun p => p.1 / 8 != c) } }

/-- CONTEXT_FREE: a CLOSING context has released everything and its keys are destroyed: it is FREE (R72). A map command of the context
that still waits completes first, and so do its records that are due, none of which is dropped (R183, R513; log entry 94). -/
def execContextFree (c : Ctx) (s : State) : Host.Outcome State Fault Refusal :=
  .next (if s.fld (fCtxCtlState c) ≠ cClosing ∨ (s.fab.dropping.any (fun d => d.ctx == c.val))
        ∨ s.que.recs.any (fun w => w.record.ctx == c.val) then s
    else
      let s1 := ((((s.releaseSync c).releasePages c).releaseGroups c).releaseStores c).releaseQueues c
      { (s1.setFld (fCtxCtlState c) cFree) with fab := { s1.fab with keyOf := eraseKey s1.fab.keyOf c } })

/-! ### Limits (R85, R86) -/

/-- A limit write that is in force: clamped to the ceiling and to `low`. -/
def State.limitWrite (s : State) (limit ceiling clamped : Fld) (low v : Nat) : State :=
  let n := max low (min v (s.fld ceiling))
  let s1 := s.setFld limit n
  if n = v then s1 else s1.setFld clamped 1

/-- May the limits of a context be written? -/
def State.limitsOpen (s : State) (c : Nat) : Bool := s.fld (fCtxCtlState c) == cActive

/-- A host write of CTX.QSYNC. -/
def State.qsyncWrite (s : State) (c : Nat) (v : Word) : State :=
  if !s.limitsOpen c then s
  else
    let s1 := (s.writeUnder (fun _ => false) (rCtxQsync c) v).limitWrite (fCtxQsyncLimit c) (fCtxQsyncCeiling c) (fCtxQsyncClamped c) 0
      (getBits v (fCtxQsyncLimit c))
    s1.setSyncUse c (s1.fld (fCtxQsyncUse c))

/-- A host write of CTX.QPAGES. -/
def State.qpagesWrite (s : State) (c : Nat) (v : Word) : State :=
  if !s.limitsOpen c then s
  else
    let s1 := s.limitWrite (fCtxQpagesLimit c) (fCtxQpagesCeiling c) (fCtxUpagesClamped c) 0 (getBits v (fCtxQpagesLimit c))
    s1.setPageUse c (s1.fld (fCtxUpagesUse c))

/-- A host write of CTX.QGROUPS. -/
def State.qgroupsWrite (s : State) (c : Nat) (v : Word) : State :=
  if !s.limitsOpen c then s
  else
    let s1 := (s.writeUnder (fun _ => false) (rCtxQgroups c) v).limitWrite (fCtxQgroupsLimit c) (fCtxQgroupsCeiling c)
      (fCtxQgroupsClamped c) 0 (getBits v (fCtxQgroupsLimit c))
    s1.setGroupUse c (s1.fld (fCtxQgroupsUse c))

/-- A host write of CTX.QBW. -/
def State.qbwWrite (s : State) (c : Nat) (v : Word) : State :=
  if !s.limitsOpen c then s
  else (s.writeUnder (fun _ => false) (rCtxQbw c) v).limitWrite (fCtxQbwShare c) (fCtxQbwCeiling c) (fCtxQbwClamped c) 1
    (getBits v (fCtxQbwShare c))

/-- QSYNC_LIMIT_WRITE (R85, R86). -/
def execQsyncLimitWrite (c : Ctx) (v : Word) (s : State) : Host.Outcome State Fault Refusal :=
  .next (s.hostWrite (rCtxQsync c) v HostObs.plain (fun s => s.qsyncWrite c v))

/-- QPAGES_LIMIT_WRITE (R85, R86). -/
def execQpagesLimitWrite (c : Ctx) (v : Word) (s : State) : Host.Outcome State Fault Refusal :=
  .next (s.hostWrite (rCtxQpages c) v HostObs.plain (fun s => s.qpagesWrite c v))

/-- QGROUPS_LIMIT_WRITE (R85, R86). -/
def execQgroupsLimitWrite (c : Ctx) (v : Word) (s : State) : Host.Outcome State Fault Refusal :=
  .next (s.hostWrite (rCtxQgroups c) v HostObs.plain (fun s => s.qgroupsWrite c v))

/-- QBW_SHARE_WRITE (R85–R87). -/
def execQbwShareWrite (c : Ctx) (v : Word) (s : State) : Host.Outcome State Fault Refusal :=
  .next (s.hostWrite (rCtxQbw c) v HostObs.plain (fun s => s.qbwWrite c v))

/-! ### Programs (R131, R132) -/

/-- Bundles of a cluster's instruction store that bindings hold: first and length. -/
def State.bundlesHeld (s : State) (n : Nat) : List (Nat × Nat) :=
  s.cores.bindings.filterMap (fun b => (b.place.lookup n).map (fun a => (a, b.bundles.length)))

/-- The lowest run of `len` free bundles of a cluster's instruction store (R131): the lowest of 0 and the ends of the runs
held from which `len` bundles are free. -/
def State.bundleRun (s : State) (n len : Nat) : Option Nat :=
  let held := s.bundlesHeld n
  let fits (a : Nat) : Bool := decide (a + len ≤ 4096) && held.all (fun h => decide (a + len ≤ h.1 ∨ h.1 + h.2 ≤ a))
  ((0 :: held.map (fun h => h.1 + h.2)).filter fits).foldl (fun (best : Option Nat) a => match best with
    | none => some a
    | some b => some (min a b)) none

/-- Free regions of a cluster's store, lowest first (R76). -/
def State.freeRegions (s : State) (n : Nat) : List Nat :=
  let held := s.cores.bindings.flatMap (fun b => (lookupKey b.regions n).getD [])
  (List.range 8).filter (fun r => !held.contains r)

/-- Is a program of a context bound? -/
def State.isBound (s : State) (c prog : Nat) : Bool := s.cores.bindings.any (fun b => b.ctx == c && b.prog == prog)

/-- Bundles of a byte string, lowest byte first (R134). -/
def bundlesOf (b : List Byte) (n : Nat) : List Bundle := (List.range n).map (fun i => BitVec.ofNat 128 (field b (16 * i) 16))

/-- May a context bind and unbind? -/
def State.mayBind (s : State) (c : Nat) : Bool := s.active c && (s.partOf c).any s.isOpen

/-- A bind (R131, R132): the checks in the order of the codes, and on success the regions are cleared. -/
def State.bindProg (s : State) (c prog : Nat) (far : FarReply) : State × Nat :=
  let mask := s.fld fTaskBindctlClusters
  let len := s.fld fTaskBindctlLenM1 + 1
  let nreg := s.fld fTaskBindctlRegions
  let cls := (List.range 32).filter (bitOf mask)
  if !s.mayBind c then (s, 1)
  else if !s.maskOk c mask then (s, 2)
  else if cls.any (fun n => (s.bundleRun n len).isNone) then (s, 3)
  else if cls.any (fun n => decide ((s.freeRegions n).length < nreg)) then (s, 4)
  else if s.isBound c prog then (s, 5)
  else
    let r := s.readRun c (s.fld fTaskBindaddrAddr * 16) (16 * len) far
    if r.2.1 ≠ 0 then (r.1, 6)
    else
      let regs := cls.map (fun n => (n, (s.freeRegions n).take nreg))
      let b : Binding := ⟨c, prog, bundlesOf r.2.2 len, cls.map (fun n => (n, (s.bundleRun n len).getD 0)), regs⟩
      let s1 := regs.foldl (fun s x => x.2.foldl (fun s g => s.clearMem (clusterStoreAt x.1 (g * 2 ^ 20)) (2 ^ 20)) s) r.1
      ({ s1 with cores := { s1.cores with bindings := s1.cores.bindings ++ [b] } }, 0)

/-- The program numbers of a compute queue's descriptors that are not fetched, none where the descriptor lies outside this module (R132,
R175). -/
def State.unfetchedProgs (s : State) (c q : Nat) : List (Option Nat) :=
  let head := s.fld (fQueCqStateHead c q)
  let n := (s.fld (fQueCqStateTail c q) + 2 ^ 24 - head) % 2 ^ 24
  if s.fld (fQueCqStateState c q) = 0 then []
  else (List.range n).filterMap (fun i =>
    if s.bit (fQueCqCfgLoc c q) then some none
    else
      let va := s.fld (fQueCqBaseBase c q) * 32 + (head + i) % 2 ^ s.fld (fQueCqCfgLog2size c q) * 64
      match s.translate c (BitVec.ofNat 64 va) permRead with
      | some g => some (if gpaNode g = s.node.toNat then some ((s.mem.read (gpaLocal g + 4)).toNat % 64) else none)
      | none => none)

/-- Is a task of a program in a queue, a pool or on a core (R132)? `queued` names the programs of descriptors in rings outside this
module. -/
def State.progUsed (s : State) (c prog : Nat) (queued : List (Fin 64)) : Bool :=
  let mine (t : Task) : Bool := t.ctx == c && t.prog == prog
  s.que.fed.any mine || s.cores.pool.any mine || s.cores.next.any (fun p => mine p.2) || s.cores.runs.any (fun p => mine p.2.task)
  || (List.range 16).any (fun q => (s.unfetchedProgs c q).any (fun x => match x with
    | some p => p == prog
    | none => queued.any (fun y => y.val == prog)))

/-- An unbind (R132); of a program that is not bound, it changes nothing. -/
def State.unbindProg (s : State) (c prog : Nat) (queued : List (Fin 64)) : State × Nat :=
  if !s.mayBind c then (s, 1)
  else if !s.isBound c prog then (s, 0)
  else if s.progUsed c prog queued then (s, 5)
  else (s.dropBinding c prog, 0)

/-- A host write of TASK.BINDCMD (R132, R158). -/
def State.bindcmdWrite (s : State) (v : Word) (far : FarReply) (queued : List (Fin 64)) : State :=
  let s1 := s.writeUnder takesAll rTaskBindcmd v
  let c := getBits v fTaskBindcmdContext
  let prog := getBits v fTaskBindcmdProg
  let res (r : State × Nat) : State := r.1.setFld fTaskBindcmdResult r.2
  if getBits v fTaskBindcmdBind = 1 then
    if getBits v fTaskBindcmdUnbind = 1 then res (s1, 7) else res (s1.bindProg c prog far)
  else if getBits v fTaskBindcmdUnbind = 1 then res (s1.unbindProg c prog queued)
  else s1

/-- BIND (R131, R132). -/
def execBind (v : Word) (far : FarReply) (s : State) : Host.Outcome State Fault Refusal :=
  .next (s.hostWrite rTaskBindcmd (putBits v fTaskBindcmdBind 1) { HostObs.plain with far := far } (fun s => s.bindcmdWrite (putBits v fTaskBindcmdBind 1) far []))

/-- UNBIND (R132). -/
def execUnbind (v : Word) (queued : List (Fin 64)) (s : State) : Host.Outcome State Fault Refusal :=
  .next (s.hostWrite rTaskBindcmd (putBits v fTaskBindcmdUnbind 1) { HostObs.plain with queued := queued }
    (fun s => s.bindcmdWrite (putBits v fTaskBindcmdUnbind 1) FarReply.ok queued))

end Sys2Proof.Machine
end

