-- ==== Sys2Proof/Machine/Fec.lean ====
section
/-! DEFINITION. The line code of a lane (R254–R256, R268): the Reed–Solomon code RS(544,514) over 10-bit symbols, message bits, PAM4 levels,
comma words and training superframes. -/

namespace Sys2Proof.Machine

/-! ### The field and the code (R254)

The manual names the code by IEEE 802.3 Clause 119. PRESUMED from that standard (log entry 96): the field is GF(2^10) with the polynomial
x^10 + x^3 + 1, the generator's roots are the powers 0 to 29 of x, and symbol 0 is the coefficient of x^543. -/

/-- Product in GF(2^10), from the highest bit of the second factor down. -/
def gfMul (a b : Nat) : Nat :=
  (List.range 10).foldl (fun c i =>
    let d := if c ≥ 512 then (2 * c) ^^^ 0x409 else 2 * c
    if bitOf b (9 - i) then d ^^^ a else d) 0

/-- A power in GF(2^10). -/
def gfPow (a : Nat) : Nat → Nat
  | 0 => 1
  | n + 1 => gfMul a (gfPow a n)

/-- Inverse in GF(2^10): the power 1,022. -/
def gfInv (a : Nat) : Nat := gfPow a 1022

/-- The element x^n. -/
def gfExp (n : Nat) : Nat := gfPow 2 (n % 1023)

/-- Sum of two polynomials, coefficients from the lowest. -/
def polyAdd : List Nat → List Nat → List Nat
  | [], l => l
  | l, [] => l
  | a :: x, b :: y => (a ^^^ b) :: polyAdd x y

/-- A polynomial times a field element. -/
def polyScale (k : Nat) (p : List Nat) : List Nat := p.map (gfMul k)

/-- Value of a polynomial. -/
def polyEval (p : List Nat) (x : Nat) : Nat := p.foldr (fun c acc => c ^^^ gfMul acc x) 0

/-- The generator polynomial less its leading coefficient, highest first: the product of z − x^i for i = 0 to 29. -/
def rsGen : List Nat := (((List.range 30).foldl (fun g i => polyAdd (0 :: g) (polyScale (gfExp i) g)) [1]).reverse).drop 1

/-- The 30 check symbols of 514 message symbols, in the order sent (R254). -/
def rsCheck (msg : List Nat) : List Nat :=
  msg.foldl (fun rem m =>
    let f := m ^^^ rem.headD 0
    (List.zipWith (fun r g => r ^^^ gfMul f g) (rem.drop 1 ++ [0]) rsGen)) (List.replicate 30 0)

/-- A codeword's 544 symbols (R254). -/
def rsEncode (msg : List Nat) : List Nat := msg ++ rsCheck msg

/-- The 30 syndromes of received symbols. -/
def syndromes (r : List Nat) : List Nat := (List.range 30).map (fun j => r.foldl (fun acc c => gfMul acc (gfExp j) ^^^ c) 0)

/-- Berlekamp–Massey's variables: the locator, the one before its last change of length, that length, the distance since, and the
discrepancy then. -/
structure Locator where
  c : List Nat
  b : List Nat
  len : Nat
  gap : Nat
  disc : Nat
  deriving DecidableEq, Repr

/-- One step of Berlekamp–Massey at syndrome n. -/
def bmStep (syn : List Nat) (x : Locator) (n : Nat) : Locator :=
  let d := (List.range (x.len + 1)).foldl (fun acc i => acc ^^^ gfMul (x.c.getD i 0) (syn.getD (n - i) 0)) 0
  if d = 0 then { x with gap := x.gap + 1 }
  else
    let c := polyAdd x.c (List.replicate x.gap 0 ++ polyScale (gfMul d (gfInv x.disc)) x.b)
    if 2 * x.len ≤ n then ⟨c, x.c, n + 1 - x.len, 1, d⟩ else { x with c := c, gap := x.gap + 1 }

/-- The error locator of the syndromes. -/
def locator (syn : List Nat) : Locator := (List.range 30).foldl (bmStep syn) ⟨[1], [1], 0, 1, 1⟩

/-- The first n coefficients of a product. -/
def polyMulLow (n : Nat) (p q : List Nat) : List Nat :=
  (List.range n).map (fun k => (List.range (k + 1)).foldl (fun acc i => acc ^^^ gfMul (p.getD i 0) (q.getD (k - i) 0)) 0)

/-- Formal derivative: the odd coefficients, one place down. -/
def polyDiff (p : List Nat) : List Nat := (p.drop 1).zipIdx.map (fun c => if c.2 % 2 = 0 then c.1 else 0)

/-- Decode 544 received symbols: the corrected symbols and how many were corrected; none where more than 15 would have to be (R254). -/
def rsDecode (r : List Nat) : Option (List Nat × Nat) :=
  let syn := syndromes r
  if syn.all (· == 0) then some (r, 0)
  else
    let l := locator syn
    let at_ (i : Nat) : Nat := gfInv (gfExp (543 - i))
    let bad := (List.range 544).filter (fun i => polyEval l.c (at_ i) == 0)
    if l.len > 15 ∨ bad.length ≠ l.len then none
    else
      let omega := polyMulLow 30 syn l.c
      let fix (i : Nat) : Nat := gfMul (gfExp (543 - i)) (gfMul (polyEval omega (at_ i)) (gfInv (polyEval (polyDiff l.c) (at_ i))))
      let out := r.zipIdx.map (fun c => if bad.contains c.2 then c.1 ^^^ fix c.2 else c.1)
      if (syndromes out).all (· == 0) then some (out, bad.length) else none

/-! ### Message bits and levels (R254, R255) -/

/-- The 514 message symbols of a codeword: header, check nibble, ten slots (R254). -/
def messageSymbols (c : Codeword) : List Nat :=
  let m := c.hdr.toNat + 2 ^ 16 * c.nib.toNat + 2 ^ 20 * (fromLe c.slots.flatten % 2 ^ 5120)
  (List.range 514).map (fun k => m / 2 ^ (10 * k) % 1024)

/-- What message symbols carry (R254). -/
def readMessage (syms : List Nat) : Codeword :=
  let m := (syms.take 514).foldr (fun s acc => s % 1024 + 1024 * acc) 0
  { hdr := BitVec.ofNat 16 m, nib := BitVec.ofNat 4 (m / 2 ^ 16)
    slots := (List.range 10).map (fun s => leBytes 64 (m / 2 ^ (20 + 512 * s))) }

/-- The level of two bits in Gray code: 00, 01, 11, 10 are levels 0, 1, 2, 3 (R255). -/
def grayLevel (v : Nat) : Nat := (v / 2 % 2) * 2 + (v / 2 % 2 + v % 2) % 2

/-- The two bits of a level. -/
def grayBits (l : Nat) : Nat := (l / 2 % 2) * 2 + (l / 2 % 2 + l % 2) % 2

/-- The five levels of a 10-bit symbol, bits [9:8] first (R255). -/
def symbolLevels (v : Nat) : List Nat := [256, 64, 16, 4, 1].map (fun d => grayLevel (v / d % 4))

/-- Pack levels, the first in the lowest two bits. -/
def packLevels : List Nat → Nat
  | [] => 0
  | l :: t => l % 4 + 4 * packLevels t

/-- What a lane sends of a codeword: its 2,720 levels, symbol 0 first (R254, R255). -/
def sendCodeword (c : Codeword) : BitVec 5440 := BitVec.ofNat 5440 (packLevels ((rsEncode (messageSymbols c)).flatMap symbolLevels))

/-- Level j of packed levels. -/
def levelAt (v j : Nat) : Nat := v / 4 ^ j % 4

/-- The 544 symbols that a lane's levels spell (R255). -/
def receivedSymbols (w : BitVec 5440) : List Nat :=
  (List.range 544).map (fun k => (List.range 5).foldl (fun acc i => acc * 4 + grayBits (levelAt w.toNat (5 * k + i))) 0)

/-- A codeword as its raw bits read, before FEC (R266). -/
def rawCodeword (w : BitVec 5440) : Codeword := readMessage (receivedSymbols w)

/-- A codeword after FEC and the number of symbols corrected; none where it is uncorrectable (R254). -/
def decodeCodeword (w : BitVec 5440) : Option (Codeword × Nat) :=
  (rsDecode (receivedSymbols w)).map (fun d => (readMessage d.1, d.2))

/-! ### Commas (R256) -/

/-- Levels 0–31 of a comma. -/
def commaPattern : List Nat := [3, 3, 3, 3, 3, 3, 0, 0, 0, 0, 0, 0, 3, 3, 0, 0, 3, 0, 3, 3, 0, 3, 0, 0, 0, 3, 3, 3, 0, 0, 3, 0]

/-- Number of ones among the low n bits. -/
def onesIn (n v : Nat) : Nat := ((List.range n).filter (bitOf v)).length

/-- The eight bits of a comma: the physical lane, the bit that toggles at each superframe, and the one that makes the ones odd. -/
def commaBits (lane : Nat) (toggle : Bool) : Nat :=
  let v := lane % 64 + 64 * ofBool toggle
  v + 128 * ofBool (onesIn 7 v % 2 == 0)

/-- The comma word of a lane. -/
def commaWord (lane : Nat) (toggle : Bool) : BitVec 80 :=
  BitVec.ofNat 80 (packLevels (commaPattern ++ (List.range 8).map (fun i => 3 * ofBool (bitOf (commaBits lane toggle) i))))

/-- Do levels 0–31 match? -/
def commaHit (w : BitVec 80) : Bool := w.toNat % 2 ^ 64 == packLevels commaPattern

/-- The eight bits of a received comma, each a 1 from level 2 up (R256). -/
def commaRead (w : BitVec 80) : Nat := ((List.range 8).map (fun i => levelAt w.toNat (32 + i) / 2 * 2 ^ i)).foldl (· + ·) 0

/-- Does a received comma carry this lane's number, and an odd number of ones? -/
def commaOwn (w : BitVec 80) (lane : Nat) : Bool := commaRead w % 64 == lane && onesIn 8 (commaRead w) % 2 == 1

/-! ### Training superframes (R268) -/

/-- One step of PRBS31 (x^31 + x^28 + 1) on its last 31 bits, the newest lowest. -/
def prbsStep (v : Nat) : Nat := (2 * v + (ofBool (bitOf v 30) + ofBool (bitOf v 27)) % 2) % 2 ^ 31

/-- n steps. -/
def prbsRun : Nat → Nat → Nat
  | 0, v => v
  | n + 1, v => prbsRun n (prbsStep v)

/-- n levels of PRBS31, two bits to a level, the first in time in the higher place. -/
def prbsLevels : Nat → Nat → List Nat
  | 0, _ => []
  | n + 1, v => let a := prbsStep v; let b := prbsStep a; grayLevel (2 * (a % 2) + b % 2) :: prbsLevels n b

/-- The CRC-32 of a back-channel message (R268): over its eight bytes, lowest first. -/
def msgCrc (msg : Word) : BitVec 32 := BitVec.ofNat 32 (crc32 (leBytes 8 msg.toNat))

/-- The 43,560 levels of training superframe n of a lane with its message: comma, message and CRC bit 0 first at levels 0 and 3, 160
alternating levels, PRBS31 running on from superframe to superframe (R268). -/
def trainingLevels (lane n : Nat) (msg : Word) : List Nat :=
  let c := commaWord lane (n % 2 == 1)
  (List.range 40).map (levelAt c.toNat)
  ++ (List.range 64).map (fun i => 3 * ofBool (msg.getLsbD i)) ++ (List.range 32).map (fun i => 3 * ofBool ((msgCrc msg).getLsbD i))
  ++ (List.range 160).map (fun i => if i % 2 = 0 then 3 else 0)
  ++ prbsLevels 43264 (prbsRun (86528 * n) (Config.prbsSeed lane % 2 ^ 31))

/-- The 43,560 levels of superframe n of a lane in service that carries no codewords: comma, then PRBS31 running on (R274, R281). Where it
stands at first is free, as in training (log entry 97). -/
def idleLevels (lane n : Nat) : List Nat :=
  let c := commaWord lane (n % 2 == 1)
  (List.range 40).map (levelAt c.toNat) ++ prbsLevels 43520 (prbsRun (87040 * n) (Config.prbsSeed lane % 2 ^ 31))

end Sys2Proof.Machine
end

