-- ==== Sys2Proof/Machine/Framing.lean ====
section
/-! DEFINITION. Framing of a port (R257–R266): link headers, the check of a block, flits in their slots, express flits, what the
transmitter builds and what a receiver reads. -/

namespace Sys2Proof.Machine

/-! ### Checks and keys (R259, R265) -/

/-- CRC-64 with the ECMA-182 polynomial (R259), one bit at a time, under the conventions of Config. -/
def crc64Bit (c : Nat) (bit : Bool) : Nat :=
  let top := decide (c ≥ 2 ^ 63)
  let c1 := c * 2 % 2 ^ 64
  if top != bit then c1 ^^^ 0x42F0E1EBA9EA3693 else c1

/-- CRC-64 of bytes. -/
def crc64 (l : List Byte) : Nat :=
  ((l.foldl (fun c b => (List.range 8).foldl (fun c i => crc64Bit c (b.getLsbD (if Config.crc64Low then i else 7 - i))) c)
    (Config.crc64Init % 2 ^ 64)) ^^^ Config.crc64Out) % 2 ^ 64

/-- The IV under a key (R259, R265): its salt, a 0 bit and a block counter, or a 1 bit and an express counter, highest bit first. -/
def ivOf (key : List Byte) (express : Bool) (ctr : Nat) : List Byte :=
  (key.drop 32).take 4 ++ beBytes 8 (ofBool express * 2 ^ 63 + ctr % 2 ^ 63)

/-- The n-th 64 bytes of a text under a key, encrypted or decrypted; as they are where there is no key (R259, R265). -/
def cipher (key : List Byte) (express : Bool) (ctr n : Nat) (b : List Byte) : List Byte :=
  if key = [] then b else gcmCrypt (key.take 32) (ivOf key express ctr) (4 * n) b

/-- The first bytes of a tag (R259, R265), as they stand in a flit. -/
def sealTag (key : List Byte) (express : Bool) (ctr n : Nat) (aad ct : List Byte) : List Byte :=
  (gcmTag (key.take 32) (ivOf key express ctr) aad ct).take n

/-- Blocks that one key may cover (R444). -/
def keyLimit : Nat := 2 ^ 37

/-- The key that this side's direction is under at a block: from the block it named, the next one (R443). -/
def PortSt.txKeyAt (x : PortSt) (ctr : Nat) : List Byte := if x.att.txNamed.any (· ≤ ctr) then x.txNext else x.txKey

/-- The key that the peer's direction is under at a block. -/
def PortSt.rxKeyAt (x : PortSt) (ctr : Nat) : List Byte :=
  if x.att.rxNamed.any (· ≤ ctr) then x.rxNext else if ctr < x.rxFrom then x.rxOld else x.rxKey

/-- Does slot 0 of a codeword hold an express flit (R258)? -/
def Codeword.ex (c : Codeword) : Bool := c.hdr.getLsbD 15

/-- Express slots of codewords, and the other slots in ascending order (R260). -/
def expressSlots (cws : List Codeword) : List (List Byte) := cws.flatMap (fun c => if c.ex then c.slots.take 1 else [])
def ordinarySlots (cws : List Codeword) : List (List Byte) := cws.flatMap (fun c => if c.ex then c.slots.drop 1 else c.slots)

/-- The check of a block (R259): without a key the CRC-64 over the 16 headers and the 160 slots; under one the first 64 bits of the tag,
headers and express slots being associated data and the other slots ciphertext (their byte order: log entry 107). -/
def blockCheck (key : List Byte) (ctr : Nat) (cws : List Codeword) : Nat :=
  let hdrs := cws.flatMap (fun c => leBytes 2 c.hdr.toNat)
  if key = [] then crc64 (hdrs ++ cws.flatMap (fun c => c.slots.flatten))
  else fromLe (sealTag key false ctr 8 (hdrs ++ (expressSlots cws).flatten) (ordinarySlots cws).flatten)

/-- The 64-bit check that the nibbles spell: position p supplies bits [4p+3:4p] (R259). -/
def nibbleCheck (cws : List Codeword) : Nat := cws.reverse.foldl (fun a c => a * 16 + c.nib.toNat) 0

/-- Codewords with the nibbles of their check. -/
def withCheck (key : List Byte) (ctr : Nat) (cws : List Codeword) : List Codeword :=
  let chk := blockCheck key ctr cws
  cws.zipIdx.map (fun c => { c.1 with nib := BitVec.ofNat 4 (chk / 16 ^ c.2) })

/-! ### Flits (R260, R264, R265) -/

/-- The 64 bytes of an ordinary flit. -/
def LFlit.bytes : LFlit → List Byte
  | .ctl b => b
  | .pkt p _ i => ((pktBytes p).drop (64 * i)).take 64

/-- An idle flit. -/
def idleFlit : List Byte := List.replicate 64 0#8

/-- An express flit (R265): encrypted content, the low 16 bits of the counter, zeros, tag, CRC-32. -/
def expressFlit (key : List Byte) (ctr : Nat) (content : List Byte) : List Byte :=
  let body := cipher key true ctr 0 ((content ++ List.replicate 44 0#8).take 44)
  let aad := leBytes 2 (ctr % 2 ^ 16) ++ [0#8, 0#8]
  let b := body ++ aad ++ sealTag key true ctr 12 aad body
  b ++ leBytes 4 (crc32 b)

/-- Do the CRC and the tag of an express flit hold under a key and counter (R266)? -/
def expressOk (key : List Byte) (ctr : Nat) (b : List Byte) : Bool :=
  b.length == 64 && field b 60 4 == crc32 (b.take 60)
  && (b.drop 48).take 12 == sealTag key true ctr 12 ((b.drop 44).take 4) (b.take 44)

/-- The express counter nearest to the next one expected whose low 16 bits are given. -/
def nearCtr (bits next low : Nat) : Nat :=
  let d := (low + 2 ^ bits - next % 2 ^ bits) % 2 ^ bits
  if d < 2 ^ (bits - 1) then next + d else next + d - 2 ^ bits

/-- Does a low part name a counter before the next one expected, in the half of its range behind it? -/
def behind (bits next low : Nat) : Bool := decide (2 ^ (bits - 1) ≤ (low + 2 ^ bits - next % 2 ^ bits) % 2 ^ bits)

/-! ### The transmitter (R258, R260, R264) -/

/-- Headers of a block (R258): EX where slot 0 is express; at even positions RPL and seq, at odd ones NAK and ack. -/
def linkHeader (pos : Nat) (ex rpl nak : Bool) (seq ack : Nat) : BitVec 16 :=
  BitVec.ofNat 16 (ofBool ex * 2 ^ 15 + (if pos % 2 = 0 then ofBool rpl * 2 ^ 14 + seq % 2 ^ 14 else ofBool nak * 2 ^ 14 + ack % 2 ^ 14))

/-- The block that a transmitter builds of ordinary and express flits: express flits take slot 0 of the first codewords, ordinary ones
the other slots in ascending order, idle flits the rest (R260, R264). -/
def PortSt.build (x : PortSt) (flits : List LFlit) (xs : List XFlit) : Block :=
  let key := x.txKeyAt x.txCtr
  let plain := flits.map LFlit.bytes
  let ord := (plain ++ List.replicate (160 - plain.length - xs.length) idleFlit).zipIdx.map (fun c => cipher key false x.txCtr c.2 c.1)
  let exs := xs.zipIdx.map (fun c => expressFlit key (x.xTx + c.2) c.1.content)
  let ack := if x.nakDue then x.rxCtr else x.rxCtr + 2 ^ 14 - 1
  let cws := (List.range 16).map (fun q =>
    let mine := (exs.drop q).take 1
    let from_ := 10 * q - min q exs.length
    (⟨linkHeader q (!mine.isEmpty) false x.nakDue x.txCtr ack, 0#4, mine ++ (ord.drop from_).take (10 - mine.length)⟩ : Codeword))
  ⟨x.txCtr, key, withCheck key x.txCtr cws, flits, xs⟩

/-- A block as it is resent (R258, R261, R264): bit for bit, but for RPL and the check that covers it. -/
def Block.replay (b : Block) : List Codeword :=
  withCheck b.key b.ctr (b.cws.zipIdx.map (fun c => if c.2 % 2 = 0 then { c.1 with hdr := c.1.hdr ||| 0x4000#16 } else c.1))

/-- A block leaves: its codewords, and after every 16 codewords of a lane the commas (R256, R257). A spare or a lane beyond the width sends
commas too, and PRBS31 between them (R274, R281). -/
def State.putBlock (s : State) (p : Nat) (cws : List Codeword) (lanes : List Nat) : State :=
  let x := s.portSt p
  let s1 := s.emit (.block p cws (cws.map sendCodeword))
  let idle := lanes.filter (fun l => !(x.lanes.take x.txWidth).contains l)
  if (x.txBlocks + 1) % max 1 x.txWidth = 0 then
    ((if idle.isEmpty then s1 else s1.emit (.prbs p idle x.superframes)).emit (.commas p (lanes.map (fun l => (l, commaWord l (x.superframes % 2 == 1)))))).modPort p
      (fun y => { y with txBlocks := y.txBlocks + 1, superframes := y.superframes + 1 })
  else s1.modPort p (fun y => { y with txBlocks := y.txBlocks + 1 })

/-! ### The receiver (R258, R260, R261) -/

/-- Headers at even or odd positions of the codewords that decoded. -/
def headersAt (got : List (Nat × Codeword)) (odd : Nat) : List (BitVec 16) := (got.filter (fun c => c.1 % 2 == odd)).map (·.2.hdr)

/-- The flag and the 14-bit number on which all copies agree (R258); none where copies disagree or none decoded. -/
def agreed (l : List (BitVec 16)) : Option (Bool × Nat) :=
  match l with
  | [] => none
  | h :: t => if t.all (fun g => g.toNat % 2 ^ 15 == h.toNat % 2 ^ 15) then some (h.getLsbD 14, h.toNat % 2 ^ 14) else none

/-- The flits that begin or continue a unit, given how many flits of a packet are still to come; and how many are so afterwards
(R260, R287). -/
def unitFlits : Nat → List (List Byte) → List (List Byte) × Nat
  | rest, [] => ([], rest)
  | rest, f :: t =>
    if rest > 0 then let r := unitFlits (rest - 1) t; (f :: r.1, r.2)
    else match f.headD 0#8 with
      | 0x00#8 => unitFlits 0 t
      | 0x01#8 => let r := unitFlits 0 t; (f :: r.1, r.2)
      | _ => let r := unitFlits (field f 6 1 / 4) t; (f :: r.1, r.2)

/-- The ordinary flits of a block, decrypted, in ascending order (R258–R260). -/
def plainFlits (key : List Byte) (ctr : Nat) (cws : List Codeword) : List (List Byte) :=
  (ordinarySlots cws).zipIdx.map (fun c => cipher key false ctr c.2 c.1)

/-- Is sequence number a at or before b, within half the range? -/
def seqLe (a b : Nat) : Bool := decide ((b % 2 ^ 14 + 2 ^ 14 - a % 2 ^ 14) % 2 ^ 14 < 2 ^ 13)

/-- An ack releases retained blocks up to it; a NAK those before it, and the rest are resent (R261). -/
def PortSt.takeAck (x : PortSt) (ack : Nat) (nak : Bool) : PortSt :=
  let upTo := if nak then ack + 2 ^ 14 - 1 else ack
  let l := x.retained.filter (fun b => !seqLe b.ctr upTo)
  let freed := decide (l.length < x.retained.length)
  { x with
    retained := l
    resend := if nak then l.map (·.ctr) else if x.winFull ∧ freed then [] else x.resend.filter (fun q => !seqLe q upTo)
    winFull := x.winFull && !nak && !freed }

end Sys2Proof.Machine
end

