-- ==== Sys2Proof/Machine/Ports.lean ====
section
/-! DEFINITION. Optical ports: lanes and spares (R251, R257, R273–R275), port states and what leaves service with a port (R278,
R298), the cabling check (R283, R284), the LINKS record (R479), and the start of attestation (R440, R441). -/

namespace Sys2Proof.Machine

/-- Port states of R286 beside UP_SEALED. -/
def stDark : Nat := 0
def stTraining : Nat := 1
def stPlain : Nat := 2
def stDisabled : Nat := 4
def stFailed : Nat := 5

/-- Reasons of R286. -/
def lrNone : Nat := 0
def lrNoLight : Nat := 1
def lrNoLock : Nat := 2
def lrEqualize : Nat := 3
def lrIdent : Nat := 4
def lrReach : Nat := 5
def lrNarrow : Nat := 6
def lrCable : Nat := 7
def lrPeer : Nat := 8
def lrLanes : Nat := 9
def lrReplay : Nat := 10
def lrLost : Nat := 11

/-- Training phases of R286. -/
def phDetect : Nat := 0
def phLock : Nat := 1
def phEqualize : Nat := 2
def phIdent : Nat := 3
def phWidth : Nat := 4

/-- The state of a port. -/
def State.portState (s : State) (p : Nat) : Nat := s.fld (fLnkPortStateState p)

/-- Is a port UP, sealed or not? -/
def State.portUp (s : State) (p : Nat) : Bool := s.portState p == stPlain || s.portState p == stSealed

/-- Engine of a port, its sibling there, and its data lanes (R251). -/
def engineOf (p : Nat) : Nat := p / 2
def siblingOf (p : Nat) : Nat := if p % 2 = 0 then p + 1 else p - 1
def dataLanes (p : Nat) : List Nat := (List.range 16).map (p % 2 * 16 + ·)

/-- Unit number of a lane of an engine (R376). -/
def laneUnit (e lane : Nat) : Nat := e * 34 + lane

/-- Is a lane of an engine bad (R271, R276, R423)? -/
def State.laneBad (s : State) (e lane : Nat) : Bool :=
  s.lnk.bad.contains (laneUnit e lane) || s.img.lanesBad.contains (laneUnit e lane)

/-- The lanes of an engine that are bad, as a 34-bit bitmap (R269). -/
def State.badMap (s : State) (e : Nat) : Nat :=
  ((List.range 34).map (fun i => ofBool (s.laneBad e i) * 2 ^ i)).foldl (· + ·) 0

/-- Mark lanes of an engine bad; `mine` for those that this module's receiver saw first. -/
def State.markBad (s : State) (e : Nat) (lanes : List Nat) (mine : Bool) : State :=
  let us := (lanes.map (laneUnit e)).filter (fun u => !s.lnk.bad.contains u)
  { s with lnk := { s.lnk with bad := s.lnk.bad ++ us, rxBad := if mine then s.lnk.rxBad ++ us else s.lnk.rxBad } }

/-- Spares of an engine that take bad data lanes, in order (R273): (lane, spare). -/
def State.spareMap (s : State) (e : Nat) : List (Nat × Nat) :=
  ((List.range 32).filter (s.laneBad e)).zip ([32, 33].filter (fun i => !s.laneBad e i))

/-- A port's working list (R274). -/
def State.workingList (s : State) (p : Nat) : List Nat :=
  let e := engineOf p
  let m := s.spareMap e
  (dataLanes p).filterMap (fun l => if s.laneBad e l then m.lookup l else some l)

/-- The largest width that a list of so many lanes allows (R274). -/
def widthOf (n : Nat) : Nat := if n ≥ 16 then 16 else if n ≥ 12 then 12 else if n ≥ 8 then 8 else if n ≥ 4 then 4 else 0

/-- Lanes that a port's receiver uses now. -/
def State.lanesInUse (s : State) (p : Nat) : List Nat := (s.portSt p).rxLanes.take (s.portSt p).rxWidth

/-- Has a port a lane among those it uses or keeps in reserve, in either direction? -/
def PortSt.hasLane (x : PortSt) (l : Nat) : Bool := x.lanes.contains l || x.rxLanes.contains l

/-- Does a port of the engine use a spare? -/
def State.spareUsed (s : State) (e spare : Nat) : Bool :=
  (s.portUp (2 * e) && (s.portSt (2 * e)).hasLane spare) || (s.portUp (2 * e + 1) && (s.portSt (2 * e + 1)).hasLane spare)

/-- Is a spare of an engine idle? -/
def State.spareIdle (s : State) (e spare : Nat) : Bool := !s.laneBad e spare && !s.spareUsed e spare

/-- LNK.PORT.LANES of a port and LNK.OE.STAT of its engine follow the lanes (R286). -/
def State.showLanes (s : State) (p : Nat) : State :=
  let e := engineOf p
  let rel (f : Nat → Bool) : Nat := ((dataLanes p).zipIdx.map (fun l => ofBool (f l.1) * 2 ^ l.2)).foldl (· + ·) 0
  let st (i : Nat) : Nat := if s.laneBad e i then 2 else if s.spareUsed e i then 1 else 0
  let idle (i : Nat) (h w : Fld) : List (Fld × Nat) := if st i = 0 then [] else [(h, 0), (w, 0)]
  s.setFlds ([(fLnkPortLanesBad p, rel (s.laneBad e)), (fLnkPortLanesRxCause p, rel (fun l => s.lnk.rxBad.contains (laneUnit e l))),
    (fLnkOeStatS0State e, st 32), (fLnkOeStatS1State e, st 33)]
    ++ idle 32 (fLnkOeStatS0Height e) (fLnkOeStatS0Width e) ++ idle 33 (fLnkOeStatS1Height e) (fLnkOeStatS1Width e))

/-- A spare serves a lane of a port. -/
def State.showSpare (s : State) (p lane spare : Nat) : State :=
  if spare = 32 then s.setFlds [(fLnkPortLanesS0 p, 1), (fLnkPortLanesS0Lane p, lane % 16)]
  else if spare = 33 then s.setFlds [(fLnkPortLanesS1 p, 1), (fLnkPortLanesS1Lane p, lane % 16)] else s

/-! ### The LINKS record (R479) -/

/-- Body of a LINKS record (R476). -/
def State.linksBody (s : State) : List Byte :=
  (List.range 32).flatMap (fun p => leBytes 8 (s.reg (rLnkPortState p)).toNat ++ leBytes 8 (s.reg (rLnkPortCable p)).toNat)

/-- Send a LINKS record now. -/
def State.sendLinks (s : State) : State :=
  ({ s with mgmt := { s.mgmt with linksDue := false, linksAt := some s.time } }).mgmtQueue ⟨5, s.linksBody, false, false, none⟩

/-- 100 ms in ns: the least spacing of LINKS records. -/
def linksGap : Nat := 100000000

/-- A port's state, width or cabling status changed: a LINKS record, merged with others of its 100 ms; a platform event (R488). -/
def State.linksNote (s : State) (p : Nat) : State :=
  let s1 := s.event (0x200 + p) (s.portState p)
  match s.mgmt.linksAt with
  | some t => if s.time < t + linksGap then { s1 with mgmt := { s1.mgmt with linksDue := true } } else s1.sendLinks
  | none => s1.sendLinks

/-- LINKS_RECORD_DUE: the spacing has run out with changes merged (R479). -/
def execLinksRecordDue (s : State) : Host.Outcome State Fault Refusal := .next (if s.mgmt.linksDue then s.sendLinks else s)

/-! ### Leaving service (R278, R298) -/

/-- Packets of which a port has not had every flit acknowledged, as they came to the router. -/
def PortSt.unsent (x : PortSt) : List Pkt :=
  (((x.retained.flatMap (·.flits)) ++ x.txq).filterMap (fun f => match f with
    | .pkt _ q _ => some q
    | .ctl _ => none)).eraseDups ++ x.blocked.map (·.2)

/-- What a port hands back to the router when it goes down (R278, R298, R307): packets go out on another route, a group's packets and
express flits on another port of the edge under the credits they have, other express flits on another port of the dimension that is
UP_SEALED. -/
def State.handBack (s : State) (p : Nat) (x : PortSt) : State :=
  let s1 := x.unsent.foldl (fun s (q : Pkt) => if pktClass q = 2 then s.passPacket p q else s.resendPacket p q) s
  (x.retained.flatMap (·.xs) ++ x.xq.filter (·.group.isNone)).foldl (fun s f =>
    if f.group.isSome then s.treeFlit p { f with fwd := true }
    else match (List.range 28).find? (fun q => q != p && portClass q == portClass p && s.portState q == stSealed) with
      | some q => s.modPort q (fun y => { y with xq := y.xq ++ [f] })
      | none => s) s1

/-- What of a port stays with the tree edges that are its own: traffic that waits, credits in use, whose turn it is (R305, R307). -/
def PortSt.edgeOnly (x y : PortSt) : PortSt :=
  { y with tq := x.tq, xq := (x.xq ++ x.xwait).filter (·.group.isSome), credits := x.credits, served := x.served, xserved := x.xserved }

/-- A port leaves routing, and what it has not had acknowledged goes back to the router (R278, R298); the tree edges go over to another of
their ports, or are tunnelled (R307). `v` is the view before. -/
def State.leaveService (s : State) (p : Nat) (v : RouteView) : State :=
  let x := s.portSt p
  let s1 := (s.setFld fRtePortsRouted (s.fld fRtePortsRouted - ofBool (bitOf (s.fld fRtePortsRouted) p) * 2 ^ p)).modPort p
    (fun x => x.edgeOnly { x with retained := [], txq := [], blocked := [], xwait := [], resend := [], winFull := false, switches := [] })
  let s2 := s1.portChanged v p
  ((s2.moveEdge p ((s2.edgePort p).getD p) (fun _ => true)).handBack p x).tunnelled p

/-- SEC.PORTS of a port: 0 NONE, 1 SEALED, 2 REFUSED, 3 ATTESTING (R466). -/
def State.setSecPort (s : State) (p v : Nat) : State :=
  s.setFld fSecPortsPorts (putRange (s.fld fSecPortsPorts) (2 * p + 1) (2 * p) v)

/-- Set a port's state and reason. -/
def State.setPortState (s : State) (p st reason : Nat) : State :=
  (s.setFlds [(fLnkPortStateState p, st), (fLnkPortStateReason p, reason)]).linksNote p

/-- A request of LNK.CTL that waited for this port's training ends OK (R282). -/
def State.askedDone (s : State) (p : Nat) : State :=
  if s.lnk.asked = some p then
    ({ s with lnk := { s.lnk with asked := none } }).setFlds [(fLnkCtlBusy, 0), (fLnkCtlStatus, 0)] else s

/-- Lanes of a port that send commas: its own, and the engine's idle spares, which one port serves (R274, R281). -/
def State.commaLanes (s : State) (p : Nat) : List Nat :=
  (s.portSt p).lanes ++ (if p % 2 = 0 ∨ !s.portUp (siblingOf p) then [32, 33].filter (s.spareIdle (engineOf p)) else [])

/-- DISABLE leaves in a last block, after the flits of a packet that is half sent (R260, R278, R279). -/
def State.sendDisable (s : State) (p reason : Nat) : State :=
  let x := s.portSt p
  let tail := x.txq.takeWhile (fun f => match f with
    | .pkt _ _ i => decide (i > 0)
    | .ctl _ => false)
  if s.portState p = stSealed ∧ x.keyBlocks ≥ keyLimit then s else s.putBlock p (x.build (tail ++ [ctlFlit 0x05 [BitVec.ofNat 8 reason]]) []).cws (s.commaLanes p)

/-- A port enters FAILED or DISABLED: from service it sends DISABLE, its packets go back to the router and PORT_DOWN is logged
(R278). -/
def State.portDown (s : State) (p st reason : Nat) : State :=
  let v := s.routeView
  let down (s : State) : State := ((s.setPortState p st reason).setSecPort p 0).askedDone p
  if s.portUp p then
    ((down (s.sendDisable p reason)).leaveService p v).log
      { code := 0x0403, kind := 6, unit := p, action := 9, detail := leBytes 1 st ++ leBytes 1 reason }
  else down s

/-! ### Training starts -/

/-- May a port train: its CABLING entry is USED and its engine is not switched off (R267, R282, R346)? -/
def State.mayTrain (s : State) (p : Nat) : Bool :=
  (match s.img.cfg with
   | some c => (c.cabling.getD p none).isSome
   | none => false) && !s.lnk.off.contains (engineOf p)

/-- Send a back-channel message in the next training superframe, on one lane or on every locked lane (R268, R269). -/
def State.sendTrain (s : State) (p : Nat) (lane : Option Nat) (msg : Word) : State :=
  (s.emit (.train p lane (s.portSt p).frames msg (msgCrc msg))).modPort p (fun x => { x with frames := x.frames + 1 })

/-- A port starts at DETECT (R267); its lanes, and idle spares, are judged afresh. -/
def State.startTraining (s : State) (p : Nat) (retried : Bool) : State :=
  let e := engineOf p
  let again := (dataLanes p ++ [32, 33].filter (fun i => !s.spareUsed e i)).map (laneUnit e)
  let s0 := if s.portUp p then (s.setFld (fLnkPortStateState p) stTraining).leaveService p s.routeView else s
  let s1 := { s0 with lnk := { s0.lnk with
    bad := s0.lnk.bad.filter (fun u => !again.contains u), rxBad := s0.lnk.rxBad.filter (fun u => !again.contains u)
    ports := insertKey s0.lnk.ports p ((s0.portSt p).edgeOnly { PortSt.fresh with retried := retried }) } }
  let s2 := (s1.setFlds [(fLnkPortStatePhase p, phDetect), (fLnkPortStateWidth p, 0), (fLnkPortStateRtt p, 0), (fLnkPortLanesS0 p, 0),
    (fLnkPortLanesS1 p, 0), (fLnkPortLanesS0Lane p, 0), (fLnkPortLanesS1Lane p, 0)]).setSecPort p 0
  ((s2.setPortState p stTraining lrNone).showLanes p).sendTrain p none 0#64

/-! ### The cabling check (R283, R284) -/

/-- Status of a port (R283). -/
def State.cableStatus (s : State) (p : Nat) : Nat :=
  match s.img.cfg.bind (fun c => c.cabling.getD p none) with
  | none => 0
  | some (n, q) =>
    if !(s.portSt p).identIn then 2
    else
      let seen := (BitVec.ofNat 12 (s.fld (fLnkPortCableSeenNode p)), s.fld (fLnkPortCableSeenPort p))
      if seen = (n, q) then 1
      else if ((s.img.cfg.map (·.cabling)).getD []).any (fun x => x == some seen) then 3 else 4

/-- Compare a port with its CABLING entry; SWAPPED and FOREIGN disable it (R284). -/
def State.checkCable (s : State) (p : Nat) : State :=
  let c := s.cableStatus p
  let s1 := (s.setFlds [(fLnkPortCableValid p, 1), (fLnkPortCableStatus p, c)]).linksNote p
  if c = 3 ∨ c = 4 then s1.portDown p stDisabled lrCable else s1

/-! ### Attestation starts (R440, R441, R445) -/

/-- May this module's links attest: neither zeroised nor with the debug frames open? The peer judges; a zeroised module refuses
(R455, R456). -/
def State.mayAttest (s : State) : Bool := !s.flash.zeroised

/-- A refusal of a port's attestation, which holds until the port retrains (R442). -/
def State.refusePort (s : State) (p reason : Nat) : State :=
  let s1 := (s.setSecPort p 2).setFlds [(fSecStateRefusePort, p), (fSecStateRefuseReason, reason)]
  (s1.modPort p (fun x => { x with att := { x.att with begun := false, refused := true } })).log
    { code := 0x0902, kind := 6, unit := p, detail := leBytes 1 p ++ leBytes 1 reason }

/-- This side refuses: it sends REFUSE (R442). -/
def State.sendRefuse (s : State) (p reason : Nat) : State := (s.sendCtl p 0x15 [BitVec.ofNat 8 reason]).refusePort p reason

/-- Free bytes, eight for each value taken. -/
def State.takeBytes (s : State) : Nat → List Byte × State
  | 0 => ([], s)
  | n + 1 =>
    let r := s.takeBytes n
    let f := r.2.takeFree
    (r.1 ++ leBytes 8 f.1.toNat, f.2)

/-- Change a port's attestation. -/
def State.modAtt (s : State) (p : Nat) (f : Attest → Attest) : State := s.modPort p (fun x => { x with att := f x.att })

/-- Send an attestation flit; it joins this side's part of the transcript (R440, R441). -/
def State.sendAttest (s : State) (p code : Nat) (params : List Byte) : State :=
  (s.modAtt p (fun a => { a with mine := a.mine ++ [(ctlFlit code params).bytes] })).sendCtl p code params

/-- Parameters of HELLO: nonce, node and port (R440). -/
def helloParams (nonce : List Byte) (node port : Nat) : List Byte :=
  (nonce ++ List.replicate 32 0#8).take 32 ++ leBytes 2 node ++ leBytes 1 port

/-- A port that is UP_PLAIN begins to attest: HELLO leaves (R441); a refused one only after it has retrained (R442). A zeroised module
refuses with DEBUG (R456). -/
def State.beginAttest (s : State) (p : Nat) : State :=
  if s.portState p ≠ stPlain ∨ (s.portSt p).att.begun ∨ (s.portSt p).att.refused then s
  else if !s.mayAttest then s.sendRefuse p 2
  else
    let f := s.takeBytes 4
    let s1 := f.2.setSecPort p 3
    (s1.modAtt p (fun a => { a with begun := true, since := some (a.since.getD s.time) })).sendAttest p 0x10
      (helloParams f.1 s.node.toNat p)

end Sys2Proof.Machine
end

