-- ==== Sys2Proof/Machine/Training.lean ====
section
/-! DEFINITION. How ports train (R256, R267–R275, R280–R284), the LINKS and CABLING steps, requests to retrain (R282). -/

namespace Sys2Proof.Machine

/-- Does a lane of an engine belong to a port: one of its data lanes, or a spare? -/
def portHasLane (p lane : Nat) : Bool := (dataLanes p).contains lane || lane == 32 || lane == 33

/-- The back-channel message ABORT (R269). -/
def abortMsg (reason : Nat) : Word := BitVec.ofNat 64 (6 * 2 ^ 60 + reason)

/-- Set the training phase. -/
def State.setPhase (s : State) (p ph : Nat) : State := s.setFld (fLnkPortStatePhase p) ph

/-- Is a port in a training phase? -/
def State.inPhase (s : State) (p ph : Nat) : Bool := s.portState p == stTraining && s.fld (fLnkPortStatePhase p) == ph

/-- Data lanes of a port that are good. -/
def State.goodLanes (s : State) (p : Nat) : List Nat := (dataLanes p).filter (fun l => !s.laneBad (engineOf p) l)

/-- The back-channel message LANE_DONE (R269). -/
def laneDoneMsg (lanes : Nat) : Word := BitVec.ofNat 64 (3 * 2 ^ 60 + lanes)

/-- The receive lanes of a port's engine that this side has accepted, by either of its ports, as a bitmap (R269). -/
def State.acceptedMap (s : State) (p : Nat) : Nat :=
  ((List.range 34).map (fun i => ofBool ((s.portSt p).accepted.contains i || (s.portSt (siblingOf p)).accepted.contains i) * 2 ^ i)).foldl
    (· + ·) 0

/-- Is a lane in a port's list, or, a spare of the engine, in its sibling's (R271, R273)? -/
def State.onEngine (s : State) (f : PortSt → List Nat) (p l : Nat) : Bool :=
  (f (s.portSt p)).contains l || (decide (32 ≤ l) && (f (s.portSt (siblingOf p))).contains l)

/-- The back-channel message IDENT (R269). -/
def identMsg (node port token echo : Nat) : Word := BitVec.ofNat 64 (4 * 2 ^ 60 + echo * 2 ^ 36 + token * 2 ^ 24 + port * 2 ^ 16 + node)

/-- This side's IDENT. -/
def State.ownIdent (s : State) (p : Nat) : Word := identMsg s.node.toNat p (s.portSt p).token (s.portSt p).peerToken

/-- The back-channel message WIDTH (R269). -/
def widthMsg (w wmin bad : Nat) : Word := BitVec.ofNat 64 (5 * 2 ^ 60 + bad * 2 ^ 13 + wmin * 2 ^ 8 + w)

/-- This side's WIDTH. -/
def State.ownWidth (s : State) (p : Nat) : Word :=
  widthMsg (widthOf (s.workingList p).length) (s.fld (fLnkPortStateWidthMin p)) (s.badMap (engineOf p))

/-- Has a port of an engine ended EQUALIZE, or is it not in training (R267)? -/
def State.pastEqualize (s : State) (p : Nat) : Bool :=
  s.portState p != stTraining || decide (s.fld (fLnkPortStatePhase p) ≥ phIdent)

/-- A port in WIDTH whose sibling has ended EQUALIZE sends its WIDTH. -/
def State.offerWidth (s : State) (p : Nat) : State :=
  if s.inPhase p phWidth ∧ s.pastEqualize (siblingOf p) then s.sendTrain p none (s.ownWidth p) else s

/-- A port's training fails (R267): ABORT tells the peer (R269); at LINKS the first failure is followed by one more attempt. After CABLING a
port that saw an IDENT is checked against the plan first (R282). Its sibling waits for its lanes no more. -/
def State.trainFail (s : State) (p reason : Nat) : State :=
  let s0 := if s.stepDone 8 && (s.portSt p).identIn then s.checkCable p else s
  if s0.portState p ≠ s.portState p then s0.offerWidth (siblingOf p)
  else
    let first := s.bit fBringStateBusy && s.fld fBringStateStep == 7 && !(s.portSt p).retried
    let s1 := (s0.sendTrain p none (abortMsg reason)).portDown p stFailed reason
    if first then s1.startTraining p true else s1.offerWidth (siblingOf p)

/-- Both sides have sent LANE_DONE: lanes that either did not accept are bad; IDENT follows where four data lanes are good (R267,
R271). -/
def State.equalizeEnd (s : State) (p : Nat) : State :=
  let x := s.portSt p
  let e := engineOf p
  match x.peerDone with
  | none => s
  | some peer =>
    if !x.done then s
    else
      let ls := dataLanes p ++ [32, 33].filter (fun i => !s.spareUsed e i)
      let s1 := (s.markBad e (ls.filter (fun l => !s.onEngine (·.accepted) p l)) true).markBad e (ls.filter (fun l => !bitOf peer l)) false
      let s2 := s1.showLanes p
      if (s2.goodLanes p).length < 4 then s2.trainFail p lrEqualize
      else
        let f := s2.takeFree
        let s3 := (f.2.modPort p (fun y => { y with token := f.1.toNat % 4096 })).setPhase p phIdent
        (s3.sendTrain p none (s3.ownIdent p)).offerWidth (siblingOf p)

/-- This side sends LANE_DONE. -/
def State.sendLaneDone (s : State) (p : Nat) : State :=
  ((s.modPort p (fun x => { x with done := true })).sendTrain p none (laneDoneMsg (s.acceptedMap p))).equalizeEnd p

/-- Every lane of a port that has not gone bad is in its list, a spare by either port of the engine. -/
def State.allLanesIn (s : State) (p : Nat) (f : PortSt → List Nat) : Bool :=
  (dataLanes p ++ [32, 33].filter (fun i => !s.spareUsed (engineOf p) i)).all (fun i => s.onEngine f p i || s.laneBad (engineOf p) i)

/-- LOCK is over: unlocked lanes are bad. -/
def State.lockEnd (s : State) (p : Nat) : State :=
  let e := engineOf p
  let ls := dataLanes p ++ [32, 33].filter (fun i => !s.spareUsed e i)
  ((s.markBad e (ls.filter (fun l => !s.onEngine (·.locked) p l)) true).showLanes p).setPhase p phEqualize

/-- The lower median of a list. -/
def medianOf (l : List Int) : Int :=
  (l.find? (fun a => decide ((l.filter (· < a)).length ≤ (l.length - 1) / 2 ∧ (l.length - 1) / 2 < (l.filter (· ≤ a)).length))).getD 0

/-- Symbols in 20 ns at 112 GBd: the most that a lane may lie from the median of its port (R251, R256). -/
def skewSymbols : Nat := 2240

/-- How many symbols a lane's comma comes after another's, the shorter way round the superframe (R256). -/
def offsetFrom (own other : Nat) : Int := (((other + 43560 + 21780 - own) % 43560 : Nat) : Int) - 21780

/-- Does a lane lie within 20 ns of the median of its port's lanes whose commas match (R256)? -/
def PortSt.inSkew (x : PortSt) (lane : Nat) : Bool :=
  let own := (lookupKey x.offsets lane).getD 0
  let l := (x.offsets.filter (fun o => (lookupKey x.hits o.1).getD 0 > 0)).map (fun o => offsetFrom own o.2)
  decide ((medianOf l).natAbs ≤ skewSymbols)

/-- What a comma word shows of its lane (R256): it is a match where levels 0–31 are the pattern and, on a locked lane, where it begins
where the last one did; four matches at one offset lock the lane, three misses unlock it; a wrong number, a bad b7 or too much skew keeps it
unlocked. -/
def PortSt.comma (x : PortSt) (o : CommaObs) : PortSt :=
  let lane := o.lane.val
  let same := lookupKey x.offsets lane == some o.offset.val
  let hit := commaHit o.levels && (same || !x.locked.contains lane)
  let h := if hit then (if same then (lookupKey x.hits lane).getD 0 + 1 else 1) else 0
  let m := if hit then 0 else ((lookupKey x.misses lane).getD 0) + 1
  let y : PortSt := { x with
    seen := if x.seen.contains lane then x.seen else lane :: x.seen
    hits := insertKey x.hits lane h, misses := insertKey x.misses lane m
    offsets := if hit then insertKey x.offsets lane o.offset.val else x.offsets }
  let good := commaOwn o.levels lane && y.inSkew lane
  { y with locked :=
      if m ≥ 3 ∨ (hit ∧ !good) then x.locked.filter (· != lane)
      else if h ≥ 4 ∧ !x.locked.contains lane then lane :: x.locked else x.locked }

/-- Training goes on after a comma (R267): light on four lanes ends DETECT, every lane locked ends LOCK. -/
def State.commaPhase (s : State) (p : Nat) : State :=
  let x := s.portSt p
  if s.inPhase p phDetect then
    if (x.seen.filter (dataLanes p).contains).length ≥ 4 then s.setPhase p phLock else s
  else if s.inPhase p phLock then (if s.allLanesIn p (·.locked) then s.lockEnd p else s)
  else s

/-! ### Messages (R268–R275) -/

/-- One tap's step (R269, R270): its new value and the outcome: 0 applied, 1 at the upper limit, 2 at the lower limit, 3 refused by the
sum rule. -/
def tapStep (req : Nat) (cur preset lo hi rest : Int) : Int × Nat :=
  let want := if req = 1 then cur + 1 else if req = 2 then cur - 1 else if req = 3 then preset else cur
  if want > hi then (cur, 1)
  else if want < lo then (cur, 2)
  else if (want.natAbs : Int) + rest > 64 then (cur, 3)
  else (want, 0)

/-- The preset taps (R270). -/
def Taps.preset : Taps := ⟨0#8, BitVec.ofInt 8 (-6), 52#8, BitVec.ofInt 8 (-6)⟩

/-- Apply a request, tap by tap in the order of its fields: taps and the eight bits of the outcome. -/
def applyTaps (t : Taps) (r : TapReq) : Taps × Nat :=
  let m (x : Int) : Int := (x.natAbs : Int)
  let a := tapStep r.pre2 t.pre2.toInt 0 (-8) 0 (m t.pre1.toInt + m t.main.toInt + m t.post1.toInt)
  let b := tapStep r.pre1 t.pre1.toInt (-6) (-20) 0 (m a.1 + m t.main.toInt + m t.post1.toInt)
  let c := tapStep r.main t.main.toInt 52 24 64 (m a.1 + m b.1 + m t.post1.toInt)
  let d := tapStep r.post1 t.post1.toInt (-6) (-20) 0 (m a.1 + m b.1 + m c.1)
  (⟨BitVec.ofInt 8 a.1, BitVec.ofInt 8 b.1, BitVec.ofInt 8 c.1, BitVec.ofInt 8 d.1⟩, a.2 * 64 + b.2 * 16 + c.2 * 4 + d.2)

/-- The back-channel message TAP_REQ (R269). -/
def tapReqMsg (r : TapReq) : Word :=
  BitVec.ofNat 64 (1 * 2 ^ 60 + r.num.toNat * 2 ^ 8 + r.pre2.val * 64 + r.pre1.val * 16 + r.main.val * 4 + r.post1.val)

/-- The back-channel message TAP_STAT (R269). -/
def tapStatMsg (t : Taps) (num res : Nat) : Word :=
  BitVec.ofNat 64 (2 * 2 ^ 60 + t.post1.toNat * 2 ^ 40 + t.main.toNat * 2 ^ 32 + t.pre1.toNat * 2 ^ 24 + t.pre2.toNat * 2 ^ 16 + num * 2 ^ 8 + res)

/-- A peer's TAP_REQ: the transmitter applies the request, each number once, and answers (R269, R270). -/
def State.tapReqIn (s : State) (p lane : Nat) (r : TapReq) : State :=
  let x := s.portSt p
  if s.portState p ≠ stTraining ∨ !portHasLane p lane ∨ lookupKey x.tapNum lane = some r.num.toNat then s
  else
    let t := applyTaps ((lookupKey x.taps lane).getD Taps.preset) r
    (s.modPort p (fun y => { y with taps := insertKey y.taps lane t.1, tapNum := insertKey y.tapNum lane r.num.toNat })).sendTrain p
      (some lane) (tapStatMsg t.1 r.num.toNat t.2)

/-- Ask the peer for other taps on a lane (R267, R269); which, the manual leaves to the receiver. -/
def State.askTaps (s : State) (p lane : Nat) : State :=
  let f := s.takeFree
  let n := (((lookupKey (s.portSt p).reqNum lane).getD 0) + 1) % 256
  (f.2.modPort p (fun y => { y with reqNum := insertKey y.reqNum lane n })).sendTrain p (some lane)
    (BitVec.ofNat 64 (1 * 2 ^ 60 + n * 2 ^ 8 + f.1.toNat % 256))

/-- A peer's TAP_STAT: the taps now in force there (R269). -/
def State.tapStatIn (s : State) (p lane num : Nat) (t : Taps) : State :=
  if s.portState p ≠ stTraining ∨ !portHasLane p lane ∨ lookupKey (s.portSt p).reqNum lane ≠ some num then s
  else s.modPort p (fun y => { y with peerTaps := insertKey y.peerTaps lane t })

/-- TAP_REQ: a message whose CRC does not hold is not taken (R268). -/
def execTapReq (p : Port) (lane : Fin 34) (r : TapReq) (crc : BitVec 32) (s : State) : Host.Outcome State Fault Refusal :=
  .next (if crc = msgCrc (tapReqMsg r) then s.tapReqIn p lane r else s)

/-- TAP_STAT (R268, R269). -/
def execTapStat (p : Port) (lane : Fin 34) (num : Byte) (t : Taps) (res : BitVec 8) (crc : BitVec 32) (s : State) :
    Host.Outcome State Fault Refusal :=
  .next (if crc = msgCrc (tapStatMsg t num.toNat res.toNat) then s.tapStatIn p lane num.toNat t else s)

/-- A port that has accepted every lane sends LANE_DONE. -/
def State.acceptedAll (s : State) (p : Nat) : State :=
  if s.inPhase p phEqualize ∧ !(s.portSt p).done ∧ s.allLanesIn p (·.accepted) then s.sendLaneDone p else s

/-- PRBS_COUNT: 10^9 compared bits of a lane have passed; fewer than 1,000 errors accept it, else other taps are asked for
(R271). -/
def execPrbsCount (p : Port) (lane : Fin 34) (errors : Nat) (s : State) : Host.Outcome State Fault Refusal :=
  .next (
    if !s.inPhase p phEqualize ∨ !portHasLane p lane ∨ s.laneBad (engineOf p) lane ∨ (s.portSt p).done then s
    else if errors < 1000 then
      let s1 := s.modPort p (fun y => if y.accepted.contains lane.val then y else { y with accepted := lane.val :: y.accepted })
      let s2 := s1.acceptedAll p
      if lane.val ≥ 32 then s2.acceptedAll (siblingOf p) else s2
    else s.askTaps p lane)

/-- A peer's LANE_DONE. -/
def State.laneDone (s : State) (p lanes : Nat) : State :=
  if s.inPhase p phEqualize ∨ s.inPhase p phLock then (s.modPort p (fun y => { y with peerDone := some lanes })).equalizeEnd p else s

/-- LANE_DONE (R267–R269). -/
def execLaneDone (p : Port) (lanes : BitVec 34) (crc : BitVec 32) (s : State) : Host.Outcome State Fault Refusal :=
  .next (if crc = msgCrc (laneDoneMsg lanes.toNat) then s.laneDone p lanes.toNat else s)

/-- A peer's IDENT (R267, R272): its node and port; once our token comes back the round trip is known. -/
def State.identIn (s : State) (p node port token echo rtt : Nat) : State :=
  if !s.inPhase p phIdent then s
  else
    let back := decide (echo = (s.portSt p).token)
    let s1 := (s.modPort p (fun y => { y with identIn := true, peerToken := token, echoed := y.echoed || back })).setFlds
      [(fLnkPortCableSeenNode p, node), (fLnkPortCableSeenPort p, port)]
    let s2 := s1.sendTrain p none (s1.ownIdent p)
    if !back then s2
    else
      let s3 := s2.setFld (fLnkPortStateRtt p) rtt
      if rtt > 5600 then s3.trainFail p lrReach else (s3.setPhase p phWidth).offerWidth p

/-- IDENT (R267–R269, R272). -/
def execIdent (p : Port) (node : Node) (port : Port) (token echo : BitVec 12) (rtt : BitVec 16) (crc : BitVec 32) (s : State) :
    Host.Outcome State Fault Refusal :=
  .next (if crc = msgCrc (identMsg node.toNat port token.toNat echo.toNat) then s.identIn p node.toNat port token.toNat echo.toNat rtt.toNat
    else s)

/-- A port is UP_PLAIN (R267, R274, R275): its lanes in logical order, its counters at 0; after CABLING it is checked against
the plan, after SECURE has begun it attests (R280, R282). -/
def State.portPlain (s : State) (p : Nat) : State :=
  let l := s.workingList p
  let w := widthOf l.length
  let m := s.spareMap (engineOf p)
  let s1 := (s.modPort p (fun y => { y with lanes := l, rxLanes := l, txWidth := w, rxWidth := w })).setFld (fLnkPortStateWidth p) w
  let s2 := (dataLanes p).foldl (fun s i => match m.lookup i with
    | some x => s.showSpare p i x
    | none => s) s1
  let s3 := ((s2.setPortState p stPlain lrNone).showLanes p).showLanes (siblingOf p)
  let s4 := if w < 16 then s3.log { code := 0x0401, kind := 6, unit := p, detail := [16#8, BitVec.ofNat 8 w] } else s3
  let s5 := (if s4.stepDone 8 then s4.checkCable p else s4).askedDone p
  if s5.stepDone 9 ∨ (s5.bit fBringStateBusy ∧ s5.fld fBringStateStep = 9) then s5.beginAttest p else s5

/-- A peer's WIDTH: both sides agree on the width and the bitmap (R267, R273–R275); each side applies its own minimum, and where only the
peer's rules the width out the reason is PEER (R285). After CABLING the port is checked against the plan, whatever its width (R282). -/
def State.widthIn (s : State) (p w wmin bad : Nat) : State :=
  if !s.inPhase p phWidth ∨ !s.pastEqualize (siblingOf p) then s
  else
    let mine := widthOf (s.workingList p).length
    let s1 := s.modPort p (fun y => { y with minPeer := wmin })
    if w ≠ mine ∨ bad ≠ s.badMap (engineOf p) then s1
    else if s.fld (fLnkPortStateWidthMin p) ≤ mine ∧ wmin ≤ mine then s1.portPlain p
    else
      let s2 := if s.stepDone 8 then s1.checkCable p else s1
      if s2.portState p ≠ stTraining then s2
      else s2.portDown p stDisabled (if mine < s.fld (fLnkPortStateWidthMin p) then lrNarrow else lrPeer)

/-- WIDTH (R268, R269, R274). -/
def execWidth (p : Port) (w wmin : BitVec 5) (bad : BitVec 34) (crc : BitVec 32) (s : State) : Host.Outcome State Fault Refusal :=
  .next (if crc = msgCrc (widthMsg w.toNat wmin.toNat bad.toNat) then s.widthIn p w.toNat wmin.toNat bad.toNat else s)

/-- A peer's ABORT: both sides return to DETECT (R269). -/
def State.abortIn (s : State) (p : Nat) : State :=
  if s.portState p = stTraining then s.startTraining p (s.portSt p).retried else s

/-- ABORT (R268, R269). -/
def execAbort (p : Port) (reason : Byte) (crc : BitVec 32) (s : State) : Host.Outcome State Fault Refusal :=
  .next (if crc = msgCrc (abortMsg reason.toNat) then s.abortIn p else s)

/-- What a back-channel message on a lane does (R269): unlisted types are ignored. -/
def State.messageIn (s : State) (p lane v rtt : Nat) : State :=
  let two (i : Nat) : Fin 4 := Fin.ofNat 4 (bitsOf v (i + 1) i)
  match bitsOf v 63 60 with
  | 1 => s.tapReqIn p lane ⟨BitVec.ofNat 8 (bitsOf v 15 8), two 6, two 4, two 2, two 0⟩
  | 2 => s.tapStatIn p lane (bitsOf v 15 8) ⟨BitVec.ofNat 8 (bitsOf v 23 16), BitVec.ofNat 8 (bitsOf v 31 24), BitVec.ofNat 8 (bitsOf v 39 32),
      BitVec.ofNat 8 (bitsOf v 47 40)⟩
  | 3 => s.laneDone p (bitsOf v 33 0)
  | 4 => s.identIn p (bitsOf v 11 0) (bitsOf v 20 16) (bitsOf v 35 24) (bitsOf v 47 36) rtt
  | 5 => s.widthIn p (bitsOf v 4 0) (bitsOf v 12 8) (bitsOf v 46 13)
  | 6 => s.abortIn p
  | _ => s

/-- TRAINING_SUPERFRAME: a superframe arrives on a lane: it makes a FAILED port train (R280); its message acts where its CRC holds (R268,
R269). `rtt` is the round trip that an echoed token shows (R272). -/
def execTrainingSuperframe (p : Port) (lane : Fin 34) (msg : Word) (crc : BitVec 32) (rtt : BitVec 16) (s : State) :
    Host.Outcome State Fault Refusal :=
  .next (
    if s.portState p = stFailed ∧ s.mayTrain p then s.startTraining p true
    else if s.portState p ≠ stTraining ∨ crc ≠ msgCrc msg then s
    else s.messageIn p lane msg.toNat rtt.toNat)

/-- TRAINING_TIMEOUT: the timeout of the port's training state expires (R267). -/
def execTrainingTimeout (p : Port) (s : State) : Host.Outcome State Fault Refusal :=
  .next (
    if s.portState p ≠ stTraining then s
    else
      let x := s.portSt p
      match s.fld (fLnkPortStatePhase p) with
      | 0 => s.trainFail p lrNoLight
      | 1 => if (x.locked.filter (dataLanes p).contains).length ≥ 4 then s.lockEnd p else s.trainFail p lrNoLock
      | 2 => if x.done ∨ (x.accepted.filter (dataLanes p).contains).length < 4 then s.trainFail p lrEqualize else s.sendLaneDone p
      | _ => s.trainFail p lrIdent)

/-- RETRAIN_TIMER: a FAILED port's attempt every 10 s (R280). -/
def execRetrainTimer (p : Port) (s : State) : Host.Outcome State Fault Refusal :=
  .next (if s.portState p = stFailed ∧ s.mayTrain p then s.startTraining p true else s)

/-! ### Steps (R267, R283, R421) -/

/-- LINKS: step 7: every USED port starts at DETECT (R267). -/
def execLinks (s : State) : Host.Outcome State Fault Refusal :=
  .next (s.startStep 7 HostObs.plain (fun s =>
    ((List.range 32).foldl (fun s p => if s.mayTrain p then s.startTraining p false else s) s, brDone)))

/-- CABLING: step 8 (R283, R284). -/
def execCabling (s : State) : Host.Outcome State Fault Refusal :=
  .next (s.startStep 8 HostObs.plain (fun s => ((List.range 32).foldl State.checkCable s, brDone)))

/-! ### Requests (R281, R282, R428) -/

/-- Is this a quiesce: no partition OPEN (R427)? -/
def State.quiesced (s : State) : Bool := (List.range 4).all (fun p => !s.isOpen p)

/-- LNK.CTL ends with a status (R286). -/
def State.lnkStatus (s : State) (st : Nat) : State := s.setFlds [(fLnkCtlStatus, st), (fLnkCtlBusy, 0)]

/-- Retrain a port on request. -/
def State.askRetrain (s : State) (p : Nat) : State :=
  (({ s with lnk := { s.lnk with asked := some p } }).setFld fLnkCtlBusy 1).startTraining p true

/-- A host write of LNK.CTL (R282, R286). A go while a request runs or waits does nothing; port and defer are written all the same. -/
def State.lnkCtlWrite (s : State) (v : Word) : State :=
  let s1 := s.writeUnder takesAll rLnkCtl v
  let p := getBits v fLnkCtlPort
  let st := s.portState p
  if getBits v fLnkCtlGo = 0 ∨ s.bit fLnkCtlBusy then s1
  else if st = stTraining then s1.lnkStatus 0
  else if !s.mayTrain p ∨ st = stDark then s1.lnkStatus 4
  else if s.portUp p then
    if s.quiesced then s1.askRetrain p
    else if getBits v fLnkCtlDefer = 1 then ({ s1 with lnk := { s1.lnk with waiting := some p } }).setFld fLnkCtlBusy 1
    else s1.lnkStatus 2
  else s1.askRetrain p

/-- PORT_RETRAIN (R282). -/
def execPortRetrain (v : Word) (s : State) : Host.Outcome State Fault Refusal :=
  .next (s.hostWrite rLnkCtl (putBits v fLnkCtlGo 1) HostObs.plain (fun s => s.lnkCtlWrite (putBits v fLnkCtlGo 1)))

/-- DEFERRED_RETRAIN_START: a quiesce begins and the waiting request runs (R282). -/
def execDeferredRetrainStart (s : State) : Host.Outcome State Fault Refusal :=
  .next (match s.lnk.waiting with
    | none => s
    | some p =>
      if !s.quiesced then s
      else
        let s1 : State := { s with lnk := { s.lnk with waiting := none } }
        if s.portState p = stTraining then s1.lnkStatus 0
        else if !s.mayTrain p then s1.lnkStatus 4 else s1.askRetrain p)

/-- EYE_MARGIN_SWEEP: the idle spares of an engine report their eyes (R281, R286). -/
def execEyeMarginSweep (oe : Fin 16) (w0 h0 w1 h1 : Byte) (s : State) : Host.Outcome State Fault Refusal :=
  .next (
    let up := s.portUp (2 * oe) || s.portUp (2 * oe + 1)
    let s1 := if up && s.spareIdle oe 32 then s.setFlds [(fLnkOeStatS0Width oe, w0.toNat), (fLnkOeStatS0Height oe, h0.toNat)] else s
    if up && s.spareIdle oe 33 then s1.setFlds [(fLnkOeStatS1Width oe, w1.toNat), (fLnkOeStatS1Height oe, h1.toNat)] else s1)

end Sys2Proof.Machine
end

