-- ==== Sys2Proof/Machine/Blocks.lean ====
section
/-! DEFINITION. Ports in service: commas, blocks and replay (R257–R263), express flits (R264–R266), lanes that fail, swaps and
narrowing (R276–R279). -/

namespace Sys2Proof.Machine

/-! ### Failing lanes (R276–R278) -/

/-- The next smaller width. -/
def nextWidth (w : Nat) : Nat := if w = 16 then 12 else if w = 12 then 8 else if w = 8 then 4 else 0

/-- The block that a side names for a change of lanes or keys, by counter: 8 after the one that carries the message (R277, R443), which
goes behind what is queued; a block has at least 144 slots for ordinary flits. -/
def State.nameBlock (s : State) (p : Nat) : Nat := (s.portSt p).txCtr + (s.portSt p).txq.length / 144 + 8

/-- The substitute for a failed lane: an idle spare, S0 first, else a working lane beyond the width (R277). -/
def State.substitute (s : State) (p : Nat) : Option Nat :=
  let e := engineOf p
  let x := s.portSt p
  let taken := ((x.switches ++ (s.portSt (siblingOf p)).switches).filter (·.narrow.isNone)).map (·.sub)
  match [32, 33].find? (fun i => s.spareIdle e i && !taken.contains i) with
  | some i => some i
  | none => (x.rxLanes.drop x.rxWidth).find? (fun l => !s.laneBad e l && !taken.contains l)

/-- The place of a physical lane among a port's sixteen: its own number, or that of the lane that a spare serves. -/
def State.relLane (s : State) (p lane : Nat) : Nat :=
  if lane = 32 then s.fld (fLnkPortLanesS0Lane p) else if lane = 33 then s.fld (fLnkPortLanesS1Lane p) else lane % 16

/-- The receiver finds a failed lane: SWAP, else NARROW, else the port fails (R277). -/
def State.laneFailed (s : State) (p lane : Nat) : State :=
  let e := engineOf p
  if !(s.lanesInUse p).contains lane ∨ s.laneBad e lane then s
  else
    let s1 := ((s.markBad e [lane] true).showLanes p).modPort p (fun x => { x with laneMet := true })
    let n := s1.nameBlock p
    match s1.substitute p with
    | some sub =>
      (s1.modPort p (fun x => { x with switches := x.switches ++ [⟨none, lane, sub, n, none, false, false⟩] })).sendCtl p 0x01
        (leBytes 1 (s1.relLane p lane) ++ leBytes 1 sub ++ leBytes 2 (n % 2 ^ 14))
    | none =>
      let w := nextWidth (s1.portSt p).rxWidth
      if w = 0 ∨ w < s1.fld (fLnkPortStateWidthMin p) ∨ w < (s1.portSt p).minPeer then s1.portDown p stFailed lrLanes
      else (s1.modPort p (fun x => { x with switches := x.switches ++ [⟨some w, lane, 0, n, none, false, false⟩] })).sendCtl p 0x03
        (leBytes 1 w ++ [0x00#8] ++ leBytes 2 (n % 2 ^ 14))

/-- A lane loses lock in service (R276, R285): one in use has failed, and where all of them have the port is LOST; an idle spare or a lane
beyond the width becomes bad. -/
def State.lockLost (s : State) (p lane : Nat) : State :=
  if (s.lanesInUse p).contains lane then
    if (s.lanesInUse p).all (fun l => decide ((lookupKey (s.portSt p).misses l).getD 0 ≥ 2)) then s.portDown p stFailed lrLost
    else s.laneFailed p lane
  else ((s.markBad (engineOf p) [lane] true).showLanes p).showLanes (siblingOf p)

/-- COMMA: a comma word arrives on a lane (R256): training goes on, or a lane loses lock (R276). -/
def execComma (p : Port) (obs : CommaObs) (s : State) : Host.Outcome State Fault Refusal :=
  .next (
    let lane := obs.lane.val
    if !portHasLane p lane ∨ !(s.portUp p ∨ s.portState p = stTraining) then s
    else
      let was := (s.portSt p).locked.contains lane
      let s1 := s.modPort p (fun x => x.comma obs)
      if !s.portUp p then s1.commaPhase p
      else if was && !(s1.portSt p).locked.contains lane then s1.lockLost p lane else s1)

/-! ### Swaps and narrowings (R277, R279) -/

/-- Replace a lane in a port's working list by its substitute; a substitute that stood by leaves its place. -/
def swapLane (l : List Nat) (lane sub : Nat) : List Nat := (l.filter (· != sub)).map (fun x => if x = lane then sub else x)

/-- The block that the peer named, by counter: the next with that seq (R277, R443). -/
def State.peerBlock (s : State) (p : Nat) (seq : BitVec 14) : Nat :=
  let c := (s.portSt p).rxCtr
  c + (seq.toNat + 2 ^ 14 - c % 2 ^ 14) % 2 ^ 14

/-- SWAP: the peer's receiver found a failed lane; we name our own block (R277). -/
def execSwap (p : Port) (lane : Fin 16) (sub : Fin 34) (seq : BitVec 14) (s : State) : Host.Outcome State Fault Refusal :=
  .next (
    if !s.portUp p then s
    else
      let e := engineOf p
      let own := p.val % 2 * 16 + lane.val
      let phys := if (s.portSt p).hasLane own then own
        else if s.bit (fLnkPortLanesS0 p) && s.fld (fLnkPortLanesS0Lane p) == lane.val then 32 else 33
      let s1 := (s.markBad e [phys] false).showLanes p
      let n := s1.nameBlock p
      (s1.modPort p (fun x => { x with switches := x.switches ++ [⟨none, phys, sub, n, some (s.peerBlock p seq), false, false⟩] })).sendCtl p 0x02
        (leBytes 1 lane ++ leBytes 1 sub ++ leBytes 2 (n % 2 ^ 14)))

/-- SWAP_ACK: the peer names its block (R277). -/
def execSwapAck (p : Port) (_lane : Fin 16) (sub : Fin 34) (seq : BitVec 14) (s : State) : Host.Outcome State Fault Refusal :=
  .next (s.modPort p (fun x => { x with switches := x.switches.map (fun w =>
    if w.narrow = none ∧ w.sub = sub.val ∧ w.rxAt = none then { w with rxAt := some (s.peerBlock p seq) } else w) }))

/-- NARROW: the peer's receiver has no substitute; we name our own block (R277). -/
def execNarrow (p : Port) (w : BitVec 5) (seq : BitVec 14) (s : State) : Host.Outcome State Fault Refusal :=
  .next (if !s.portUp p ∨ w.toNat ≥ (s.portSt p).txWidth then s
    else
      let n := s.nameBlock p
      (s.modPort p (fun x => { x with switches := x.switches ++ [⟨some w.toNat, 0, 0, n, some (s.peerBlock p seq), false, false⟩] })).sendCtl p 0x04
        (leBytes 1 w.toNat ++ [0x00#8] ++ leBytes 2 (n % 2 ^ 14)))

/-- NARROW_ACK: the peer names its block (R277). -/
def execNarrowAck (p : Port) (w : BitVec 5) (seq : BitVec 14) (s : State) : Host.Outcome State Fault Refusal :=
  .next (s.modPort p (fun x => { x with switches := x.switches.map (fun y =>
    if y.narrow = some w.toNat ∧ y.rxAt = none then { y with rxAt := some (s.peerBlock p seq) } else y) }))

/-- A direction's lanes and width after a change (R277): the substitute in the lane's place, or the lanes that are good at the new width. -/
def LaneSwitch.apply (w : LaneSwitch) (good : Nat → Bool) (lanes : List Nat) (width : Nat) : List Nat × Nat :=
  match w.narrow with
  | none => (swapLane lanes w.lane w.sub, width)
  | some n => (lanes.filter good, n)

/-- Is the comma after the block that this side named reached; and after the peer's (R277)? -/
def LaneSwitch.txReady (w : LaneSwitch) (x : PortSt) : Bool := !w.txDone && decide (w.txAt < x.txCtr)
def LaneSwitch.rxReady (w : LaneSwitch) (x : PortSt) : Bool := !w.rxDone && w.rxAt.any (· < x.rxCtr)

/-- Both directions have changed: the registers show it and it is logged (R277, R286): LANE_SWAP, or WIDTH_LOSS. -/
def State.switchDone (s : State) (p : Nat) (w : LaneSwitch) : State :=
  let e := engineOf p
  match w.narrow with
  | some n =>
    let old := s.fld (fLnkPortStateWidth p)
    (((s.setFld (fLnkPortStateWidth p) n).linksNote p).bump (fLnkPortErrChanges p) 1).log
      { code := 0x0401, kind := 6, unit := p, detail := [BitVec.ofNat 8 old, BitVec.ofNat 8 n] }
  | none =>
    let rel := s.relLane p w.lane
    let s1 := s.modPort p (fun x => { x with uncorr := x.uncorr.filter (fun u => u.1 != w.lane) })
    let s2 := if w.lane = 32 then s1.setFlds [(fLnkPortLanesS0 p, 0), (fLnkPortLanesS0Lane p, 0)]
      else if w.lane = 33 then s1.setFlds [(fLnkPortLanesS1 p, 0), (fLnkPortLanesS1Lane p, 0)] else s1
    ((((s2.showSpare p rel w.sub).showLanes p).showLanes (siblingOf p)).bump (fLnkPortErrChanges p) 1).log
      { code := 0x0402, kind := 7, unit := laneUnit e w.lane, action := 4, detail := leBytes 1 rel ++ leBytes 1 w.sub }

/-- One change of lanes at a comma: each direction changes after its named block (R277). -/
def State.switchAt (s : State) (p : Nat) (w : LaneSwitch) : State :=
  let x := s.portSt p
  let good (l : Nat) : Bool := !s.laneBad (engineOf p) l
  let tx := w.txReady x
  let rx := w.rxReady x
  let a := w.apply good x.lanes x.txWidth
  let b := w.apply good x.rxLanes x.rxWidth
  let w1 : LaneSwitch := { w with txDone := w.txDone || tx, rxDone := w.rxDone || rx }
  let over_ := w1.txDone && w1.rxDone
  let s1 := s.modPort p (fun y => { y with
    lanes := if tx then a.1 else y.lanes, txWidth := if tx then a.2 else y.txWidth, txBlocks := if tx then 0 else y.txBlocks
    rxLanes := if rx then b.1 else y.rxLanes, rxWidth := if rx then b.2 else y.rxWidth, rxBlocks := if rx then 0 else y.rxBlocks
    switches := if over_ then y.switches.filter (· != w) else y.switches.map (fun v => if v = w then w1 else v) })
  if over_ then s1.switchDone p w else s1

/-- SWAP_APPLY: a comma: the changes of lanes whose named block has gone by take place, each direction by itself (R277). -/
def execSwapApply (p : Port) (s : State) : Host.Outcome State Fault Refusal :=
  .next (if !s.portUp p then s
    else ((s.portSt p).switches.filter (fun w => w.txReady (s.portSt p) || w.rxReady (s.portSt p))).foldl (fun s w => s.switchAt p w) s)

/-- DISABLE: the peer's port went down; this one is DISABLED, PEER (R278); one that still agrees on its width learns so too (R285). -/
def execDisable (p : Port) (_reason : Fin 16) (s : State) : Host.Outcome State Fault Refusal :=
  .next (if s.portUp p ∨ s.inPhase p phWidth then s.portDown p stDisabled lrPeer else s)

/-! ### Blocks (R257–R261) -/

/-- 100 µs in ns: the window of the lane-failure rule (R276). -/
def laneWindow : Nat := 100000

/-- The receiver fails a block: it will send NAK, and waits for the replay (R261). -/
def PortSt.fail (x : PortSt) : PortSt := { x with nakDue := true, nakWait := true }

/-- A block is delivered in order (R260, R261). -/
def PortSt.accept (x : PortSt) (key : List Byte) (cws : List Codeword) : PortSt :=
  let u := unitFlits x.rxRest (plainFlits key x.rxCtr cws)
  { x with rxCtr := x.rxCtr + 1, nakWait := false, nakRun := 0, laneMet := false, rxRest := u.2, delivered := u.1 }

/-- What the receiver makes of a block (R258, R261): ack and NAK from the codewords that decoded; the block itself is delivered where
every codeword decoded, the copies agree, the check holds and it is the next one. DEDUCED: an ack counts where its copies agree, whatever
becomes of the block (log entry 100). -/
def PortSt.receive (x : PortSt) (got : List (Nat × Codeword)) : PortSt :=
  let y := match agreed (headersAt got 1) with
    | some (nak, ack) => x.takeAck ack nak
    | none => x
  match agreed (headersAt got 0), agreed (headersAt got 1) with
  | some (rpl, seq), some _ =>
    let cws := got.map (·.2)
    let ctr := nearCtr 14 x.rxCtr seq
    let key := x.rxKeyAt ctr
    if got.length = 16 ∧ nibbleCheck cws = blockCheck key ctr cws then
      if seq = x.rxCtr % 2 ^ 14 then (if x.nakWait ∧ !rpl then y else y.accept key cws)
      else if behind 14 x.rxCtr seq ∨ x.nakWait then y else y.fail
    else y.fail
  | _, _ => y.fail

/-- BLOCK_RECEIVE: the sixteen codewords of a block arrive (R254, R257–R262, R276). -/
def execBlockReceive (p : Port) (cws : List (BitVec 5440)) (s : State) : Host.Outcome State Fault Refusal :=
  .next (
    if !s.portUp p ∨ cws.length ≠ 16 then s
    else
      let x := s.portSt p
      let dec := cws.map decodeCodeword
      let fixed := (dec.filter (fun d => d.any (fun c => decide (c.2 > 0)))).length
      let lost := (dec.zipIdx.filter (fun d => d.1.isNone)).map (fun d => x.rxLanes.getD ((16 * x.rxBlocks + d.2) % max 1 x.rxWidth) 0)
      let got := dec.zipIdx.filterMap (fun d => d.1.map (fun c => (d.2, c.1)))
      let times := x.uncorr.filter (fun u => decide (s.time < u.2 + laneWindow)) ++ lost.map (fun l => (l, s.time))
      let failing := (lost.eraseDups).filter (fun l => decide ((times.filter (fun u => u.1 == l)).length ≥ 4))
      let s1 := ((s.bump (fLnkPortErrCorrected p) fixed).bump (fLnkPortErrUncorrectable p) lost.length).modPort p
        (fun y => { (y.receive got) with uncorr := times, rxBlocks := y.rxBlocks + 1 })
      failing.foldl (fun s l => if s.portUp p then s.laneFailed p l else s) s1)

/-- Send a retained block again; one that an ack has released meanwhile is passed over (R261). -/
def State.resendBlock (s : State) (p : Nat) (ctrs : List Nat) : State :=
  match ctrs with
  | [] => s
  | q :: rest => match (s.portSt p).retained.find? (fun b => b.ctr == q) with
    | some b => (s.putBlock p b.replay (s.commaLanes p)).modPort p (fun y => { y with resend := rest })
    | none => s.modPort p (fun y => { y with resend := rest })

/-- Flits that are left of those queued when packets as old as `old` says are discarded (R298), and how many were: one whose head flit has
left goes on. -/
def dropAged (old : Pkt → Bool) (l : List LFlit) : List LFlit × Nat :=
  let tail (f : LFlit) : Bool := match f with
    | .pkt _ _ i => decide (i > 0)
    | .ctl _ => false
  let gone (f : LFlit) : Bool := match f with
    | .pkt q _ _ => old q
    | .ctl _ => false
  let rest := l.dropWhile tail
  (l.takeWhile tail ++ rest.filter (fun f => !gone f), (rest.filter (fun f => gone f && !tail f)).length)

/-- A port's packets that wait for the fibre or for a buffer and have reached the age of 64 µs are discarded, and how many (R298). -/
def PortSt.age (x : PortSt) (old : Pkt → Bool) : PortSt × Nat :=
  let a := dropAged old x.txq
  ({ x with txq := a.1, blocked := x.blocked.filter (fun b => !old b.1) }, a.2 + (x.blocked.filter (fun b => old b.1)).length)

/-- Collective packets of this module join the ordinary flits of a block while it has room and the port buffers, injected now (R287, R289,
R305). -/
def PortSt.pullTree (port us : Nat) : Nat → Nat → PortSt → PortSt
  | 0, _, x => x
  | f + 1, room, x =>
    if x.txq.length ≥ room then x
    else match x.nextTree with
      | none => x
      | some (q0, y) =>
        let q : Pkt := { q0 with stamp := BitVec.ofNat 8 us }
        if y.room port q then PortSt.pullTree port us f room { y with txq := y.txq ++ pktFlits q q } else x

/-- Express flits for the next block, at most so many (R264, R305). -/
def PortSt.pullExpress : Nat → PortSt → List XFlit × PortSt
  | 0, x => ([], x)
  | f + 1, x => match x.nextExpress with
    | none => ([], x)
    | some (g, y) => let r := PortSt.pullExpress f y; (g :: r.1, r.2)

/-- Is the next new block the one from which this side's direction takes its next key (R443)? It waits for KEY_SWITCH_BLOCK. -/
def PortSt.keyDue (x : PortSt) : Bool := x.att.txNamed.any (· ≤ x.txCtr)

/-- Has a lane met the rule of R276 since the block awaited, or does one that met it still await its change (R262)? -/
def PortSt.laneWaits (x : PortSt) : Bool := x.laneMet || x.switches.any (fun w => !w.rxDone)

/-- A new block leaves (R258, R260, R264): express flits, only when UP_SEALED, in slot 0 of its first codewords, then ordinary flits, those of
packets grown too old left out (R298). A NAK that is due goes with it; the eighth for one seq, where no lane has failed, fails the port (R261, R262). -/
def State.newBlock (s : State) (p : Nat) (x0 : PortSt) : State :=
  let g := x0.age s.aged
  let e := if s.portState p = stSealed then g.1.pullExpress 16 else ([], g.1)
  let n := 160 - e.1.length
  let x := e.2.pullTree p s.usNow n n
  let b := x.build (x.txq.take n) e.1
  let y : PortSt := { x with
    txCtr := x.txCtr + 1, retained := x.retained ++ [b], txq := x.txq.drop n, xTx := x.xTx + e.1.length, nakDue := false
    nakRun := x.nakRun + ofBool x.nakDue, keyBlocks := x.keyBlocks + 1 }
  let s1 := (((s.bump fRteErrAged g.2).modPort p (fun _ => y.unblock p)).putBlock p b.cws (s.commaLanes p)).bump (fLnkPortErrNaks p) (ofBool x.nakDue)
  if x.nakDue ∧ y.nakRun ≥ 8 ∧ !y.laneWaits then s1.portDown p stFailed lrReplay else s1

/-- A direction that has sent 2^37 blocks under one key stops: the port fails, to retrain (R444). -/
def State.keySpent (s : State) (p : Nat) : Bool := s.portState p == stSealed && decide ((s.portSt p).keyBlocks ≥ keyLimit)

/-- The port of a spent key fails. -/
def State.keyStop (s : State) (p : Nat) : State :=
  (s.portDown p stFailed lrLost).log { code := 0x0903, kind := 6, unit := p, detail := leBytes 1 p }

/-- BLOCK_SEND: at a block time the transmitter sends: retained blocks that a NAK asked for, or all of them, oldest first, once 256 wait,
until an ack frees space; else a new block (R258, R260, R261, R264). A direction whose key is spent sends nothing more (R444). `credits` are
those of tree inputs that came back since the last block (R305); of a tunnelled edge too, whose port sends nothing. -/
def execBlockSend (p : Port) (credits : List (BitVec 22 × Fin 17)) (s0 : State) : Host.Outcome State Fault Refusal :=
  .next (
    let s := credits.foldl (fun s c => s.creditIn p c) s0
    let x := s.portSt p
    if !s.portUp p then s
    else if s.keySpent p then s.keyStop p
    else if x.resend ≠ [] then s.resendBlock p x.resend
    else if x.retained.length ≥ 256 then (s.modPort p (fun _ => { x with winFull := true })).resendBlock p (x.retained.map (·.ctr))
    else if x.keyDue then s
    else s.newBlock p x)

/-- EXPRESS_FLIT: a codeword that carries an express flit arrives: its CRC and tag are checked on the raw bits, and where either fails on the
corrected codeword; a flit whose xseq is not newer than the last one's is discarded, any other is forwarded (R264–R266). What it carries
acts by the command of its own kind. `xRx` is the counter of the last one forwarded plus one. -/
def execExpressFlit (p : Port) (cw : BitVec 5440) (s : State) : Host.Outcome State Fault Refusal :=
  .next (
    if s.portState p ≠ stSealed then s
    else
      let x := s.portSt p
      let key := x.rxKeyAt x.rxCtr
      let ctrOf (b : List Byte) : Nat := nearCtr 16 x.xRx (field b 44 2)
      let good (c : Codeword) : Option (List Byte) :=
        let b := c.slots.headD []
        if c.ex && expressOk key (ctrOf b) b then some b else none
      match (match good (rawCodeword cw) with
        | some b => some b
        | none => (decodeCodeword cw).bind (fun d => good d.1)) with
      | none => s
      | some b =>
        if behind 16 x.xRx (field b 44 2) then s
        else s.modPort p (fun y => { y with xRx := ctrOf b + 1, delivered := [cipher key true (ctrOf b) 0 (b.take 44)] }))

end Sys2Proof.Machine
end

