-- ==== Sys2Proof/Machine/Attestation.lean ====
section
/-! DEFINITION. Attestation of links and link keys (R440–R445), the SECURE step. -/

namespace Sys2Proof.Machine

/-! ### What a side sends and keeps (R440, R441) -/

/-- Measurement 8 as the auxiliary stage takes it (R437). -/
def State.takeMeas8 (s : State) : List Byte :=
  leBytes 2 s.sec.running.svn ++ leBytes 2 s.flash.svnFloor ++ leBytes 2 s.flash.svnFused ++ leBytes 1 (ofBool s.flash.debug)
    ++ leBytes 1 (ofBool s.flash.zeroised) ++ leBytes 8 0

/-- One measurement (R437): 2–6 of the images that run. -/
def State.measure (s : State) (i : Nat) : List Byte :=
  match i with
  | 7 => (List.range 6).flatMap (fun j => leBytes 8 (s.fld (fCuveeDigestDigest j)))
  | 8 => s.sec.meas8
  | 9 => leBytes 8 (s.fld fSecOwnerKeyId)
  | 10 => leBytes 8 s.flash.win0.toNat ++ leBytes 8 s.flash.win1.toNat ++ leBytes 8 (ofBool s.flash.requireIde)
  | _ => if 2 ≤ i ∧ i ≤ 6 then s.sec.running.digests.getD (i - 2) (Config.measurement i s.sec.running.vintage) else Config.fixedMeasure i

/-- CDI1 (R435): of CDI0 and measurements 2–6 and 8, so that it stays through a start. -/
def State.cdi1 (s : State) : List Byte := hmac384 cdi0 ((List.range 5).flatMap (fun i => s.measure (i + 2)) ++ s.measure 8)

/-- The certificate chain of slot 0, and a signature by the Alias key (R435, R436). -/
def State.certChain (s : State) : List Byte := Config.certChain s.cdi1 (BitVec.ofNat 64 (s.fld fSecOwnerKeyId))
def State.aliasSign (s : State) (msg : List Byte) : List Byte := Config.aliasSign s.cdi1 msg

/-- Parameters of a half of 96 bytes: its number, and 48 bytes from byte 8 of the flit (R440). -/
def halfParams (half : Nat) (bytes : List Byte) : List Byte :=
  leBytes 2 half ++ List.replicate 4 0#8 ++ (bytes ++ List.replicate 48 0#8).take 48

/-- Parameters of a fragment of certificates: its offset, its length, its bytes (R440). -/
def certParams (off : Nat) (frag : List Byte) : List Byte := leBytes 2 off ++ leBytes 1 frag.length ++ List.replicate 3 0#8 ++ frag.take 56

/-- Parameters of FINISH (R440). -/
def finishParams (mac : List Byte) : List Byte := List.replicate 6 0#8 ++ (mac ++ List.replicate 48 0#8).take 48

/-- Send 96 bytes as two halves (R440). -/
def State.sendHalves (s : State) (p code : Nat) (b : List Byte) : State :=
  (s.sendAttest p code (halfParams 0 b)).sendAttest p code (halfParams 1 (b.drop 48))

/-- A flit of the peer joins its part of the transcript. -/
def State.noteTheirs (s : State) (p code : Nat) (params : List Byte) : State :=
  s.modAtt p (fun a => { a with theirs := a.theirs ++ [(ctlFlit code params).bytes] })

/-- After both HELLOs, this side's CERT leaves (R441). -/
def State.sendCert (s : State) (p : Nat) : State :=
  let b := s.certChain
  (List.range ((b.length + 55) / 56)).foldl (fun s i => s.sendAttest p 0x11 (certParams (56 * i) ((b.drop (56 * i)).take 56))) s

/-- A fresh private scalar, from the generator of R446 (log entry 12). -/
def State.takeScalar (s : State) : Nat × State :=
  let f := s.takeBytes 6
  (1 + fromLe f.1 % (p384n - 1), f.2)

/-- Has this module the lower node ID of the two? -/
def State.lowerNode (s : State) (p : Nat) : Bool := decide (s.node.toNat < s.fld (fLnkPortCableSeenNode p))

/-- The transcript: the attestation flits of both sides up to a code, those of the lower node ID first (R441). DESIGN CHOICE: PROOF and
the keys take HELLO, CERT and SHARE, FINISH takes PROOF too: no flit can cover itself (log entry 107). -/
def State.transcript (s : State) (p upTo : Nat) : List Byte :=
  let a := (s.portSt p).att
  let part (l : List (List Byte)) : List Byte := (l.filter (fun f => decide (field f 1 1 ≤ upTo))).flatten
  if s.lowerNode p then part a.mine ++ part a.theirs else part a.theirs ++ part a.mine

/-- The two halves that came, joined. -/
def joinHalves (l : List (Nat × List Byte)) : List Byte := (lookupKey l 0).getD [] ++ (lookupKey l 1).getD []

/-- The info string of the link keys, "G4 link" (R441). -/
def linkInfo : List Byte := [0x47#8, 0x34#8, 0x20#8, 0x6C#8, 0x69#8, 0x6E#8, 0x6B#8]

/-- A direction's key and salt in what HKDF yields: those of the lower node ID first (R441). -/
def keySlot (okm : List Byte) (lower : Bool) : List Byte := if lower then okm.take 36 else (okm.drop 36).take 36

/-- The first keys of a link, and the finish key (R441). -/
def State.firstKeys (s : State) (p : Nat) : State :=
  let a := (s.portSt p).att
  let okm := hkdf384 (sharedSecret a.secret (joinHalves a.shareIn)) (sha384 (s.transcript p 0x12)) linkInfo 120
  s.modPort p (fun x => { x with
    txNext := keySlot okm (s.lowerNode p), rxNext := keySlot okm (!s.lowerNode p)
    att := { x.att with finKey := (okm.drop 72).take 48 } })

/-- The keys of a rekey (R444): each direction's from its own old key. -/
def State.nextKeys (s : State) (p : Nat) : State :=
  let a := (s.portSt p).att
  let z := sharedSecret a.rekeySecret (joinHalves a.rekeyIn)
  s.modPort p (fun x => { x with
    txNext := keySlot (hkdf384 z (x.txKey.take 32) linkInfo 120) (s.lowerNode p)
    rxNext := keySlot (hkdf384 z (x.rxKey.take 32) linkInfo 120) (!s.lowerNode p) })

/-- A port in UP_PLAIN whose attestation is under way. -/
def State.attesting (s : State) (p : Nat) : Bool := s.portState p == stPlain && (s.portSt p).att.begun

/-! ### The messages in order (R441, R442) -/

/-- HELLO: node and port must equal those seen in IDENT (R441). One that comes before SECURE waits (R445); a refused port takes none until
it has retrained (R442). -/
def execHello (p : Port) (nonce : List Byte) (node : Node) (port : Port) (s : State) : Host.Outcome State Fault Refusal :=
  .next (
    if s.portState p ≠ stPlain ∨ (s.portSt p).att.helloIn ∨ (s.portSt p).att.refused then s
    else
      let s1 := (s.modAtt p (fun a => { a with helloIn := true, since := some (a.since.getD s.time) })).noteTheirs p 0x10
        (helloParams nonce node.toNat port)
      if node.toNat ≠ s.fld (fLnkPortCableSeenNode p) ∨ port.val ≠ s.fld (fLnkPortCableSeenPort p) then s1.sendRefuse p 5
      else if s1.attesting p then s1.sendCert p
      else if s1.stepDone 9 then
        let s2 := s1.beginAttest p
        if s2.attesting p then s2.sendCert p else s2
      else s1)

/-- Bytes of a DER object from its first byte on, none where its header has not come whole (R440, log entry 106). -/
def derLength (b : List Byte) : Option Nat :=
  if b.length < 2 then none
  else
    let n := field b 1 1
    if n < 0x80 then some (2 + n)
    else if b.length < 2 + n % 0x80 then none
    else some (2 + n % 0x80 + fromBe ((b.drop 2).take (n % 0x80)))

/-- Have both certificates come whole (R440)? -/
def certWhole (b : List Byte) : Bool :=
  match derLength b with
  | some n => (derLength (b.drop n)).any (fun m => decide (n + m ≤ b.length))
  | none => false

/-- The checks on a peer's certificates in the order of R441: the reason of the first that fails (R442), 0 for none. Measurement 8 has
the security version in its first two bytes, the debug state in byte 6 and the zeroised state in byte 7 (R437). -/
def State.certReason (s : State) (b : List Byte) : Nat :=
  let m := Config.certMeasure8 b
  if !Config.certChainOk Config.deviceCaKeyHash b then 1
  else if field m 6 1 ≠ 0 ∨ field m 7 1 ≠ 0 then 2
  else if field m 0 2 < s.flash.svnFloor then 3
  else if (Config.certOwner b).toNat ≠ s.fld fSecOwnerKeyId then 4
  else 0

/-- CERT: with the last fragment the chain is checked, and SHARE leaves (R441, R442). -/
def execCert (p : Port) (off : BitVec 16) (frag : List Byte) (s : State) : Host.Outcome State Fault Refusal :=
  .next (
    if !s.attesting p ∨ !(s.portSt p).att.helloIn ∨ (s.portSt p).att.certOk then s
    else
      let o := off.toNat
      let c := (s.portSt p).att.peerCert
      let b := c.take o ++ List.replicate (o - c.length) 0#8 ++ frag.take 56 ++ c.drop (o + (frag.take 56).length)
      let s1 := (s.modAtt p (fun a => { a with peerCert := b })).noteTheirs p 0x11 (certParams o frag)
      if !certWhole b then s1
      else if s.certReason b ≠ 0 then s1.sendRefuse p (s.certReason b)
      else
        let f := (s1.modAtt p (fun a => { a with certOk := true })).takeScalar
        (f.2.modAtt p (fun a => { a with secret := f.1 })).sendHalves p 0x12 (publicKey f.1))

/-- SHARE: half of the peer's public key; with both, PROOF leaves: a signature over the transcript (R441). -/
def execShare (p : Port) (half : Fin 2) (bytes : List Byte) (s : State) : Host.Outcome State Fault Refusal :=
  .next (
    let a := (s.portSt p).att
    if !s.attesting p ∨ !a.certOk ∨ a.shares = 3 then s
    else
      let n := a.shares ||| 2 ^ half.val
      let s1 := (s.modAtt p (fun a => { a with shares := n, shareIn := insertKey a.shareIn half bytes })).noteTheirs p 0x12
        (halfParams half bytes)
      if n ≠ 3 then s1
      else
        let s2 := s1.firstKeys p
        s2.sendHalves p 0x13 (s2.aliasSign (s2.transcript p 0x12)))

/-- PROOF: half of the peer's signature; with both it must verify under its Alias key, and FINISH leaves (R441, R442). -/
def execProof (p : Port) (half : Fin 2) (bytes : List Byte) (s : State) : Host.Outcome State Fault Refusal :=
  .next (
    let a := (s.portSt p).att
    if !s.attesting p ∨ a.shares ≠ 3 ∨ a.proofs = 3 then s
    else
      let n := a.proofs ||| 2 ^ half.val
      let s1 := (s.modAtt p (fun a => { a with proofs := n, proofIn := insertKey a.proofIn half bytes })).noteTheirs p 0x13
        (halfParams half bytes)
      if n ≠ 3 then s1
      else if !ecdsaOk (Config.certAliasKey a.peerCert) (s1.transcript p 0x12) (joinHalves (s1.portSt p).att.proofIn) then s1.sendRefuse p 6
      else (s1.modAtt p (fun a => { a with finishOut := true })).sendAttest p 0x14 (finishParams (hmac384 a.finKey (s1.transcript p 0x13))))

/-- Name the block from which this side's direction takes its new key (R443, R444). -/
def State.sendKeySwitch (s : State) (p : Nat) (rekey : Bool) : State :=
  let n := s.nameBlock p
  (s.modAtt p (fun a => { a with txNamed := some n, acked := false })).sendCtl p 0x18 (leBytes 2 (n % 2 ^ 14) ++ leBytes 1 (ofBool rekey))

/-- FINISH: the peer's must be the HMAC of the transcript; then KEY_SWITCH leaves (R441–R443). -/
def execFinish (p : Port) (mac : List Byte) (s : State) : Host.Outcome State Fault Refusal :=
  .next (
    let a := (s.portSt p).att
    if !s.attesting p ∨ !a.finishOut ∨ a.finishIn then s
    else if mac ≠ hmac384 a.finKey (s.transcript p 0x13) then s.sendRefuse p 6
    else (s.modAtt p (fun a => { a with finishIn := true })).sendKeySwitch p false)

/-- REFUSE: the peer refuses; the port stays UP_PLAIN (R442). -/
def execRefuse (p : Port) (reason : Fin 8) (s : State) : Host.Outcome State Fault Refusal :=
  .next (if s.portState p = stPlain then s.refusePort p reason else s)

/-- ATTEST_TIMEOUT: the attestation has not ended 1 s after the first HELLO (R442). DEDUCED: a port whose peer has sent none waits on, as
R445 says of peers that are not at SECURE yet (log entry 118). -/
def execAttestTimeout (p : Port) (s : State) : Host.Outcome State Fault Refusal :=
  .next (if s.attesting p ∧ (s.portSt p).att.helloIn then s.sendRefuse p 7 else s)

/-- Does a port await a KEY_SWITCH of its peer: for the first keys once both FINISH flits have checked, in service once a rekey has
agreed the next ones (R443, R444)? -/
def State.awaitsSwitch (s : State) (p : Nat) (rekey : Bool) : Bool :=
  let a := (s.portSt p).att
  if rekey then s.portState p == stSealed && !(s.portSt p).rxNext.isEmpty else s.attesting p && a.finishOut && a.finishIn

/-- KEY_SWITCH: the peer names its block (R443, R444); one that nothing has led to is ignored. -/
def execKeySwitch (p : Port) (seq : BitVec 14) (rekey : Bool) (s : State) : Host.Outcome State Fault Refusal :=
  .next (if !s.awaitsSwitch p rekey then s
    else (s.modAtt p (fun a => { a with rxNamed := some (s.peerBlock p seq) })).sendCtl p 0x19 (leBytes 2 seq.toNat ++ leBytes 1 (ofBool rekey)))

/-- KEY_SWITCH_ACK: the peer confirms ours (R440). -/
def execKeySwitchAck (p : Port) (seq : BitVec 14) (_rekey : Bool) (s : State) : Host.Outcome State Fault Refusal :=
  .next (if (s.portSt p).att.txNamed.map (· % 2 ^ 14) = some seq.toNat then s.modAtt p (fun a => { a with acked := true }) else s)

/-- Has a direction reached the block named for its next key (R443)? -/
def PortSt.keyReached (x : PortSt) (tx : Bool) : Bool :=
  if tx then x.att.txNamed.any (· ≤ x.txCtr) else x.att.rxNamed.any (· ≤ x.rxCtr)

/-- A direction takes its next key from the block named (R443, R444). -/
def PortSt.switchKey (x : PortSt) (tx : Bool) : PortSt :=
  if tx then { x with txKey := x.txNext, txNext := [], keyBlocks := 0, att := { x.att with txNamed := none, txSealed := true } }
  else { x with rxOld := x.rxKey, rxKey := x.rxNext, rxNext := [], rxFrom := x.att.rxNamed.getD 0
                att := { x.att with rxNamed := none, rxSealed := true } }

/-- KEY_SWITCH_BLOCK: the named block is reached: that direction is sealed under its new key; with both sealed the port is UP_SEALED and,
on a joined module, admitted to routing (R331, R443, R444). -/
def execKeySwitchBlock (p : Port) (tx : Bool) (s : State) : Host.Outcome State Fault Refusal :=
  .next (
    if !s.portUp p ∨ !(s.portSt p).keyReached tx then s
    else
      let s1 := s.modPort p (fun x => x.switchKey tx)
      let b := (s1.portSt p).att
      let s2 := if b.txNamed = none ∧ b.rxNamed = none then s1.modAtt p (fun a => { a with rekey := false, rekeyShares := 0, rekeyIn := [] }) else s1
      if s2.portState p = stPlain ∧ b.txSealed ∧ b.rxSealed then
        (((s2.modAtt p (fun a => { a with begun := false })).setSecPort p 1).setPortState p stSealed lrNone).admitPort p
      else s2)

/-! ### Rekeys (R444) -/

/-- A fresh share for a rekey leaves (R444). -/
def State.sendRekey (s : State) (p : Nat) : State :=
  let f := s.takeScalar
  let s1 := f.2.modAtt p (fun a => { a with rekey := true, rekeySecret := f.1 })
  (s1.sendCtl p 0x1A (halfParams 0 (publicKey f.1))).sendCtl p 0x1A (halfParams 1 ((publicKey f.1).drop 48))

/-- REKEY: a fresh share of the peer; with both halves the higher node answers with its own, and each side sends KEY_SWITCH
(R444). -/
def execRekey (p : Port) (half : Fin 2) (bytes : List Byte) (s : State) : Host.Outcome State Fault Refusal :=
  .next (
    if s.portState p ≠ stSealed then s
    else if s.keySpent p then s.keyStop p
    else
      let a := (s.portSt p).att
      let n := a.rekeyShares ||| 2 ^ half.val
      if a.rekeyShares = 3 ∨ (s.lowerNode p ∧ !a.rekey) then s
      else
        let s1 := s.modAtt p (fun a => { a with rekeyShares := n, rekeyIn := insertKey a.rekeyIn half bytes })
        if n ≠ 3 then s1
        else ((if s.lowerNode p then s1 else s1.sendRekey p).nextKeys p).sendKeySwitch p true)

/-- REKEY_DUE: a direction has reached 2^36 blocks or flits, or 24 h, under one key: the lower node starts a rekey (R444). -/
def execRekeyDue (p : Port) (s : State) : Host.Outcome State Fault Refusal :=
  .next (
    if s.portState p ≠ stSealed then s
    else if s.keySpent p then s.keyStop p
    else if s.lowerNode p ∧ !(s.portSt p).att.rekey then
      (s.modAtt p (fun a => { a with rekeyShares := 0, rekeyIn := [] })).sendRekey p
    else s)

/-- REKEY_RETRY: a rekey that has not completed in 1 s is tried again, unless the answer is in; a spent key fails the port (R444).
DESIGN CHOICE: with the share sent before, so that an answer on its way still fits (log entry 107). -/
def execRekeyRetry (p : Port) (s : State) : Host.Outcome State Fault Refusal :=
  .next (
    let a := (s.portSt p).att
    if s.portState p ≠ stSealed then s
    else if s.keySpent p then s.keyStop p
    else if s.lowerNode p ∧ a.rekey ∧ a.rekeyShares ≠ 3 then
      (s.sendCtl p 0x1A (halfParams 0 (publicKey a.rekeySecret))).sendCtl p 0x1A (halfParams 1 ((publicKey a.rekeySecret).drop 48))
    else s)

/-! ### SECURE (R445) -/

/-- What SECURE starts on a port: its attestation, and the answer to a HELLO that came before. -/
def State.securePort (s : State) (p : Nat) : State :=
  let s1 := s.beginAttest p
  if s1.attesting p ∧ (s1.portSt p).att.helloIn then s1.sendCert p else s1

/-- SECURE: step 9: every port that is UP_PLAIN attests (R445). -/
def execSecure (rngOk keyOk : Bool) (s : State) : Host.Outcome State Fault Refusal :=
  .next (s.startStep 9 { HostObs.plain with rngOk := rngOk, keyOk := keyOk } (fun s =>
    let s1 := s.setFld fSecStateRngOk (ofBool rngOk)
    if !rngOk ∨ !keyOk then (s1, brSecure) else ((List.range 32).foldl State.securePort s1, brDone)))

end Sys2Proof.Machine
end

