-- ==== Sys2Proof/Machine/FabricTime.lean ====
section
/-! DEFINITION. Fabric time (R328–R330) and the JOIN step (R331). -/

namespace Sys2Proof.Machine

/-! ### Sources of time (R328) -/

/-- Is this module the hall root: has no node that joined a lower ID? -/
def State.isRoot (s : State) (joined : List Node) : Bool := joined.all (fun n => decide (s.node.toNat ≤ n.toNat))

/-- Is it the master of its rack: has no module of the rack that joined a lower position? -/
def State.isMaster (s : State) (joined : List Node) : Bool :=
  joined.all (fun n => rackOf n != rackOf s.node || decide (posOf s.node ≤ posOf n))

/-- The upstream: of the neighbours over sealed ports, for a module that is no master over local ones, that with the least distance to
the hall root, or to the rack master, and of those the lowest node ID. -/
def State.pickUpstream (s : State) (master : Bool) (peers : List TimePeer) : Option TimePeer :=
  let dist (q : TimePeer) : Nat := if master then q.hall.toNat else q.rack.toNat
  (peers.filter (fun (q : TimePeer) => s.portState q.port == stSealed && (master || decide (q.port.val < 28)))).foldl
    (fun (best : Option TimePeer) (q : TimePeer) => match best with
      | none => some q
      | some b => if dist q < dist b ∨ (dist q = dist b ∧ q.node.toNat < b.node.toNat) then some q else some b) none

/-- What is left to slew of an upstream that is lost or left, and the question to it, are dropped: time runs on from the oscillator (R330). -/
def State.holdTime (s : State) : State := { s with rte := { s.rte with slew := 0, asked := none } }

/-- Show a module as hall root: it goes on from its own time, and as the lowest node it is its rack's master too (R328). -/
def State.asRoot (s : State) : State :=
  s.holdTime.setFlds [(fRteStateTimeRoot, s.node.toNat), (fRteStateDistance, 0), (fRteStateUpValid, 0), (fRteStateTimeLocked, 1),
    (fRteStateMaster, 1)]

/-- Choose the source of time afresh; without an upstream, a module that is not root holds its time unlocked (R328, R330). -/
def State.chooseTime (s : State) (joined : List Node) (peers : List TimePeer) : State :=
  let m := s.isMaster joined
  let s1 := s.holdTime.setFld fRteStateMaster (ofBool m)
  if s.isRoot joined then s1.asRoot
  else match s.pickUpstream m peers with
    | some q => s1.setFlds [(fRteStateTimeRoot, (joined.map BitVec.toNat).foldl min s.node.toNat),
        (fRteStateDistance, min 255 (q.hall.toNat + 1)), (fRteStateUpValid, 1), (fRteStateUpstream, q.port), (fRteStateTimeLocked, 1)]
    | none => s1.setFlds [(fRteStateUpValid, 0), (fRteStateTimeLocked, 0)]

/-- JOIN: step 10: the sealed ports are admitted, the gateway map is built, fabric time is stepped to the upstream's and locked (R328,
R329, R331). -/
def execJoin (obs : JoinObs) (s : State) : Host.Outcome State Fault Refusal :=
  .next (s.startStep 10 { HostObs.plain with join := obs } (fun s =>
    let s1 := (obs.gateways.take 7).zipIdx.foldl (fun s g => s.setReg (rRteGw g.2) g.1)
      (s.setFld fRtePortsRouted ((s.sealedPorts.map (2 ^ ·)).foldl (· + ·) 0))
    let s2 := (s1.setGateways (posOf s.node) s1.ownWorks).chooseTime obs.joined obs.peers
    let s3 : State := if s.isRoot obs.joined then s2
      else match s.pickUpstream (s.isMaster obs.joined) obs.peers with
        | some q => { s2 with rte := { s2.rte with offset := (q.time.toNat : Int) - (s.time : Int) } }
        | none => s2
    (s3.floodOwn, brDone)))

/-! ### Keeping time (R329, R330) -/

/-- The most that time slews in 100 µs at 50 ppm, in ns (R329). -/
def slewStep : Int := 5

/-- TIME_SYNC_TICK: every 100 µs: what is left to slew is taken by at most 50 ppm, and TIME_REQ leaves upstream (R329). While the upstream's port is
down, time is held from the oscillator (R330). -/
def execTimeSyncTick (s : State) : Host.Outcome State Fault Refusal :=
  .next (
    let p := s.fld fRteStateUpstream
    if !s.bit fRteStateJoined then s
    else if !s.bit fRteStateUpValid ∨ !s.portUp p then s.holdTime
    else
      let d := max (-slewStep) (min slewStep s.rte.slew)
      let s1 : State := { s with rte := { s.rte with offset := s.rte.offset + d, slew := s.rte.slew - d } }
      ({ s1 with rte := { s1.rte with asked := some s1.fabTime } }).sendCtl p 0x20 (leBytes 8 s1.fabTime))

/-- TIME_REQ: answered with TIME_RSP: its arrival, the answer's sending, the distance and the root (R329). -/
def execTimeReq (p : Port) (_t1 : Word) (s : State) : Host.Outcome State Fault Refusal :=
  .next (if !s.portUp p then s
    else s.sendCtl p 0x21 (leBytes 8 s.fabTime ++ leBytes 8 s.fabTime ++ leBytes 2 (s.fld fRteStateDistance)
      ++ leBytes 2 (s.fld fRteStateTimeRoot)))

/-- TIME_RSP from upstream: the offset to slew out, the distance and the root; a module below that root is the root itself (R328,
R329). -/
def execTimeRsp (p : Port) (t2 t3 : Word) (distance : BitVec 16) (root : Node) (s : State) : Host.Outcome State Fault Refusal :=
  .next (
    if !s.bit fRteStateUpValid ∨ s.fld fRteStateUpstream ≠ p.val then s
    else match s.rte.asked with
      | none => s
      | some t1 =>
        if s.node.toNat ≤ root.toNat then s.asRoot
        else
          let n (w : Word) : Int := (w.toNat : Int)
          let off := ((n t2 - (t1 : Int)) - ((s.fabTime : Int) - n t3)) / 2
          ({ s with rte := { s.rte with slew := off, asked := none } }).setFlds
            [(fRteStateDistance, min 255 (distance.toNat + 1)), (fRteStateTimeRoot, root.toNat)])

/-- UPSTREAM_TIMEOUT: the upstream is lost: another within 5 ms, or time is held and time_locked clears (R330). The operands are the nodes
that have joined and the neighbours heard now. -/
def execUpstreamTimeout (joined : List Node) (peers : List TimePeer) (s : State) : Host.Outcome State Fault Refusal :=
  .next (if !s.bit fRteStateJoined then s else s.chooseTime joined peers)

end Sys2Proof.Machine
end

