-- ==== Sys2Proof/Machine/Power.lean ====
section
/-! DEFINITION. Power (R335–R358, R368–R371): feeds and input stages, rails, droop, sustainable frequency, the frequency pact, orders of
the host, and the bring-up steps POWER, CLOCKS and OPEN (R418, R421, R425). -/

namespace Sys2Proof.Machine

/-! ### Feeds and input stages (R335–R344) -/

/-- Fields of a feed. -/
def feedStateF : Feed → Fld
  | .A => fPwrFeedAState
  | .B => fPwrFeedBState
def feedMateF : Feed → Fld
  | .A => fPwrFeedAMate
  | .B => fPwrFeedBMate
def feedVoltsF : Feed → Fld
  | .A => fPwrFeedAVolts
  | .B => fPwrFeedBVolts
def feedAmpsF : Feed → Fld
  | .A => fPwrFeedAAmps
  | .B => fPwrFeedBAmps

/-- The number of a feed, and the other feed. -/
def feedNum : Feed → Nat
  | .A => 0
  | .B => 1
def feedOther : Feed → Feed
  | .A => .B
  | .B => .A

/-- Stage states of R337. -/
def fsOff : Nat := 0
def fsPrecharge : Nat := 1
def fsCold : Nat := 2
def fsActive : Nat := 3
def fsFault : Nat := 4

/-- Since when a feed is valid; none while it is not. -/
def State.feedValidAt (s : State) : Feed → Option Nat
  | .A => s.pwr.validA
  | .B => s.pwr.validB

/-- Change it. -/
def State.setFeedValid (s : State) (f : Feed) (t : Option Nat) : State := match f with
  | .A => { s with pwr := { s.pwr with validA := t } }
  | .B => { s with pwr := { s.pwr with validB := t } }

/-- A feed has left its range, or its mate, since its stage faulted (R337). -/
def State.setGone (s : State) (f : Feed) (g : Bool) : State := match f with
  | .A => { s with pwr := { s.pwr with goneA := g } }
  | .B => { s with pwr := { s.pwr with goneB := g } }
def State.gone (s : State) : Feed → Bool
  | .A => s.pwr.goneA
  | .B => s.pwr.goneB

/-- Has POWER completed and the power state left OFF? -/
def State.railsUp (s : State) : Bool := s.stepDone 2

/-- Do the stages carry rails: since POWER, or while it runs and has not failed (R337)? -/
def State.drawing (s : State) : Bool :=
  s.railsUp || (s.bit fBringStateBusy && s.fld fBringStateStep == 2 && s.img.stepRes == brDone)

/-- FEED_EVENT (R377). -/
def State.feedEvent (s : State) (f : Feed) : State := s.log { code := 0x0601, kind := 10, unit := feedNum f }

/-- Every die's clock is stretched once (R339). -/
def State.stretchAll (s : State) : State := (List.range 4).foldl (fun s d => s.bump (fPwrDieStretches d) 1) s

/-- The load goes over to a stage in standby mode (R339, R340). -/
def State.switchTo (s : State) (f : Feed) : State :=
  ((s.setFlds [(feedStateF f, fsActive), (fPwrFeedPrimary, feedNum f)]).bump fPwrFeedSwitches 1).stretchAll

/-- The last-gasp record (R381): an error record, the last values of PWR registers, the two records before it. -/
def State.lastGasp (s : State) : List Byte :=
  let e : ErrArg := { code := 0x0606, cls := 3, action := 8 }
  let word (o : Nat) : List Byte := leBytes 8 (s.reg o).toNat
  let two := s.err.lastTwo.flatMap (fun r => r.bytes false)
  (s.mkRec e).bytes false ++ word rPwrFeed ++ word rPwrInput ++ (List.range 4).flatMap (fun d => word (rPwrDie d)) ++ word (rPwrRail 0)
  ++ word (rPwrRail 8) ++ (two ++ List.replicate 128 0#8).take 128

/-- The last-gasp record goes to flash and, until it is acknowledged, to the management path (R342, R380). -/
def State.sendLastGasp (s : State) : State :=
  let b := s.lastGasp
  ({ s with flash := ({ s.flash with lastGasp := some (b, false) } : Flash).wrote 4 [1] }).mgmtQueue ⟨4, b, true, false, none⟩

/-- No stage can carry the load (R342): the last gasp, OFF with reason FEEDS, a warm reset that removes every rail but VAUX. -/
def State.powerLoss (s : State) : State :=
  let s1 := s.sendLastGasp
  ({ s1 with pwr := { s1.pwr with holdFeeds := true } }).fatalModule { code := 0x0606 } caFatal

/-- A stage that carried the load, or was to, can no more: the other takes over where its feed is valid (R339–R341); else power is lost
(R342). While the stage that was to carry it still precharges, the other becomes primary, and ACTIVE where its own precharge is done
(R337: a stage is COLD only while it is not primary). -/
def State.takeOver (s : State) (f : Feed) (was : Nat) : State :=
  let g := feedOther f
  if (s.feedValidAt g).isNone then s.powerLoss
  else if s.bit fPwrFeedMode then
    (if s.fld fPwrFeedPrimary ≠ feedNum f then s
     else if was = fsActive then s.switchTo g
     else s.setFlds ([(fPwrFeedPrimary, feedNum g)] ++ if s.fld (feedStateF g) = fsCold then [(feedStateF g, fsActive)] else []))
  else if was = fsActive then s.setFld (feedStateF g) fsActive else s

/-- A feed becomes invalid (R336, R339–R343); `fault` when its stage faults. -/
def State.feedInvalid (s : State) (f : Feed) (fault : Bool) : State :=
  let was := (s.feedValidAt f).isSome
  let st := s.fld (feedStateF f)
  let s1 := (s.setFeedValid f none).setFlds [(feedStateF f, if fault ∨ st = fsFault then fsFault else fsOff), (feedAmpsF f, 0)]
  let s2 : State := { s1 with pwr := { s1.pwr with charged := s1.pwr.charged.filter (· != feedNum f) } }
  if !was then s2 else if s.drawing then (s2.feedEvent f).takeOver f st else s2.feedEvent f

/-- The early-break contact of a feed, as a level at the pin, and what PWR.FEED shows of it while there is power to look (R336, R508). -/
def State.mated (s : State) : Feed → Bool
  | .A => s.pins.mateA
  | .B => s.pins.mateB
def State.setMate (s : State) (f : Feed) (m : Bool) : State :=
  let s1 : State := match f with
    | .A => { s with pins := { s.pins with mateA := m } }
    | .B => { s with pins := { s.pins with mateB := m } }
  if s.pins.vaux then s1.setFld (feedMateF f) (ofBool m) else s1

/-- A feed's volts, in 0.1 V, as last measured. -/
def State.setVolts (s : State) (f : Feed) (v : Nat) : State :=
  let s1 : State := match f with
    | .A => { s with pins := { s.pins with voltsA := v } }
    | .B => { s with pins := { s.pins with voltsB := v } }
  s1.setFld (feedVoltsF f) v

/-- EARLY_BREAK_DEASSERT (R336, R343); without VAUX no one looks (R508). -/
def execEarlyBreakDeassert (f : Feed) (s : State) : Host.Outcome State Fault Refusal :=
  .next (if s.pins.vaux then ((s.setMate f false).setGone f true).feedInvalid f false else s.setMate f false)

/-- EARLY_BREAK_ASSERT: the connector is mated (R336). -/
def execEarlyBreakAssert (f : Feed) (s : State) : Host.Outcome State Fault Refusal := .next (s.setMate f true)

/-- FEED_VOLTAGE_FAULT: the voltage, in 0.1 V, has stayed below 38.5 V or above 61.5 V for 2 µs (R336); without VAUX no one looks (R508). -/
def execFeedVoltageFault (f : Feed) (tenths : BitVec 10) (s : State) : Host.Outcome State Fault Refusal :=
  .next (if !s.pins.vaux then s else
    let s1 := s.setVolts f tenths.toNat
    if tenths.toNat < 385 ∨ tenths.toNat > 615 then (s1.setGone f true).feedInvalid f false else s1)

/-- FEED_VALID: 10 ms within 40–60 V and mated (R336): the feed is valid, its hold of OFF ends, and from POWER on its stage
precharges (R337). A faulted stage leaves FAULT only where the feed had left its range. Without VAUX no one looks (R508). -/
def execFeedValid (f : Feed) (tenths : BitVec 10) (s : State) : Host.Outcome State Fault Refusal :=
  .next (if !s.pins.vaux then s else
    let s1 := s.setVolts f tenths.toNat
    let st := s.fld (feedStateF f)
    if tenths.toNat < 400 ∨ tenths.toNat > 600 ∨ !s.mated f ∨ (s.feedValidAt f).isSome ∨ (st = fsFault ∧ !s.gone f) then s1
    else
      let s2 := (s1.setFeedValid f (some s.time)).setFld (feedStateF f) (if s.drawing then fsPrecharge else fsOff)
      ({ s2 with pwr := { s2.pwr with holdFeeds := false } }).pwrShow)

/-- STAGE_FAULT: more than 110 A for 10 µs, or a failed converter (R337). -/
def execStageFault (f : Feed) (s : State) : Host.Outcome State Fault Refusal :=
  .next (
    let st := s.fld (feedStateF f)
    if st = fsOff ∨ st = fsFault then s else (s.setGone f false).feedInvalid f true)

/-- PRECHARGE_DONE: the stage goes COLD beside an ACTIVE one in standby mode, ACTIVE where none carries the load; in share mode a
returning stage waits for SHARE_RETURN (R337, R341). -/
def execPrechargeDone (f : Feed) (s : State) : Host.Outcome State Fault Refusal :=
  .next (
    let other := s.fld (feedStateF (feedOther f))
    if s.fld (feedStateF f) ≠ fsPrecharge then s
    else if s.bit fPwrFeedMode then
      (if s.fld fPwrFeedPrimary = feedNum f ∧ other ≠ fsActive then s.setFld (feedStateF f) fsActive else s.setFld (feedStateF f) fsCold)
    else if !s.railsUp then s.setFld (feedStateF f) fsActive
    else { s with pwr := { s.pwr with charged := s.pwr.charged.filter (· != feedNum f) ++ [feedNum f] } })

/-- REVERT_TIMER: feed A valid for 500 ms takes the load back in standby mode (R340). -/
def execRevertTimer (s : State) : Host.Outcome State Fault Refusal :=
  .next (
    if s.railsUp ∧ s.bit fPwrFeedMode ∧ s.bit fPwrFeedPrimary ∧ s.fld fPwrFeedAState = fsCold ∧ s.pwr.validA.isSome then
      ((s.switchTo .A).setFld fPwrFeedBState (if s.pwr.validB.isSome then fsCold else s.fld fPwrFeedBState)).feedEvent .A
    else s)

/-- SHARE_RETURN: in share mode a stage whose feed has been valid for 500 ms, and whose precharge has completed, carries load again
(R341). -/
def execShareReturn (f : Feed) (s : State) : Host.Outcome State Fault Refusal :=
  .next (if s.railsUp ∧ !s.bit fPwrFeedMode ∧ s.fld (feedStateF f) = fsPrecharge ∧ (s.feedValidAt f).isSome ∧ s.pwr.charged.contains (feedNum f) then
    ({ s with pwr := { s.pwr with charged := s.pwr.charged.filter (· != feedNum f) } }).setFld (feedStateF f) fsActive else s)

/-- POWER_LOSS: the intermediate bus falls below 5.0 V (R342). -/
def execPowerLoss (s : State) : Host.Outcome State Fault Refusal := .next (if s.drawing then s.powerLoss else s)

/-! ### POWER, CLOCKS, OPEN (R421, R418, R425) -/

/-- Nominal voltage of a rail in mV (R345); VCORE follows its die. -/
def railMv (r : Nat) : Nat := if r < 10 then 750 else if r = 10 then 1050 else if r = 11 then 1200 else 3300

/-- Frequency at which CLOCKS starts the core clocks (R418). -/
def State.startFreq (s : State) : Nat := match s.img.cfg with
  | some c => min 1600 c.maxFreq
  | none => 1600

/-- What POWER does (R337, R421): a stage leaves FAULT, and its feed is valid again where it never left its range; the stages of valid feeds
precharge, the rails come up. -/
def State.powerStep (s : State) (railFault : Option (Fin 13)) : State × Nat :=
  if !s.offSources.isEmpty then (s, brHeldOff)
  else
    let unfault (f : Feed) (s : State) : State :=
      if s.fld (feedStateF f) = fsFault then
        (let s1 := s.setFld (feedStateF f) fsOff
         if !s.gone f ∧ s.mated f then s1.setFeedValid f (some s.time) else s1)
      else s
    let s0 := unfault .B (unfault .A s)
    if s0.pwr.validA.isNone ∧ s0.pwr.validB.isNone then (s0, brNoFeed)
    else
      let mode := match s.img.cfg with
        | some c => c.feedMode
        | none => 0
      let up (v : Option Nat) (f : Fld) : List (Fld × Nat) := if v.isSome then [(f, fsPrecharge)] else []
      match railFault with
      | some r => (s0.setFld (fPwrRailFault r) 1, brRail)
      | none =>
        let s1 := s0.setFlds ([(fPwrFeedMode, mode), (fPwrFeedPrimary, ofBool (mode == 1 && s0.pwr.validA.isNone))]
          ++ up s0.pwr.validA fPwrFeedAState ++ up s0.pwr.validB fPwrFeedBState)
        let s2 := (List.range 4).foldl (fun s d => s.setFld (fPwrDieVcore d) (vcoreOf d s.startFreq)) s1
        ((List.range 13).foldl (fun s r => s.setFlds [(fPwrRailPhasesOk r, s.fld (fPwrRailPhases r)), (fPwrRailFault r, 0),
          (fPwrRailMv r, if r < 4 then vcoreOf r s.startFreq else railMv r)]) s2, brDone)

/-- POWER: step 2. A rail that fails to come up ends the step with RAIL. -/
def execPower (railFault : Option (Fin 13)) (s : State) : Host.Outcome State Fault Refusal :=
  .next (s.startStep 2 { HostObs.plain with rail := railFault } (fun s => s.powerStep railFault))

/-- CLOCKS: step 3 (R418). -/
def execClocks (locked : Bool) (s : State) : Host.Outcome State Fault Refusal :=
  .next (s.startStep 3 { HostObs.plain with locked := locked } (fun s =>
    let f := s.startFreq
    if locked then ((List.range 4).foldl (fun s d => s.setJob d f) s, brDone) else (s, brClock)))

/-- What OPEN does (R425): partitions open with the composition and budget of the image; with its result the mode becomes SERVICE, see
`State.opened`. -/
def State.openUp (s : State) : State := match s.img.cfg with
  | none => s
  | some c =>
    c.parts.zipIdx.foldl (fun s p => (s.setFlds [(fCtxPartComposition p.2, p.1.composition), (fPwrPartBudget p.2, p.1.budget)]).setFlds
      (if s.fld (fCtxPartState p.2) = pClosed then [(fCtxPartState p.2, pOpen)] else [])) s

/-- OPEN: step 11 (R425). -/
def execOpenStep (s : State) : Host.Outcome State Fault Refusal := .next (s.startStep 11 HostObs.plain (fun s => (s.openUp, brDone)))

/-! ### Rails (R345–R347) -/

/-- Limit of a rail with every phase it needs, in A, its spare phases, and what each further lost phase takes off (R345). -/
def railFull (r : Nat) : Nat × Nat × Nat :=
  if r < 4 then (1000, 4, 50) else if r < 8 then (120, 1, 40) else if r < 10 then (250, 1, 50) else if r = 10 then (400, 2, 50)
  else if r = 11 then (200, 1, 50) else (3, 1, 0)

/-- PHASE_LOSS (R345). -/
def execPhaseLoss (r : Fin 13) (s : State) : Host.Outcome State Fault Refusal :=
  .next (
    let ok := s.fld (fPwrRailPhasesOk r)
    if ok = 0 then s
    else
      let lost := s.fld (fPwrRailPhases r) - (ok - 1)
      let l := railFull r
      (s.setFlds [(fPwrRailPhasesOk r, ok - 1), (fPwrRailLimit r, l.1 - (lost - l.2.1) * l.2.2)]).log
        { code := 0x0602, kind := 9, unit := r })

/-- A rail fault (R347). -/
def State.railFault (s : State) (r : Nat) : State :=
  (s.setFld (fPwrRailFault r) 1).fatalModule { code := 0x0603, kind := 9, unit := r } caFatal

/-- RAIL_FAULT: a rail that is up stays more than 8% off its setpoint for 10 µs. The core rail of a die with a cluster in a droop stretch
is excepted (R347). -/
def execRailFault (r : Fin 13) (s : State) : Host.Outcome State Fault Refusal :=
  .next (
    let droop := decide (r.val < 4) && s.pwr.droops.any (fun n => n / 8 == r.val)
    if (s.drawing ∨ r.val = 12) ∧ !droop then s.railFault r else s)

/-- Set the responses of a rail that are in force (R346). -/
def State.setRail (s : State) (r lv : Nat) : State := { s with pwr := { s.pwr with rails := insertKey s.pwr.rails r lv } }

/-- An optical engine is switched off until the next bring-up (R346). -/
def State.engineOff (s : State) (e : Nat) : State :=
  let s1 := [2 * e, 2 * e + 1].foldl (fun s p =>
    if s.portState p = stDark then s else s.portDown p stFailed lrLost) s
  { s1 with lnk := { s1.lnk with off := if s1.lnk.off.contains e then s1.lnk.off else s1.lnk.off ++ [e] } }

/-- The optical engines that draw more than 20 A, of those that are on (R346). -/
def State.hungry (s : State) (o : RailObs) : List Nat :=
  (List.range 16).filter (fun e => decide (o.engines.getD e 0 > 20) && !s.lnk.off.contains e)

/-- Responses of a rail start (R346), by the bits of `Pwr.rails`: what each does beyond its metering shows in the die's counts. -/
def State.railRespond (s : State) (o : RailObs) (new : Nat) : State :=
  let r := o.rail.val
  let d := r % 4
  if r = 12 then (if new % 2 = 1 ∨ bitOf new 2 then s.railFault 12 else s)
  else if r = 11 then (if new % 2 = 1 ∨ bitOf new 2 then (s.hungry o).foldl State.engineOff s else s)
  else if r < 8 then
    ((s.bump (fPwrDieStretches d) (ofBool (bitOf new 0) + ofBool (bitOf new 2))).bump (fPwrDieThrottles d) (ofBool (bitOf new 1)))
  else s

/-- RAIL_SAMPLE: every 50 ns the averages are held against the limit in force; a response lasts until the average has stayed below
90% for 10 µs (R346). -/
def execRailSample (o : RailObs) (s : State) : Host.Outcome State Fault Refusal :=
  .next (
    let r := o.rail.val
    let lim := s.fld (fPwrRailLimit r)
    let s1 := s.setFlds [(fPwrRailAmps r, min 2047 o.avg2us), (fPwrRailMv r, o.mv.toNat)]
    let cur := (lookupKey s.pwr.rails r).getD 0
    let full := decide (o.avg2us ≥ lim)
    let want := ofBool full + 2 * ofBool (full && decide (o.heldNs ≥ 2000)) + 4 * ofBool (decide (o.avg200ns * 100 ≥ 120 * lim))
    if want ≠ 0 then (s1.setRail r (cur ||| want)).railRespond o (if r ≥ 11 then want else want - (want &&& cur))
    else if o.avg2us * 100 < 90 * lim ∧ o.below90Ns ≥ 10000 then s1.setRail r 0
    else s1)

/-! ### Droop (R348) -/

/-- DROOP: a cluster 40 mV below the setpoint runs at half rate. -/
def execDroop (n : Cluster) (s : State) : Host.Outcome State Fault Refusal :=
  .next (if s.pwr.droops.contains n.val then s
    else ({ s with pwr := { s.pwr with droops := s.pwr.droops ++ [n.val] } }).bump (fPwrDieStretches (n.val / 8)) 1)

/-- DROOP_RELEASE. -/
def execDroopRelease (n : Cluster) (s : State) : Host.Outcome State Fault Refusal :=
  .next { s with pwr := { s.pwr with droops := s.pwr.droops.filter (· != n.val) } }

/-! ### Sustainable frequency (R352–R354, R358) -/

/-- Clusters with three or more failed diodes (R365). -/
def State.derated (s : State) : Nat := ((List.range 32).filter (fun n => s.bit (fThmClDerate n))).length

/-- The least term, with its code; the first of equals. -/
def leastTerm : List (Nat × Nat) → Nat × Nat
  | [] => (0, 0)
  | [a] => a
  | a :: l => let b := leastTerm l; if b.1 < a.1 then b else a

/-- Throttle temperature in 1/16 °C. -/
def State.throttleAt (s : State) : Int := 16 * (s.fld fThmCoolThrottle : Int)

/-- The highest job frequency whose prediction satisfies a condition, 800 MHz where none does (R353). -/
def highestFreq (o : FreqObs) (ok : FreqPoint → Bool) : Nat :=
  (o.table.take 45).zipIdx.foldl (fun m x => if ok x.1 then 800 + 25 * x.2 else m) 800

/-- The prediction stays within 98% of the effective cap (R353). -/
def State.capHolds (s : State) (x : FreqPoint) : Bool := decide (100 * x.power ≤ 98 * s.fld fPwrInputCap)

/-- It stays within the budget of each partition with clusters on the die; budgets govern from OPEN on (R15). -/
def State.budgetHolds (s : State) (d : Nat) (x : FreqPoint) : Bool :=
  !s.stepDone 11 || (List.range 4).all (fun p => !(s.diesOf p).contains d || decide (x.parts.getD p 0 ≤ s.fld (fPwrPartBudget p)))

/-- Every rail stays within 95% of its limit in force. -/
def State.railHolds (s : State) (x : FreqPoint) : Bool :=
  (List.range 13).all (fun r => decide (100 * x.rails.getD r 0 ≤ 95 * s.fld (fPwrRailLimit r)))

/-- Every cluster's hottest point stays within the throttle temperature less 3 K. -/
def State.thermalHolds (s : State) (x : FreqPoint) : Bool := x.points.all (fun t => decide (t ≤ s.throttleAt - 48))

/-- The sustainable frequency of a die and the term that decides it (R353); DERATE counts from max_freq down. -/
def State.sustain (s : State) (o : FreqObs) : Nat × Nat :=
  let m := match s.img.cfg with
    | some c => c.maxFreq
    | none => 1900
  let t := leastTerm [(m, 0), (highestFreq o s.capHolds, 1), (highestFreq o (s.budgetHolds o.die), 2), (highestFreq o s.railHolds, 3),
    (highestFreq o s.thermalHolds, 4), (m - 100 * s.derated, 5)]
  (max 800 (t.1 / 25 * 25), t.2)

/-- PWR.DIE.limit (R371): PACT where a pact's result below the sustainable frequency is in force, else the term that decides that. -/
def State.showLimit (s : State) (d : Nat) : State :=
  s.setFld (fPwrDieLimit d)
    (if s.pwr.pactHeld.contains d ∧ s.fld (fPwrDieFjob d) < s.fld (fPwrDieFsus d) then 6 else (lookupKey s.pwr.terms d).getD 0)

/-- One die's computation; a die that must drop does so now (R358), which also ends the throttle of R354. -/
def State.freqOne (s : State) (o : FreqObs) : State :=
  let d := o.die.val
  let r := s.sustain o
  let s1 := { (s.setFld (fPwrDieFsus d) r.1) with pwr := { s.pwr with terms := insertKey s.pwr.terms d r.2 } }
  (if s.pwr.urgent.contains d then
    let s2 := { s1 with pwr := { s1.pwr with urgent := s1.pwr.urgent.filter (· != d), capThrottle := s1.pwr.capThrottle.filter (· != d) } }
    if r.1 < s.fld (fPwrDieFjob d) then s2.setJob d r.1 else s2
  else s1).showLimit d

/-- FREQ_COMPUTE: every 100 µs (R352). -/
def execFreqCompute (obs : List FreqObs) (s : State) : Host.Outcome State Fault Refusal :=
  .next (if s.stepDone 3 then obs.foldl State.freqOne s else s)

/-- Dies drop at once to their next computed frequency (R358). -/
def State.urgentDrop (s : State) (ds : List Nat) : State :=
  { s with pwr := { s.pwr with urgent := s.pwr.urgent ++ ds.filter (fun d => !s.pwr.urgent.contains d) } }

/-- CAP_CHECK: the 1 ms averages; a draw above the cap throttles every die to half (R354), those counted that are not so already. -/
def execCapCheck (watts : BitVec 16) (draws : List (BitVec 16)) (ampsA ampsB : Byte) (s : State) : Host.Outcome State Fault Refusal :=
  .next (
    let s1 := s.setFlds ([(fPwrInputPower, watts.toNat), (fPwrFeedAAmps, ampsA.toNat), (fPwrFeedBAmps, ampsB.toNat)]
      ++ (draws.take 4).zipIdx.map (fun x => (fPwrPartDraw x.2, x.1.toNat)))
    if s.railsUp ∧ watts.toNat > s.fld fPwrInputCap then
      ((List.range 4).filter (fun d => !s.pwr.capThrottle.contains d)).foldl (fun s d => s.bump (fPwrDieThrottles d) 1)
        { s1 with pwr := { s1.pwr with capThrottle := List.range 4 } }
    else s1)

/-! ### The frequency pact (R356–R358) -/

/-- Dies bound to a group's pact. -/
def State.pactDies (s : State) (g : Nat) : List Nat :=
  (List.range 4).filter (fun d => (s.pactParts g).any (fun p => (s.diesOf p).contains d))

/-- What a bind ends with (R356): CONFLICT where a die of the partition is bound to another group, be it by the partition itself. -/
def State.bindState (s : State) (p g : Nat) : Nat :=
  let clash := (List.range 4).any (fun q => s.pactBound q && s.fld (fPwrPartGroup q) != g
    && (s.diesOf q).any (fun d => (s.diesOf p).contains d))
  if clash then paConflict
  else if s.fld (fGrpGStateState g) ≠ gReady ∨ s.partOf (s.fld (fGrpGStatContext g)) ≠ some p then paInvalid
  else paActive

/-- A budget as it is clamped (R371): 50 W per member cluster up to the ceiling. -/
def State.clampBudget (s : State) (p b : Nat) : Nat :=
  let n := (s.clustersOf p).length
  min (s.fld (fPwrPartCeiling p)) (max (50 * n) b)

/-- A host write of PWR.PART (R356, R371): the budget, then the pact. A cut below the draw drops the partition's dies (R86, R358). -/
def State.pwrPartWrite (s : State) (p : Nat) (v : Word) : State :=
  let s1 := s.writeUnder takesPlain (rPwrPart p) v
  let b := s.clampBudget p (getBits v (fPwrPartBudget p))
  let s2 := s1.setFlds ([(fPwrPartBudget p, b)] ++ (if b ≠ getBits v (fPwrPartBudget p) then [(fPwrPartClamped p, 1)] else []))
  let s3 := if b < s.fld (fPwrPartBudget p) ∧ b < s.fld (fPwrPartDraw p) then s2.urgentDrop (s.diesOf p) else s2
  let g := getBits v (fPwrPartGroup p)
  let s4 := s3.setFld (fPwrPartGroup p) g
  if getBits v (fPwrPartEnable p) = 0 then s4.setFlds [(fPwrPartEnable p, 0), (fPwrPartPactState p, paOff)]
  else if s.pactBound p ∧ s.fld (fPwrPartGroup p) = g then s4
  else
    let st := s.bindState p g
    s4.setFlds [(fPwrPartEnable p, ofBool (st == paActive)), (fPwrPartPactState p, st)]

/-- PACT_BIND (R356). -/
def execPactBind (p : Part) (v : Word) (s : State) : Host.Outcome State Fault Refusal :=
  .next (s.hostWrite (rPwrPart p) v HostObs.plain (fun s => s.pwrPartWrite p v))

/-- BUDGET_WRITE (R371). -/
def execBudgetWrite (p : Part) (v : Word) (s : State) : Host.Outcome State Fault Refusal :=
  .next (s.hostWrite (rPwrPart p) v HostObs.plain (fun s => s.pwrPartWrite p v))

/-- The offer of a member: its lowest sustainable frequency, coded (R357). -/
def State.pactOffer (s : State) (g : Nat) : Nat :=
  (((s.pactDies g).map (fun d => s.fld (fPwrDieFsus d))).foldl min 1900 - 800) / 25

/-- Groups with a pact here. -/
def State.pactGroups (s : State) : List Nat :=
  (((List.range 4).filter s.pactBound).map (fun p => s.fld (fPwrPartGroup p))).eraseDups

/-- One pact's epoch starts: the offer joins those of the tree (R357). -/
def State.pactStart (s : State) (k : Word) (g : Nat) : State :=
  let o := s.pactOffer g
  let s1 := { s with pwr := { s.pwr with pacts := s.pwr.pacts.filter (fun y => y.group != g) ++ [⟨g, k, o, none⟩] } }
  match s.treeOf (s.fld (fGrpGStateKey g)) with
  | some t => s1.pactOfferIn t k 32 o
  | none => s1

/-- PACT_EPOCH: at t_k every member offers (R357). -/
def execPactEpoch (k : Word) (s : State) : Host.Outcome State Fault Refusal :=
  .next (s.pactGroups.foldl (fun s g => s.pactStart k g) s)

/-- PACT_RESULT: the minimum comes down the tree tagged with its epoch (R357). -/
def execPactResult (u : CollIn) (s : State) : Host.Outcome State Fault Refusal := .next (s.pactIn u)

/-- One bound die at the switch instant (R357, R358): its new frequency, and whether the epoch was missed. -/
def State.pactDie (s : State) (d : Nat) (x : Option Pact) : Nat × Bool :=
  let sus := s.fld (fPwrDieFsus d)
  let job := s.fld (fPwrDieFjob d)
  match x.bind (·.result) with
  | some c => if sus < 800 + 25 * c then (sus, true) else (800 + 25 * c, false)
  | none => (min job (match x with
      | some y => 800 + 25 * y.offer
      | none => sus), true)

/-- A die's frequency is a pact's result from now on, or is not (R357). -/
def State.holdPact (s : State) (d : Nat) (b : Bool) : State :=
  let l := s.pwr.pactHeld.filter (· != d)
  { s with pwr := { s.pwr with pactHeld := if b then l ++ [d] else l } }

/-- PACT_SWITCH: at s_k bound dies take the result, or their miss; dies in no pact take their own sustainable frequency; the
throttle of R354 ends (R357, R358). -/
def execPactSwitch (k : Word) (s : State) : Host.Outcome State Fault Refusal :=
  .next (
    if !s.stepDone 3 then s
    else
      let gs := s.pactGroups
      let epoch (g : Nat) : Option Pact := s.pwr.pacts.find? (fun x => x.group == g && x.epoch == k)
      let s1 := (List.range 4).foldl (fun st d =>
        if s.fld (fPwrDieFsus d) = 0 then st
        else match gs.find? (fun g => (s.pactDies g).contains d) with
          | some g =>
            let r := s.pactDie d (epoch g)
            ((st.setJob d r.1).holdPact d ((epoch g).bind (·.result)).isSome).showLimit d
          | none => ((st.setJob d (s.fld (fPwrDieFsus d))).holdPact d false).showLimit d) s
      let s2 := gs.foldl (fun st g =>
        let missed := (s.pactDies g).any (fun d => (s.pactDie d (epoch g)).2)
        (s.pactParts g).foldl (fun st p => st.setFld (fPwrPartPactState p) (if missed then paMissed else paActive)) st) s1
      { s2 with pwr := { s2.pwr with capThrottle := [], pacts := s2.pwr.pacts.filter (fun x => x.epoch != k) } })

/-- COLLECTIVE_TIMEOUT (R321, R358). -/
def execCollectiveTimeout (r : CollRef) (s : State) : Host.Outcome State Fault Refusal :=
  .next (match r with
    | .member g => s.collTimeout g
    | .transit key seq => s.transitTimeout key.toNat seq.toNat)

/-! ### Orders of the host and the rack manager (R368–R370) -/

/-- The notice interrupt (R367, R370). -/
def State.noticeIrq (s : State) : State := if s.bit fPwrHostNoticeIrq then s.msix (s.fld fPwrHostVector) else s

/-- A graceful notice ends (R370). -/
def State.noticeStop (s : State) : State :=
  ({ s with pwr := { s.pwr with noticeAt := none } }).setFlds [(fPwrRackNotice, 0), (fPwrRackNoticeMs, 0)]

/-- NOTICE_END: five seconds have run, OFF takes effect. -/
def execNoticeEnd (s : State) : Host.Outcome State Fault Refusal :=
  .next (if s.bit fPwrRackNotice then s.noticeStop.pwrUpdate else s)

/-- A cut of the effective cap below the measured draw drops every die (R86, R358). -/
def State.capCut (s0 s : State) : State :=
  if s.fld fPwrInputCap < s0.fld fPwrInputCap ∧ s.fld fPwrInputCap < s0.fld fPwrInputPower then s.urgentDrop (List.range 4) else s

/-- A rack-manager order (R369, R370, R484): 0 ON, 1 REDUCED, 2 OFF, 3 NONE. A graceful OFF while OFF is ordered starts no new notice. -/
def State.rackOrder (s : State) (order : Nat) (graceful : Bool) : State :=
  match order with
  | 2 =>
    if graceful then
      if s.fld fPwrRackOrder = 2 then (s.setFld fPwrRackGraceful 1).pwrUpdate
      else if s.railsUp ∧ s.powerState ≠ 2 then
        (({ s with pwr := { s.pwr with noticeAt := some s.time } }).setFlds
          [(fPwrRackOrder, 2), (fPwrRackGraceful, 1), (fPwrRackNotice, 1), (fPwrRackNoticeMs, 5000)]).noticeIrq.pwrUpdate
      else (s.setFlds [(fPwrRackOrder, 2), (fPwrRackGraceful, 1)]).pwrUpdate
    else ((s.noticeStop).setFlds [(fPwrRackOrder, 2), (fPwrRackGraceful, 0)]).pwrUpdate
  | 3 => s.pwrUpdate
  | n => (s.noticeStop.setFld fPwrRackOrder n).pwrUpdate

/-- Does the rack manager order OFF, or the module hold it (R369)? -/
def State.heldOff (s : State) : Bool :=
  s.fld fPwrRackOrder == 2 || s.pwr.holdThermal || s.pwr.holdLeak || s.pwr.holdFeeds

/-- A host write of PWR.HOST (R368–R370): the interrupt fields, the cap with its clamp, the order (ON is refused with HELD_OFF while OFF
is held; a reserved order leaves it), and the end of a notice. -/
def State.pwrHostWrite (s : State) (v : Word) : State :=
  let s1 := s.writeUnder takesPlain rPwrHost v
  let c := getBits v fPwrHostCap
  let cc := clampCap c s.inputCap
  let s2 := s1.setFlds ([(fPwrHostCap, cc)] ++ (if cc ≠ c then [(fPwrHostClamped, 1)] else []))
  let o := getBits v fPwrHostOrder
  let s3 := if o = 0 ∧ s.heldOff then s2.setFld fPwrHostResult 1
    else if o = 3 then s2.setFld fPwrHostOrder (s.fld fPwrHostOrder)
    else s2.setFlds [(fPwrHostOrder, o), (fPwrHostResult, 0)]
  let s4 := if getBits v fPwrHostAckOff = 1 ∧ s.bit fPwrRackNotice then s3.noticeStop else s3
  s.capCut s4.pwrUpdate

/-- HOST_ORDER (R369). -/
def execHostOrder (v : Word) (s : State) : Host.Outcome State Fault Refusal :=
  .next (s.hostWrite rPwrHost v HostObs.plain (fun s => s.pwrHostWrite v))

/-- HOST_CAP (R368). -/
def execHostCap (v : Word) (s : State) : Host.Outcome State Fault Refusal :=
  .next (s.hostWrite rPwrHost v HostObs.plain (fun s => s.pwrHostWrite v))

/-- ACK_OFF (R370). -/
def execAckOff (v : Word) (s : State) : Host.Outcome State Fault Refusal :=
  .next (s.hostWrite rPwrHost (putBits v fPwrHostAckOff 1) HostObs.plain (fun s => s.pwrHostWrite (putBits v fPwrHostAckOff 1)))

end Sys2Proof.Machine
end

