-- ==== Sys2Proof/Machine/Cooling.lean ====
section
/-! DEFINITION. Cooling (R359–R367): forecasts and riddling requests, diodes, junction limits, coolant flow and sensors, warnings, the
leak loop. Temperatures are in 1/16 °C. -/

namespace Sys2Proof.Machine

/-- Degrees in 1/16 °C. -/
def deg (n : Int) : Int := 16 * n

/-! ### Forecasts (R359, R363) -/

/-- Forecast of a physical core's site. -/
def siteOf (sites : List Int) (phys : Nat) : Int := sites.getD (phys % 18) 0

/-- The site of a list with the greatest value of f; the first of equals. -/
def bestSite (f : Nat → Int) : List Nat → Option Nat
  | [] => none
  | a :: l => match bestSite f l with
    | some b => if f b > f a then some b else some a
    | none => some a

/-- The cores between which the thermal model asks for a move (R363): the hottest ACTIVE site exceeds the coolest SPARE one by at
least 6 K. -/
def State.riddlePair (s : State) (n : Nat) (sites : List Int) : Option (Nat × Nat) :=
  let cs := (List.range 18).map (n * 18 + ·)
  match bestSite (siteOf sites) (cs.filter (fun p => s.coreState p == 0)), bestSite (fun p => -(siteOf sites p)) (cs.filter (fun p => s.coreState p == 1)) with
  | some a, some b => if siteOf sites a - siteOf sites b ≥ deg 6 then some (a, b) else none
  | _, _ => none

/-- 10 ms in ns: the least spacing of requests in a cluster (R363). -/
def riddleGap : Nat := 10000000

/-- A riddling request (R57, R59, R363): counted, and the move is due unless one is already. DESIGN CHOICE (log entry 123): TASK.CL.STATE.riddle
is looked at here only; a move that was asked for takes place where it is cleared later. -/
def State.riddleAsk (s : State) (n a b : Nat) : State :=
  let recently : Bool := match lookupKey s.pwr.riddled n with
    | some t => decide (s.time < t + riddleGap)
    | none => false
  if recently ∨ !s.bit (fTaskClStateRiddle n) ∨ (lookupKey s.cores.moves n).isSome ∨ (s.sparesOf n).isEmpty then s
  else match s.lcoreOf a with
    | none => s
    | some k =>
      (({ s with pwr := { s.pwr with riddled := insertKey s.pwr.riddled n s.time } }).moveDue n ⟨k, a, some b, false, false⟩).bump
        (fThmClMoves n) 1

/-- THERMAL_FORECAST: every 100 µs (R359): the cluster's hottest point 5 ms ahead; `sites` are the forecasts of the eighteen core sites, none
given where the model has none. -/
def execThermalForecast (n : Cluster) (forecast : BitVec 12) (sites : List Int) (s : State) : Host.Outcome State Fault Refusal :=
  .next (
    let s1 := s.setFld (fThmClForecast n) forecast.toNat
    if sites.length < 18 then s1
    else match s1.riddlePair n sites with
      | some (a, b) => s1.riddleAsk n a b
      | none => s1)

/-! ### Diodes and junction limits (R360, R364, R365) -/

/-- Has a core site's diode failed? -/
def State.diodeFailed (s : State) (p : Nat) : Bool := bitOf (s.fld (fThmClFailed (p / 18))) (p % 18)

/-- Is one reading implausible (R364)? -/
def State.implausible (s : State) (o : DiodeObs) : Bool :=
  decide (o.reading < (s.fld fThmCoolInlet : Int) - deg 5) || decide (o.reading > o.model + deg 15) || decide (o.reading < o.model - deg 15)

/-- Is a cluster's third diode, or a later one, the first to derate the module (R365)? -/
def State.derates (s : State) (n : Nat) : Bool :=
  decide (((List.range 18).filter (fun j => s.diodeFailed (n * 18 + j))).length ≥ 3) && !s.bit (fThmClDerate n)

/-- The third failed diode of a cluster derates the module (R365). -/
def State.derateCheck (s : State) (n : Nat) : State :=
  if s.derates n then (s.setFlds [(fThmClDerate n, 1), (fThmWarnDiodeDerate, 1)]).raise 0x05 2 n [] else s

/-- A diode fails: marked, logged, with the warning where it is the third (R482), entered in the defect log (R364, R389). -/
def State.diodeFail (s : State) (p : Nat) : State :=
  let n := p / 18
  let s1 := s.setFld (fThmClFailed n) (s.fld (fThmClFailed n) ||| 2 ^ (p % 18))
  ((s1.log { code := 0x0605, kind := 11, unit := p, defect := s.canList, warning := s1.derates n }).defect 11 7 p 0 0x0605 0).derateCheck n

/-- One diode's check (R364): the tenth implausible one in a row fails it. -/
def State.diodeOne (s : State) (o : DiodeObs) : State :=
  let p := o.core.val
  if s.diodeFailed p then s
  else if !s.implausible o then { s with pwr := { s.pwr with diodeRun := eraseKey s.pwr.diodeRun p } }
  else
    let n := (lookupKey s.pwr.diodeRun p).getD 0 + 1
    if n ≥ 10 then ({ s with pwr := { s.pwr with diodeRun := eraseKey s.pwr.diodeRun p } }).diodeFail p
    else { s with pwr := { s.pwr with diodeRun := insertKey s.pwr.diodeRun p n } }

/-- Readings that count for the junction limits. -/
def State.plausible (s : State) (obs : List DiodeObs) : List DiodeObs :=
  obs.filter (fun o => !s.diodeFailed o.core && !s.implausible o)

/-- A die at the throttle temperature runs at half rate until every cluster is 3 K below it (R360). -/
def State.throttleDie (s : State) (d : Nat) : State :=
  let cl := (List.range 8).map (d * 8 + ·)
  let hot := cl.any (fun n => decide ((s.fld (fThmClNow n) : Int) ≥ s.throttleAt))
  let cool := cl.all (fun n => decide ((s.fld (fThmClNow n) : Int) ≤ s.throttleAt - deg 3))
  if hot ∧ !s.pwr.hotDies.contains d then
    ((({ s with pwr := { s.pwr with hotDies := s.pwr.hotDies ++ [d] } }).bump (fPwrDieStretches d) 1).setFld fThmWarnThrottle 1).urgentDrop [d]
  else if cool then { s with pwr := { s.pwr with hotDies := s.pwr.hotDies.filter (· != d) } }
  else s

/-- The hold THERMAL ends once every plausible diode reads 20 K below the throttle temperature (R360). -/
def State.thermalHold (s : State) (obs : List DiodeObs) : State :=
  let ok := s.plausible obs
  if s.pwr.holdThermal ∧ s.img.cfg.isSome ∧ !ok.isEmpty ∧ ok.all (fun o => decide (o.reading ≤ s.throttleAt - deg 20)) then
    ({ s with pwr := { s.pwr with holdThermal := false } }).pwrShow
  else s

/-- Orthogonal neighbours of a core site in its cluster's 3 × 6 grid (R364). -/
def siteNeighbours (j : Nat) : List Nat :=
  (if j / 6 > 0 then [j - 6] else []) ++ (if j / 6 < 2 then [j + 6] else []) ++ (if j % 6 > 0 then [j - 1] else [])
  ++ (if j % 6 < 5 then [j + 1] else [])

/-- The value that counts for a diode (R364): its reading, or for a failed one the greatest of the model and of its working neighbours'
readings. -/
def State.siteValue (s : State) (obs : List DiodeObs) (o : DiodeObs) : Int :=
  let p := o.core.val
  if !s.diodeFailed p then o.reading
  else
    let near := (siteNeighbours (p % 18)).map (p / 18 * 18 + ·)
    ((obs.filter (fun (q : DiodeObs) => near.contains q.core.val && !s.diodeFailed q.core)).map (·.reading)).foldl max o.model

/-- A temperature as a register of 12 bits shows it. -/
def showTemp (t : Int) : Nat := min 4095 t.toNat

/-- The hottest point of each cluster that was read (R360, R372). -/
def State.showHot (s : State) (obs : List DiodeObs) : State :=
  (List.range 32).foldl (fun s n =>
    match (obs.filter (fun (o : DiodeObs) => o.core.val / 18 == n)).map (s.siteValue obs) with
    | [] => s
    | v :: l => s.setFld (fThmClNow n) (showTemp (l.foldl max v))) s

/-- DIODE_CHECK: plausibility of every diode (R364, R365), the hottest point of each cluster, then the junction limits (R360): a trip at
115 °C, the throttle. -/
def execDiodeCheck (obs : List DiodeObs) (s : State) : Host.Outcome State Fault Refusal :=
  .next (
    let s1 := (obs.foldl State.diodeOne s).showHot obs
    let trip := (s1.plausible obs).find? (fun o => decide (o.reading ≥ deg 115))
    match trip with
    | some o =>
      if s1.pwr.holdThermal then s1
      else ({ s1 with pwr := { s1.pwr with holdThermal := true } }).fatalModule { code := 0x0604, kind := 11, unit := o.core } caFatal
    | none =>
      let s2 := s1.thermalHold obs
      if s2.stepDone 3 then (List.range 4).foldl State.throttleDie s2 else s2)

/-! ### Coolant (R361, R362, R366) -/

/-- flow_state codes of R372. -/
def flMeasured : Nat := 0
def flEstimated : Nat := 1
def flUnknown : Nat := 2

/-- Inferred flow in 0.1 L/min for P watts and a rise in 1/16 K (R361), rounded down. -/
def flowOf (p : Nat) (rise : Int) : Nat := (582 * 16 * p) / (3980 * rise.toNat)

/-- FLOW_INFERENCE: each second from 1 s averages (R361). -/
def execFlowInference (p : Nat) (tin tout : Int) (s : State) : Host.Outcome State Fault Refusal :=
  .next (
    if p ≥ 800 ∧ tout - tin ≥ deg 1 then
      s.setFlds [(fThmCoolFlow, min 255 (flowOf p (tout - tin))),
        (fThmCoolFlowState, if s.bit fThmCoolInletFailed ∨ s.bit fThmCoolOutletFailed then flEstimated else flMeasured)]
    else s.setFld fThmCoolFlowState flUnknown)

/-- A coolant sensor fails (R366). -/
def State.coolantFail (s : State) (f : Fld) (unit : Nat) : State :=
  ((s.setFlds [(f, 1), (fThmCoolFlowState, flEstimated), (fThmWarnCoolantSensor, 1)]).log
    { code := 0x0605, kind := 11, unit := unit, warning := true }).raise 0x06 11 unit []

/-- Does a coolant sensor's reading fail it, having stood for 1 s (R366): outside 0–80 °C, or more than 10 K from the model? -/
def coolBad (reading model : Int) : Bool :=
  decide (reading < 0) || decide (reading > deg 80) || decide (reading > model + deg 10) || decide (reading < model - deg 10)

/-- COOLANT_SENSOR_CHECK: what the sensors have shown for 1 s; a failed one gives way to the model's estimate. An outlet that reads more than
2 K below the inlet at 800 W or more fails too (R366). -/
def execCoolantSensorCheck (obs : CoolObs) (s : State) : Host.Outcome State Fault Refusal :=
  .next (
    let s1 := if coolBad obs.inlet obs.modelIn ∧ !s.bit fThmCoolInletFailed then s.coolantFail fThmCoolInletFailed 576 else s
    let tin := if s1.bit fThmCoolInletFailed then obs.modelIn else obs.inlet
    let below := decide (obs.outlet < tin - deg 2) && decide (s.fld fPwrInputPower ≥ 800)
    let s2 := if (coolBad obs.outlet obs.modelOut ∨ below) ∧ !s1.bit fThmCoolOutletFailed then s1.coolantFail fThmCoolOutletFailed 577 else s1
    let tout := if s2.bit fThmCoolOutletFailed then obs.modelOut else obs.outlet
    s2.setFlds [(fThmCoolInlet, showTemp tin), (fThmCoolOutlet, showTemp tout)])

/-- Code, unit kind, unit and sent mark of a warning of R362. -/
def coolWarn : CoolWarn → Nat × Nat × Nat × Fld
  | .inlet => (0x01, 11, 576, fThmWarnInlet)
  | .outlet => (0x02, 11, 577, fThmWarnOutlet)
  | .flow => (0x03, 0, 0, fThmWarnFlow)
  | .thermalLimit => (0x04, 0, 0, fThmWarnThermalLimit)

/-- Does the condition of a warning hold (R362)? The limits are the image's (R39), which govern from POWER
on (R15); flow counts while it is inferred. -/
def State.coolHolds (s : State) (w : CoolWarn) : Bool :=
  match w, s.img.cfg with
  | .inlet, some c => s.stepDone 2 && decide (s.fld fThmCoolInlet > 16 * c.inletWarn)
  | .outlet, some c => s.stepDone 2 && decide (s.fld fThmCoolOutlet > 16 * c.outletWarn)
  | .flow, some c => s.stepDone 2 && s.fld fThmCoolFlowState != flUnknown && decide (s.fld fThmCoolFlow < c.flowWarn)
  | .thermalLimit, _ => (List.range 4).any (fun d => lookupKey s.pwr.terms d == some 4 && decide (s.fld (fPwrDieFsus d) < 1600))
  | _, none => false

/-- COOLING_WARNING: a condition that holds now has held for 10 s; else it has ended (R362, R483). -/
def execCoolingWarning (w : CoolWarn) (s : State) : Host.Outcome State Fault Refusal :=
  .next (
    let c := coolWarn w
    if s.coolHolds w then (s.setFld c.2.2.2 1).raise c.1 c.2.1 c.2.2.1 [] else s.clearWarning c.1 c.2.1 c.2.2.1)

/-- Warnings that repeat every 60 s (R483). -/
def repeats (code : Nat) : Bool := [1, 2, 3, 4, 7, 8].contains code

/-- Unit of a repeated warning. -/
def warnUnit (code : Nat) : Nat × Nat :=
  if code = 1 then (11, 576) else if code = 2 then (11, 577) else if code = 7 ∨ code = 8 then (11, 578) else (0, 0)

/-- WARNING_REPEAT (R362, R483). -/
def execWarningRepeat (code : Fin 16) (s : State) : Host.Outcome State Fault Refusal :=
  .next (
    if s.warned code.val ∧ repeats code then s.sendWarning code 1 (warnUnit code).1 (warnUnit code).2 []
    else s)

/-! ### The leak loop (R367) -/

/-- Levels of R372. -/
def lkDry : Nat := 0
def lkWet : Nat := 1
def lkFault : Nat := 2

/-- Level of one sample: the resistance in 0.1 kΩ, whether a conductor reads 100 kΩ or less to ground. -/
def leakLevel (loop : Nat) (ground : Bool) : Nat :=
  if ground then lkFault else if 80 ≤ loop ∧ loop ≤ 120 then lkDry else if loop < 60 then lkWet else lkFault

/-- WET, or the loss of sensing under policy 1: LEAK is sent, the host has its notice, OFF follows in 5 s; before POWER the hold stands
at once. -/
def State.leakWet (s : State) : State :=
  if s.warned 7 then s
  else
    let s1 := ((s.setFld fThmWarnLeak 1).raise 0x07 11 578 []).noticeIrq
    if s1.railsUp then { s1 with pwr := { s1.pwr with leakDue := true } }
    else ({ s1 with pwr := { s1.pwr with holdLeak := true } }).pwrUpdate

/-- The level after three equal samples (R367). The leak policy is the image's from POWER on, and to warn before (R15). -/
def State.leakTaken (s : State) (lv : Nat) : State :=
  let s0 := s.setFld fThmLeakLevel lv
  let s1 := if lv = s.fld fThmLeakLevel then s0 else s0.event evLeak lv
  if lv = lkDry then
    (({ s1 with pwr := { s1.pwr with holdLeak := false } }).clearWarning 0x07 11 578).clearWarning 0x08 11 578 |>.pwrShow
  else if lv = lkWet ∨ (s1.bit fThmLeakPolicy ∧ s1.stepDone 2) then s1.leakWet
  else (s1.setFld fThmWarnSensingLost (if s1.warned 8 then s1.fld fThmWarnSensingLost else 1)).raise 0x08 11 578 []

/-- LEAK_SAMPLE: every 10 ms; `earth` are the resistances of the conductors to ground in kΩ (R367). -/
def execLeakSample (loop : BitVec 16) (earth : List Nat) (s : State) : Host.Outcome State Fault Refusal :=
  .next (
    let ground := earth.any (· ≤ 100)
    let lv := leakLevel loop.toNat ground
    let last := (s.pwr.leak ++ [lv]).drop (s.pwr.leak.length - 2)
    let s1 := ({ s with pwr := { s.pwr with leak := last } }).setFlds [(fThmLeakLoop, loop.toNat), (fThmLeakGround, ofBool ground)]
    if last = [lv, lv, lv] then s1.leakTaken lv else s1)

/-- LEAK_SHUTDOWN: OFF with reason LEAK, 5 s after WET. -/
def execLeakShutdown (s : State) : Host.Outcome State Fault Refusal :=
  .next (
    if s.pwr.leakDue then ({ s with pwr := { s.pwr with leakDue := false, holdLeak := true } }).pwrUpdate else s)

end Sys2Proof.Machine
end

