-- ==== Sys2Proof/Machine/Errors.lean ====
section
/-! DEFINITION. The error block (R378–R380, R395–R400, R480): summaries, the error ring, resending, ERR.CTL and abort waves, copies
of the lees. -/

namespace Sys2Proof.Machine

/-! ### Summaries (R378) -/

/-- SUMMARY_TIMER: a second after a corrected error: what was counted since goes out as one record and the next second begins;
nothing counted ends the summary. -/
def execSummaryTimer (code : BitVec 16) (kind : Byte) (unit : BitVec 16) (s : State) : Host.Outcome State Fault Refusal :=
  .next (
    let same (w : Summary) : Bool := w.record.code == code.toNat && w.record.kind == kind.toNat && w.record.unit == unit.toNat
    match s.err.window.find? same with
    | none => s
    | some w =>
      if w.more = 0 then { s with err := { s.err with window := s.err.window.filter (fun x => !same x) } }
      else
        let r : ErrRec := { w.record with
          seq := s.err.seq, time := BitVec.ofNat 64 s.stampTime, timeLocked := s.bit fRteStateTimeLocked, summary := true, count := w.more }
        ({ s with err := { s.err with window := s.err.window.map (fun x => if same x then ⟨x.record, 0⟩ else x) } }).report r)

/-! ### The error ring (R379) -/

/-- Result of an enable of the error ring (R170, R379). -/
def State.errRingResult (s : State) (v : Word) : Nat :=
  let n := getBits v fErrRingCfgLog2size
  if s.bit fErrRingCfgEnable then 7
  else if n < 4 ∨ n > 12 then 4
  else if s.fld fErrRingBaseBase * 32 % (64 * 2 ^ n) ≠ 0 then 5
  else 0

/-- A host write of ERR.RING.CFG (R170, R379). -/
def State.errRingCfgWrite (s : State) (v : Word) : State :=
  if getBits v fErrRingCfgEnable = 1 then
    let c := s.errRingResult v
    if c = 0 then
      let s1 := (s.writeUnder takesAll rErrRingCfg v).setFlds [(fErrRingStateProducer, 0), (fErrRingStateHead, 0), (fErrRingStateResult, 0)]
      { s1 with err := { s1.err with ringCount := 0, ringFirst := false } }
    else s.setFld fErrRingStateResult c
  else if s.bit fErrRingCfgEnable then s.setFlds [(fErrRingCfgEnable, 0), (fErrRingStateResult, 0)]
  else s.writeUnder takesAll rErrRingCfg v

/-- ERR_RING_ENABLE. -/
def execErrRingEnable (v : Word) (s : State) : Host.Outcome State Fault Refusal :=
  .next (s.hostWrite rErrRingCfg (putBits v fErrRingCfgEnable 1) HostObs.plain (fun s => s.errRingCfgWrite (putBits v fErrRingCfgEnable 1)))

/-- ERR_RING_DISABLE. -/
def execErrRingDisable (v : Word) (s : State) : Host.Outcome State Fault Refusal :=
  .next (s.hostWrite rErrRingCfg (putBits v fErrRingCfgEnable 0) HostObs.plain (fun s => s.errRingCfgWrite (putBits v fErrRingCfgEnable 0)))

/-- A host write of ERR.RING.STATE: the head is accepted up to the producer index (R172, R379). -/
def State.errRingHeadWrite (s : State) (v : Word) : State :=
  let h := getBits v fErrRingStateHead
  let old := s.fld fErrRingStateHead
  if !s.bit fErrRingCfgEnable ∨ (h + 2 ^ 24 - old) % 2 ^ 24 > (s.fld fErrRingStateProducer + 2 ^ 24 - old) % 2 ^ 24 then
    s.log { code := 0x0102, kind := 13, detail := leBytes 4 rErrRingState ++ leBytes 8 v.toNat }
  else s.setFld fErrRingStateHead h

/-- ERR_RING_HEAD_WRITE. -/
def execErrRingHeadWrite (v : Word) (s : State) : Host.Outcome State Fault Refusal :=
  .next (s.hostWrite rErrRingState v HostObs.plain (fun s => s.errRingHeadWrite v))

/-! ### Management records that wait for an acknowledgement (R380, R480) -/

/-- Corrected records that were dropped are counted in one RECORDS_LOST once the queue has space (R380). -/
def State.reportDrops (s : State) : State :=
  if s.mgmt.dropped = 0 ∨ s.mgmt.queue.length ≥ 1024 then s
  else ({ s with mgmt := { s.mgmt with dropped := 0 } }).log { code := 0x0707, kind := 14, detail := leBytes 4 s.mgmt.dropped }

/-- RECORD_RESEND: every second what was sent and not acknowledged is sent again, with a new counter. -/
def execRecordResend (s : State) : Host.Outcome State Fault Refusal :=
  .next (
    let q := s.mgmt.queue.map (fun it => if it.resend then { it with sent := none } else it)
    if !s.bit fMgtLinkUp ∨ s.fld fBringStateAux ≤ 1 then s else ({ s with mgmt := { s.mgmt with queue := q } }).mgmtFlush)

/-! ### ERR.CTL and waves (R396–R400) -/

/-- A host write of ERR.CTL: mode and domain, host_set, and a wave with code 0 outside SERVICE mode (R396, R397). -/
def State.errCtlWrite (s : State) (v : Word) : State :=
  let s1 := (s.writeUnder takesAll rErrCtl v).setFld fErrCtlHostSet 1
  if getBits v fErrCtlWave = 1 ∧ s1.fld fErrCtlMode ≠ modeService then s1.waveStart 0 else s1

/-- ERR_CTL_WRITE. -/
def execErrCtlWrite (v : Word) (s : State) : Host.Outcome State Fault Refusal :=
  .next (s.hostWrite rErrCtl v HostObs.plain (fun s => s.errCtlWrite v))

/-- WAVE: a write with the wave bit (R397). -/
def execWave (v : Word) (s : State) : Host.Outcome State Fault Refusal :=
  .next (s.hostWrite rErrCtl (putBits v fErrCtlWave 1) HostObs.plain (fun s => s.errCtlWrite (putBits v fErrCtlWave 1)))

/-- WAVE_ARRIVAL: a wave not among the last 64 is counted, forwarded once on every other sealed port, and acted on in its domain
outside SERVICE mode (R399, R400). -/
def execWaveArrival (p : Port) (origin : Node) (gen : BitVec 32) (dom code : BitVec 16) (hops : Byte) (s : State) :
    Host.Outcome State Fault Refusal :=
  .next (
    if s.portState p ≠ stSealed ∨ s.err.waves.contains (origin, gen.toNat) then s
    else
      let s1 := ((s.bump fErrCtlWavesRx 1).noteWave origin gen.toNat).waveOut (some p.val) origin.toNat gen.toNat dom.toNat code.toNat
        ((hops.toNat + 1) % 256)
      if s.fld fErrCtlMode ≠ modeService ∧ s.fld fErrCtlDomain = dom.toNat then s1.waveAct origin.toNat gen.toNat code.toNat else s1)

/-! ### The lees (R395) -/

/-- A host write of ERR.LEESCMD: with go, the header and the context's own records go to ERR.LEESVA. The lines of the lees are read as R207
says; DEDUCED: what comes poisoned is written poisoned (R208, log entry 119). -/
def State.leescmdWrite (s : State) (v : Word) (lines : List LineObs) : State :=
  let s1 := s.writeUnder takesAll rErrLeescmd v
  let p := getBits v fErrLeescmdPartition
  let c := getBits v fErrLeescmdContext
  if getBits v fErrLeescmdGo = 0 then s1
  else if !s.active c then s1.setFlds [(fErrLeescmdResult, 1), (fErrLeescmdBytes, 0)]
  else match s.err.lees.find? (fun l => l.part == p) with
    | none => s1.setFlds [(fErrLeescmdResult, 2), (fErrLeescmdBytes, 0)]
    | some l =>
      let segs := l.recs.zipIdx.filter (fun r => r.2 == 0 || r.1.2.2 == some c)
      let data := (segs.flatMap (fun r => s.mem.bytes (leesAt p + r.1.1) r.1.2.1)).take (2 ^ 22)
      let va := s.fld fErrLeesvaVa * 64
      if (s.gpaPieces c va data.length permWrite).isNone then s1.setFlds [(fErrLeescmdResult, 3), (fErrLeescmdBytes, 0)]
      else
        let met := segs.foldl (fun (acc : State × Nat × List Nat) r =>
          let a := leesAt p + r.1.1
          let x := acc.1.lineReads a r.1.2.1 lines
          (x.1, acc.2.1 + r.1.2.1, acc.2.2 ++ (lineOffsets a r.1.2.1 x.2).map (· + acc.2.1))) (s1, 0, [])
        let w := met.1.writeRun c va data FarReply.ok
        (w.1.markRun (w.1.reached none c va data.length) met.2.2).setFlds [(fErrLeescmdResult, 0), (fErrLeescmdBytes, data.length)]

/-- LEES_COPY (R395). -/
def execLeesCopy (o : LeesGo) (s : State) : Host.Outcome State Fault Refusal :=
  let v := putBits o.v fErrLeescmdGo 1
  .next (s.hostWrite rErrLeescmd v { HostObs.plain with far := ⟨0#8, [], o.lines⟩ } (fun s => s.leescmdWrite v o.lines))

end Sys2Proof.Machine
end

