-- ==== Sys2Proof/Machine/Security.lean ====
section
/-! DEFINITION. Security (R434–R466): the SPDM responder and its measurements, IDE, the entropy source, owner commands and presence, the
seal loop, firmware bundles and the service port's frames but RUN and DEBUG. -/

namespace Sys2Proof.Machine

/-! ### The SPDM responder (R436, R437) -/

/-- The responder of a transport. -/
def State.spdm (s : State) : SpdmPath → Spdm
  | .doe => s.sec.doe
  | .mgmt => s.sec.mgmt

/-- Change it. -/
def State.setSpdm (s : State) (t : SpdmPath) (x : Spdm) : State := match t with
  | .doe => { s with sec := { s.sec with doe := x } }
  | .mgmt => { s with sec := { s.sec with mgmt := x } }

/-- A management record sent at once to the sender of a request (R477). -/
def State.answerMgmt (s : State) (kind : Nat) (body : List Byte) : State := s.mgmtSend [s.askerTo] kind true body

/-- A session of a responder. -/
def Spdm.session (x : Spdm) (n : Nat) : Option SpdmSession := x.sessions.find? (fun p => p.id == n)

/-- An SPDM message as a record carries it: plain, or in the secured-message format of the session whose message it answers (R481). -/
def State.spdmWire (s : State) (msg : List Byte) : List Byte :=
  match s.sec.mgmt.within.bind s.sec.mgmt.session with
  | some x => leBytes 4 x.id ++ leBytes 2 (Config.securedWrap x.id x.epoch msg).length ++ Config.securedWrap x.id x.epoch msg
  | none => msg

/-- An SPDM response; over management it travels in an SPDM record (R481). -/
def State.spdmSay (s : State) (t : SpdmPath) (code : Nat) (body : List Byte) : State :=
  let s1 := s.emit (.spdm t code (code == 0x7F) body)
  match t with
  | .doe => s1
  | .mgmt => s1.answerMgmt 0x20 (s.spdmWire ([0x13#8, BitVec.ofNat 8 code] ++ body))

/-- An SPDM ERROR response: 1 invalid request, 4 unexpected request, 5 unspecified, 7 unsupported, 0x0A session limit. -/
def State.spdmError (s : State) (t : SpdmPath) (code : Nat) : State := s.spdmSay t 0x7F (leBytes 1 code ++ [0#8])

/-- Does the responder run: the supervisor has booted. -/
def State.supUp (s : State) : Bool := s.pins.vaux && s.fld fBringStateAux == 2

/-- A measurement block: its index, its size, its value. -/
def State.measBlock (s : State) (i : Nat) : List Byte := leBytes 1 i ++ leBytes 2 (s.measure i).length ++ s.measure i

/-- A message that the responder takes in one stage only. -/
def State.spdmAt (s : State) (t : SpdmPath) (stage : Nat) (f : State → State) : State :=
  if !s.supUp then s
  else if (s.spdm t).stage ≠ stage then s.spdmError t 4
  else f s

/-- GET_VERSION. -/
def execGetVersion (t : SpdmPath) (s : State) : Host.Outcome State Fault Refusal :=
  .next (if !s.supUp then s
    else (s.setSpdm t { s.spdm t with stage := 1 }).spdmSay t 0x04 [0x13#8])

/-- The capabilities of R436 as SPDM's flags: CERT, CHAL, MEAS with signature, ENCRYPT, MAC, KEY_EX, HBEAT, KEY_UPD. PRESUMED: their bits are
those of DSP0274 (log entry 117). -/
def spdmCaps : Nat := 2 ^ 1 + 2 ^ 2 + 2 * 2 ^ 3 + 2 ^ 6 + 2 ^ 7 + 2 ^ 9 + 2 ^ 13 + 2 ^ 14

/-- The algorithms of R436 in SPDM's codes, in the order of its ALGORITHMS response: SHA-384 for measurements, ECDSA P-384, SHA-384, then DHE
secp384r1 and AES-256-GCM. PRESUMED: the codes of DSP0274 (log entry 117). -/
def spdmAlgos : List Byte := leBytes 4 (2 ^ 2) ++ leBytes 4 (2 ^ 7) ++ leBytes 4 (2 ^ 1) ++ leBytes 2 (2 ^ 4) ++ leBytes 2 (2 ^ 1)

/-- GET_CAPABILITIES. -/
def execGetCapabilities (t : SpdmPath) (s : State) : Host.Outcome State Fault Refusal :=
  .next (s.spdmAt t 1 (fun s => (s.setSpdm t { s.spdm t with stage := 2 }).spdmSay t 0x61 (leBytes 4 spdmCaps)))

/-- NEGOTIATE_ALGORITHMS; `ok` where the request offers the algorithms of R436. -/
def execNegotiateAlgorithms (t : SpdmPath) (ok : Bool) (s : State) : Host.Outcome State Fault Refusal :=
  .next (s.spdmAt t 2 (fun s => if ok then (s.setSpdm t { s.spdm t with stage := 3 }).spdmSay t 0x63 spdmAlgos else s.spdmError t 1))

/-- Does the text of a NEGOTIATE_ALGORITHMS request offer the algorithms of R436? PRESUMED: the layout of DSP0274, with four-byte tables from
byte 32 on where no extended algorithms are named (log entry 117). -/
def offersAlgos (b : List Byte) : Bool :=
  let table (kind bit : Nat) : Bool := (List.range (field b 2 1)).any (fun i =>
    field b (32 + 4 * i) 1 == kind && bitOf (field b (34 + 4 * i) 2) bit)
  bitOf (field b 8 4) 7 && bitOf (field b 12 4) 1 && table 2 4 && table 3 1

/-- GET_DIGESTS: slot 0 alone. -/
def execGetDigests (t : SpdmPath) (s : State) : Host.Outcome State Fault Refusal :=
  .next (s.spdmAt t 3 (fun s => s.spdmSay t 0x01 (0x01#8 :: sha384 (s.certChain))))

/-- Bytes of the chain that one request brings at most over management (R481). -/
def certMost : SpdmPath → Nat
  | .doe => 65535
  | .mgmt => 1000

/-- GET_CERTIFICATE. -/
def execGetCertificate (t : SpdmPath) (slot : Byte) (off len : BitVec 16) (s : State) : Host.Outcome State Fault Refusal :=
  .next (s.spdmAt t 3 (fun s =>
    let c := s.certChain
    if slot ≠ 0#8 ∨ off.toNat ≥ c.length then s.spdmError t 1
    else s.spdmSay t 0x02 ((c.drop off.toNat).take (min len.toNat (certMost t)))))

/-- A signed answer: the body, then the signature by the Alias key over the request's nonce and the body (R435). -/
def State.signed (s : State) (nonce body : List Byte) : List Byte := body ++ s.aliasSign (nonce ++ body)

/-- CHALLENGE. -/
def execChallenge (t : SpdmPath) (slot : Byte) (nonce : List Byte) (s : State) : Host.Outcome State Fault Refusal :=
  .next (s.spdmAt t 3 (fun s =>
    if slot ≠ 0#8 then s.spdmError t 1
    else
      let f := s.takeBytes 4
      f.2.spdmSay t 0x03 (s.signed nonce (sha384 (s.certChain) ++ f.1))))

/-- GET_MEASUREMENTS: index 0 asks how many there are, 0xFF for all (R437). -/
def execGetMeasurements (t : SpdmPath) (idx : Byte) (sign : Bool) (nonce : List Byte) (s : State) : Host.Outcome State Fault Refusal :=
  .next (s.spdmAt t 3 (fun s =>
    let n := idx.toNat
    if n > 11 ∧ n ≠ 0xFF then s.spdmError t 1
    else
      let b := if n = 0 then [0x0B#8] else if n = 0xFF then (List.range 11).flatMap (fun i => s.measBlock (i + 1)) else s.measBlock n
      s.spdmSay t 0x60 (if sign then s.signed nonce b else b)))

/-- KEY_EXCHANGE: up to four sessions on a transport (R436). -/
def execKeyExchange (t : SpdmPath) (slot : Byte) (share : List Byte) (s : State) : Host.Outcome State Fault Refusal :=
  .next (s.spdmAt t 3 (fun s =>
    let x := s.spdm t
    if slot ≠ 0#8 then s.spdmError t 1
    else if x.sessions.length ≥ 4 then s.spdmError t 0x0A
    else
      let f := (s.setSpdm t { x with sessions := x.sessions ++ [⟨x.next, false, 0⟩], next := x.next + 1 }).takeBytes 16
      f.2.spdmSay t 0x64 (s.signed share (leBytes 2 x.next ++ f.1))))

/-- Is a session established? -/
def Spdm.up (x : Spdm) (n : Nat) : Bool := x.sessions.any (fun p => p.id == n && p.up)

/-- End a session. -/
def Spdm.drop (x : Spdm) (n : Nat) : Spdm := { x with sessions := x.sessions.filter (fun p => p.id != n) }

/-- Change a session. -/
def Spdm.change (x : Spdm) (n : Nat) (f : SpdmSession → SpdmSession) : Spdm :=
  { x with sessions := x.sessions.map (fun p => if p.id = n then f p else p) }

/-- Answer within a session: over management in its secured-message format (R481). -/
def State.within (s : State) (n : Nat) (f : State → State) : State :=
  let t := f { s with sec := { s.sec with mgmt := { s.sec.mgmt with within := some n } } }
  { t with sec := { t.sec with mgmt := { t.sec.mgmt with within := none } } }

/-- FINISH; `good` where its checks hold. -/
def execSpdmFinish (t : SpdmPath) (session : Nat) (good : Bool) (s : State) : Host.Outcome State Fault Refusal :=
  .next (s.spdmAt t 3 (fun s => s.within session (fun s =>
    let x := s.spdm t
    if !(x.sessions.any (fun p => p.id == session && !p.up)) then s.spdmError t 4
    else if good then (s.setSpdm t (x.change session (fun p => { p with up := true }))).spdmSay t 0x65 []
    else (s.setSpdm t (x.drop session)).spdmError t 1)))

/-- A message of an established session. -/
def State.inSession (s : State) (t : SpdmPath) (n : Nat) (f : State → State) : State :=
  if !s.supUp then s else if (s.spdm t).up n then s.within n f else s.spdmError t 4

/-- HEARTBEAT. -/
def execHeartbeat (t : SpdmPath) (session : Nat) (s : State) : Host.Outcome State Fault Refusal :=
  .next (s.inSession t session (fun s => s.spdmSay t 0x68 []))

/-- KEY_UPDATE: the answer leaves under the keys that stand, then the session's keys change. -/
def execKeyUpdate (t : SpdmPath) (session : Nat) (s : State) : Host.Outcome State Fault Refusal :=
  .next (s.inSession t session (fun s =>
    let s1 := s.spdmSay t 0x69 []
    s1.setSpdm t ((s1.spdm t).change session (fun p => { p with epoch := p.epoch + 1 }))))

/-- END_SESSION. -/
def execEndSession (t : SpdmPath) (session : Nat) (s : State) : Host.Outcome State Fault Refusal :=
  .next (s.inSession t session (fun s =>
    let s1 := s.spdmSay t 0x6C []
    s1.setSpdm t ((s1.spdm t).drop session)))

/-! ### The host link and the entropy source (R438, R439, R446) -/

/-- States of SEC.IDE (R466). -/
def ideSecure : Nat := 2
def ideFailed : Nat := 3

/-- IDE_KM_KEY_PROG: inside a session over DOE the stream is keyed, or refreshed, and SECURE (R438). -/
def execIdeKmKeyProg (session : Nat) (s : State) : Host.Outcome State Fault Refusal :=
  .next (if s.supUp ∧ s.sec.doe.up session then s.setFld fSecIdeState ideSecure else s)

/-- IDE_STREAM_LOSS (R439). -/
def execIdeStreamLoss (s : State) : Host.Outcome State Fault Refusal :=
  .next (if s.fld fSecIdeState ≠ ideSecure then s
    else
      let s1 := (s.setFld fSecIdeState ideFailed).log { code := 0x0904, kind := 13 }
      if s.flash.requireIde then s1.setFld fZfHostwinOn 0 else s1)

/-- RNG_HEALTH (R446). -/
def execRngHealth (s : State) : Host.Outcome State Fault Refusal :=
  .next ((s.setFld fSecStateRngOk 0).fatalModule { code := 0x0908 } caFatal)

/-! ### Owner commands (R450–R456) -/

/-- Results of SEC.CMD (R466). -/
def ocDone : Nat := 0
def ocFetch : Nat := 1
def ocBadBlob : Nat := 2
def ocNonce : Nat := 3
def ocTag : Nat := 4
def ocState : Nat := 5
def ocPresence : Nat := 6
def ocSignature : Nat := 7
def ocNeeds : Nat := 8
def ocWrongState : Nat := 9

/-- Does the owner's policy admit a binding of a context (R450)? -/
def State.admitsWindow (s : State) (c : Nat) : Bool :=
  (if c < 64 then s.flash.win0.getLsbD c else s.flash.win1.getLsbD (c - 64)) && (!s.flash.requireIde || s.fld fSecIdeState == ideSecure)

/-- A binding that is no longer admitted is cleared (R452). -/
def State.recheckWindow (s : State) : State :=
  if s.bit fZfHostwinOn ∧ !s.admitsWindow (s.fld fZfHostwinCtx) then s.setFld fZfHostwinOn 0 else s

/-- Commands that need presence (R452). -/
def needsPresence (op : Nat) : Bool := op == 1 || op == 2 || op == 4 || op == 5

/-- Is a command accepted in the present owner and zeroised state (R452, R456)? -/
def State.opAccepted (s : State) (op : Nat) : Bool :=
  if s.flash.zeroised then op == 5 else if s.flash.owner.isNone then op == 1 || op == 5 else true

/-- Does the signature hold (R452)? -/
def State.ownerSigOk (s : State) (op : Nat) (b : List Byte) : Bool :=
  let sig := (b.drop 144).take 96
  let msg := b.take 144
  if op = 5 then true
  else match s.flash.owner with
    | some k => ecdsaOk k msg sig
    | none => op == 1 && ecdsaOk ((b.drop 40).take 96) msg sig

/-- Do the conditions of the Needs column hold (R452)? -/
def State.ownerNeeds (s : State) (op : Nat) (b : List Byte) : Bool :=
  match op with
  | 1 => !s.flash.zeroised
  | 2 => (List.range 128).all (fun c => s.fld (fCtxCtlState c) == 0)
  | 4 => decide (s.flash.svnFused ≤ field b 24 8)
  | 5 => s.flash.zeroised && s.bit fSecStateSealClosed
  | _ => true

/-- The first failure of R454, DONE where there is none. -/
def State.ownerCheck (s : State) (b : List Byte) : Nat :=
  let op := field b 4 1
  if b.length ≠ 240 then ocFetch
  else if b.take 4 ≠ [0x47#8, 0x4F#8, 0x57#8, 0x4E#8] ∨ op = 0 ∨ op > 6 then ocBadBlob
  else if field b 8 8 ≠ s.fld fSecNonceNonce then ocNonce
  else if BitVec.ofNat 64 (field b 16 8) ≠ keyTag deviceKey then ocTag
  else if !s.opAccepted op then ocState
  else if needsPresence op && !s.sec.window.any (fun t => decide (s.time < t)) then ocPresence
  else if !s.ownerSigOk op b then ocSignature
  else if !s.ownerNeeds op b then ocNeeds
  else ocDone

/-- The effect of a command that passed every check (R452). -/
def State.ownerEffect (s : State) (b : List Byte) : State :=
  let f := s.flash
  let word (o : Nat) : Word := BitVec.ofNat 64 (field b o 8)
  match field b 4 1 with
  | 1 => { s with flash := ({ f with ownerPending := some ((b.drop 40).take 96) } : Flash).wrote 6 [0] }
  | 2 => { s with flash := ({ f with debugPending := some true } : Flash).wrote 6 [1] }
  | 3 => { s with flash := ({ f with debugPending := some false } : Flash).wrote 6 [1] }
  | 4 => { s with flash := ({ f with svnFloor := field b 24 8 % 2 ^ 16 } : Flash).wrote 6 [1] }
  | 5 => { s with flash := ({ f with zeroised := false, owner := none } : Flash).wrote 6 [1] }
  | _ => ({ s with flash := ({ f with win0 := word 24, win1 := word 32, requireIde := bitOf (field b 136 8) 0 } : Flash).wrote 6 [0] }).recheckWindow

/-- Run an owner command (R451–R454): SEC.CMD shows op and result, a failure is logged, the presence window closes with a command
that needed it, SEC.NONCE is fresh. -/
def State.ownerCmd (s : State) (b : List Byte) : State :=
  let r := s.ownerCheck b
  let op := field b 4 1
  let s1 := if r = ocDone then s.ownerEffect b else s.log { code := 0x0907, detail := leBytes 1 op ++ leBytes 1 r }
  let s2 := if r = ocDone ∧ needsPresence op then { s1 with sec := { s1.sec with window := none } } else s1
  ((s2.setFlds [(fSecCmdOp, op), (fSecCmdResult, r)]).showSec).freshNonce

/-- One owner command runs at a time: another that comes meanwhile ends with WRONG_STATE (R466, R481). -/
def State.ownerOne (s : State) (f : State → State) : State :=
  if s.sec.cmd.isSome then s.setFld fSecCmdResult ocWrongState else f s

/-- The answer to an owner command over the management port: the result and the new nonce (R481). -/
def State.ownerAnswer (s : State) : State :=
  s.answerMgmt 0x21 (leBytes 1 (s.fld fSecCmdResult) ++ leBytes 7 0 ++ leBytes 8 (s.fld fSecNonceNonce))

/-- A whole command, from its go to its result, through SEC.CMD or through the management port, which answers. -/
def State.ownerVia (s : State) (viaPort : Bool) (b : List Byte) : State :=
  if viaPort then (if !s.supUp then s else (s.ownerOne (fun s => s.ownerCmd b)).ownerAnswer)
  else s.hostWrite rSecCmd (putBits 0#64 fSecCmdGo 1) { HostObs.plain with far := ⟨0#8, b, []⟩ } (fun s => s.ownerOne (fun s => s.ownerCmd b))

/-- A write of go to SEC.CMD alone: the blob is fetched and the command runs, SEC.CMD.busy with it, until the supervisor ends it (R451,
R466). DESIGN CHOICE: at its second heartbeat from then on (log entry 120). -/
def State.ownerStart (s : State) (b : List Byte) : State :=
  s.ownerOne (fun s => ({ s with sec := { s.sec with cmd := some ⟨b, false⟩ } }).setFlds [(fSecCmdBusy, 1), (fSecCmdOp, field b 4 1)])

/-- A heartbeat of the supervisor carries a running command on: past the first it ends. -/
def State.ownerBeat (s : State) : State := match s.sec.cmd with
  | none => s
  | some c =>
    if c.begun then (({ s with sec := { s.sec with cmd := none } }).setFld fSecCmdBusy 0).ownerCmd c.blob
    else { s with sec := { s.sec with cmd := some { c with begun := true } } }

/-- The seal loop opens while a command runs: it ends NEEDS (R465). -/
def State.ownerCut (s : State) : State := match s.sec.cmd with
  | none => s
  | some c =>
    ((({ s with sec := { s.sec with cmd := none } }).log { code := 0x0907, detail := leBytes 1 (field c.blob 4 1) ++ leBytes 1 ocNeeds }).setFlds
      [(fSecCmdBusy, 0), (fSecCmdResult, ocNeeds)]).freshNonce

/-- ENROLL (R452). -/
def execEnroll (blob : List Byte) (viaPort : Bool) (s : State) : Host.Outcome State Fault Refusal := .next (s.ownerVia viaPort blob)

/-- DEBUG_UNLOCK (R452, R455). -/
def execDebugUnlock (blob : List Byte) (viaPort : Bool) (s : State) : Host.Outcome State Fault Refusal := .next (s.ownerVia viaPort blob)

/-- DEBUG_LOCK (R452, R455). -/
def execDebugLock (blob : List Byte) (viaPort : Bool) (s : State) : Host.Outcome State Fault Refusal := .next (s.ownerVia viaPort blob)

/-- ROLLBACK (R452). -/
def execRollback (blob : List Byte) (viaPort : Bool) (s : State) : Host.Outcome State Fault Refusal := .next (s.ownerVia viaPort blob)

/-- RECOVER (R452, R456). -/
def execRecover (blob : List Byte) (viaPort : Bool) (s : State) : Host.Outcome State Fault Refusal := .next (s.ownerVia viaPort blob)

/-- POLICY (R450, R452). -/
def execPolicy (blob : List Byte) (viaPort : Bool) (s : State) : Host.Outcome State Fault Refusal := .next (s.ownerVia viaPort blob)

/-! ### Presence (R453, R506) -/

/-- The presence window in ns. -/
def presenceNs : Nat := 60000000000

/-- The level at PRESENCE_N. -/
def State.setPresence (s : State) (low : Bool) : State := { s with pins := { s.pins with presence := low } }

/-- PRESENCE_PRESS: 50 ms low after a transition: the window opens, or starts its 60 s again; an input that stayed low opens none. Without
VAUX no one looks (R508). -/
def execPresencePress (s : State) : Host.Outcome State Fault Refusal :=
  .next (if s.sec.pressed ∨ !s.pins.vaux then s.setPresence true
    else (({ s with sec := { s.sec with pressed := true, window := some (s.time + presenceNs) } }).setPresence true).setFld fSecStatePresence 1)

/-- PRESENCE_RELEASE: the input is high again. -/
def execPresenceRelease (s : State) : Host.Outcome State Fault Refusal :=
  .next (if !s.pins.vaux then s.setPresence false
    else (({ s with sec := { s.sec with pressed := false } }).setPresence false).setFld fSecStatePresence 0)

/-- PRESENCE_EXPIRE. -/
def execPresenceExpire (s : State) : Host.Outcome State Fault Refusal :=
  .next { s with sec := { s.sec with window := none } }

/-! ### The seal loop (R456) -/

/-- The owner domain is erased: owner key and policy; SEAL_BROKEN starts a warm reset, in which every key the module made ends. -/
def State.zeroise (s : State) : State :=
  let f : Flash := { s.flash with
    owner := none, ownerPending := none, win0 := 0#64, win1 := 0#64, requireIde := false, zeroised := true }
  ({ s with flash := f.wrote 6 [0, 1] }).fatalModule
    { code := 0x0901 } caFatal

/-- SEAL_SAMPLE: every 100 µs; ten open samples in a row are 1 ms. -/
def execSealSample (isOpen : Bool) (s : State) : Host.Outcome State Fault Refusal :=
  .next (
    if !s.pins.vaux then s
    else
      let n := if isOpen then s.sec.openRun + 1 else 0
      let s1 := ({ s with sec := { s.sec with openRun := n } }).setFld fSecStateSealClosed (ofBool (!isOpen))
      if n = 10 then s1.ownerCut.zeroise else s1)

/-! ### Bundles (R457, R458) -/

/-- The plaintext of a bundle's body (R457): its content key unwrapped under the family key, its tag checked; none where either fails. -/
def bundlePlain (b : List Byte) : Option (List Byte) :=
  let len := b.length
  let iv := (b.drop 56).take 12
  let body := (b.drop 72).take (len - 184)
  (keyUnwrap Config.familyKey ((b.drop 16).take 40)).bind (fun k =>
    if (b.drop (len - 112)).take 16 = gcmTag k iv (b.take 72) body then some (gcmCrypt k iv 0 body) else none)

/-- The digests of a manifest's images by type 1–5 (R457). -/
def manifestDigests (m : List Byte) : List (List Byte) :=
  (List.range 5).map (fun t => (((Config.manifestEntries m).find? (fun e => e.1 == t + 1)).map (fun e => e.2.2.2)).getD [])

/-- Does the manifest of a plaintext body hold (R457, R458): each of the five types exactly once, every image within the body and under its
SHA-384? DESIGN CHOICE: offsets count from the start of the body (log entry 14). -/
def manifestOk (m : List Byte) : Bool :=
  let l := Config.manifestEntries m
  l.length == 5 && (List.range 5).all (fun t => (l.filter (fun e => e.1 == t + 1)).length == 1)
  && l.all (fun e => decide (e.2.1 + e.2.2.1 ≤ m.length) && sha384 ((m.drop e.2.1).take e.2.2.1) == e.2.2.2)

/-- What a bank holds once a bundle that passed the checks is written to it. -/
def bundleBank (b : List Byte) : FwBank :=
  ⟨field b 4 4, field b 8 2, match bundlePlain b with
    | some m => manifestDigests m
    | none => []⟩

/-- Results of SEC.FWSTATE (R466). -/
def State.bundleCheck (s : State) (n : Nat) (b : List Byte) : Nat :=
  let len := b.length
  if b.take 4 ≠ [0x47#8, 0x48#8, 0x52#8, 0x42#8] ∨ field b 12 4 ≠ len ∨ n ≠ len ∨ len > 134217728 ∨ len < 184 ∨ field b 68 4 ≠ 0 then 1
  else if field b 10 2 ≠ 0x0403 then 2
  else if sha384 Config.firmwareKey ≠ Config.firmwareKeyHash ∨ !ecdsaOk Config.firmwareKey (b.take (len - 96)) ((b.drop (len - 96)).take 96) then 3
  else if field b 8 2 < s.flash.svnFloor then 4
  else match bundlePlain b with
    | none => 5
    | some m => if manifestOk m then 0 else 6

/-! ### The service port (R460–R464) -/

/-- Send a frame. -/
def State.svcSay (s : State) (kind : Nat) (payload : List Byte) : State := s.emit (.svc kind s.sec.svcSeq payload)

/-- NAK: the expected sequence number and the reason: 1 CRC, 2 SEQUENCE, 3 STATE, 4 LOCKED. -/
def State.svcNak (s : State) (reason : Nat) : State := s.svcSay 0x7F (leBytes 1 s.sec.svcSeq ++ leBytes 1 reason)

/-- Seconds of a count of ns. -/
def secondsOf (n : Nat) : Nat := n / 10 ^ 9

/-- SEC.STATE.presence_s: what is left of the presence window (R454). -/
def State.presenceView (s : State) (w : Word) : Word :=
  putBits w fSecStatePresenceS (match s.sec.window with
    | some t => secondsOf (t - s.time + (10 ^ 9 - 1))
    | none => 0)

/-- STATUS. -/
def State.svcStatus (s : State) : State :=
  s.svcSay 0x02 (leBytes 8 (s.reg rSecFw).toNat ++ leBytes 8 (s.reg rSecFwstate).toNat ++ leBytes 8 (s.reg rSecSvn).toNat
    ++ leBytes 8 (s.presenceView (s.reg rSecState)).toNat ++ leBytes 8 (keyTag deviceKey).toNat)

/-- Does the port take frames: enabled, VAUX there, no reset under way (R508)? -/
def State.svcUp (s : State) : Bool := s.pins.svcEn && s.pins.vaux && decide (s.fld fBringStateAux ≥ 2)

/-- The firmware stage: NONE, RECEIVING, STAGED_RESET, STAGED_POWER_CYCLE, FAILED (R488, R490). -/
def State.fwStage (s : State) : Nat :=
  if s.sec.receiving.isSome ∨ s.sec.writing.isSome then 1
  else match s.flash.staged with
    | none => 0
    | some b => if b.failed then 4 else if b.together then 3 else 2

/-- The firmware stage has changed since an earlier state: an event (R488). -/
def State.fwSince (s before : State) : State := if s.fwStage = before.fwStage then s else s.event evFw s.fwStage

/-- A bundle in progress, or none. -/
def State.setReceiving (s : State) (r : Option Receiving) : State := (({ s with sec := { s.sec with receiving := r } }).showSec).fwSince s

/-- The first frame after a reset is answered with NAK, reason STATE, and a bundle in progress is abandoned (R508). -/
def State.svcFirst (s : State) : State :=
  (({ s with sec := { s.sec with svcStale := false } }).setReceiving none).svcNak 3

/-- Does a frame's CRC-32 hold, over type, seq, length and payload (R461)? -/
def svcCrcOk (f : SFrame) : Bool :=
  f.payload.length ≤ 4096 && f.crc.toNat == crc32 ([f.kind, f.seq] ++ leBytes 2 f.payload.length ++ f.payload)

/-- A frame in sequence is acknowledged, unless `f` refuses it with a reason (R461). -/
def State.svcFrame (s : State) (f : SFrame) (g : State → State × Option Nat) : State :=
  if !s.svcUp then s
  else if s.sec.svcStale then s.svcFirst
  else if !svcCrcOk f then s.svcNak 1
  else if f.seq.toNat ≠ s.sec.svcSeq then s.svcNak 2
  else
    let r := g s
    match r.2 with
    | some reason => r.1.svcNak reason
    | none =>
      let s1 := r.1.svcSay 0x7E (leBytes 1 s.sec.svcSeq)
      { s1 with sec := { s1.sec with svcSeq := (s.sec.svcSeq + 1) % 256 } }

/-- SVC_HELLO. -/
def execSvcHello (f : SFrame) (s : State) : Host.Outcome State Fault Refusal := .next (s.svcFrame f (fun s => (s.svcStatus, none)))

/-- SVC_BEGIN: a bundle in progress is abandoned. -/
def execSvcBegin (f : SFrame) (s : State) : Host.Outcome State Fault Refusal :=
  .next (s.svcFrame f (fun s =>
    if f.payload.length ≠ 5 then (s, some 3)
    else (s.setReceiving (some ⟨field f.payload 0 4, bitOf (field f.payload 4 1) 0, []⟩), none)))

/-- SVC_DATA: the next bytes of the bundle. -/
def execSvcData (f : SFrame) (s : State) : Host.Outcome State Fault Refusal :=
  .next (s.svcFrame f (fun s => match s.sec.receiving with
    | none => (s, some 3)
    | some r =>
      if r.data.length + f.payload.length > r.length then (s, some 3)
      else (s.setReceiving (some { r with data := r.data ++ f.payload }), none)))

/-- A bundle that END brings (R458, R464): rejected and logged, or written to the inactive bank, or, while aux is FAILED, kept for
RUN. -/
def State.bundleEnd (s : State) (r : Receiving) : State :=
  let c := s.bundleCheck r.length r.data
  if c ≠ 0 then
    (((s.setReceiving none).setFld fSecFwstateResult c).log { code := 0x0905, detail := leBytes 4 (field r.data 4 4) ++ leBytes 1 c }).svcStatus
  else
    let b := bundleBank r.data
    if s.fld fBringStateAux = 3 then
      ({ ((s.setReceiving none).setFld fSecFwstateResult 0) with sec := { (s.setReceiving none).sec with rescue := some b } }).svcStatus
    else
      let w : FwStaged := ⟨b, (r.data.length + 4095) / 4096, r.together, false⟩
      (({ s with sec := { s.sec with receiving := none, writing := some w } }).showSec).setFld fSecFwstateResult 0

/-- SVC_END. -/
def execSvcEnd (f : SFrame) (s : State) : Host.Outcome State Fault Refusal :=
  .next (s.svcFrame f (fun s => match s.sec.receiving with
    | none => (s, some 3)
    | some r => if r.data.length < r.length then (s, some 3) else (s.bundleEnd r, none)))

/-- BUNDLE_STAGED: the bank is written, or its write failed (R458, R377). -/
def execBundleStaged (ok : Bool) (s : State) : Host.Outcome State Fault Refusal :=
  .next (match s.sec.writing with
    | none => s
    | some b =>
      let s1 := (({ s with sec := { s.sec with writing := none }, flash := s.flash.stage b ok }).showSec).fwSince s
      let s2 := if ok then s1 else s1.log { code := 0x0705 }
      if s2.svcUp then s2.svcStatus else s2)

/-- SVC_ABANDON. -/
def execSvcAbandon (f : SFrame) (s : State) : Host.Outcome State Fault Refusal :=
  .next (s.svcFrame f (fun s => (s.setReceiving none, none)))

/-- SVC_BAD_FRAME: a bad CRC, or a frame out of sequence (R461). -/
def execSvcBadFrame (f : SFrame) (s : State) : Host.Outcome State Fault Refusal :=
  .next (if !s.svcUp then s
    else if s.sec.svcStale then s.svcFirst
    else if !svcCrcOk f then s.svcNak 1
    else if f.seq.toNat ≠ s.sec.svcSeq then s.svcNak 2
    else s)

/-- SVC_EN_DEASSERT: the port is off, a partial frame is gone and SVC_DO is high-impedance (R460, R505). -/
def execSvcEnDeassert (s : State) : Host.Outcome State Fault Refusal := .next { s with pins := { s.pins with svcEn := false } }

/-- SVC_EN_ASSERT (R460): without VAUX no one looks, but the level stands when VAUX comes up (R508). -/
def execSvcEnAssert (s : State) : Host.Outcome State Fault Refusal := .next { s with pins := { s.pins with svcEn := true } }

end Sys2Proof.Machine
end

