-- ==== Sys2Proof/Machine/Supervisor.lean ====
section
/-! DEFINITION. The supervisor complex (R390, R467–R472), but for the accesses that it serves after a restore. -/

namespace Sys2Proof.Machine

/-- Core states of SUP.STATE (R493). -/
def supRunning : Nat := 0
def supSpare : Nat := 1
def supResync : Nat := 2
def supLost : Nat := 3

/-- The field of a supervisor core. -/
def supF (i : Nat) : Fld := if i = 0 then fSupStateCore0 else if i = 1 then fSupStateCore1 else fSupStateCore2

/-- Cores in a state. -/
def State.supIn (s : State) (st : Nat) : List Nat := (List.range 3).filter (fun i => s.fld (supF i) == st)

/-- The condition (R468, R471): DEGRADED with one working core and no spare, DUPLEX with two in vote mode. -/
def State.supCondition (s : State) : Nat :=
  let work := (s.supIn supRunning).length + (s.supIn supResync).length
  if (s.supIn supSpare).length ≠ 0 then 0
  else if work ≤ 1 then 2
  else if s.fld fSupStateMode = 0 ∧ (s.supIn supRunning).length < 3 then 1
  else 0

/-- Show the condition; a degraded complex warns (R471, R483). -/
def State.supShow (s : State) : State :=
  let c := s.supCondition
  let s1 := s.setFld fSupStateCondition c
  let s2 := if c = s.fld fSupStateCondition then s1 else s1.event evSup c
  if c = 2 then s2.raise 0x0E 12 ((s2.supIn supRunning).headD 0) [] else s2

/-- The degraded complex is about to warn for the first time. -/
def State.supWarns (s : State) : Bool :=
  s.supCondition == 2 && !s.mgmt.active.contains (0x0E, (s.supIn supRunning).headD 0)

/-- SUP_CORE_LOST (R377), flagged where it causes SUPERVISOR_DEGRADED (R482). -/
def State.supLostLog (s : State) (i : Nat) : State :=
  s.log { code := 0x0702, kind := 12, unit := i, action := 6, warning := s.supWarns }

/-- A core of the complex is to restore from the last checkpoint in place of one that is lost (R469, R470). -/
def State.startRestore (s : State) (target lost : Nat) : State := { s with sup := { s.sup with restoring := some (target, lost) } }

/-- A core is lost: it stays so until the next reset (R471). -/
def State.supLose (s : State) (i : Nat) : State :=
  { (s.setFld (supF i) supLost) with sup := { s.sup with resync := s.sup.resync.filter (· != i) } }

/-- The watchdog, of a lost core, resets the module (R376, R390). -/
def State.watchdog (s : State) (i : Nat) : State := s.fatalModule { code := 0x0703, kind := 12, unit := i } caWatchdog

/-- What a core of the complex holds now (log entry 121). -/
def State.supImage (s : State) : SupImage := ⟨s.time, s.sec.cmd, s.mgmt.sendCtr⟩

/-- The private SRAM of a core (R467). -/
def State.setSram (s : State) (i : Nat) (x : SupImage) : State := { s with sup := { s.sup with sram := insertKey s.sup.sram i x } }

/-- Is a running complex to write checkpoints: not in a whole vote (R469–R471, log entry 121)? -/
def State.checkpoints (s : State) : Bool := decide ((s.supIn supRunning).length < 3)

/-- HEARTBEAT_TIMEOUT: a running core misses its heartbeats for 10 ms (R390): the others run on, or a spare restores, or the watchdog
resets the module. -/
def execHeartbeatTimeout (i : Fin 3) (s : State) : Host.Outcome State Fault Refusal :=
  .next (
    if !s.supUp ∨ s.fld (supF i) = supSpare ∨ s.fld (supF i) = supLost then s
    else
      let s1 := s.supLose i
      if !(s1.supIn supRunning).isEmpty then (s1.supLostLog i).supShow
      else match s1.supIn supSpare with
        | b :: _ => s1.startRestore b i
        | [] => s1.watchdog i)

/-- SUP_DISSENT: in vote mode a dissenting core is halted and its SRAM copied from the majority (R468). -/
def execSupDissent (i : Fin 3) (s : State) : Host.Outcome State Fault Refusal :=
  .next (
    if !s.supUp ∨ s.bit fSupStateMode ∨ (s.supIn supRunning).length ≠ 3 then s
    else
      let majority := (s.supIn supRunning).filter (· != i.val)
      let image := (lookupKey s.sup.sram (majority.headD 0)).getD s.supImage
      let s1 := (((s.setFld (supF i) supResync).setSram i image).bump fSupStateDissents 1).log { code := 0x0701, kind := 12, unit := i }
      ({ s1 with sup := { s1.sup with resync := s1.sup.resync ++ [i.val] } }).supShow)

/-- DUPLEX_DISAGREE: self-test decides which core of the pair is lost; if both pass, the higher-numbered; the other restores from the
last checkpoint (R469). Where both fail, the watchdog names the first (log entry 121). -/
def execDuplexDisagree (fails : List (Fin 3)) (s : State) : Host.Outcome State Fault Refusal :=
  .next (
    let pair := s.supIn supRunning
    if !s.supUp ∨ pair.length ≠ 2 then s
    else
      let bad := pair.filter (fun i => (fails.map Fin.val).contains i)
      let lost := if bad.isEmpty then pair.drop 1 else bad
      let s1 := lost.foldl State.supLose s
      match pair.find? (fun i => !lost.contains i), lost with
      | some a, b :: _ => s1.startRestore a b
      | _, _ => s1.watchdog (lost.headD 0))

/-- SUP_HEARTBEAT: a running core beats, and its SRAM moves on; the lowest of them carries an owner command on for all. Outside a whole vote
its state goes to the checkpoint SRAM (R470, R471). -/
def execSupHeartbeat (i : Fin 3) (s : State) : Host.Outcome State Fault Refusal :=
  .next (
    if !s.supUp ∨ s.fld (supF i) ≠ supRunning then s
    else
      let s1 := if (s.supIn supRunning).headD 0 = i.val then s.ownerBeat else s
      let s2 := ({ s1 with sup := { s1.sup with beat := insertKey s1.sup.beat i s.time } }).setSram i s1.supImage
      if s2.checkpoints then { s2 with sup := { s2.sup with checkpoint := some s2.supImage } } else s2)

/-- The state of the checkpoint is restored (R470): its command starts again from its beginning, the send counter does not fall. A command
that began after the checkpoint starts again too (log entry 121). -/
def State.fromCheckpoint (s : State) : State :=
  let c := s.sup.checkpoint.getD s.supImage
  let cmd := match c.cmd with
    | some x => some x
    | none => s.sec.cmd
  { s with sec := { s.sec with cmd := cmd.map (fun x => { x with begun := false }) }
           mgmt := { s.mgmt with sendCtr := max s.mgmt.sendCtr c.sendCtr } }

/-- The core that restored runs (R469, R470); the loss it answered is logged. -/
def State.restored (s : State) (i : Nat) : State :=
  match s.sup.restoring with
  | none => s
  | some (t, lost) =>
    if t ≠ i then s
    else
      let s1 : State := { s with sup := { s.sup with restoring := none } }
      (((((s1.fromCheckpoint).setSram i (s1.fromCheckpoint).supImage).setFld (supF i) supRunning).bump fSupStateRestores 1).supLostLog lost).supShow

/-- A core that resynchronised rejoins (R468) with what the others hold now. -/
def State.resynced (s : State) (i : Nat) : State :=
  if s.sup.resync.contains i then
    (((({ s with sup := { s.sup with resync := s.sup.resync.filter (· != i) } }).setSram i s.supImage).setFld (supF i) supRunning).bump fSupStateRestores 1).supShow
  else s

end Sys2Proof.Machine
end

