-- ==== Sys2Proof/Machine/Starts.lean ====
section
/-! DEFINITION. Starts of the module (R405–R408, R415, R419, R462–R464): the resets from outside, the end of the auxiliary stage, VAUX; the
test and calibration requests (R427–R430, R433). -/

namespace Sys2Proof.Machine

/-! ### Resets from outside (R406) -/

/-- COLD_RESET: VAUX comes up from no power; a seal loop that is open at the start zeroises (R405, R456). A PRESENCE_N that is low already
opens no window (R506). -/
def execColdReset (sealClosed : Bool) (s : State) : Host.Outcome State Fault Refusal :=
  .next (
    let s1 := s.restart caCold 0 (if s.pins.perst then 0 else 1)
    let s2 := ({ s1 with pins := { s.pins with vaux := true, held := none }, sec := { s1.sec with pressed := s.pins.presence } }).setFld
      fSecStateSealClosed (ofBool sealClosed)
    if sealClosed then s2 else s2.zeroise)

/-- PERST_ASSERT: a warm reset, held. -/
def execPerstAssert (s : State) : Host.Outcome State Fault Refusal :=
  .next (
    let s1 := { s with pins := { s.pins with perst := true } }
    if s.pins.vaux then s1.warm caPerst 0 0 else s1)

/-- PERST_DEASSERT: the auxiliary stage proceeds. -/
def execPerstDeassert (s : State) : Host.Outcome State Fault Refusal :=
  .next (
    let s1 := { s with pins := { s.pins with perst := false } }
    if s.pins.perst ∧ s.pins.vaux ∧ s.fld fBringStateAux = 0 then s1.setFld fBringStateAux 1 else s1)

/-- HOT_RESET. -/
def execHotReset (s : State) : Host.Outcome State Fault Refusal := .next (if s.pins.vaux then s.warm caHotReset 0 1 else s)

/-- FLR. -/
def execFlr (s : State) : Host.Outcome State Fault Refusal := .next (if s.pins.vaux then s.warm caFlr 0 1 else s)

/-- VAUX_LOSS: no feed is valid and VAUX is gone; rails that still stood give their last gasp; everything but flash is lost. -/
def execVauxLoss (s : State) : Host.Outcome State Fault Refusal :=
  .next (
    if !s.pins.vaux ∨ s.pwr.validA.isSome ∨ s.pwr.validB.isSome then s
    else
      let s1 := if s.railsUp then s.sendLastGasp.log { code := 0x0606, cls := 3, action := 8 } else s
      { State.reset with
        flash := s1.flashCut, pins := { s1.pins with vaux := false, held := none }, free := s1.free, out := s1.out, pending := s1.pending })

/-! ### The auxiliary stage (R419, R462–R464) -/

/-- FW_FALLBACK (R462, R463). -/
def State.fwFallback (s : State) (bank vintage : Nat) : State := s.log { code := 0x0906, detail := leBytes 1 bank ++ leBytes 4 vintage }

/-- Records of the carry-over area that wait for their acknowledgement, queued again in their order, before any new one (R380); one that was
logged in this start stands in the queue already. -/
def State.requeue (s : State) : State :=
  let l : List MgmtItem := (s.flash.carry.filter (fun c => !c.acked)).map (fun c => ⟨1, c.record.bytes false, true, false, none⟩)
  let g : List MgmtItem := match s.flash.lastGasp with
    | some (b, false) => [⟨4, b, true, false, none⟩]
    | _ => []
  let waits := (l ++ g).filter (fun x => !s.mgmt.queue.any (fun y => y.kind == x.kind && y.body == x.body))
  ({ s with mgmt := { s.mgmt with queue := waits ++ s.mgmt.queue } }).mgmtShow

/-- The end of the auxiliary stage, well (2) or not (3): inputs show, records resume with those carried over first, the outputs are evaluated
again and FAULT_N's event with them (R508, R488). -/
def State.auxEnd (s : State) (aux : Nat) : State :=
  let s1 := ((s.showSec.sampleInputs).setFld fBringStateAux aux).requeue
  let s2 : State := { s1 with pins := { s1.pins with held := none } }
  ((if s2.faultOn == s.outputs.fault then s2 else s2.event evFault (ofBool s2.faultOn)).reportDrops).mgmtFlush

/-- The auxiliary stage ends well: the ROM has locked the secrets and handed over, measurement 8 is taken (R434, R437), aux reads DONE. -/
def State.auxOk (s : State) : State :=
  (({ s with sec := { s.sec with meas8 := s.takeMeas8, romLocked := true } } : State).setFld fSecStateRngOk 1).auxEnd 2

/-- The auxiliary stage fails. -/
def State.auxFail (s : State) : State := s.auxEnd 3

/-- Does the staged bundle activate at this start (R462)? -/
def State.activates (s : State) : Option FwStaged := match s.flash.staged with
  | some b => if !b.failed && (!b.together || s.fld fRstCauseCause == caCold) then some b else none
  | none => none

/-- Place of a sector within a region, if it lies there. -/
def inRegion (r n : Nat) : Option Nat :=
  let g := flashRegion r
  if g.1 ≤ n ∧ n < g.1 + g.2 then some (n - g.1) else none

/-- A list without the entries of a sector that holds so many of them. -/
def dropSector {α : Type} (per k : Nat) (l : List α) : List α := l.take (per * k) ++ l.drop (per * (k + 1))

/-- A sector that fails authentication is treated as erased (R449): the firmware of its bank, the stored image, 256 defect-log entries, the
fatal records or the last gasp, 64 carried records, or owner and policy, the security state, or the counters that it held (log entry 109). -/
def Flash.eraseSector (f : Flash) (n : Nat) : Flash :=
  if (inRegion 0 n).isSome then { f with banks := setAt f.banks 0 FwBank.blank }
  else if (inRegion 1 n).isSome then { f with banks := setAt f.banks 1 FwBank.blank }
  else match inRegion 2 n, inRegion 3 n, inRegion 4 n, inRegion 5 n, inRegion 6 n with
  | some k, _, _, _, _ => if f.image.any (fun b => decide (4096 * k < b.length)) then { f with image := none } else f
  | _, some k, _, _, _ => { f with defects := dropSector 256 k f.defects }
  | _, _, some k, _, _ => if k = 0 then { f with fatals := [] } else if k = 1 then { f with lastGasp := none } else f
  | _, _, _, some k, _ => { f with carry := dropSector 64 k f.carry }
  | _, _, _, _, some k =>
    if k = 0 then { f with owner := none, ownerPending := none, win0 := 0#64, win1 := 0#64, requireIde := false }
    else if k = 1 then { f with
      zeroised := false, debug := false, debugPending := none, svnFloor := 0, floor := 0, staged := none, active := 0, fatalSinceOpen := false }
    else if k = 2 then { f with boot := 0, fatalCount := 0, sinceFull := none, disturb := [] }
    else f
  | _, _, _, _, _ => f

/-- How often a sector has been written (R449). -/
def Flash.writesOf (f : Flash) (n : Nat) : Nat := (lookupKey f.writes n).getD 0

/-- The key of a sector, derived from the flash key (R449). PRESUMED: HKDF-SHA-384 with the sector's number as its info (log entry 109). -/
def sectorKey (n : Nat) : List Byte := hkdf384 flashKey [] (leBytes 4 n) 32

/-- The IV of a sector as it stands: its number and its write counter (R449, log entry 109). -/
def Flash.sectorIv (f : Flash) (n : Nat) : List Byte := leBytes 4 n ++ leBytes 8 (f.writesOf n)

/-- A sector's bytes as flash holds them, with their tag: AES-256-GCM (R449). -/
def Flash.sectorWrap (f : Flash) (n : Nat) (plain : List Byte) : List Byte × List Byte :=
  let ct := gcmCrypt (sectorKey n) (f.sectorIv n) 0 plain
  (ct, gcmTag (sectorKey n) (f.sectorIv n) [] ct)

/-- A sector read back: none where its authentication fails (R449). -/
def Flash.sectorRead (f : Flash) (n : Nat) (ct tag : List Byte) : Option (List Byte) :=
  if gcmTag (sectorKey n) (f.sectorIv n) [] ct = tag then some (gcmCrypt (sectorKey n) (f.sectorIv n) 0 ct) else none

/-- A bank's contents. -/
def Flash.bank (f : Flash) (n : Nat) : FwBank := f.banks.getD n FwBank.blank

/-- What the ROM and the supervisor find of a bank whose images verify or not: one that was erased, or whose write failed, holds none. -/
def Flash.bankOk (f : Flash) (n : Nat) (found : Bool) : Bool := found && f.bank n != FwBank.blank

/-- The firmware of a bank runs. -/
def State.runs (s : State) (b : FwBank) : State := { s with sec := { s.sec with running := b } }

/-- Boot at the end of the auxiliary stage from a bank that is tried first, found good or not, else once from the other (R462, R463): `first`
is the staged bank where it activates, which a good outcome makes active with the floor risen, and a bad one marks FAILED. -/
def State.bootBanks (s : State) (firstOk otherOk : Bool) : State :=
  let f := s.flash
  let a := f.active
  match s.activates with
  | some b =>
    if f.bankOk (1 - a) firstOk then
      (({ s with flash := ({ f with active := 1 - a, staged := none, svnFloor := max f.svnFloor b.bank.svn } : Flash).wrote 6 [1] }).runs
        (f.bank (1 - a))).auxOk
    else
      let s1 := ({ s with flash := ({ f with staged := some { b with failed := true } } : Flash).wrote 6 [1] }).fwFallback (1 - a) b.bank.vintage
      if f.bankOk a otherOk then (s1.runs (f.bank a)).auxOk else s1.auxFail
  | none =>
    if f.bankOk a firstOk then (s.runs (f.bank a)).auxOk
    else if f.bankOk (1 - a) otherOk then
      (((s.setFld fSecFwstateFallback 1).fwFallback (1 - a) (f.bank (1 - a)).vintage).runs (f.bank (1 - a))).auxOk
    else s.auxFail

/-- AUX_DONE: sectors that fail their authentication are logged and count as erased (R449); the bank that comes first is verified with its
supervisor (`activeOk`) and its other images (`imagesOk`), the other bank as a whole (`otherOk`; R462, R463). -/
def execAuxDone (activeOk otherOk imagesOk : Bool) (badSectors : List (BitVec 32)) (s : State) : Host.Outcome State Fault Refusal :=
  .next (
    if s.fld fBringStateAux ≥ 2 ∨ s.pins.perst ∨ !s.pins.vaux then s
    else
      let s0 : State := ({ s with flash := badSectors.foldl (fun f x => f.eraseSector x.toNat) s.flash } : State).loadFlash
      (badSectors.foldl (fun s x => s.log { code := 0x0909, detail := leBytes 4 x.toNat }) s0).bootBanks (activeOk && imagesOk) otherOk)

/-- SVC_RUN: while aux is FAILED a checked bundle boots from memory and completes the auxiliary stage (R464). -/
def execSvcRun (f : SFrame) (s : State) : Host.Outcome State Fault Refusal :=
  .next (s.svcFrame f (fun s => match s.sec.rescue with
    | none => (s, some 3)
    | some b =>
      if s.fld fBringStateAux ≠ 3 then (s, some 3)
      else
        ((({ s with sec := { s.sec with rescue := none } } : State).runs b).auxOk, none)))

/-! ### Test and calibration requests (R427–R430, R433) -/

/-- TST.REQ ends with a status. -/
def State.tstEnd (s : State) (st : Nat) : State := s.setFlds [(fTstReqStatus, st), (fTstReqBusy, 0), (fTstReqWaiting, 0)]

/-- Do the needs of an intrusive request hold (R428)? -/
def State.tstNeeds (s : State) (op : Nat) : Bool :=
  s.quiesced && (op == 10 || (List.range 128).all (fun c => s.fld (fCtxCtlState c) == 0))

/-- A requested screen (R428): one whose defects exceed the spares is a fatal-module error. A FULL one sets C to 0, for the MEMSCREEN of this
start too (R42). -/
def State.tstScreen (s : State) (full : Bool) (obs : ScreenObs) : State :=
  let r := s.screen full obs
  let t := r.1.screenEnd
  let s1 : State := if full then { (t.setSinceFull (some 0)) with img := { t.img with startC := 0 } } else t
  if r.2 then s1.tstEnd 0
  else s1.fatalModule { code := 0x0308, kind := 5, unit := (obs.overCapacity.map Fin.val).headD 0 } caFatal

/-- What an intrusive request does (R428). -/
def State.tstRun (s : State) (op target : Nat) (train : List TrainObs) (screen : ScreenObs) : State :=
  match op with
  | 8 => s.tstScreen (target == 1) screen
  | 9 =>
    let r := s.setInterleave.train train
    if r.2 then r.1.tstScreen false screen else r.1.tstEnd 4
  | _ => s.tstEnd 0

/-- CORE_TEST: every ACTIVE and SPARE core of the cluster goes to the head of its tasting order (R81, R384, R428). -/
def State.tstCores (s : State) (n : Nat) : State :=
  let l := ((List.range 18).map (n * 18 + ·)).filter (fun p => decide (s.coreState p ≤ 1))
  if n ≥ 32 then s.tstEnd 4
  else if l.isEmpty then s.tstEnd 0
  else { (s.setFld fTstReqBusy 1) with cores := { s.cores with
    asked := l, tasteHead := s.cores.tasteHead ++ l.filter (fun p => !s.cores.tasteHead.contains p) } }

/-- The state of an outcome; where it is none, the state before. -/
def nextOr (s : State) : Host.Outcome State Fault Refusal → State
  | .next t => t
  | _ => s

/-- The sweep of an engine's idle spares, widths and heights as measured (R281). -/
def State.eyeSweep (s : State) (oe : Nat) (eye : List Byte) : State :=
  nextOr s (execEyeMarginSweep ⟨oe % 16, Nat.mod_lt _ (by decide)⟩ (eye.getD 0 0#8) (eye.getD 1 0#8) (eye.getD 2 0#8) (eye.getD 3 0#8) s)

/-- One check of every diode and of the coolant sensors (R364, R366). -/
def State.sensorsChecked (s : State) (obs : HostObs) : State :=
  nextOr s (execCoolantSensorCheck obs.cool (obs.diodes.foldl State.diodeOne s))

/-- A host write of TST.REQ (R428, R429, R433). -/
def State.tstReqWrite (s : State) (v : Word) (obs : HostObs) : State :=
  let s0 := if getBits v fTstReqCancel = 1 ∧ s.bit fTstReqWaiting then s.tstEnd 0x0A else s
  if s0.bit fTstReqBusy then s0
  else
    let s1 := s0.writeUnder takesAll rTstReq v
    let t := getBits v fTstReqTarget
    let op := getBits v fTstReqOp
    if getBits v fTstReqGo = 0 then s1
    else match op with
      | 1 => s1.tstCores t
      | 2 => if t ≥ 16 then s1.tstEnd 4 else (s1.eyeSweep t obs.eye).tstEnd 0
      | 3 => (s1.sensorsChecked obs).tstEnd 0
      | 8 | 9 | 10 =>
        if s1.tstNeeds op then s1.tstRun op t obs.train obs.screen
        else if getBits v fTstReqDefer = 1 then s1.setFlds [(fTstReqBusy, 1), (fTstReqWaiting, 1)]
        else s1.tstEnd 2
      | _ => s1

/-- A row of TST.REQ: the word with go and the row's op. -/
def State.tstRow (s : State) (v : Word) (op : Nat) (obs : HostObs) : State :=
  let w := withOp v fTstReqGo fTstReqOp op
  s.hostWrite rTstReq w obs (fun s => s.tstReqWrite w obs)

/-- CORE_TEST. -/
def execCoreTest (v : Word) (s : State) : Host.Outcome State Fault Refusal := .next (s.tstRow v 1 HostObs.plain)

/-- EYE_MARGIN (R281). -/
def execEyeMargin (v : Word) (w0 h0 w1 h1 : Byte) (s : State) : Host.Outcome State Fault Refusal :=
  .next (s.tstRow v 2 { HostObs.plain with eye := [w0, h0, w1, h1] })

/-- SENSOR_CHECK (R364, R366). -/
def execSensorCheck (v : Word) (obs : List DiodeObs) (cool : CoolObs) (s : State) :
    Host.Outcome State Fault Refusal :=
  .next (s.tstRow v 3 { HostObs.plain with diodes := obs, cool := cool })

/-- MEM_SCREEN. -/
def execMemScreen (v : Word) (obs : ScreenObs) (s : State) : Host.Outcome State Fault Refusal :=
  .next (s.tstRow v 8 { HostObs.plain with screen := obs })

/-- MEM_TRAIN. -/
def execMemTrain (v : Word) (obs : List TrainObs) (screen : ScreenObs) (s : State) : Host.Outcome State Fault Refusal :=
  .next (s.tstRow v 9 { HostObs.plain with train := obs, screen := screen })

/-- SENSOR_CAL: no mark is cleared, no flash written. -/
def execSensorCal (v : Word) (s : State) : Host.Outcome State Fault Refusal := .next (s.tstRow v 10 HostObs.plain)

/-- TST_CANCEL (R429). -/
def execTstCancel (s : State) : Host.Outcome State Fault Refusal :=
  .next (s.hostWrite rTstReq (putBits 0#64 fTstReqCancel 1) HostObs.plain
    (fun s => if s.bit fTstReqWaiting then s.tstEnd 0x0A else s))

/-- DEFERRED_TEST_START: the needs of the waiting request hold (R429). -/
def execDeferredTestStart (obs : List TrainObs) (screen : ScreenObs) (s : State) : Host.Outcome State Fault Refusal :=
  .next (
    let op := s.fld fTstReqOp
    if s.bit fTstReqWaiting ∧ s.tstNeeds op then s.tstRun op (s.fld fTstReqTarget) obs screen else s)

end Sys2Proof.Machine
end

