-- ==== Sys2Proof/Machine/Management.lean ====
section
/-! DEFINITION. The management plane (R473–R492): records in and out, orders of the rack manager, telemetry, the management link, the I3C
side-band, the indicator requests. -/

namespace Sys2Proof.Machine

/-! ### Records (R474–R476) -/

/-- The bytes of a record that its hmac covers (R474). -/
def recBytes (m : MRec) : List Byte :=
  leBytes 4 m.magic.toNat ++ [m.version, m.kind, m.flags, m.reserved] ++ leBytes 2 m.node.toNat ++ leBytes 2 m.body.length
  ++ leBytes 4 m.sender.toNat ++ leBytes 8 m.tag.toNat ++ leBytes 8 m.counter.toNat ++ m.body

/-- Types of record that the module takes (R476). -/
def takenKinds : List Nat := [0x10, 0x11, 0x12, 0x13, 0x20, 0x21, 0x22, 0x7F]

/-- Is a record marked authenticated? -/
def recSigned (m : MRec) : Bool := m.flags.getLsbD 0

/-- Is the body as long as its type has it (R476)? Orders, CONFIG and QUERY are judged with their answers (R486). -/
def bodyFits (m : MRec) : Bool :=
  match m.kind.toNat with
  | 0x21 => m.body.length == 240
  | 0x22 => m.body.isEmpty
  | 0x7F => m.body.length == 16
  | _ => true

/-- Does a record keep R474 and carry a type that the module takes? -/
def recFormed (m : MRec) : Bool :=
  m.magic == 0x54474D47#32 && m.version == 1#8 && m.reserved == 0#8 && decide (m.flags.toNat < 4) && decide (m.node.toNat < 4096)
  && decide (m.body.length ≤ 1024) && decide (m.hmac.length = 16) && takenKinds.contains m.kind.toNat && bodyFits m
  && (recSigned m || m.hmac.all (· == 0#8))

/-- Results of REPLY (R486). -/
def rpDone : Nat := 0
def rpClamped : Nat := 1
def rpAuth : Nat := 2
def rpReplay : Nat := 3
def rpNoKey : Nat := 4
def rpBadRecord : Nat := 5
def rpTag : Nat := 6
def rpSenders : Nat := 7

/-- The floor of a sender number. -/
def State.floorOf (s : State) (m : MRec) : Option Nat := lookupKey s.mgmt.floors m.sender.toNat

/-- Does the hmac verify under the management key? -/
def State.hmacOk (s : State) (m : MRec) : Bool := match s.mgmt.key with
  | some k => recSigned m && (hmac384 k (recBytes m)).take 16 == m.hmac
  | none => false

/-- The first refusal of a record that must be authenticated (R475, R486), DONE where there is none. -/
def State.authResult (s : State) (m : MRec) : Nat :=
  if s.mgmt.key.isNone then rpNoKey
  else if m.tag ≠ keyTag deviceKey then rpTag
  else if !s.hmacOk m then rpAuth
  else if m.sender = 0#32 ∨ ((s.floorOf m).isNone ∧ s.mgmt.floors.length ≥ 16) then rpSenders
  else match s.floorOf m with
    | some f => if m.counter.toNat ≤ f then rpReplay else rpDone
    | none => if m.counter = 0#64 then rpReplay else rpDone

/-- An accepted authenticated record raises its sender's floor (R475). -/
def State.raiseFloor (s : State) (m : MRec) : State :=
  { s with mgmt := { s.mgmt with floors := insertKey s.mgmt.floors m.sender.toNat m.counter.toNat } }

/-- The module answers with a REPLY (R486): to the rack manager for an order or CONFIG, else to the sender. -/
def State.reply (s : State) (m : MRec) (result : Nat) : State :=
  s.mgmtSend [if m.kind.toNat ≤ 0x12 then s.rackTo else s.askerTo] 0x7F true
    (leBytes 8 m.counter.toNat ++ [m.kind] ++ leBytes 1 result ++ leBytes 6 0)

/-- A record reaches the supervisor (R476, R492, R508): a bad one is counted; during a restore it waits. -/
def State.recv (s : State) (m : MRec) (f : State → State) : State :=
  if !s.supUp ∨ !s.bit fMgtLinkUp then s
  else if !recFormed m then s.bump fMgtQueueBad 1
  else if s.holding then { s with sup := { s.sup with heldRecs := s.sup.heldRecs ++ [m] } }
  else f s

/-- An order, or CONFIG, that must be authenticated and whose body must hold; refused, it changes nothing but the answer. -/
def State.ordered (s : State) (m : MRec) (ok : Bool) (f : State → State) : State :=
  let r := s.authResult m
  if r ≠ rpDone then s.reply m r
  else if !ok then s.reply m rpBadRecord
  else f (s.raiseFloor m)

/-! ### Orders (R478, R484, R485) -/

/-- POWER_ORDER's body (R484). -/
def powerBodyOk (b : List Byte) : Bool :=
  decide (b.length = 8) && decide (field b 0 1 ≤ 3) && decide (field b 1 1 ≤ 1) && decide (field b 4 4 = 0)

/-- Apply a POWER_ORDER: the answer leaves before what it orders takes effect. -/
def State.powerOrderDo (s : State) (m : MRec) : State :=
  let c := field m.body 2 2
  let cc := clampCap c s.inputCap
  let s1 := s.reply m (if c ≠ 0 ∧ cc ≠ c then rpClamped else rpDone)
  let s2 := if c = 0 then s1 else s1.setFld fPwrRackCeiling cc
  s.capCut (s2.rackOrder (field m.body 0 1) (field m.body 1 1 == 1))

/-- RESET_ORDER's body (R485). -/
def resetBodyOk (b : List Byte) : Bool := decide (b.length = 8) && decide (field b 0 8 = 1)

/-- CONFIG's body (R478). -/
def configBodyOk (b : List Byte) : Bool :=
  let p := field b 32 2
  decide (b.length = 40) && decide (p = 0 ∨ (100 ≤ p ∧ p ≤ 60000)) && decide (field b 34 1 ≤ 2) && decide (field b 35 5 = 0)

/-- Apply a CONFIG. -/
def State.configDo (s : State) (b : List Byte) : State :=
  let addr (o : Nat) (old : List Byte) : List Byte := if fromLe ((b.drop o).take 16) = 0 then old else (b.drop o).take 16
  let l := field b 34 1
  let s1 := { s with mgmt := { s.mgmt with
    rackAddr := addr 0 s.mgmt.rackAddr, fleetAddr := addr 16 s.mgmt.fleetAddr
    locateConfig := if l = 2 then s.mgmt.locateConfig else l == 1 } }
  if field b 32 2 = 0 then s1 else s1.setFld fMgtCtlPeriod (field b 32 2)

/-! ### Telemetry and links (R479) -/

/-- Bits of ports that satisfy a test. -/
def portMask (f : Nat → Bool) : Nat := ((List.range 32).map (fun p => ofBool (f p) * 2 ^ p)).foldl (· + ·) 0

/-- Highest forecast on a die. -/
def State.dieForecast (s : State) (d : Nat) : Nat := ((List.range 8).map (fun j => s.fld (fThmClForecast (8 * d + j)))).foldl max 0

/-- Body of a TELEMETRY record (R479). -/
def State.telemetry (s : State) : List Byte :=
  let up (p : Nat) : Bool := s.portState p == stSealed
  leBytes 8 s.stampTime ++ leBytes 2 (s.fld fPwrInputPower) ++ leBytes 2 (s.fld fPwrInputCap) ++ leBytes 1 (s.fld fPwrInputState)
  ++ leBytes 1 (s.fld fPwrInputOffReason) ++ leBytes 2 (s.fld fThmCoolInlet) ++ leBytes 2 (s.fld fThmCoolOutlet)
  ++ leBytes 1 (s.fld fThmCoolFlow)
  ++ leBytes 1 (s.fld fThmCoolFlowState + 4 * s.fld fThmLeakLevel + 16 * s.fld fSupStateCondition)
  ++ (List.range 4).flatMap (fun d => leBytes 2 (s.fld (fPwrDieFjob d))) ++ (List.range 4).flatMap (fun d => leBytes 2 (s.dieForecast d))
  ++ leBytes 4 (portMask up) ++ leBytes 4 (portMask (fun p => up p && decide (s.fld (fLnkPortStateWidth p) < 16)))
  ++ leBytes 1 (((List.range 4).map (fun p => s.fld (fCtxPartState p) * 4 ^ p)).foldl (· + ·) 0) ++ leBytes 3 0
  ++ leBytes 4 (((List.range 14).map (fun w => ofBool (s.warned (w + 1)) * 2 ^ w)).foldl (· + ·) 0)
  ++ leBytes 2 (min 65535 s.mgmt.telCorrected) ++ leBytes 2 (min 65535 s.mgmt.telDeferred)
  ++ leBytes 4 (s.fld fSecFwRunning) ++ leBytes 4 (s.fld fSecFwStaged)

/-- The counts of TELEMETRY start again. -/
def State.telReset (s : State) : State := { s with mgmt := { s.mgmt with telCorrected := 0, telDeferred := 0 } }

/-- TELEMETRY_TIMER. -/
def execTelemetryTimer (s : State) : Host.Outcome State Fault Refusal :=
  .next (if !s.supUp then s else (s.mgmtQueue ⟨3, s.telemetry, false, false, none⟩).telReset)

/-- The answer to a QUERY goes to its sender (R477). -/
def State.queryDo (s : State) (m : MRec) : State :=
  if field m.body 0 1 = 1 then (s.answerMgmt 3 s.telemetry).telReset else s.answerMgmt 5 s.linksBody

/-! ### SPDM, owner commands, NONCE (R475, R481) -/

/-- A record of types 0x20–0x22: taken without authentication, and unchecked then but for its sender number; one marked authenticated must
be (R475). -/
def State.openRec (s : State) (m : MRec) (f : State → State) : State :=
  if !recSigned m ∧ m.sender = 0#32 then s.reply m rpSenders
  else if m.tag ≠ keyTag deviceKey then s.reply m rpTag
  else if recSigned m then
    let r := s.authResult m
    if r ≠ rpDone then s.reply m r else f (s.raiseFloor m)
  else f s

/-- One plain SPDM message: its code, two parameters and the fields that follow. -/
def State.spdmPlain (s : State) (b : List Byte) : State :=
  let p1 : Byte := b.getD 2 0#8
  let p2 : Byte := b.getD 3 0#8
  let n (o : Nat) : BitVec 16 := BitVec.ofNat 16 (field b o 2)
  match field b 1 1 with
  | 0x84 => nextOr s (execGetVersion .mgmt s)
  | 0xE1 => nextOr s (execGetCapabilities .mgmt s)
  | 0xE3 => nextOr s (execNegotiateAlgorithms .mgmt (offersAlgos b) s)
  | 0x81 => nextOr s (execGetDigests .mgmt s)
  | 0x82 => nextOr s (execGetCertificate .mgmt p1 (n 4) (n 6) s)
  | 0x83 => nextOr s (execChallenge .mgmt p1 ((b.drop 4).take 32) s)
  | 0xE0 => nextOr s (execGetMeasurements .mgmt p2 (p1.getLsbD 0) ((b.drop 4).take 32) s)
  | 0xE4 => nextOr s (execKeyExchange .mgmt p2 (b.drop 4) s)
  | _ => s.spdmError .mgmt 7

/-- A message inside a session: FINISH, whose check of the transcript is a free value (log entry 117), the messages of an established session,
or any other message. -/
def State.spdmInner (s : State) (n : Nat) (b : List Byte) : State :=
  match field b 1 1 with
  | 0xE5 =>
    let f := s.takeFree
    nextOr f.2 (execSpdmFinish .mgmt n (f.1.getLsbD 0) f.2)
  | 0xE8 => nextOr s (execHeartbeat .mgmt n s)
  | 0xE9 => nextOr s (execKeyUpdate .mgmt n s)
  | 0xEC => nextOr s (execEndSession .mgmt n s)
  | _ => s.within n (fun s => s.spdmPlain b)

/-- The message of an SPDM record (R481): plain, or in the secured-message format, which begins with the number of a session and the length of
what follows (log entry 117); what does not open is answered with a decryption error. -/
def State.spdmMsg (s : State) (b : List Byte) : State :=
  match s.sec.mgmt.sessions.find? (fun x => x.id == field b 0 4) with
  | some x =>
    if field b 4 2 + 6 ≠ b.length then s.spdmPlain b
    else match Config.securedOpen x.id x.epoch (b.drop 6) with
      | some m => s.spdmInner x.id m
      | none => s.spdmError .mgmt 6
  | none => s.spdmPlain b

/-! ### Acknowledgements (R380, R480) -/

/-- A REPLY of the fleet collector takes the record that it echoes out of the queue and marks it in flash. -/
def State.ackRecord (s : State) (counter : Nat) : State :=
  match s.mgmt.queue.find? (fun it => it.sent == some counter) with
  | none => s
  | some it =>
    let q := s.mgmt.queue.filter (fun x => x.sent != some counter)
    let same (c : Carry) : Bool := c.record.seq == field it.body 0 4 && c.record.boot == field it.body 4 4
    let f := if it.kind = 4 then ({ s.flash with lastGasp := s.flash.lastGasp.map (fun g => (g.1, true)) } : Flash).wrote 4 [1]
      else ({ s.flash with carry := s.flash.carry.map (fun c => if same c then { c with acked := true } else c) } : Flash).wrote 5
        ((s.flash.carry.findIdx? same).map (· / 64)).toList
    ({ s with mgmt := { s.mgmt with queue := q }, flash := f }).mgmtShow.reportDrops

/-! ### What a record does -/

/-- Dispatch a record that is well formed, by its type; answers go to its sender's address (R477). -/
def State.recDo (s0 : State) (m : MRec) : State :=
  let s : State := { s0 with mgmt := { s0.mgmt with asker := beBytes 16 m.from_.toNat } }
  match m.kind.toNat with
  | 0x10 => s.ordered m (powerBodyOk m.body) (fun s => s.powerOrderDo m)
  | 0x11 => s.ordered m (resetBodyOk m.body) (fun s => (s.reply m rpDone).warm caRack 0 1)
  | 0x12 => s.ordered m (configBodyOk m.body) (fun s => (s.configDo m.body).reply m rpDone)
  | 0x13 => s.ordered m (decide (m.body.length = 1 ∧ (field m.body 0 1 = 1 ∨ field m.body 0 1 = 2))) (fun s => s.queryDo m)
  | 0x20 => s.openRec m (fun s => s.spdmMsg m.body)
  | 0x21 => s.openRec m (fun s => s.ownerVia true m.body)
  | 0x22 => s.openRec m (fun s => s.answerMgmt 0x22 (leBytes 8 (s.fld fSecNonceNonce)))
  | _ => if s.authResult m = rpDone then (s.raiseFloor m).ackRecord (field m.body 0 8) else s

/-- A record of the row's type arrives. -/
def State.recRow (s : State) (m : MRec) (kind : Nat) : State :=
  let m1 : MRec := { m with kind := BitVec.ofNat 8 kind }
  s.recv m1 (fun s => s.recDo m1)

/-- POWER_ORDER (R484). -/
def execPowerOrder (m : MRec) (s : State) : Host.Outcome State Fault Refusal := .next (s.recRow m 0x10)

/-- RESET_ORDER (R485). -/
def execResetOrder (m : MRec) (s : State) : Host.Outcome State Fault Refusal := .next (s.recRow m 0x11)

/-- CONFIG (R478). -/
def execConfig (m : MRec) (s : State) : Host.Outcome State Fault Refusal := .next (s.recRow m 0x12)

/-- QUERY (R476). -/
def execQuery (m : MRec) (s : State) : Host.Outcome State Fault Refusal := .next (s.recRow m 0x13)

/-- SPDM (R481). -/
def execMgmtSpdm (m : MRec) (s : State) : Host.Outcome State Fault Refusal := .next (s.recRow m 0x20)

/-- OWNER_CMD (R481). -/
def execMgmtOwnerCmd (m : MRec) (s : State) : Host.Outcome State Fault Refusal := .next (s.recRow m 0x21)

/-- NONCE (R476). -/
def execNonce (m : MRec) (s : State) : Host.Outcome State Fault Refusal := .next (s.recRow m 0x22)

/-- REPLY (R480). -/
def execReply (m : MRec) (s : State) : Host.Outcome State Fault Refusal := .next (s.recRow m 0x7F)

/-- BAD_RECORD: a record of another type, or one that breaks R474, is discarded and counted (R476). -/
def execBadRecord (m : MRec) (s : State) : Host.Outcome State Fault Refusal :=
  .next (if !s.supUp ∨ !s.bit fMgtLinkUp ∨ recFormed m then s else s.bump fMgtQueueBad 1)

/-! ### The management link (R473, R480) -/

/-- MGMT_LINK_DOWN: records wait in the queue. -/
def execMgmtLinkDown (s : State) : Host.Outcome State Fault Refusal :=
  .next (if !s.bit fMgtLinkUp then s
    else (s.setFlds [(fMgtLinkUp, 0), (fMgtLinkGlobal, 0), (fMgtAddrhiAddr, 0), (fMgtAddrloAddr, 0)]).bump fMgtLinkDowns 1)

/-- MGMT_DOWN_TIMER: down for 1 s. -/
def execMgmtDownTimer (s : State) : Host.Outcome State Fault Refusal :=
  .next (if s.bit fMgtLinkUp then s else s.log { code := 0x0704, kind := 14 })

/-- MGMT_LINK_UP: the link returns; what waits goes out (R480). -/
def execMgmtLinkUp (fec : Bool) (addr : Option (BitVec 128)) (s : State) : Host.Outcome State Fault Refusal :=
  .next (if s.bit fMgtLinkUp ∨ !s.pins.vaux then s
    else
      let a := (addr.map BitVec.toNat).getD 0
      let s1 := s.setFlds [(fMgtLinkUp, 1), (fMgtLinkFec, ofBool fec), (fMgtLinkGlobal, ofBool addr.isSome), (fMgtAddrhiAddr, a / 2 ^ 64),
        (fMgtAddrloAddr, a % 2 ^ 64)]
      ((s1.log { code := 0x0704, kind := 14 }).reportDrops).mgmtFlush)

/-! ### The side-band (R487–R489) -/

/-- An answer on the side-band; until the auxiliary stage has ended ERROR_NOT_READY (R508). -/
def State.i3cSay (s : State) (f : State → State × List Byte) : State :=
  if !s.pins.vaux then s
  else if !s.supUp then s.emit (.i3c [0x04#8])
  else let r := f s; r.1.emit (.i3c (0#8 :: r.2))

/-- ENTDAA. -/
def execEntdaa (addr : BitVec 7) (s : State) : Host.Outcome State Fault Refusal :=
  .next (if s.pins.vaux then
      (let s1 := s.setFld fMgtI3cDynAddr addr.toNat
       if s.mgmt.events.isEmpty ∨ addr = 0#7 then s1 else s1.emit .ibi)
    else s)

/-- SET_ENDPOINT_ID. -/
def execSetEndpointId (eid : Byte) (s : State) : Host.Outcome State Fault Refusal :=
  .next (if s.pins.vaux then (s.setFld fMgtI3cEid eid.toNat).emit (.i3c [0#8, eid]) else s)

/-- A numeric sensor (R488). -/
def State.sensor (s : State) : Sensor → Nat
  | .inputPower => s.fld fPwrInputPower
  | .effectiveCap => s.fld fPwrInputCap
  | .inlet => s.fld fThmCoolInlet
  | .outlet => s.fld fThmCoolOutlet
  | .flow => s.fld fThmCoolFlow
  | .fjob d => s.fld (fPwrDieFjob d)
  | .forecast d => s.dieForecast d

/-- GET_SENSOR_READING. -/
def execGetSensorReading (x : Sensor) (s : State) : Host.Outcome State Fault Refusal :=
  .next (s.i3cSay (fun s => (s, leBytes 2 (s.sensor x))))

/-- The numeric sensors, state sensors and effecters of the PDR repository (R487, R488), in the order of the table. The manual gives no row to
read it by. -/
def numericPdrs : List Sensor :=
  [.inputPower, .effectiveCap, .inlet, .outlet, .flow] ++ (List.finRange 4).flatMap (fun d => [.fjob d, .forecast d])
def statePdrs : List StateSensor := [.power, .leak] ++ (List.finRange 32).map .port ++ [.supervisor, .fault, .firmware]
def effecterPdrs : List String := ["Locate"]

/-- The PLDM types that the module answers (R487): base, Platform Monitoring and Control, OEM. PRESUMED: the type numbers of DSP0245 (log entry
117). -/
def pldmTypes : List Nat := [0x00, 0x02, 0x3F]

/-- A state sensor (R488). -/
def State.stateSensor (s : State) : StateSensor → List Nat
  | .power => [s.fld fPwrInputState, s.fld fPwrInputOffReason]
  | .leak => [s.fld fThmLeakLevel]
  | .port p => [s.portState p, s.fld (fLnkPortStateWidth p), s.fld (fLnkPortCableStatus p)]
  | .supervisor => [s.fld fSupStateCondition]
  | .fault => [ofBool s.faultOn]
  | .firmware => [s.fwStage]

/-- GET_STATE_SENSOR_READINGS. -/
def execGetStateSensorReadings (x : StateSensor) (s : State) : Host.Outcome State Fault Refusal :=
  .next (s.i3cSay (fun s => (s, (s.stateSensor x).map (BitVec.ofNat 8))))

/-- SET_STATE_EFFECTER_STATES: the locate effecter (R488, R491). -/
def execSetStateEffecterStates (on : Bool) (s : State) : Host.Outcome State Fault Refusal :=
  .next (s.i3cSay (fun s => ({ s with mgmt := { s.mgmt with locatePldm := on } }, [])))

/-- POLL_FOR_PLATFORM_EVENT_MESSAGE: the oldest event that waits, or none. -/
def execPollForPlatformEventMessage (s : State) : Host.Outcome State Fault Refusal :=
  .next (s.i3cSay (fun s => match s.mgmt.events with
    | [] => (s, [])
    | e :: l => ({ s with mgmt := { s.mgmt with events := l } }, leBytes 2 e.1 ++ leBytes 1 e.2)))

/-- SET_MANAGEMENT_KEY (R475, R489): counters and floors start again; records that wait for their REPLY are sent anew under the key. -/
def execSetManagementKey (key : List Byte) (s : State) : Host.Outcome State Fault Refusal :=
  .next (s.i3cSay (fun s =>
    if key.length ≠ 32 then (s, [])
    else
      let q : List MgmtItem := s.mgmt.queue.map (fun it => { it with sent := none })
      let g := { s.mgmt with key := some key, sendCtr := 0, floors := [], queue := q }
      (({ s with mgmt := g }).setFld fMgtLinkKey 1, [])))

/-- LOCATE_HOST_WRITE (R491). -/
def execLocateHostWrite (v : Word) (s : State) : Host.Outcome State Fault Refusal :=
  .next (s.hostWrite rMgtCtl v HostObs.plain (fun s => s.writeUnder takesAll rMgtCtl v))

end Sys2Proof.Machine
end

