-- ==== Sys2Proof/Machine/HostAccess.lean ====
section
/-! DEFINITION. The host's accesses to BAR0, BAR2 and BAR4 that have no row elsewhere (R5–R8, R12, R208, R415, R450), the DEBUG frames of
the service port (R461), and the end of a restore or a resynchronisation, which serves what the host waited for (R468–R472). -/

namespace Sys2Proof.Machine

/-! ### Reading BAR0 (R6, R12) -/

/-- TASK.CL.POOL (R89); nothing stands in the pool of a partition that is not OPEN, until it is (R409). -/
def State.poolView (s : State) (n : Nat) (w : Word) : Word :=
  let opened := (s.partOfCluster n).any (fun p => s.fld (fCtxPartState p) == pOpen)
  let here := if opened then s.cores.pool.filter (fun t => t.cluster == n) else []
  let credited := ((List.range 16).filter (fun l => decide (s.freeCredits (n * 16 + l) ≥ 1))).length
  putBits (putBits (putBits w (fTaskClPoolReady n) (here.filter (·.ready)).length) (fTaskClPoolUsed n) here.length)
    (fTaskClPoolCredited n) credited

/-- TST.CL.oldest_s and unresolved (R404): the age of the oldest last pass among the cores of a cluster that are tasted, and the disagreements
of the last 24 h that no repeat resolved. -/
def State.tasteView (s : State) (n : Nat) (w : Word) : Word :=
  let l := ((List.range 18).map (n * 18 + ·)).filter (fun p => decide (s.coreState p ≤ 1))
  let age := (l.map (fun p => secondsOf (s.time - (s.coreLog p).lastPass))).foldl max 0
  putBits (putBits w (fTstClOldestS n) (min 65535 age)) (fTstClUnresolved n) (s.unresolvedNow n)

/-- The 16 bytes of a defect log entry (R389). -/
def Defect.bytes (d : Defect) : List Byte :=
  leBytes 1 d.kind ++ leBytes 1 d.source ++ leBytes 2 d.unit ++ leBytes 4 d.location ++ leBytes 4 d.boot ++ leBytes 2 d.code
  ++ leBytes 1 d.flags ++ [0#8]

/-- Eight bytes of the entry that ERR.DLOG names, zero beyond the entries (R403). -/
def State.dlogView (s : State) (half : Nat) : Word := match s.flash.defects[s.fld fErrDlogIndex]? with
  | some d => BitVec.ofNat 64 (fromLe ((d.bytes.drop (8 * half)).take 8))
  | none => 0#64

/-- ERR.LEES: the cause of the lees of the partition shown (R403). -/
def State.leesView (s : State) (w : Word) : Word :=
  match s.err.lees.find? (fun l => l.part == getBits w fErrLeesPartition) with
  | some l => putBits (putBits w fErrLeesSeq l.seq) fErrLeesCode l.code
  | none => putBits (putBits w fErrLeesSeq 0) fErrLeesCode 0

/-- PWR.RACK.notice_ms: what is left of the 5 s notice (R370). -/
def State.noticeView (s : State) (w : Word) : Word :=
  putBits w fPwrRackNoticeMs (match s.pwr.noticeAt with
    | some t => 5000 - (s.time - t) / 10 ^ 6
    | none => 0)

/-- A register as it stands: the stored word, with the fields that follow from other state. -/
def State.regNow (s : State) (off : Nat) : Word :=
  let w := s.reg off
  if off = rErrDlogdata0 then s.dlogView 0
  else if off = rErrDlogdata1 then s.dlogView 1
  else if off = rErrLees then s.leesView w
  else if off = rRteTime then BitVec.ofNat 64 s.fabTime
  else if off = rSecState then s.presenceView w
  else if off = rPwrRack then s.noticeView w
  else if 0x500000 ≤ off ∧ off < 0x500400 ∧ off % 0x20 = 0x18 then s.poolView ((off - 0x500000) / 0x20) w
  else if 0xE00000 ≤ off ∧ off < 0xE00100 then s.tasteView ((off - 0xE00000) / 8) w
  else w

/-- CUVEE.CTL.verify reads 1 while a verify runs (R47), unlike every other W1S field. -/
def State.verifyView (s : State) (off : Nat) (w : Word) : Word :=
  if off = rCuveeCtl then putBits w fCuveeCtlVerify (ofBool s.img.verify.isSome) else w

/-- An access of another size or alignment (R5). -/
def State.regAccessLog (s : State) (off : Nat) : State := s.log { code := 0x0101, kind := 13, detail := leBytes 4 off }

/-- The value that a naturally aligned read of BAR0 returns, and what the read leaves: RC fields are cleared, a reserved offset reads
zero (R6, R12). The compatibility page is read in 32 bits (R191–R194). -/
def State.bar0Read (s : State) (off : Nat) : State :=
  if off = rDecantLo then s.readDecantLo
  else if off = rDecantHi then s.readDecantHi
  else if off = rDecantLost then s.readCounter fDecantLostLost
  else if off = rDecantSpill then s.readCounter fDecantSpillSpill
  else if onCompat off then s.emit (.hostRead 4 (if (regLayout off).isSome then s.reg off else 0#64))
  else if off % 8 ≠ 0 then (s.regAccessLog off).emit (.hostRead 8 (BitVec.allOnes 64))
  else match regLayout off with
    | none => s.emit (.hostRead 8 0#64)
    | some l => (s.setReg off (readClear (s.reg off) l)).emit (.hostRead 8 (s.verifyView off (readView (s.regNow off) l)))

/-! ### Writing BAR0 -/

/-- A write to ZF.HOSTWIN: base and context are stored, and the window is bound only to an ACTIVE context that the owner's policy admits
(R450). -/
def State.hostwinWrite (s : State) (v : Word) : State :=
  let s1 := s.writeUnder takesAll rZfHostwin v
  let c := getBits v fZfHostwinCtx
  if getBits v fZfHostwinOn = 1 ∧ !(s.active c && s.admitsWindow c) then s1.setFld fZfHostwinOn 0 else s1

/-- BRING.CTL: step and, with go, the start of the step (R420). -/
def State.bringWrite (s : State) (v : Word) (obs : HostObs) : State :=
  let n := getBits v fBringCtlStep
  if getBits v fBringCtlGo = 0 then s.writeUnder takesAll rBringCtl v
  else match n with
    | 1 => nextOr s (execImage obs.flashOk s)
    | 2 => nextOr s (execPower obs.rail s)
    | 3 => nextOr s (execClocks obs.locked s)
    | 4 => nextOr s (execMemtrain obs.train s)
    | 5 => nextOr s (execMemscreen obs.screen s)
    | 6 => nextOr s (execDefects obs.defects s)
    | 7 => nextOr s (execLinks s)
    | 8 => nextOr s (execCabling s)
    | 9 => nextOr s (execSecure obs.rngOk obs.keyOk s)
    | 10 => nextOr s (execJoin obs.join s)
    | 11 => nextOr s (execOpenStep s)
    | _ => (s.setFld fBringCtlStep n).setFld fBringStateResult (if s.bit fBringStateBusy then brBusy else brOrder)

/-- SEC.CMD: with go, the owner command at SEC.CMDADDR begins (R451, R466). -/
def State.secCmdWrite (s : State) (v : Word) (obs : HostObs) : State :=
  if getBits v fSecCmdGo = 0 then s.writeUnder takesAll rSecCmd v else s.ownerStart obs.far.bytes

/-- Registers of a context (R88). -/
def State.ctxBlockWrite (s : State) (off : Nat) (v : Word) : State :=
  let c := (off - 0x200000) / 0x40
  match off % 0x40 with
  | 0x00 => s.ctxCtlWrite c v
  | 0x08 => s.qsyncWrite c v
  | 0x10 => s.qpagesWrite c v
  | 0x20 => s.qgroupsWrite c v
  | 0x28 => s.qbwWrite c v
  | _ => s.writeUnder takesPlain off v

/-- Registers of a context's queues and rings (R196). DESIGN CHOICE (log entry 126): BASE of an enabled queue or ring can be written, and is in
force at once. -/
def State.queBlockWrite (s : State) (off : Nat) (v : Word) : State :=
  let c := (off - 0x300000) / 0x400
  let x := off % 0x400
  if x % 0x20 ≠ 8 then s.writeUnder takesPlain off v
  else if x < 0x200 then s.cqCfgWrite c (x / 0x20) v
  else if x < 0x280 then s.xqCfgWrite c ((x - 0x200) / 0x20) v
  else s.ringCfgWrite c ((x - 0x280) / 0x20) v

/-- A naturally aligned write of BAR0 takes effect: each register by its own rule, the rest under their access codes (R12). -/
def State.bar0Write (s : State) (off : Nat) (v : Word) (obs : HostObs) : State :=
  if onCompat off then s
  else if off % 8 ≠ 0 then s.regAccessLog off
  else if (regLayout off).isNone then s
  else match off / 0x100000 with
    | 0x00 => if off = rBringCtl then s.bringWrite v obs else s.writeUnder takesPlain off v
    | 0x01 => if off = rCuveeData then s.cuveeDataWrite v else if off = rCuveeCtl then s.cuveeCtlWrite v else s.writeUnder takesPlain off v
    | 0x02 => if off < 0x202000 then s.ctxBlockWrite off v else s.writeUnder takesPlain off v
    | 0x03 => s.queBlockWrite off v
    | 0x04 => if off = rSyncCmd then s.syncCmdWrite v else s.writeUnder takesPlain off v
    | 0x05 => if off = rTaskBindcmd then s.bindcmdWrite v obs.far obs.queued else s.writeUnder takesPlain off v
    | 0x07 => if off = rZfHostwin then s.hostwinWrite v else if off = rZfMapcmd then s.zfMapcmdWrite v else s.writeUnder takesPlain off v
    | 0x08 => if off = rLnkCtl then s.lnkCtlWrite v else s.writeUnder takesPlain off v
    | 0x0A =>
      if off = rGrpCmd then s.grpCmdWrite v obs.far obs.views
      else if off ≥ 0xA10000 ∧ off % 0x40 = 0x10 then s.commCfgWrite ((off - 0xA10000) / 0x40) v
      else s.writeUnder takesPlain off v
    | 0x0B =>
      if off = rPwrHost then s.pwrHostWrite v
      else if off ≥ 0xB000C0 then s.pwrPartWrite ((off - 0xB000C0) / 8) v
      else s.writeUnder takesPlain off v
    | 0x0D =>
      if off = rErrCtl then s.errCtlWrite v
      else if off = rErrRingCfg then s.errRingCfgWrite v
      else if off = rErrRingState then s.errRingHeadWrite v
      else if off = rErrLeescmd then s.leescmdWrite v obs.far.lines
      else s.writeUnder takesPlain off v
    | 0x0E => if off = rTstReq then s.tstReqWrite v obs else s.writeUnder takesPlain off v
    | 0x10 => if off = rRstCtl then s.rstCtlWrite v obs.silent obs.failed else s.writeUnder takesPlain off v
    | 0x11 => if off = rSecCmd then s.secCmdWrite v obs else s.writeUnder takesPlain off v
    | 0x13 => s.writeUnder takesAll off v
    | _ => s.writeUnder takesPlain off v

/-- Is an access to BAR0 of the size and alignment that its page asks for (R5, R192)? -/
def accessOk (off size : Nat) : Bool :=
  if onCompat off then size == 4 && off % 4 == 0 else size == 8 && off % 8 == 0

/-- What becomes of a badly sized or aligned access to BAR0 (R5, R192): it is logged, a read returns all ones or is aborted. -/
def State.bar0Bad (s : State) (off size : Nat) (acc : HostAcc) : State :=
  if onCompat off then s.compatBad off size acc
  else if acc = .rd then (s.regAccessLog off).readOnes size else s.regAccessLog off

/-- A host access to BAR0 of any size (R5, R12, R192, R415, R472). -/
def State.bar0Access (s : State) (off size : Nat) (acc : HostAcc) (obs : HostObs) : State :=
  if !accessOk off size then s.badAccess off size acc (fun s => s.bar0Bad off size acc)
  else match acc with
    | .rd => s.hostRead off size (fun s => s.bar0Read off)
    | .wr v => s.hostWrite off v obs (fun s => s.bar0Write off v obs)

/-- REGISTER_WRITE: an access to a register of BAR0 with the size of its page (R12); one that is not aligned meets R5. -/
def execRegisterWrite (off : BitVec 26) (acc : HostAcc) (obs : HostObs) (s : State) : Host.Outcome State Fault Refusal :=
  .next (s.bar0Access off.toNat (accessSize off.toNat) acc obs)

/-- ZF_HOSTWIN_WRITE (R450). -/
def execZfHostwinWrite (v : Word) (s : State) : Host.Outcome State Fault Refusal :=
  .next (s.hostWrite rZfHostwin v HostObs.plain (fun s => s.hostwinWrite v))

/-- BAR0_BAD_ACCESS: another size or alignment in BAR0 outside the compatibility page (R5), or in BAR2 (R171). An access at a reserved
offset is treated so too: of R5 and R6 the model takes R5 for a bad size, R6 for a good one (DESIGN CHOICE, log entry 75). An access that
is sized and aligned as BAR0 asks is none of these. -/
def execBar0BadAccess (bar2 : Bool) (off : BitVec 26) (size : Nat) (acc : HostAcc) (s : State) : Host.Outcome State Fault Refusal :=
  .next (
    if (!bar2 ∧ onCompat off.toNat) ∨ (size = 8 ∧ off.toNat % 8 = 0) then s
    else if !bar2 then s.bar0Access off.toNat size acc HostObs.plain
    else if !s.logsAccess then (if acc = .rd then s.readOnes size else s)
    else if acc = .rd then (s.regAccessLog off.toNat).readOnes size else s.regAccessLog off.toNat)

/-- Is an offset of BAR2 reserved (R7, R171, R309)? -/
def bar2Reserved (off : Nat) : Bool :=
  let x := off % 0x1000
  decide (off / 0x1000 ≥ 128) || (decide (0x100 ≤ x) && x / 8 != 0x80) || (decide (0xA0 ≤ x) && decide (x < 0xC0))

/-- RESERVED_OFFSET_ACCESS (R6): an access of the size and alignment that its page asks for, at an offset without a register; a read returns
zero, a write is discarded, nothing is logged. The compatibility page answers in 32 bits (R192). A write to a reserved offset of a doorbell
page whose context is not in use is not logged either: of R6 and R7 the model takes R6 (DESIGN CHOICE, log entry 75). -/
def execReservedOffsetAccess (bar2 : Bool) (off : BitVec 26) (acc : HostAcc) (s : State) : Host.Outcome State Fault Refusal :=
  .next (
    let a := off.toNat
    if bar2 then
      if !bar2Reserved a ∨ a % 8 ≠ 0 ∨ acc ≠ .rd then s
      else s.emit (.hostRead 8 (if s.answers 0x200000 then 0#64 else BitVec.allOnes 64))
    else if !accessOk a (accessSize a) ∨ (regLayout a).isSome then s
    else s.bar0Access a (accessSize a) acc HostObs.plain)

/-! ### BAR4 (R8, R208) -/

/-- Does BAR4 answer (R415)? -/
def State.bar4Up (s : State) : Bool := s.pins.vaux && decide (s.fld fBringStateAux ≥ 2)

/-- The context and fabric virtual address of a BAR4 offset: the base is aligned down to the size of BAR4 (R8). -/
def State.windowVa (s : State) (off : Nat) : Option (Nat × Nat) :=
  if s.bit fZfHostwinOn then some (s.fld fZfHostwinCtx, s.fld fZfHostwinBase * 2 ^ 30 / 2 ^ s.fab.bar4Log2 * 2 ^ s.fab.bar4Log2 + off)
  else none

/-- HOSTWIN (R377). -/
def State.hostwinLog (s : State) (off : Nat) : State := s.log { code := 0x0103, kind := 13, detail := leBytes 8 off }

/-- The Resizable BAR capability changed the size of BAR4 before this access (R2, R3, R8): 0 is 1 GiB, 6 is 64 GiB. -/
def State.resized (s : State) (z : Option (Fin 7)) : State := match z with
  | some k => { s with fab := { s.fab with bar4Log2 := 30 + k } }
  | none => s

/-- BAR4_READ: unmapped, refused or unanswered bytes read all ones, a poisoned line makes a poisoned TLP (R8, R208, R231, R299). -/
def execBar4Read (off : BitVec 36) (len : Nat) (resize : Option (Fin 7)) (far : FarReply) (s0 : State) :
    Host.Outcome State Fault Refusal :=
  .next (
    let s := s0.resized resize
    if off.toNat + len > 2 ^ s.fab.bar4Log2 then s
    else if !s.bar4Up then s.readOnes len
    else match s.windowVa off.toNat with
      | none => (s.hostwinLog off.toNat).readOnes len
      | some (c, va) =>
        let r := s.readRunVia (some unitHost) c va len far
        if r.2.1 = 0 then r.1.emit (.hostBytes r.2.2)
        else if r.2.1 = 8 then (r.1.log { code := 0x0105, cls := 1, kind := 13, detail := leBytes 8 off.toNat }).emit .poisonedTlp
        else (r.1.hostwinLog off.toNat).readOnes len)

/-- BAR4_WRITE: bytes for an unmapped or refused address are discarded (R8, R231). -/
def execBar4Write (off : BitVec 36) (data : List Byte) (resize : Option (Fin 7)) (far : FarReply) (s0 : State) :
    Host.Outcome State Fault Refusal :=
  .next (
    let s := s0.resized resize
    if off.toNat + data.length > 2 ^ s.fab.bar4Log2 ∨ !s.bar4Up then s
    else match s.windowVa off.toNat with
      | none => s.hostwinLog off.toNat
      | some (c, va) =>
        let r := s.writeRunVia (some unitHost) c va data far
        if r.2 = 0 then r.1 else r.1.hostwinLog off.toNat)

/-! ### DEBUG frames (R455, R461) -/

/-- The value of the newest answer to a host read. -/
def readAnswer : List Out → Word
  | .hostRead _ v :: _ => v
  | _ => 0#64

/-- A BAR0 read whose value goes to the service port and not to the host. -/
def State.debugRead (s : State) (off : Nat) : State × Word :=
  let t := s.bar0Read off
  ({ t with out := t.out.drop 1 }, readAnswer t.out)

/-- SVC_DEBUG: while debug is unlocked a frame reads or writes BAR0; the answer is a DEBUG frame. -/
def execSvcDebug (f : SFrame) (obs : HostObs) (s : State) : Host.Outcome State Fault Refusal :=
  .next (s.svcFrame f (fun s =>
    let off := field f.payload 1 8
    if !s.flash.debug then (s, some 4)
    else if f.payload.length ≠ 17 then (s, some 3)
    else match field f.payload 0 1 with
      | 1 =>
        let r := s.debugRead off
        (r.1.svcSay 0x30 (f.payload.take 9 ++ leBytes 8 r.2.toNat), none)
      | 2 => ((s.bar0Write off (BitVec.ofNat 64 (field f.payload 9 8)) obs).svcSay 0x30 f.payload, none)
      | _ => (s, some 3)))

/-! ### After a restore or a resynchronisation (R470, R472) -/

/-- Serve what waited while the supervisor restored or resynchronised: accesses in order, then records in, then records out. -/
def State.serveHeld (s : State) : State :=
  if s.holding then s
  else
    let s1 := { s with sup := { s.sup with held := [], heldRecs := [] } }
    let s2 := s.sup.held.foldl (fun s a => s.bar0Access a.off a.size a.acc a.obs) s1
    (s.sup.heldRecs.foldl (fun s m => s.recv m (fun s => s.recDo m)) s2).mgmtFlush

/-- RESYNC_DONE: a halted core rejoins (R468). -/
def execResyncDone (i : Fin 3) (s : State) : Host.Outcome State Fault Refusal :=
  .next (if s.sup.resync.contains i.val then (s.resynced i).serveHeld else s)

/-- RESTORE_DONE: the core that restores from the checkpoint takes over (R469, R470). -/
def execRestoreDone (i : Fin 3) (s : State) : Host.Outcome State Fault Refusal :=
  .next (match s.sup.restoring with
    | some (t, _) => if t = i.val then (s.restored i).serveHeld else s
    | none => s)

end Sys2Proof.Machine
end

