-- ==== Sys2Proof/Machine/Dispatch.lean ====
section
/-! DEFINITION. One arm for each command: the direct call of its meaning. -/

namespace Sys2Proof.Machine

/-- What a command does to everything but the queue. -/
def exec (i : Instr) (s : State) : Host.Outcome State Fault Refusal :=
  match i with
  | .registerWrite off acc obs => Sys2Proof.Machine.execRegisterWrite off acc obs s
  | .bar0BadAccess bar2 off size acc => Sys2Proof.Machine.execBar0BadAccess bar2 off size acc s
  | .reservedOffsetAccess bar2 off acc => Sys2Proof.Machine.execReservedOffsetAccess bar2 off acc s
  | .bar4Read off len resize far => Sys2Proof.Machine.execBar4Read off len resize far s
  | .bar4Write off data resize far => Sys2Proof.Machine.execBar4Write off data resize far s
  | .zfHostwinWrite v => Sys2Proof.Machine.execZfHostwinWrite v s
  | .cuveeDataWrite v => Sys2Proof.Machine.execCuveeDataWrite v s
  | .cuveeClear v => Sys2Proof.Machine.execCuveeClear v s
  | .verify v => Sys2Proof.Machine.execVerify v s
  | .verifyResult => Sys2Proof.Machine.execVerifyResult s
  | .image flashOk => Sys2Proof.Machine.execImage flashOk s
  | .power railFault => Sys2Proof.Machine.execPower railFault s
  | .clocks locked => Sys2Proof.Machine.execClocks locked s
  | .memtrain obs => Sys2Proof.Machine.execMemtrain obs s
  | .memscreen obs => Sys2Proof.Machine.execMemscreen obs s
  | .defects obs => Sys2Proof.Machine.execDefects obs s
  | .links => Sys2Proof.Machine.execLinks s
  | .cabling => Sys2Proof.Machine.execCabling s
  | .secure rngOk keyOk => Sys2Proof.Machine.execSecure rngOk keyOk s
  | .join obs => Sys2Proof.Machine.execJoin obs s
  | .openStep => Sys2Proof.Machine.execOpenStep s
  | .stepResult ms => Sys2Proof.Machine.execStepResult ms s
  | .ctxCreate c v => Sys2Proof.Machine.execCtxCreate c v s
  | .ctxDestroy c v => Sys2Proof.Machine.execCtxDestroy c v s
  | .contextFree c => Sys2Proof.Machine.execContextFree c s
  | .qsyncLimitWrite c v => Sys2Proof.Machine.execQsyncLimitWrite c v s
  | .qpagesLimitWrite c v => Sys2Proof.Machine.execQpagesLimitWrite c v s
  | .qgroupsLimitWrite c v => Sys2Proof.Machine.execQgroupsLimitWrite c v s
  | .qbwShareWrite c v => Sys2Proof.Machine.execQbwShareWrite c v s
  | .bind v far => Sys2Proof.Machine.execBind v far s
  | .unbind v queued => Sys2Proof.Machine.execUnbind v queued s
  | .tailDoorbell c q acc => Sys2Proof.Machine.execTailDoorbell c q acc s
  | .headDoorbell c r acc => Sys2Proof.Machine.execHeadDoorbell c r acc s
  | .queueEnable c q v => Sys2Proof.Machine.execQueueEnable c q v s
  | .queueDisable c q v => Sys2Proof.Machine.execQueueDisable c q v s
  | .ringEnable c r v => Sys2Proof.Machine.execRingEnable c r v s
  | .ringDisable c r v => Sys2Proof.Machine.execRingDisable c r v s
  | .descriptorFetch q obs => Sys2Proof.Machine.execDescriptorFetch q obs s
  | .poolEntry c q => Sys2Proof.Machine.execPoolEntry c q s
  | .taskPull k => Sys2Proof.Machine.execTaskPull k s
  | .taskCompletion k => Sys2Proof.Machine.execTaskCompletion k s
  | .recordWrite c r linkOk => Sys2Proof.Machine.execRecordWrite c r linkOk s
  | .interruptHoldoff r => Sys2Proof.Machine.execInterruptHoldoff r s
  | .shadowTimeout k => Sys2Proof.Machine.execShadowTimeout k s
  | .decantLoRead => Sys2Proof.Machine.execDecantLoRead s
  | .decantHiRead => Sys2Proof.Machine.execDecantHiRead s
  | .decantLostRead => Sys2Proof.Machine.execDecantLostRead s
  | .decantSpillRead => Sys2Proof.Machine.execDecantSpillRead s
  | .decantBadAccess off size acc => Sys2Proof.Machine.execDecantBadAccess off size acc s
  | .decantWrite off v => Sys2Proof.Machine.execDecantWrite off v s
  | .syncAlloc v => Sys2Proof.Machine.execSyncAlloc v s
  | .syncFree v => Sys2Proof.Machine.execSyncFree v s
  | .syncArm v => Sys2Proof.Machine.execSyncArm v s
  | .syncSignal v => Sys2Proof.Machine.execSyncSignal v s
  | .syncReset v => Sys2Proof.Machine.execSyncReset v s
  | .syncRead v => Sys2Proof.Machine.execSyncRead v s
  | .signal m ecc => Sys2Proof.Machine.execSignal m ecc s
  | .pourWave d => Sys2Proof.Machine.execPourWave d s
  | .setpointReturn d => Sys2Proof.Machine.execSetpointReturn d s
  | .tokenArrival k e => Sys2Proof.Machine.execTokenArrival k e s
  | .nop k sl => Sys2Proof.Machine.execNop k sl s
  | .add k rd rs1 rs2 => Sys2Proof.Machine.execAdd k rd rs1 rs2 s
  | .sub k rd rs1 rs2 => Sys2Proof.Machine.execSub k rd rs1 rs2 s
  | .and k rd rs1 rs2 => Sys2Proof.Machine.execAnd k rd rs1 rs2 s
  | .or k rd rs1 rs2 => Sys2Proof.Machine.execOr k rd rs1 rs2 s
  | .xor k rd rs1 rs2 => Sys2Proof.Machine.execXor k rd rs1 rs2 s
  | .sll k rd rs1 rs2 => Sys2Proof.Machine.execSll k rd rs1 rs2 s
  | .srl k rd rs1 rs2 => Sys2Proof.Machine.execSrl k rd rs1 rs2 s
  | .sra k rd rs1 rs2 => Sys2Proof.Machine.execSra k rd rs1 rs2 s
  | .mul k rd rs1 rs2 => Sys2Proof.Machine.execMul k rd rs1 rs2 s
  | .mulhu k rd rs1 rs2 => Sys2Proof.Machine.execMulhu k rd rs1 rs2 s
  | .divu k rd rs1 rs2 => Sys2Proof.Machine.execDivu k rd rs1 rs2 s
  | .remu k rd rs1 rs2 => Sys2Proof.Machine.execRemu k rd rs1 rs2 s
  | .slt k rd rs1 rs2 => Sys2Proof.Machine.execSlt k rd rs1 rs2 s
  | .sltu k rd rs1 rs2 => Sys2Proof.Machine.execSltu k rd rs1 rs2 s
  | .min k rd rs1 rs2 => Sys2Proof.Machine.execMin k rd rs1 rs2 s
  | .max k rd rs1 rs2 => Sys2Proof.Machine.execMax k rd rs1 rs2 s
  | .addi k rd rs1 imm => Sys2Proof.Machine.execAddi k rd rs1 imm s
  | .andi k rd rs1 imm => Sys2Proof.Machine.execAndi k rd rs1 imm s
  | .ori k rd rs1 imm => Sys2Proof.Machine.execOri k rd rs1 imm s
  | .xori k rd rs1 imm => Sys2Proof.Machine.execXori k rd rs1 imm s
  | .lui k rd imm => Sys2Proof.Machine.execLui k rd imm s
  | .lhi k rd rs1 imm => Sys2Proof.Machine.execLhi k rd rs1 imm s
  | .rdsr k rd idx => Sys2Proof.Machine.execRdsr k rd idx s
  | .beq k rs1 rs2 off => Sys2Proof.Machine.execBeq k rs1 rs2 off s
  | .bne k rs1 rs2 off => Sys2Proof.Machine.execBne k rs1 rs2 off s
  | .blt k rs1 rs2 off => Sys2Proof.Machine.execBlt k rs1 rs2 off s
  | .bge k rs1 rs2 off => Sys2Proof.Machine.execBge k rs1 rs2 off s
  | .bltu k rs1 rs2 off => Sys2Proof.Machine.execBltu k rs1 rs2 off s
  | .bgeu k rs1 rs2 off => Sys2Proof.Machine.execBgeu k rs1 rs2 off s
  | .jal k rd off => Sys2Proof.Machine.execJal k rd off s
  | .jalr k rd rs1 imm => Sys2Proof.Machine.execJalr k rd rs1 imm s
  | .agbase k ag rs1 => Sys2Proof.Machine.execAgbase k ag rs1 s
  | .agdim k ag d rs1 rs2 => Sys2Proof.Machine.execAgdim k ag d rs1 rs2 s
  | .agstep k ag d => Sys2Proof.Machine.execAgstep k ag d s
  | .agrd k ag rd => Sys2Proof.Machine.execAgrd k ag rd s
  | .vld k v ag w obs => Sys2Proof.Machine.execVld k v ag w obs s
  | .vst k v ag w => Sys2Proof.Machine.execVst k v ag w s
  | .sld k rd rs1 imm obs => Sys2Proof.Machine.execSld k rd rs1 imm obs s
  | .sst k rs rs1 imm => Sys2Proof.Machine.execSst k rs rs1 imm s
  | .move k rd rs1 rs2 obs => Sys2Proof.Machine.execMove k rd rs1 rs2 obs s
  | .moveComplete k n => Sys2Proof.Machine.execMoveComplete k n s
  | .get k rd rs1 rs2 => Sys2Proof.Machine.execGet k rd rs1 rs2 s
  | .put k rd rs1 rs2 obs => Sys2Proof.Machine.execPut k rd rs1 rs2 obs s
  | .puts k rd rs1 rs2 rsig obs => Sys2Proof.Machine.execPuts k rd rs1 rs2 rsig obs s
  | .fwait k n => Sys2Proof.Machine.execFwait k n s
  | .aadd k rd rs1 rs2 => Sys2Proof.Machine.execAadd k rd rs1 rs2 s
  | .amin k rd rs1 rs2 => Sys2Proof.Machine.execAmin k rd rs1 rs2 s
  | .amax k rd rs1 rs2 => Sys2Proof.Machine.execAmax k rd rs1 rs2 s
  | .aswp k rd rs1 rs2 => Sys2Proof.Machine.execAswp k rd rs1 rs2 s
  | .acas k rd rs1 rs2 => Sys2Proof.Machine.execAcas k rd rs1 rs2 s
  | .fabricReply k n lines => Sys2Proof.Machine.execFabricReply k n lines s
  | .tstart k m1 n1 mode rk ra obs => Sys2Proof.Machine.execTstart k m1 n1 mode rk ra obs s
  | .tmma k aga agb fa fb mx sparse rk rs obs => Sys2Proof.Machine.execTmma k aga agb fa fb mx sparse rk rs obs s
  | .tfin k ago ofmt sat sr ftz rx => Sys2Proof.Machine.execTfin k ago ofmt sat sr ftz rx s
  | .twait k => Sys2Proof.Machine.execTwait k s
  | .finishComplete k => Sys2Proof.Machine.execFinishComplete k s
  | .vadd k vd vs1 vs2 => Sys2Proof.Machine.execVadd k vd vs1 vs2 s
  | .vsub k vd vs1 vs2 => Sys2Proof.Machine.execVsub k vd vs1 vs2 s
  | .vmul k vd vs1 vs2 => Sys2Proof.Machine.execVmul k vd vs1 vs2 s
  | .vfma k vd vs1 vs2 vs3 => Sys2Proof.Machine.execVfma k vd vs1 vs2 vs3 s
  | .vdiv k vd vs1 vs2 => Sys2Proof.Machine.execVdiv k vd vs1 vs2 s
  | .vsqrt k vd vs1 => Sys2Proof.Machine.execVsqrt k vd vs1 s
  | .vmax k vd vs1 vs2 => Sys2Proof.Machine.execVmax k vd vs1 vs2 s
  | .vmin k vd vs1 vs2 => Sys2Proof.Machine.execVmin k vd vs1 vs2 s
  | .vexp k vd vs1 => Sys2Proof.Machine.execVexp k vd vs1 s
  | .vlog k vd vs1 => Sys2Proof.Machine.execVlog k vd vs1 s
  | .vrsqrt k vd vs1 => Sys2Proof.Machine.execVrsqrt k vd vs1 s
  | .vtanh k vd vs1 => Sys2Proof.Machine.execVtanh k vd vs1 s
  | .vsig k vd vs1 => Sys2Proof.Machine.execVsig k vd vs1 s
  | .vbcast k vd rs => Sys2Proof.Machine.execVbcast k vd rs s
  | .vlane k vs1 rs lane => Sys2Proof.Machine.execVlane k vs1 rs lane s
  | .vcvt k vd vs1 rs frm dst sr sat => Sys2Proof.Machine.execVcvt k vd vs1 rs frm dst sr sat s
  | .vrsum k vd vs1 => Sys2Proof.Machine.execVrsum k vd vs1 s
  | .vrmax k vd vs1 => Sys2Proof.Machine.execVrmax k vd vs1 s
  | .vrmin k vd vs1 => Sys2Proof.Machine.execVrmin k vd vs1 s
  | .vwred k vd vs1 rs => Sys2Proof.Machine.execVwred k vd vs1 rs s
  | .vwredr k vd vs1 rs => Sys2Proof.Machine.execVwredr k vd vs1 rs s
  | .vradd k vd vs1 vs2 => Sys2Proof.Machine.execVradd k vd vs1 vs2 s
  | .ssig k rs1 rs2 => Sys2Proof.Machine.execSsig k rs1 rs2 s
  | .swait k rd rs1 rs2 fn => Sys2Proof.Machine.execSwait k rd rs1 rs2 fn s
  | .srst k rs1 => Sys2Proof.Machine.execSrst k rs1 s
  | .srd k rd rs1 => Sys2Proof.Machine.execSrd k rd rs1 s
  | .tbind k e rs1 => Sys2Proof.Machine.execTbind k e rs1 s
  | .tunbind k e => Sys2Proof.Machine.execTunbind k e s
  | .tsend k e rs1 => Sys2Proof.Machine.execTsend k e rs1 s
  | .trecv k rd e => Sys2Proof.Machine.execTrecv k rd e s
  | .tstat k rd e => Sys2Proof.Machine.execTstat k rd e s
  | .clnch k rs1 rs2 obs => Sys2Proof.Machine.execClnch k rs1 rs2 obs s
  | .tend k kind => Sys2Proof.Machine.execTend k kind s
  | .stall k => Sys2Proof.Machine.execStall k s
  | .hangProbe silent => Sys2Proof.Machine.execHangProbe silent s
  | .coreHang k e => Sys2Proof.Machine.execCoreHang k e s
  | .resetDeadline u => Sys2Proof.Machine.execResetDeadline u s
  | .tastingStart n => Sys2Proof.Machine.execTastingStart n s
  | .tastingResult n pass item => Sys2Proof.Machine.execTastingResult n pass item s
  | .tasteOverdue n => Sys2Proof.Machine.execTasteOverdue n s
  | .moveBegin n => Sys2Proof.Machine.execMoveBegin n s
  | .moveCompleteMap n => Sys2Proof.Machine.execMoveCompleteMap n s
  | .read q obs => Sys2Proof.Machine.execRead q obs s
  | .write q => Sys2Proof.Machine.execWrite q s
  | .atomic q obs => Sys2Proof.Machine.execAtomic q obs s
  | .data r => Sys2Proof.Machine.execData r s
  | .ack r => Sys2Proof.Machine.execAck r s
  | .old r => Sys2Proof.Machine.execOld r s
  | .refused r => Sys2Proof.Machine.execRefused r s
  | .rowRemap r ok => Sys2Proof.Machine.execRowRemap r ok s
  | .bankRemap r => Sys2Proof.Machine.execBankRemap r s
  | .stackDead st => Sys2Proof.Machine.execStackDead st s
  | .patrolScrub st line obs => Sys2Proof.Machine.execPatrolScrub st line obs s
  | .refresh st => Sys2Proof.Machine.execRefresh st s
  | .stackTemperatureRead st t => Sys2Proof.Machine.execStackTemperatureRead st t s
  | .wordReplay path clean line => Sys2Proof.Machine.execWordReplay path clean line s
  | .map v => Sys2Proof.Machine.execMap v s
  | .unmap v => Sys2Proof.Machine.execUnmap v s
  | .protect v => Sys2Proof.Machine.execProtect v s
  | .lookup v => Sys2Proof.Machine.execLookup v s
  | .cacheDropComplete => Sys2Proof.Machine.execCacheDropComplete s
  | .copyStart c q => Sys2Proof.Machine.execCopyStart c q s
  | .copyPartEnd c q n part obs => Sys2Proof.Machine.execCopyPartEnd c q n part obs s
  | .partTimeout c q n part => Sys2Proof.Machine.execPartTimeout c q n part s
  | .requestTimeout id => Sys2Proof.Machine.execRequestTimeout id s
  | .routerForward p fromPort => Sys2Proof.Machine.execRouterForward p fromPort s
  | .holdRelease => Sys2Proof.Machine.execHoldRelease s
  | .routeUpdate m => Sys2Proof.Machine.execRouteUpdate m s
  | .groupCreate v rankMap views => Sys2Proof.Machine.execGroupCreate v rankMap views s
  | .groupJoin v => Sys2Proof.Machine.execGroupJoin v s
  | .groupDestroy v => Sys2Proof.Machine.execGroupDestroy v s
  | .groupSetup m => Sys2Proof.Machine.execGroupSetup m s
  | .formTimeout g => Sys2Proof.Machine.execFormTimeout g s
  | .commQueueEnable g v => Sys2Proof.Machine.execCommQueueEnable g v s
  | .commQueueDisable g v => Sys2Proof.Machine.execCommQueueDisable g v s
  | .commDoorbell c acc => Sys2Proof.Machine.execCommDoorbell c acc s
  | .collectiveStart g far hop end_ => Sys2Proof.Machine.execCollectiveStart g far hop end_ s
  | .collUp u hop end_ => Sys2Proof.Machine.execCollUp u hop end_ s
  | .collDown u hop end_ => Sys2Proof.Machine.execCollDown u hop end_ s
  | .collCtrl u => Sys2Proof.Machine.execCollCtrl u s
  | .collectiveTimeout r => Sys2Proof.Machine.execCollectiveTimeout r s
  | .expressFlit p cw => Sys2Proof.Machine.execExpressFlit p cw s
  | .blockReceive p cws => Sys2Proof.Machine.execBlockReceive p cws s
  | .comma p obs => Sys2Proof.Machine.execComma p obs s
  | .swapApply p => Sys2Proof.Machine.execSwapApply p s
  | .swap p lane sub seq => Sys2Proof.Machine.execSwap p lane sub seq s
  | .swapAck p lane sub seq => Sys2Proof.Machine.execSwapAck p lane sub seq s
  | .narrow p w seq => Sys2Proof.Machine.execNarrow p w seq s
  | .narrowAck p w seq => Sys2Proof.Machine.execNarrowAck p w seq s
  | .disable p reason => Sys2Proof.Machine.execDisable p reason s
  | .trainingSuperframe p lane msg crc rtt => Sys2Proof.Machine.execTrainingSuperframe p lane msg crc rtt s
  | .tapReq p lane r crc => Sys2Proof.Machine.execTapReq p lane r crc s
  | .tapStat p lane num t res crc => Sys2Proof.Machine.execTapStat p lane num t res crc s
  | .laneDone p lanes crc => Sys2Proof.Machine.execLaneDone p lanes crc s
  | .ident p node port token echo rtt crc => Sys2Proof.Machine.execIdent p node port token echo rtt crc s
  | .width p w wmin bad crc => Sys2Proof.Machine.execWidth p w wmin bad crc s
  | .abort p reason crc => Sys2Proof.Machine.execAbort p reason crc s
  | .prbsCount p lane errors => Sys2Proof.Machine.execPrbsCount p lane errors s
  | .trainingTimeout p => Sys2Proof.Machine.execTrainingTimeout p s
  | .retrainTimer p => Sys2Proof.Machine.execRetrainTimer p s
  | .eyeMarginSweep oe w0 h0 w1 h1 => Sys2Proof.Machine.execEyeMarginSweep oe w0 h0 w1 h1 s
  | .portRetrain v => Sys2Proof.Machine.execPortRetrain v s
  | .deferredRetrainStart => Sys2Proof.Machine.execDeferredRetrainStart s
  | .hello p nonce node port => Sys2Proof.Machine.execHello p nonce node port s
  | .cert p off frag => Sys2Proof.Machine.execCert p off frag s
  | .share p half bytes => Sys2Proof.Machine.execShare p half bytes s
  | .proof p half bytes => Sys2Proof.Machine.execProof p half bytes s
  | .finish p mac => Sys2Proof.Machine.execFinish p mac s
  | .refuse p reason => Sys2Proof.Machine.execRefuse p reason s
  | .attestTimeout p => Sys2Proof.Machine.execAttestTimeout p s
  | .keySwitch p seq rekey => Sys2Proof.Machine.execKeySwitch p seq rekey s
  | .keySwitchAck p seq rekey => Sys2Proof.Machine.execKeySwitchAck p seq rekey s
  | .keySwitchBlock p tx => Sys2Proof.Machine.execKeySwitchBlock p tx s
  | .rekey p half bytes => Sys2Proof.Machine.execRekey p half bytes s
  | .rekeyDue p => Sys2Proof.Machine.execRekeyDue p s
  | .rekeyRetry p => Sys2Proof.Machine.execRekeyRetry p s
  | .timeSyncTick => Sys2Proof.Machine.execTimeSyncTick s
  | .timeReq p t1 => Sys2Proof.Machine.execTimeReq p t1 s
  | .timeRsp p t2 t3 distance root => Sys2Proof.Machine.execTimeRsp p t2 t3 distance root s
  | .upstreamTimeout joined peers => Sys2Proof.Machine.execUpstreamTimeout joined peers s
  | .pactBind p v => Sys2Proof.Machine.execPactBind p v s
  | .pactEpoch k => Sys2Proof.Machine.execPactEpoch k s
  | .pactResult u => Sys2Proof.Machine.execPactResult u s
  | .pactSwitch k => Sys2Proof.Machine.execPactSwitch k s
  | .freqCompute obs => Sys2Proof.Machine.execFreqCompute obs s
  | .capCheck watts draws ampsA ampsB => Sys2Proof.Machine.execCapCheck watts draws ampsA ampsB s
  | .earlyBreakDeassert f => Sys2Proof.Machine.execEarlyBreakDeassert f s
  | .earlyBreakAssert f => Sys2Proof.Machine.execEarlyBreakAssert f s
  | .feedVoltageFault f tenths => Sys2Proof.Machine.execFeedVoltageFault f tenths s
  | .feedValid f tenths => Sys2Proof.Machine.execFeedValid f tenths s
  | .stageFault f => Sys2Proof.Machine.execStageFault f s
  | .prechargeDone f => Sys2Proof.Machine.execPrechargeDone f s
  | .revertTimer => Sys2Proof.Machine.execRevertTimer s
  | .shareReturn f => Sys2Proof.Machine.execShareReturn f s
  | .powerLoss => Sys2Proof.Machine.execPowerLoss s
  | .railSample o => Sys2Proof.Machine.execRailSample o s
  | .railFault r => Sys2Proof.Machine.execRailFault r s
  | .phaseLoss r => Sys2Proof.Machine.execPhaseLoss r s
  | .droop n => Sys2Proof.Machine.execDroop n s
  | .droopRelease n => Sys2Proof.Machine.execDroopRelease n s
  | .thermalForecast n forecast sites => Sys2Proof.Machine.execThermalForecast n forecast sites s
  | .diodeCheck obs => Sys2Proof.Machine.execDiodeCheck obs s
  | .flowInference p tin tout => Sys2Proof.Machine.execFlowInference p tin tout s
  | .coolantSensorCheck obs => Sys2Proof.Machine.execCoolantSensorCheck obs s
  | .coolingWarning w => Sys2Proof.Machine.execCoolingWarning w s
  | .warningRepeat code => Sys2Proof.Machine.execWarningRepeat code s
  | .leakSample loop earth => Sys2Proof.Machine.execLeakSample loop earth s
  | .leakShutdown => Sys2Proof.Machine.execLeakShutdown s
  | .hostOrder v => Sys2Proof.Machine.execHostOrder v s
  | .hostCap v => Sys2Proof.Machine.execHostCap v s
  | .ackOff v => Sys2Proof.Machine.execAckOff v s
  | .noticeEnd => Sys2Proof.Machine.execNoticeEnd s
  | .budgetWrite p v => Sys2Proof.Machine.execBudgetWrite p v s
  | .summaryTimer code kind unit => Sys2Proof.Machine.execSummaryTimer code kind unit s
  | .errRingEnable v => Sys2Proof.Machine.execErrRingEnable v s
  | .errRingDisable v => Sys2Proof.Machine.execErrRingDisable v s
  | .errRingHeadWrite v => Sys2Proof.Machine.execErrRingHeadWrite v s
  | .recordResend => Sys2Proof.Machine.execRecordResend s
  | .errCtlWrite v => Sys2Proof.Machine.execErrCtlWrite v s
  | .wave v => Sys2Proof.Machine.execWave v s
  | .waveArrival p origin gen dom code hops => Sys2Proof.Machine.execWaveArrival p origin gen dom code hops s
  | .leesCopy v => Sys2Proof.Machine.execLeesCopy v s
  | .heartbeatTimeout n => Sys2Proof.Machine.execHeartbeatTimeout n s
  | .supDissent n => Sys2Proof.Machine.execSupDissent n s
  | .resyncDone n => Sys2Proof.Machine.execResyncDone n s
  | .duplexDisagree fails => Sys2Proof.Machine.execDuplexDisagree fails s
  | .coldReset sealClosed => Sys2Proof.Machine.execColdReset sealClosed s
  | .perstAssert => Sys2Proof.Machine.execPerstAssert s
  | .perstDeassert => Sys2Proof.Machine.execPerstDeassert s
  | .hotReset => Sys2Proof.Machine.execHotReset s
  | .flr => Sys2Proof.Machine.execFlr s
  | .auxDone activeOk otherOk imagesOk badSectors => Sys2Proof.Machine.execAuxDone activeOk otherOk imagesOk badSectors s
  | .domain v silent => Sys2Proof.Machine.execDomain v silent s
  | .release v failed => Sys2Proof.Machine.execRelease v failed s
  | .module v => Sys2Proof.Machine.execModule v s
  | .coreTest v => Sys2Proof.Machine.execCoreTest v s
  | .eyeMargin v w0 h0 w1 h1 => Sys2Proof.Machine.execEyeMargin v w0 h0 w1 h1 s
  | .sensorCheck v obs cool => Sys2Proof.Machine.execSensorCheck v obs cool s
  | .memScreen v obs => Sys2Proof.Machine.execMemScreen v obs s
  | .memTrain v obs screen => Sys2Proof.Machine.execMemTrain v obs screen s
  | .sensorCal v => Sys2Proof.Machine.execSensorCal v s
  | .tstCancel => Sys2Proof.Machine.execTstCancel s
  | .deferredTestStart obs screen => Sys2Proof.Machine.execDeferredTestStart obs screen s
  | .getVersion t => Sys2Proof.Machine.execGetVersion t s
  | .getCapabilities t => Sys2Proof.Machine.execGetCapabilities t s
  | .negotiateAlgorithms t ok => Sys2Proof.Machine.execNegotiateAlgorithms t ok s
  | .getDigests t => Sys2Proof.Machine.execGetDigests t s
  | .getCertificate t slot off len => Sys2Proof.Machine.execGetCertificate t slot off len s
  | .challenge t slot nonce => Sys2Proof.Machine.execChallenge t slot nonce s
  | .getMeasurements t idx sign nonce => Sys2Proof.Machine.execGetMeasurements t idx sign nonce s
  | .keyExchange t slot share => Sys2Proof.Machine.execKeyExchange t slot share s
  | .spdmFinish t session good => Sys2Proof.Machine.execSpdmFinish t session good s
  | .heartbeat t session => Sys2Proof.Machine.execHeartbeat t session s
  | .keyUpdate t session => Sys2Proof.Machine.execKeyUpdate t session s
  | .endSession t session => Sys2Proof.Machine.execEndSession t session s
  | .ideKmKeyProg session => Sys2Proof.Machine.execIdeKmKeyProg session s
  | .ideStreamLoss => Sys2Proof.Machine.execIdeStreamLoss s
  | .rngHealth => Sys2Proof.Machine.execRngHealth s
  | .enroll blob viaPort => Sys2Proof.Machine.execEnroll blob viaPort s
  | .debugUnlock blob viaPort => Sys2Proof.Machine.execDebugUnlock blob viaPort s
  | .debugLock blob viaPort => Sys2Proof.Machine.execDebugLock blob viaPort s
  | .rollback blob viaPort => Sys2Proof.Machine.execRollback blob viaPort s
  | .recover blob viaPort => Sys2Proof.Machine.execRecover blob viaPort s
  | .policy blob viaPort => Sys2Proof.Machine.execPolicy blob viaPort s
  | .presencePress => Sys2Proof.Machine.execPresencePress s
  | .presenceExpire => Sys2Proof.Machine.execPresenceExpire s
  | .sealSample isOpen => Sys2Proof.Machine.execSealSample isOpen s
  | .svcHello f => Sys2Proof.Machine.execSvcHello f s
  | .svcBegin f => Sys2Proof.Machine.execSvcBegin f s
  | .svcData f => Sys2Proof.Machine.execSvcData f s
  | .svcEnd f => Sys2Proof.Machine.execSvcEnd f s
  | .bundleStaged ok => Sys2Proof.Machine.execBundleStaged ok s
  | .svcAbandon f => Sys2Proof.Machine.execSvcAbandon f s
  | .svcRun f => Sys2Proof.Machine.execSvcRun f s
  | .svcDebug f obs => Sys2Proof.Machine.execSvcDebug f obs s
  | .svcBadFrame f => Sys2Proof.Machine.execSvcBadFrame f s
  | .svcEnDeassert => Sys2Proof.Machine.execSvcEnDeassert s
  | .powerOrder m => Sys2Proof.Machine.execPowerOrder m s
  | .resetOrder m => Sys2Proof.Machine.execResetOrder m s
  | .config m => Sys2Proof.Machine.execConfig m s
  | .query m => Sys2Proof.Machine.execQuery m s
  | .mgmtSpdm m => Sys2Proof.Machine.execMgmtSpdm m s
  | .mgmtOwnerCmd m => Sys2Proof.Machine.execMgmtOwnerCmd m s
  | .nonce m => Sys2Proof.Machine.execNonce m s
  | .reply m => Sys2Proof.Machine.execReply m s
  | .badRecord m => Sys2Proof.Machine.execBadRecord m s
  | .telemetryTimer => Sys2Proof.Machine.execTelemetryTimer s
  | .mgmtLinkDown => Sys2Proof.Machine.execMgmtLinkDown s
  | .mgmtDownTimer => Sys2Proof.Machine.execMgmtDownTimer s
  | .mgmtLinkUp fec addr => Sys2Proof.Machine.execMgmtLinkUp fec addr s
  | .entdaa addr => Sys2Proof.Machine.execEntdaa addr s
  | .setEndpointId eid => Sys2Proof.Machine.execSetEndpointId eid s
  | .getSensorReading x => Sys2Proof.Machine.execGetSensorReading x s
  | .getStateSensorReadings x => Sys2Proof.Machine.execGetStateSensorReadings x s
  | .setStateEffecterStates on => Sys2Proof.Machine.execSetStateEffecterStates on s
  | .pollForPlatformEventMessage => Sys2Proof.Machine.execPollForPlatformEventMessage s
  | .setManagementKey key => Sys2Proof.Machine.execSetManagementKey key s
  | .locateHostWrite v => Sys2Proof.Machine.execLocateHostWrite v s
  | .swaitTimeout k => Sys2Proof.Machine.execSwaitTimeout k s
  | .resetReported u failed => Sys2Proof.Machine.execResetReported u failed s
  | .vauxLoss => Sys2Proof.Machine.execVauxLoss s
  | .svcEnAssert => Sys2Proof.Machine.execSvcEnAssert s
  | .presenceRelease => Sys2Proof.Machine.execPresenceRelease s
  | .blockSend p credits => Sys2Proof.Machine.execBlockSend p credits s
  | .supHeartbeat n => Sys2Proof.Machine.execSupHeartbeat n s
  | .restoreDone n => Sys2Proof.Machine.execRestoreDone n s
  | .linksRecordDue => Sys2Proof.Machine.execLinksRecordDue s

end Sys2Proof.Machine
end

