-- ==== Sys2Proof/Safety.lean ====
section
/-! DEFINITION. What counts as a safe run: no step ends in a fault or a refusal; and the form that the register file and memory keep. -/

namespace Sys2Proof

open Sys2Proof.Machine

/-- Does an outcome go on? -/
def goesOn : Host.Outcome State Fault Refusal → Bool
  | .next _ => true
  | _ => false

/-- A run of k steps is safe: it ends in a state. -/
def SafeRun (k : Nat) (s : State) : Prop := ∃ t, core.run k s = .next t

/-- The form that the register file and memory keep: registers by rising offset, none listed at its Reset column; bytes by rising address,
none listed with what an unlisted byte reads as. -/
def Machine.State.canonicalForm (s : State) : Bool := canonical regReset s.regs && s.mem.wf

/-- The slot instruction `i` is about to act: core k runs the task r and may issue; the bundle b at r's counter holds the word w of `i` in
slot sl, is open with what it read in `is`, and this slot has still to act (R134, R151). -/
structure Acts (s : State) (i : Instr) (k : LCore) (sl : Slot) (w : Nat) (r : Run) (is : Issue) (b : Bundle) : Prop where
  slot : slotOf i = some (k, sl, w)
  run : s.runOf k = some r
  free : s.canIssue k = true
  bundle : s.bundleAt r = some b
  word : slotWord b sl = w
  opened : r.issue = some is
  todo : is.todo.contains (slotNum sl) = true

/-- A task stopped by its first fault (R155): a code at a bundle, of slot 0 C, 1 A or 2 I of the n-th bundle issued; its open chain is gone. -/
def Machine.Run.faulted (r : Run) (c bundle slot n : Nat) : Run :=
  { r with fault := some (c, bundle), faultAt := (n, slot), chain := none, waiting := none }

/-- A task stopped by its first fault at any time (R155): while a bundle issues, its open chain goes at the boundary after it. -/
def Machine.Run.struck (r : Run) (c bundle slot n : Nat) : Run :=
  if r.issue.isSome then { r with fault := some (c, bundle), faultAt := (n, slot) } else r.faulted c bundle slot n

/-- The lines of a store that an instruction reads come as they were written: no word fails its parity, none has a hard fault (R205, R220). -/
def ReadsWell (s : State) (k : LCore) (obs : List StoreLine) : Prop :=
  ∀ o ∈ obs, o.hard = false ∧ s.mem.wordFails (s.localAt k (64 * o.line) / 64) o.first = 0

/-- The slot instruction `i` of slot `sl` completes, wherever it is about to act, with the effect `g`: the step's next state is `g`'s, with
this slot closed. -/
def Gives (i : Instr) (sl : Slot) (g : LCore → Run → Issue → Bundle → State → State) : Prop :=
  ∀ s k w r is b, Acts s i k sl w r is b → exec i s = .next ((g k r is b s).closeBundle k sl)

/-- A slot C instruction that writes x[rd], and nothing else (R140). -/
def Writes (i : Instr) (rd : XReg) (f : (XReg → Word) → Word) : Prop :=
  Gives i .C (fun k r is _ s => s.setRun k (r.writeX rd (f (fun n => is.x n))))

/-- A slot I instruction that writes v[vd] from a list of 128 results, whose flags stick, and changes nothing else (R118, R146). -/
def Lanewise (i : Instr) (vd : VReg) (f : Issue → List Res) : Prop :=
  Gives i .I (fun k r is _ s => s.setRun k { r with
    vs := setAt r.vs vd (ofLanes ((f is).map (·.bits)))
    invalid := r.invalid || (f is).any (·.invalid)
    overflow := r.overflow || (f is).any (·.overflow) })

/-- A conditional branch (R140): where the condition holds, control goes to the bundle at that distance from the branch; where it does not,
to the next. Nothing but the counter changes. -/
def Branches (i : Instr) (off : BitVec 24) (c : (XReg → Word) → Bool) : Prop :=
  ∀ s k w r is b, Acts s i k .C w r is b → is.next = r.pc + 1 →
    exec i s = .next ((if c (fun n => is.x n) then
      s.setRun k { r with issue := some { is with next := ((r.pc : Int) + off.toInt).toNat } } else s).closeBundle k .C)

/-- A host write at a BAR0 offset takes effect now: the module takes writes there and holds none (R415, R472). -/
def Taken (s : State) (off : Nat) : Prop := s.takesWrites off = true ∧ s.holding = false

/-- Bring-up step n may start (R420): the host's write is taken, no step runs, the auxiliary stage ended well, and of the steps exactly those
before n are done as far as the order asks. -/
def BringReady (s : State) (n : Nat) : Prop :=
  Taken s rBringCtl ∧ s.bit fBringStateBusy = false ∧ s.auxDone = true ∧ s.stepDone n = false ∧ (n = 1 ∨ s.stepDone (n - 1) = true)

/-- A bring-up step runs: BRING.STATE names it and reads busy. -/
def Machine.State.began (s : State) (n : Nat) : State :=
  (s.setFld fBringCtlStep n).setFlds [(fBringStateStep, n), (fBringStateBusy, 1)]

/-- The result that the running step will report. -/
def Machine.State.reports (s : State) (n : Nat) : State := { s with img := { s.img with stepRes := n, stepAt := s.time } }

/-- A management record of a type reaches the supervisor, which may act on it now (R474, R476, R492). -/
def Arrives (s : State) (m : MRec) (kind : Nat) : Prop :=
  s.supUp = true ∧ s.bit fMgtLinkUp = true ∧ recFormed m = true ∧ m.kind = BitVec.ofNat 8 kind ∧ s.holding = false

/-- A service-port frame in sequence and whole, after the first of a start (R461, R508). -/
def FrameTaken (s : State) (f : SFrame) : Prop := s.svcUp = true ∧ s.sec.svcStale = false ∧ f.seq.toNat = s.sec.svcSeq
  ∧ svcCrcOk f = true

/-- A frame is acknowledged under its sequence number n, and the next expected. -/
def Machine.State.acked (t : State) (n : Nat) : State :=
  { (t.svcSay 0x7E (leBytes 1 n)) with sec := { t.sec with svcSeq := (n + 1) % 256 } }

end Sys2Proof
end

