-- ==== Sys2Proof/Certificates/Slice0/Obligations.lean ====
section
/-! DEFINITION. The statements about the module, for the provers: each a closed proposition, with what it states in its docstring. -/

open Sys2Proof Sys2Proof.Machine

/-! ### The queue and the run -/

/-- A step runs the command at the front of the queue, on the state with the queue's rest; on an empty queue only the clock counts a
nanosecond (the model's choice, log entry 15). -/
def Obligations.FrontCommandRuns : Prop :=
  (∀ c (s : State) rest, s.pending = c :: rest → step s = exec c { s with pending := rest })
  ∧ (∀ s : State, s.pending = [] → step s = .next { s with time := s.time + 1 })

/-- No command ends in a fault or a refusal, from any state: every run of every length ends in a state.
Read by inference or chosen by the model: log entry 20. -/
def Obligations.EveryRunIsSafe : Prop := ∀ k s, SafeRun k s

/-- After reset the register file and memory have their canonical form, and every register reads as its Reset column says (R10); of those that
reload from flash, the factory flash (log entry 5) gives MEMC.SCREEN since_full 255 and SEC.FW running 1.
Read by inference or chosen by the model: log entries 5, 17 and 18. -/
def Obligations.ResetIsCanonical : Prop :=
  State.reset.canonicalForm = true ∧ (∀ off, State.reset.reg off =
      if off = 0x600408 then 0xFF00#64 else if off = 0x1100030 then 0x100000000#64 else regReset off)
   ∧ (∀ a, State.reset.mem.read a = 0#8)
  ∧ State.reset.pending = [] ∧ State.reset.cores.runs = []

/-! ### Issue of bundles (R134, R135, R140, R151, R155) -/

/-- A task's next bundle opens: neither faulty nor stalled, it records what its slots read, which of them act and where control goes,
for a core outside a pair; nothing else changes. The command then acts on the open bundle.
Read by inference or chosen by the model: log entries 25, 88, 89 and 114. -/
def Obligations.BundleOpens : Prop :=
  ∀ (s : State) (i : Instr) (k : LCore) (sl : Slot) (w : Nat) (r : Run) (b : Bundle),
    slotOf i = some (k, sl, w) → s.runOf k = some r → s.canIssue k = true → s.bundleAt r = some b → slotWord b sl = w →
    r.issue = none → r.fault = none → r.ending = none → r.partner = none →
    bundleFault b = false → (∀ sl', badEncoding sl' (slotWord b sl') = false) → s.stalls k r (r.snapshot b) b = false →
    s.slotsFault k r (r.snapshot b) b = none → opOf w ≠ 0 →
    let r2 : Run := { r with issue := some (r.snapshot b), opened := r.opened + 1
                             entered := r.entered + ofBool (isInward .C (slotWord b .C)) + ofBool (isInward .A (slotWord b .A)) }
    Acts (s.setRun k r2) i k sl w r2 (r.snapshot b) b
    ∧ exec i s = exec i (s.setRun k r2)
    ∧ (r.snapshot b).xs = r.xs ∧ (r.snapshot b).vs = r.vs ∧ (r.snapshot b).ags = r.ags ∧ (r.snapshot b).next = r.pc + 1
    ∧ (r.snapshot b).flags = BitVec.ofNat 64 (ofBool r.window + 2 * ofBool r.invalid + 4 * ofBool r.overflow)
    ∧ (r.snapshot b).fabout = r.fab.length

/-- A bundle at fault stops its task at that bundle, and no slot of it takes effect (R155): a fault of the whole bundle before any slot's, then
slot C, A, I, each by its lowest code. A bundle that must stall changes nothing, but that a SWAIT is recorded as waiting.
Read by inference or chosen by the model: log entries 25, 88, 89 and 114. -/
def Obligations.FaultsAndStalls : Prop :=
  ∀ (s : State) (i : Instr) (k : LCore) (sl : Slot) (w : Nat) (r : Run) (b : Bundle),
    slotOf i = some (k, sl, w) → s.runOf k = some r → s.canIssue k = true → s.bundleAt r = some b → slotWord b sl = w →
    r.issue = none → r.fault = none → r.ending = none → r.partner = none →
    (bundleFault b = true → exec i s = .next (s.setRun k (r.faulted 0x01 r.pc 0 (r.opened + 1))))
    ∧ (∀ sl' c, bundleFault b = false → badEncoding sl' (slotWord b sl') = true → s.slotsFault k r (r.snapshot b) b = some c →
        exec i s = .next (s.setRun k (r.faulted c r.pc 0 (r.opened + 1))))
    ∧ (bundleFault b = false → (∀ sl', badEncoding sl' (slotWord b sl') = false) →
        (s.stalls k r (r.snapshot b) b = true → opOf (slotWord b .C) ≠ 0x41 → exec i s = .next s)
        ∧ (∀ n o, opOf (slotWord b .C) = 0x41 → objOf ((r.snapshot b).x (wRs1 (slotWord b .C))) = some (n, o) → r.waiting = none →
            s.stallC k r (r.snapshot b) (slotWord b .C) = true →
            exec i s = .next (s.setRun k
              { r with waiting := some (.swait o ((r.snapshot b).x (wRs2 (slotWord b .C))) (wFn (slotWord b .C))) }))
        ∧ (∀ c, s.stalls k r (r.snapshot b) b = false → s.slotsFault k r (r.snapshot b) b = some c →
            exec i s = .next (s.setRun k (r.faulted c r.pc 0 (r.opened + 1)))))

/-- The slots of a bundle close it one by one. The last of them moves the counter to where control goes; past the last bundle of the program
that is the fault PC_RANGE (R140, R155). Of a task that has stopped, the open chain goes at that boundary (R155). No other core, register or
byte changes.
Read by inference or chosen by the model: log entries 25 and 88. -/
def Obligations.BundleCloses : Prop :=
  ∀ (s : State) (k : Nat) (sl : Slot) (r : Run) (is : Issue), s.runOf k = some r → r.issue = some is →
    (is.todo.filter (· != slotNum sl) ≠ [] →
      s.closeBundle k sl = s.setRun k { r with issue := some { is with todo := is.todo.filter (· != slotNum sl) } })
    ∧ (is.todo.filter (· != slotNum sl) = [] → is.next < s.progLen r.task.ctx r.task.prog →
      s.closeBundle k sl = s.setRun k { r with
        issue := none, waiting := none, pc := is.next, chain := if r.fault.isSome || r.disagreed || r.timedOut then none else r.chain })
    ∧ (is.todo.filter (· != slotNum sl) = [] → s.progLen r.task.ctx r.task.prog ≤ is.next → r.fault = none → r.ending = none →
      r.partner = none →
      s.closeBundle k sl = s.setRun k (({ r with issue := none, pc := is.next } : Run).faulted 0x02 is.next 0 (r.opened + 1)))

/-! ### Scalar and branch instructions (R136, R140) -/


/-- NOP and the scalar instructions of R140: the next state is the old one with rd as the table says, every other register, flag, core and
byte of memory as before, and the slot closed. x0 reads zero, and a write to it is discarded (R136); any other register takes the value and every other register keeps its own. -/
def Obligations.ScalarResults : Prop :=
  (∀ (k : LCore) (rd rs1 rs2 : XReg) (imm : BitVec 24),
    (∀ sl s r is b, s.runOf k = some r → s.canIssue k = true → s.bundleAt r = some b → slotWord b sl = 0 → r.issue = some is →
      exec (.nop k sl) s = .next (s.closeBundle k sl))
    ∧ Writes (.add k rd rs1 rs2) rd (fun x => BitVec.ofNat 64 ((x rs1).toNat + (x rs2).toNat))
    ∧ Writes (.sub k rd rs1 rs2) rd (fun x => BitVec.ofInt 64 ((x rs1).toInt - (x rs2).toInt))
    ∧ Writes (.and k rd rs1 rs2) rd (fun x => x rs1 &&& x rs2)
    ∧ Writes (.or k rd rs1 rs2) rd (fun x => x rs1 ||| x rs2)
    ∧ Writes (.xor k rd rs1 rs2) rd (fun x => x rs1 ^^^ x rs2)
    ∧ Writes (.sll k rd rs1 rs2) rd (fun x => BitVec.ofNat 64 ((x rs1).toNat * 2 ^ ((x rs2).toNat % 64)))
    ∧ Writes (.srl k rd rs1 rs2) rd (fun x => BitVec.ofNat 64 ((x rs1).toNat / 2 ^ ((x rs2).toNat % 64)))
    ∧ Writes (.sra k rd rs1 rs2) rd (fun x => BitVec.ofInt 64 ((x rs1).toInt / 2 ^ ((x rs2).toNat % 64)))
    ∧ Writes (.mul k rd rs1 rs2) rd (fun x => BitVec.ofNat 64 ((x rs1).toNat * (x rs2).toNat))
    ∧ Writes (.mulhu k rd rs1 rs2) rd (fun x => BitVec.ofNat 64 ((x rs1).toNat * (x rs2).toNat / 2 ^ 64))
    ∧ Writes (.divu k rd rs1 rs2) rd (fun x =>
        if (x rs2).toNat = 0 then BitVec.allOnes 64 else BitVec.ofNat 64 ((x rs1).toNat / (x rs2).toNat))
    ∧ Writes (.remu k rd rs1 rs2) rd (fun x =>
        if (x rs2).toNat = 0 then x rs1 else BitVec.ofNat 64 ((x rs1).toNat % (x rs2).toNat))
    ∧ Writes (.slt k rd rs1 rs2) rd (fun x => if (x rs1).toInt < (x rs2).toInt then 1#64 else 0#64)
    ∧ Writes (.sltu k rd rs1 rs2) rd (fun x => if (x rs1).toNat < (x rs2).toNat then 1#64 else 0#64)
    ∧ Writes (.min k rd rs1 rs2) rd (fun x => BitVec.ofInt 64 (min (x rs1).toInt (x rs2).toInt))
    ∧ Writes (.max k rd rs1 rs2) rd (fun x => BitVec.ofInt 64 (max (x rs1).toInt (x rs2).toInt))
    ∧ Writes (.addi k rd rs1 imm) rd (fun x => BitVec.ofInt 64 ((x rs1).toInt + imm.toInt))
    ∧ Writes (.andi k rd rs1 imm) rd (fun x => x rs1 &&& BitVec.ofNat 64 imm.toNat)
    ∧ Writes (.ori k rd rs1 imm) rd (fun x => x rs1 ||| BitVec.ofNat 64 imm.toNat)
    ∧ Writes (.xori k rd rs1 imm) rd (fun x => x rs1 ^^^ BitVec.ofNat 64 imm.toNat)
    ∧ Writes (.lui k rd imm) rd (fun _ => BitVec.ofNat 64 (imm.toNat * 2 ^ 24))
    ∧ Writes (.lhi k rd rs1 imm) rd (fun x => BitVec.ofNat 64 ((x rs1).toNat % 2 ^ 48 + imm.toNat % 2 ^ 16 * 2 ^ 48)))
  ∧ ((∀ is : Issue, is.x 0 = 0#64) ∧ (∀ (r : Run) v, r.writeX 0 v = r)
  ∧ (∀ (r : Run) (rd : XReg) v, rd ≠ 0 → r.xs.length = 32 →
      (r.writeX rd v).xs.getD rd 0#64 = v ∧ (∀ j : XReg, j ≠ rd → (r.writeX rd v).xs.getD j 0#64 = r.xs.getD j 0#64)
      ∧ (r.writeX rd v).xs.length = 32 ∧ { (r.writeX rd v) with xs := r.xs } = r))


/-- The branches of R140: relative to this bundle; JAL and JALR also write the number of the next bundle. -/
def Obligations.BranchTargets : Prop :=
  ∀ (k : LCore) (rd rs1 rs2 : XReg) (off : BitVec 24),
    Branches (.beq k rs1 rs2 off) off (fun x => x rs1 == x rs2)
    ∧ Branches (.bne k rs1 rs2 off) off (fun x => x rs1 != x rs2)
    ∧ Branches (.blt k rs1 rs2 off) off (fun x => decide ((x rs1).toInt < (x rs2).toInt))
    ∧ Branches (.bge k rs1 rs2 off) off (fun x => decide ((x rs1).toInt ≥ (x rs2).toInt))
    ∧ Branches (.bltu k rs1 rs2 off) off (fun x => decide ((x rs1).toNat < (x rs2).toNat))
    ∧ Branches (.bgeu k rs1 rs2 off) off (fun x => decide ((x rs1).toNat ≥ (x rs2).toNat))
    ∧ (∀ s k' w r is b, Acts s (.jal k rd off) k' .C w r is b → is.next = r.pc + 1 →
        exec (.jal k rd off) s = .next ((s.setRun k'
          { (r.writeX rd (BitVec.ofNat 64 (r.pc + 1))) with
            issue := some { is with next := ((r.pc : Int) + off.toInt).toNat } }).closeBundle k' .C))
    ∧ (∀ s k' w r is b, Acts s (.jalr k rd rs1 off) k' .C w r is b → is.next = r.pc + 1 →
        exec (.jalr k rd rs1 off) s = .next ((s.setRun k'
          { (r.writeX rd (BitVec.ofNat 64 (r.pc + 1))) with
            issue := some { is with next := (BitVec.ofInt 64 ((is.x rs1).toInt + off.toInt)).toNat } }).closeBundle k' .C))

/-- RDSR reads the special registers of R137: in a task outside a pair rd takes what the index names, FLAGS and FABOUT as they stood when the bundle opened (R151); CYCLE is a free value (the model leaves
out all timing), for which only the counter of free values moves.
Read by inference or chosen by the model: log entry 1. -/
def Obligations.SpecialRegisters : Prop :=
  ∀ (k : LCore) (rd : XReg) (idx : BitVec 24) (s : State) (w : Nat) (r : Run) (is : Issue) (b : Bundle),
    Acts s (.rdsr k rd idx) k .C w r is b → r.partner = none →
    let reads (v : Word) : Prop := exec (.rdsr k rd idx) s = .next ((s.setRun k (r.writeX rd v)).closeBundle k .C)
    (idx = 0#24 → reads (BitVec.ofNat 64 r.task.id)) ∧ (idx = 1#24 → reads r.seed) ∧ (idx = 2#24 → reads (BitVec.ofNat 64 k))
    ∧ (idx = 3#24 → reads (BitVec.ofNat 64 r.task.ctx))
    ∧ (idx = 4#24 → exec (.rdsr k rd idx) s = .next
        ((({ s with free := s.free + 1 }).setRun k (r.writeX rd (Config.freeWord s.free))).closeBundle k .C))
    ∧ (idx = 5#24 → reads is.flags)
    ∧ (idx = 6#24 → reads (s.regionWord r.task.ctx (clusterOf k))) ∧ (idx = 7#24 → reads (BitVec.ofNat 64 is.fabout))

/-! ### Address generators, local memory, moves (R133, R136, R138, R141, R153, R220) -/

/-- AGBASE, AGDIM, AGSTEP and AGRD change the generator that they name, or read it, and nothing else; a generator yields its base plus the
indices times the strides, modulo 2^64 (R138, R141). -/
def Obligations.AddressGenerators : Prop :=
  (∀ g : AG, g.addr = BitVec.ofInt 64 (g.base.toInt + (g.dims.map (fun d => d.stride.toInt * (d.index.toNat : Int))).foldr (· + ·) 0))
  ∧ (∀ (d : Dim) t, d.index.toNat + 1 < d.size → stepDims (d :: t) = { d with index := d.index + 1#16 } :: t)
  ∧ (∀ (d : Dim) t, d.size ≤ d.index.toNat + 1 → stepDims (d :: t) = { d with index := 0#16 } :: stepDims t)
  ∧ ∀ (k : LCore) (ag : AReg) (d : Fin 8) (rs1 rs2 : XReg),
    Gives (.agbase k ag rs1) .A (fun k r is _ s =>
      s.setRun k { r with ags := setAt r.ags ag ⟨is.x rs1, (is.ag ag).dims.map (fun d => { d with index := 0#16 })⟩ })
    ∧ Gives (.agdim k ag d rs1 rs2) .A (fun k r is _ s =>
      s.setRun k { r with ags := setAt r.ags ag ⟨(is.ag ag).base, modifyAt (is.ag ag).dims d (fun x =>
        ⟨BitVec.ofNat 16 (is.x rs2).toNat, BitVec.ofNat 32 (is.x rs1).toNat, x.index⟩)⟩ })
    ∧ Gives (.agstep k ag d) .A (fun k r is _ s =>
      s.setRun k { r with ags := setAt r.ags ag ⟨(is.ag ag).base, (is.ag ag).dims.take d ++ stepDims ((is.ag ag).dims.drop d)⟩ })
    ∧ Gives (.agrd k ag rs1) .A (fun k r is _ s => s.setRun k (r.writeX rs1 (is.ag ag).addr))

/-- VLD, VST, SLD and SST (R141). A load writes its register alone, from the bytes at its address, lowest first; a store writes its bytes at its
address and leaves every other byte. The vector moves step their generator. A load of a line marked poisoned is the fault POISON (R143). A
line whose word fails its parity is read again: a repeat that passes is logged, a second failure marks the line and is logged (R220).
Read by inference or chosen by the model: log entry 26. -/
def Obligations.LoadsAndStores : Prop :=
  ∀ (k : LCore) (v : VReg) (ag : AReg) (wd : Fin 4) (rd rs1 : XReg) (imm : BitVec 24),
    (∀ s obs w r is b, Acts s (.vld k v ag wd obs) k .A w r is b → ReadsWell s k obs →
      s.mem.poisoned (s.localAt k (is.ag ag).addr.toNat) (512 / 2 ^ wd.val) = false →
      ∃ x, exec (.vld k v ag wd obs) s = .next ((s.setRun k
          { r with vs := setAt r.vs v x, ags := setAt r.ags ag ((is.ag ag).step 0) }).closeBundle k .A)
        ∧ ∀ i : Fin 128, laneOf x i =
          fromLe (s.mem.bytes (s.localAt k (is.ag ag).addr.toNat) (512 / 2 ^ wd.val)) / 2 ^ (32 / 2 ^ wd.val * i.val) % 2 ^ (32 / 2 ^ wd.val))
    ∧ (∀ s w r is b, Acts s (.vst k v ag wd) k .A w r is b →
      exec (.vst k v ag wd) s = .next ((({ s with mem := s.mem.store (s.localAt k (is.ag ag).addr.toNat) (packLanes wd (is.v v)) }).setRun k
        { r with ags := setAt r.ags ag ((is.ag ag).step 0) }).closeBundle k .A))
    ∧ (∀ x : BitVec 4096, (packLanes wd x).length = 512 / 2 ^ wd.val)
    ∧ (∀ s obs w r is b, Acts s (.sld k rd rs1 imm obs) k .A w r is b → ReadsWell s k obs →
      s.mem.poisoned (s.localAt k (BitVec.ofInt 64 ((is.x rs1).toInt + imm.toInt)).toNat) 8 = false →
      exec (.sld k rd rs1 imm obs) s = .next ((s.setRun k (r.writeX rd
        (BitVec.ofNat 64 (fromLe (s.mem.bytes (s.localAt k (BitVec.ofInt 64 ((is.x rs1).toInt + imm.toInt)).toNat) 8))))).closeBundle k .A))
    ∧ (∀ s w r is b, Acts s (.sst k rd rs1 imm) k .A w r is b →
      exec (.sst k rd rs1 imm) s = .next (({ s with
        mem := s.mem.store (s.localAt k (BitVec.ofInt 64 ((is.x rs1).toInt + imm.toInt)).toNat) (leBytes 8 (is.x rd).toNat) }).closeBundle k .A))
    ∧ (∀ (s : State) obs w r is b, Acts s (.sld k rd rs1 imm obs) k .A w r is b → r.partner = none → r.fault = none → ReadsWell s k obs →
      s.mem.poisoned (s.localAt k (BitVec.ofInt 64 ((is.x rs1).toInt + imm.toInt)).toNat) 8 = true →
      ∃ v, exec (.sld k rd rs1 imm obs) s = .next ((s.setRun k ((r.struck 0x18 r.pc 1 (r.opened - 1)).writeX rd v)).closeBundle k .A))
    ∧ (∀ (s : State) (o : StoreLine), o.hard = false →
      let ln := s.localAt k (64 * o.line) / 64
      let u := s.storeUnit k (64 * o.line)
      (s.mem.wordFails ln o.first ≠ 0 → s.mem.wordFails ln o.second = 0 →
        s.storeLine k o = s.log { code := 0x0306, kind := u.1, unit := u.2, action := 2, ctx := s.ctxOf k })
      ∧ (s.mem.wordFails ln o.first ≠ 0 → s.mem.wordFails ln o.second ≠ 0 →
        s.storeLine k o = { (s.log { code := 0x0307, cls := 1, kind := u.1, unit := u.2, action := 3, ctx := s.ctxOf k }) with
          mem := s.mem.mark ln } ∧ (s.mem.mark ln).poisoned (64 * ln) 64 = true))

/-- What a store leaves (the frame of every store): its bytes read back, every other byte reads as before, and the form of memory is kept. -/
def Obligations.StoreFrame : Prop :=
  ∀ (m : Mem) (a : Nat) (l : List Byte),
    (∀ i, (h : i < l.length) → (m.store a l).read (a + i) = l[i])
    ∧ (∀ c, c < a ∨ a + l.length ≤ c → (m.store a l).read c = m.read c)
    ∧ (m.wf = true → (m.store a l).wf = true)
    ∧ (∀ ln, ln ∈ (m.store a l).poison ↔ ln ∈ m.poison ∧ ¬(a ≤ 64 * ln ∧ 64 * ln + 64 ≤ a + l.length))

/-- MOVE goes on in the background: at issue only its range is noted. When it completes, the destination holds the source's bytes, marked where
the source's lines were (R141, R143, R153); every other byte of memory is left.
Read by inference or chosen by the model: log entry 26. -/
def Obligations.Moves : Prop :=
  ∀ (k : LCore) (rd rs1 rs2 : XReg),
    (∀ s obs w r is b, Acts s (.move k rd rs1 rs2 obs) k .A w r is b → ReadsWell s k obs →
      s.mem.poisoned (s.localAt k (is.x rs1).toNat) (is.x rs2).toNat = false →
      exec (.move k rd rs1 rs2 obs) s = .next ((s.setRun k
        { r with moves := r.moves ++ [⟨(is.x rs1).toNat, (is.x rd).toNat, (is.x rs2).toNat⟩] }).closeBundle k .A))
    ∧ (∀ (s : State) (r : Run) (i : Nat) (m : Mv), s.runOf k = some r → r.moves[i]? = some m →
      s.mem.poisoned (s.localAt k m.src) m.bytes = false →
      exec (.moveComplete k i) s = .next { (s.setRun k { r with moves := r.moves.eraseIdx i }) with
        mem := s.mem.store (s.localAt k m.dst) (s.mem.bytes (s.localAt k m.src) m.bytes) })

/-! ### Fabric operations (R142, R143, R235–R240) -/

/-- GET, PUT, PUTS, FWAIT and the atomics of a task outside a pair, all of whose addresses translate to this module: at issue each notes its
shares with the job tag then in force (R230), the network interface's translation cache takes its entries (R234), and the operation goes on in
the background; no byte of memory changes. A source of PUT or PUTS in a marked line is the fault POISON; a size that is 0, no multiple of 64
or above 16 MiB is the fault FABRIC_SIZE (R143).
Read by inference or chosen by the model: log entries 25 and 88. -/
def Obligations.FabricIssue : Prop :=
  ∀ (k : LCore) (rd rs1 rs2 rsig : XReg) (n : BitVec 5) (s : State) (obs : List StoreLine) (w : Nat) (r : Run) (is : Issue) (b : Bundle),
    r.partner = none → ReadsWell s k obs →
    let cl := some (clusterOf k)
    let home (l : List (Nat × Nat × Nat)) : List Chunk := l.map (fun p => ⟨none, p.1, p.2.1, p.2.2, none⟩)
    let noted (o : FabOp) : State :=
      ((s.cacheRun cl r.task.ctx o.va.toNat o.bytes).setRun k { r with fab := r.fab ++ [o] }).closeBundle k .A
    let op (kind : FabKind) (l : List (Nat × Nat × Nat)) (loc bytes : Nat) (sig : Option (Node × Nat)) : FabOp :=
      { kind := kind, seq := r.opened - 1, tag := s.jobTag r.task.ctx, va := is.x rs1, ok := true, loc := loc, bytes := bytes, bundle := r.pc
        aop := 0, arg := 0#64, cmp := 0#64, rd := 0, sig := sig, chunks := home l, inward := none }
    let size := (is.x rs2).toNat
    let legal : Prop := size ≠ 0 ∧ size % 64 = 0 ∧ size ≤ 2 ^ 24
    let wrong : Prop := size = 0 ∨ size % 64 ≠ 0 ∨ 2 ^ 24 < size
    let stopped (c : Nat) : State := (s.setRun k (r.struck c r.pc 1 (r.opened - 1))).closeBundle k .A
    (∀ l, Acts s (.get k rd rs1 rs2) k .A w r is b → legal →
      s.translateRun cl r.task.ctx (is.x rs1).toNat size permRead = some l → (∀ p ∈ l, gpaNode p.1 = s.node.toNat) →
      exec (.get k rd rs1 rs2) s = .next (noted (op .get l (is.x rd).toNat size none)))
    ∧ (∀ l, Acts s (.put k rd rs1 rs2 obs) k .A w r is b → legal → s.mem.poisoned (s.localAt k (is.x rd).toNat) size = false →
      s.translateRun cl r.task.ctx (is.x rs1).toNat size permWrite = some l → (∀ p ∈ l, gpaNode p.1 = s.node.toNat) →
      exec (.put k rd rs1 rs2 obs) s = .next (noted (op .put l (is.x rd).toNat size none)))
    ∧ (∀ l, Acts s (.puts k rd rs1 rs2 rsig obs) k .A w r is b → legal → s.mem.poisoned (s.localAt k (is.x rd).toNat) size = false →
      s.translateRun cl r.task.ctx (is.x rs1).toNat size permWrite = some l → (∀ p ∈ l, gpaNode p.1 = s.node.toNat) →
      exec (.puts k rd rs1 rs2 rsig obs) s = .next (noted (op .puts l (is.x rd).toNat size (objOf (is.x rsig)))))
    ∧ (Acts s (.put k rd rs1 rs2 obs) k .A w r is b → legal → s.mem.poisoned (s.localAt k (is.x rd).toNat) size = true → r.fault = none →
      exec (.put k rd rs1 rs2 obs) s = .next (stopped 0x18))
    ∧ (Acts s (.get k rd rs1 rs2) k .A w r is b → wrong → r.fault = none → exec (.get k rd rs1 rs2) s = .next (stopped 0x11))
    ∧ (Acts s (.put k rd rs1 rs2 obs) k .A w r is b → wrong → r.fault = none → exec (.put k rd rs1 rs2 obs) s = .next (stopped 0x11))
    ∧ (Acts s (.fwait k n) k .A w r is b → exec (.fwait k n) s = .next (s.closeBundle k .A))
    ∧ (∀ l, s.translateRun cl r.task.ctx (is.x rs1).toNat 8 permAtomic = some l → (∀ p ∈ l, gpaNode p.1 = s.node.toNat) →
      let atom (a : Nat) (cmp : Word) : State := noted { op .atomic l 0 8 none with aop := a, arg := is.x rs2, cmp := cmp, rd := rd }
      (Acts s (.aadd k rd rs1 rs2) k .A w r is b → exec (.aadd k rd rs1 rs2) s = .next (atom 0 0#64))
      ∧ (Acts s (.amin k rd rs1 rs2) k .A w r is b → exec (.amin k rd rs1 rs2) s = .next (atom 1 0#64))
      ∧ (Acts s (.amax k rd rs1 rs2) k .A w r is b → exec (.amax k rd rs1 rs2) s = .next (atom 2 0#64))
      ∧ (Acts s (.aswp k rd rs1 rs2) k .A w r is b → exec (.aswp k rd rs1 rs2) s = .next (atom 3 0#64))
      ∧ (Acts s (.acas k rd rs1 rs2) k .A w r is b → exec (.acas k rd rs1 rs2) s = .next (atom 4 (is.x rd))))

/-- FABRIC_REPLY: an operation of a task outside a pair completes. An address that did not translate is FABRIC_PAGE at the bundle that issued it, and
for a GET the bytes it targets become undefined. A GET whose one share, from another node, came back OK and unmarked writes the bytes at
its local address and nothing else; an atomic's old value goes to rd (R142, R143, R155).
Read by inference or chosen by the model: log entry 39. -/
def Obligations.FabricCompletion : Prop :=
  ∀ (k : LCore) (i : Nat) (lines : List LineObs) (s : State) (r : Run) (o : FabOp), s.runOf k = some r → r.fab[i]? = some o →
    r.partner = none → r.fault = none →
    let faulted : State := s.setRun k (({ r with fab := r.fab.eraseIdx i } : Run).struck 0x10 o.bundle 1 o.seq)
    (o.ok = false →
      exec (.fabricReply k i lines) s = .next (if o.kind = .get then faulted.forget (s.localAt k o.loc) o.bytes else faulted))
    ∧ (∀ id g off len y, o.ok = true → o.chunks = [⟨some id, g, off, len, some y⟩] → o.inward = none → y.status = 0#8 → y.poisoned = [] →
      (o.kind = .get → exec (.fabricReply k i lines) s = .next { (s.setRun k { r with fab := r.fab.eraseIdx i }) with
        mem := s.mem.store (s.localAt k (o.loc + off)) y.data })
      ∧ (o.kind = .put → exec (.fabricReply k i lines) s = .next (s.setRun k { r with fab := r.fab.eraseIdx i }))
      ∧ (o.kind = .atomic → exec (.fabricReply k i lines) s = .next (s.setRun k
          (({ r with fab := r.fab.eraseIdx i } : Run).writeX o.rd (BitVec.ofNat 64 (fromLe (y.data.take 8)))))))

/-! ### Tile instructions (R95–R119, R138, R144, R145) -/

/-- TSTART opens a chain with its shape, mode, depth and anchor; TMMA logs its steps, as captured at issue; TFIN closes the chain and hands it to
its finish; TWAIT has nothing left to wait for. TMMA and TFIN join the queue of tile instructions (R145). None of them touches a register or a
byte of memory.
Read by inference or chosen by the model: log entries 24, 87, 90 and 124. -/
def Obligations.TileChains : Prop :=
  ∀ (k : LCore) (m1 n1 : Fin 128) (rk ra rs rx : XReg) (aga agb ago : AReg) (fa fb ofmt : Fin 16) (mx sparse sat sr ftz : Bool)
    (s : State) (obs : List StoreLine) (w : Nat) (r : Run) (is : Issue) (b : Bundle), ReadsWell s k obs →
    let opens (mode : Fin 4) (anchor : Option Int) : State := (s.setRun k
      { r with chain := some ⟨m1 + 1, n1 + 1, mode, (is.x rk).toNat, anchor, [], []⟩ }).closeBundle k .I
    (Acts s (.tstart k m1 n1 0 rk ra obs) k .I w r is b → exec (.tstart k m1 n1 0 rk ra obs) s = .next (opens 0 (some 32)))
    ∧ (Acts s (.tstart k m1 n1 1 rk ra obs) k .I w r is b →
      exec (.tstart k m1 n1 1 rk ra obs) s = .next (opens 1 (some ((is.x ra).setWidth 12).toInt)))
    ∧ (Acts s (.tstart k m1 n1 2 rk ra obs) k .I w r is b → exec (.tstart k m1 n1 2 rk ra obs) s = .next (opens 2 none))
    ∧ (Acts s (.tstart k m1 n1 3 rk ra obs) k .I w r is b → s.markedAt k ((is.x ra).toNat, (m1 + 1) * (n1 + 1) * 16) = false →
      let recs := (s.loadRecs k ((is.x ra).toNat, (m1 + 1) * (n1 + 1) * 16)).map Rec96.read
      exec (.tstart k m1 n1 3 rk ra obs) s = .next ((s.setRun k
        { r with chain := some ⟨m1 + 1, n1 + 1, 3, (is.x rk).toNat, some ((recs.map (·.e)).headD 32), recs, []⟩ }).closeBundle k .I))
    ∧ (∀ c, Acts s (.tmma k aga agb fa fb mx sparse rk rs obs) k .I w r is b → r.chain = some c →
      let t : Tmma := { fa := fa, fb := fb, mx := mx, sparse := sparse, k := (is.x rk).toNat
                        aAddr := (is.ag aga).rowBase, aStride := (is.ag aga).rowStride
                        bAddr := (is.ag agb).rowBase, bStride := (is.ag agb).rowStride
                        scaleA := (is.x rs).toNat % 2 ^ 20, scaleB := (is.x rs).toNat / 2 ^ 20 % 2 ^ 20
                        posA := (is.x rs).toNat / 2 ^ 40 % 2 ^ 20 }
      (t.reads c.m c.n).any (s.markedAt k) = false →
      exec (.tmma k aga agb fa fb mx sparse rk rs obs) s = .next ((s.setRun k
        { r with chain := some { c with ops := c.ops ++ [t] }, tile := r.tileQueue s.time ++ [some (((r.tileQueue s.time).filterMap id).foldl max
          s.time + s.tileTime k r c t)] }).closeBundle k .I))
    ∧ (∀ c, Acts s (.tfin k ago ofmt sat sr ftz rx) k .I w r is b → r.chain = some c →
      exec (.tfin k ago ofmt sat sr ftz rx) s = .next ((s.setRun k { r with
        chain := none
        tile := r.tileQueue s.time ++ [none]
        finishes := r.finishes ++ [⟨c, (is.ag ago).rowBase, (is.ag ago).rowStride, ofmt, sat, sr, ftz, is.x rx, false, r.pc⟩] }).closeBundle k .I))
    ∧ (Acts s (.twait k) k .I w r is b → exec (.twait k) s = .next (s.closeBundle k .I))

/-- FINISH_COMPLETE: the task's oldest finish computes its block from the core store, in ordered mode where the task runs ordered, and writes its
rows; flags stick (R118); it leaves the queue of tile instructions (R145). A chain outside the window makes later chains run ordered (R107), or, of raw output, is lost (R108).
Read by inference or chosen by the model: log entries 24 and 30. -/
def Obligations.FinishWrites : Prop :=
  ∀ (s : State) (k : LCore) (r : Run) (f : Finish) (rest : List Finish), s.runOf k = some r → r.finishes = f :: rest →
    let o := ({ f with ordered := r.ordered } : Finish).run (s.coreByte k) r.seed r.task.id
    exec (.finishComplete k) s = .next { (s.setRun k { r with
        finishes := rest, tile := (r.tile.dropWhile (·.isSome)).drop 1, invalid := r.invalid || o.invalid, overflow := r.overflow || o.overflow, window := r.window || o.window
        ordered := r.ordered || (o.window && f.ofmt != 10), rawLost := r.rawLost || (o.window && f.ofmt == 10) }) with
      mem := o.rows.foldl (fun m p => m.store (coreStoreAt (s.physOf k) p.1.toNat) p.2) s.mem }

/-! ### Vector instructions (R118, R120, R125–R127, R146) -/

/-- Lane by lane: vd takes the results' bits, INVALID and OVERFLOW stick, and nothing else changes. FP32 lanes are decoded exactly and each
result is rounded once; a reduction runs the fixed tree of R127 and fills every lane.
Read by inference or chosen by the model: log entries 3 and 85. -/
def Obligations.VectorLanes : Prop :=
  (∀ (l : List Nat) (i : Nat), l.length = 128 → (h : i < l.length) → laneOf (ofLanes l) i = l[i] % 2 ^ 32)
  ∧ ∀ (k : LCore) (vd a b c : VReg),
    let lane2 (f : Nat → Nat → Res) (is : Issue) : List Res :=
      (List.range 128).map (fun i => f (laneOf (is.v a) i) (laneOf (is.v b) i))
    let lane1 (f : BitVec 32 → Res) (is : Issue) : List Res := (List.range 128).map (fun i => f (BitVec.ofNat 32 (laneOf (is.v a) i)))
    let tree (f : Nat → Nat → Res) (is : Issue) : List Res := List.replicate 128 (treeReduce f ((List.range 128).map (laneOf (is.v a))))
    Lanewise (.vadd k vd a b) vd (lane2 (fun x y => fadd (fFP32.decode x) (fFP32.decode y)))
    ∧ Lanewise (.vsub k vd a b) vd (lane2 (fun x y => fadd (fFP32.decode x) (fFP32.decode y).negate))
    ∧ Lanewise (.vmul k vd a b) vd (lane2 (fun x y => fmul (fFP32.decode x) (fFP32.decode y)))
    ∧ Lanewise (.vdiv k vd a b) vd (lane2 (fun x y => fdiv (fFP32.decode x) (fFP32.decode y)))
    ∧ Lanewise (.vmax k vd a b) vd (lane2 (fmaxmin true))
    ∧ Lanewise (.vmin k vd a b) vd (lane2 (fmaxmin false))
    ∧ Lanewise (.vfma k vd a b c) vd (fun is => (List.range 128).map (fun i =>
        ffma (fFP32.decode (laneOf (is.v a) i)) (fFP32.decode (laneOf (is.v b) i)) (fFP32.decode (laneOf (is.v c) i))))
    ∧ Lanewise (.vsqrt k vd a) vd (fun is => (List.range 128).map (fun i => fsqrt (fFP32.decode (laneOf (is.v a) i))))
    ∧ Lanewise (.vexp k vd a) vd (lane1 fexp) ∧ Lanewise (.vlog k vd a) vd (lane1 flog)
    ∧ Lanewise (.vrsqrt k vd a) vd (lane1 frsqrt) ∧ Lanewise (.vtanh k vd a) vd (lane1 ftanh) ∧ Lanewise (.vsig k vd a) vd (lane1 fsig)
    ∧ Lanewise (.vrsum k vd a) vd (tree (fun x y => fadd (fFP32.decode x) (fFP32.decode y)))
    ∧ Lanewise (.vrmax k vd a) vd (tree (fmaxmin true)) ∧ Lanewise (.vrmin k vd a) vd (tree (fmaxmin false))

/-- VBCAST, VLANE and VCVT (R122, R146): every lane takes x[rs][31:0]; a register takes one lane, zero-extended; each lane is converted between
the formats of R139, lane i with the element index x[rs] + i where it rounds stochastically.
Read by inference or chosen by the model: log entry 23. -/
def Obligations.VectorMoves : Prop :=
  ∀ (k : LCore) (vd a : VReg) (rs : XReg) (lane : Fin 128) (frm dst : Fin 16) (sr sat : Bool),
    Gives (.vbcast k vd rs) .I (fun k r is _ s =>
      s.setRun k { r with vs := setAt r.vs vd (ofLanes (List.replicate 128 ((is.x rs).toNat % 2 ^ 32))) })
    ∧ Gives (.vlane k a rs lane) .I (fun k r is _ s => s.setRun k (r.writeX rs (BitVec.ofNat 64 (laneOf (is.v a) lane))))
    ∧ (∀ s w r is b, Acts s (.vcvt k vd a rs frm dst sr sat) k .I w r is b →
      let l := (List.range 128).map (fun i => (elemOf dst).convert sat sr (srng r.seed r.task.id (((is.x rs).toNat + i) % 2 ^ 64))
        ((elemOf frm).decode (laneOf (is.v a) i % 2 ^ (elemOf frm).bits)))
      exec (.vcvt k vd a rs frm dst sr sat) s = .next ((s.setRun k { r with
        vs := setAt r.vs vd (ofLanes (l.map (·.bits))), invalid := r.invalid || l.any (·.invalid)
        overflow := r.overflow || l.any (·.overflow) }).closeBundle k .I))

/-- The window reductions and VRADD (R108, R120, R127): inside the window the result is written, and the flags that it raises stick; outside, the
register keeps its contents and the task will complete WINDOW. VRADD raises INVALID where +Inf meets −Inf (R118).
Read by inference or chosen by the model: log entries 30 and 86. -/
def Obligations.WindowReductions : Prop :=
  ∀ (k : LCore) (vd a b : VReg) (rs : XReg) (s : State) (w : Nat) (r : Run) (is : Issue) (bu : Bundle),
    let e := ((is.x rs).setWidth 12).toInt
    let g := windowReduce e ((List.range 128).map (laneOf (is.v a)))
    let lost : State := (s.setRun k { r with window := true, rawLost := true }).closeBundle k .I
    (Acts s (.vwred k vd a rs) k .I w r is bu →
      (g.window = true → exec (.vwred k vd a rs) s = .next lost)
      ∧ (g.window = false → exec (.vwred k vd a rs) s = .next ((s.setRun k { r with
          vs := setAt r.vs vd (ofLanes (List.replicate 128 (g.toFP32 e).bits)), invalid := r.invalid || (g.toFP32 e).invalid
          overflow := r.overflow || (g.toFP32 e).overflow }).closeBundle k .I)))
    ∧ (Acts s (.vwredr k vd a rs) k .I w r is bu →
      (g.window = true → exec (.vwredr k vd a rs) s = .next lost)
      ∧ (g.window = false → exec (.vwredr k vd a rs) s = .next ((s.setRun k { r with
          vs := setAt r.vs vd (BitVec.ofNat 4096 (fromLe (Rec96.bytes (if g.flags = 0 then ⟨g.total, e, 0⟩ else ⟨0, e, g.flags⟩))))
          invalid := r.invalid || g.flags == 6 }).closeBundle k .I)))
    ∧ (Acts s (.vradd k vd a b) k .I w r is bu →
      let l := List.zipWith Rec96.add (vRecs (is.v a)) (vRecs (is.v b))
      let meet := (List.zipWith Rec96.infMeets (vRecs (is.v a)) (vRecs (is.v b))).any id
      (none ∈ l → exec (.vradd k vd a b) s = .next ((s.setRun k { r with
          window := true, rawLost := true, invalid := r.invalid || meet }).closeBundle k .I))
      ∧ (∀ x : List Rec96, l = x.map some → exec (.vradd k vd a b) s = .next ((s.setRun k { r with
          vs := setAt r.vs vd (BitVec.ofNat 4096 (fromLe (x.flatMap Rec96.bytes))), invalid := r.invalid || meet }).closeBundle k .I)))

/-! ### Sync objects and token channels (R82, R83, R147, R148, R160) -/

/-- SSIG, SWAIT, SRST, SRD and the timeout of a SWAIT, for a task outside a pair (R147, R160). A signal leaves for its object, of this node through
the trellis, of another as a SIGNAL packet that holds the value (R288; where it names the object is log entry 40); a wait that is over writes 0, or 1 where its timeout expired; a counter is cleared or read.
Read by inference or chosen by the model: log entries 19, 82, 84 and 95. -/
def Obligations.SyncInstructions : Prop :=
  ∀ (k : LCore) (rd rs1 rs2 : XReg) (fn : BitVec 19) (s : State) (w : Nat) (r : Run) (is : Issue) (b : Bundle), r.partner = none →
    (∀ n i, Acts s (.ssig k rs1 rs2) k .C w r is b → objOf (is.x rs1) = some (n, i) →
      (n = s.node → exec (.ssig k rs1 rs2) s = .next ({ s with
          cores := { s.cores with signals := s.cores.signals ++
                      [(clusterOf k, (⟨if h : r.task.ctx < 128 then some ⟨r.task.ctx, h⟩ else none, BitVec.ofNat 14 i, is.x rs2⟩ : SigMsg))] } }.closeBundle k .C))
      ∧ (n ≠ s.node →
        let place := n.toNat * 2 ^ 40 + i % 2 ^ 14
        exec (.ssig k rs1 rs2) s = .next ((({ s with fab := { s.fab with nextId := s.fab.nextId + 1 } }).sendPkt 0x13 n (frameOf place)
          (requestBody place (s.jobTag r.task.ctx) r.task.ctx 0 s.fab.nextId (leBytes 8 (is.x rs2).toNat)) []).closeBundle k .C)))
    ∧ (Acts s (.swait k rd rs1 rs2 fn) k .C w r is b →
      (r.waiting = none → exec (.swait k rd rs1 rs2 fn) s = .next ((s.setRun k (r.writeX rd 0#64)).closeBundle k .C))
      ∧ (r.waiting = some (.over 0) → exec (.swait k rd rs1 rs2 fn) s = .next ((s.setRun k (r.writeX rd 0#64)).closeBundle k .C))
      ∧ (r.waiting = some (.over 1) → exec (.swait k rd rs1 rs2 fn) s = .next ((s.setRun k (r.writeX rd 1#64)).closeBundle k .C)))
    ∧ (∀ n i o, Acts s (.srst k rs1) k .C w r is b → objOf (is.x rs1) = some (n, i) → lookupKey s.sync i = some o →
      exec (.srst k rs1) s = .next ({ s with sync := insertKey s.sync i { o with counter := 0 } }.closeBundle k .C))
    ∧ (∀ n i o, Acts s (.srd k rd rs1) k .C w r is b → objOf (is.x rs1) = some (n, i) → lookupKey s.sync i = some o →
      exec (.srd k rd rs1) s = .next ((s.setRun k (r.writeX rd (BitVec.ofNat 64 o.counter))).closeBundle k .C))
    ∧ (∀ o t n, s.runOf k = some r → r.waiting = some (.swait o t n) →
      exec (.swaitTimeout k) s = .next (if n = 0 then s.setRun k r else s.setRun k { r with waiting := some (.over 1) }))

/-- Token channels, for a task outside a pair (R82, R148): TBIND binds a send side with its 16 credits and claims the peer's queue; TUNBIND releases
both; TSEND spends a credit and the token leaves; TOKEN_ARRIVAL queues it, in the order sent from its cluster (R65), or, while the core moves, the
network interface holds it (R58); TRECV takes the oldest token and its credit returns; TSTAT reports.
Read by inference or chosen by the model: log entries 29, 41 and 113. -/
def Obligations.TokenChannels : Prop :=
  ∀ (k : LCore) (e : Endp) (rd rs1 : XReg) (s : State) (w : Nat) (r : Run) (is : Issue) (b : Bundle), r.partner = none →
    let key := k.val * 8 + e.val
    let peer := (is.x rs1).toNat % 4096
    (Acts s (.tbind k e rs1) k .C w r is b →
      let s1 := s.setEndpoint key { (s.endpoint key) with peer := some (peer, r.task.ctx), credits := 16 }
      exec (.tbind k e rs1) s = .next ((s1.setEndpoint peer { (s1.endpoint peer) with claim := some r.task.ctx }).closeBundle k .C))
    ∧ (∀ p, Acts s (.tunbind k e) k .C w r is b → (s.endpoint key).peer = some (p, r.task.ctx) →
      let s1 := s.setEndpoint key { (s.endpoint key) with peer := none, credits := 16 }
      exec (.tunbind k e) s = .next ((s1.setEndpoint p { (s1.endpoint p) with claim := none }).closeBundle k .C))
    ∧ (∀ p c, Acts s (.tsend k e rs1) k .C w r is b → (s.endpoint key).peer = some (p, c) →
      let s1 := s.setEndpoint key { (s.endpoint key) with credits := (s.endpoint key).credits - 1 }
      exec (.tsend k e rs1) s = .next ({ s1 with
        cores := { s1.cores with tokens := s.cores.tokens ++ [(p, clusterOf k, is.x rs1)] } }.closeBundle k .C))
    ∧ (∀ v t, Acts s (.trecv k rd e) k .C w r is b → (s.endpoint key).queue = v :: t →
      exec (.trecv k rd e) s = .next (((((s.setEndpoint key { (s.endpoint key) with queue := t }).returnCredit key).setRun k
        (r.writeX rd v))).closeBundle k .C))
    ∧ (Acts s (.tstat k rd e) k .C w r is b →
      exec (.tstat k rd e) s = .next ((s.setRun k (r.writeX rd (BitVec.ofNat 64 ((s.endpoint key).queue.length + (s.endpoint key).credits * 2 ^ 8
        + ofBool (s.endpoint key).peer.isSome * 2 ^ 16)))).closeBundle k .C))
    ∧ (∀ src v rest, takeFirst key s.cores.tokens = some ((src, v), rest) →
      let before := s.cores.tokens.takeWhile (fun t => t.1 != key)
      let held := s.cores.heldTokens ++ [(key, v)]
      (src = clusterOf k ∨ ∀ t ∈ before, t.2.1 = src → clusterOf (t.1 / 8) ≠ clusterOf k) →
      (s.moveBegun k = false → s.coreInReset k = false →
        exec (.tokenArrival k e) s = .next (({ s with cores := { s.cores with tokens := rest } }).setEndpoint key
          { (s.endpoint key) with queue := (s.endpoint key).queue ++ [v] }))
      ∧ (s.moveBegun k = true →
        exec (.tokenArrival k e) s = .next { s with cores := { s.cores with tokens := rest, heldTokens := held } }))

/-! ### Collective launch and the end of a task (R149, R150, R155, R178, R180) -/

/-- CLNCH copies its descriptor into the group's communication queue (R149). TEND records how the task ends and x31 as the result,
and no bundle issues after it; the
task completes once its background work is over: it leaves its core and its record becomes due, with status OK, ORDERED or WINDOW, or TIMEOUT
for kind 1, POISONED for POISON and PARTIAL for any other fault (R107, R108, R150, R155).
Read by inference or chosen by the model: log entries 29 and 33. -/
def Obligations.LaunchAndEnd : Prop :=
  ∀ (k : LCore) (rs1 rs2 : XReg) (kind : Bool) (obs : List StoreLine) (s : State) (w : Nat) (r : Run) (is : Issue) (b : Bundle), r.partner = none →
    (Acts s (.clnch k rs1 rs2 obs) k .C w r is b → ReadsWell s k obs → s.mem.poisoned (s.localAt k (is.x rs2).toNat) 64 = false →
      let q := insertKey s.que.comm (is.x rs1).toNat (s.commOf (is.x rs1).toNat ++ [s.mem.bytes (s.localAt k (is.x rs2).toNat) 64])
      exec (.clnch k rs1 rs2 obs) s = .next ({ s with que := { s.que with comm := q } }.closeBundle k .C))
    ∧ (Acts s (.tend k kind) k .C w r is b →
      exec (.tend k kind) s = .next ((s.setRun k { r with ending := some kind, endX := is.x 31 }).closeBundle k .C))
    ∧ (s.runOf k = some r → r.primary = true → r.issue = none → r.finishes = [] → r.moves = [] → r.fab = [] → r.disagreed = false →
        r.timedOut = false →
      (∀ kd, r.ending = some kd → r.fault = none → exec (.taskCompletion k) s = .next (((s.dropRun k).closeTask r.task
        (if kd then 7 else if r.rawLost then 5 else if r.ordered then 1 else 0) 0 none r.recFlags (some r.endX) (some k) true).startNext k))
      ∧ (∀ c bu, r.fault = some (c, bu) → exec (.taskCompletion k) s = .next (((s.dropRun k).closeTask r.task
        (if c = 0x18 then 8 else 4) c (some bu) r.recFlags (some 0#64) (some k) true).startNext k)))
    ∧ (∀ (t : Task) st fault bu fl res core sg, ∃ q : CRec,
        (s.closeTask t st fault (some bu) fl (some res) (some core) sg).que.recs = s.que.recs ++
          [⟨s.ringOf t.ctx t.queue, q, if sg ∧ st ≤ 1 then t.done else none, t.decant && decide (t.ctx < 8) && decide (st ≤ 1),
            t.quiet && decide (st = 0), false, some core⟩]
        ∧ q.tag = t.id ∧ q.status = st ∧ q.fault = fault ∧ q.flags = fl ∧ q.kind = 0 ∧ q.queue = t.queue ∧ q.bundle = bu ∧ q.result = res
        ∧ q.core = core ∧ q.ctx = t.ctx)

/-! ### The host's accesses (R5–R8, R12, R190–R194, R208, R415, R450, R472) -/

/-- A read of a reserved offset in BAR0 or BAR2, of the size and alignment that its page asks for, returns zero, and a write to one is discarded;
neither logs an error (R6). That a bad size or alignment meets R5 there instead, and that a page of a context not in use is no exception to R6,
is the model's choice (log entry 75). A module that does not answer yet reads all bits set (R415), and a BAR0 access is held while the supervisor
restores (R472, log entry 68). The compatibility page takes 32-bit accesses (R192). In BAR2 what lies outside the head and tail doorbells, STATE
and the communication doorbell of pages 0 to 127 is reserved (R7, R171, R309). -/
def Obligations.ReservedOffsets : Prop :=
  (∀ off, bar2Reserved off = true ↔ 128 ≤ off / 4096 ∨ (0xA0 ≤ off % 4096 ∧ off % 4096 < 0xC0)
    ∨ (0x100 ≤ off % 4096 ∧ ¬(0x400 ≤ off % 4096 ∧ off % 4096 < 0x408)))
  ∧ ∀ (off : BitVec 26) (v : Word) (s : State),
    let answer (size : Nat) (w : Word) : State := { s with out := .hostRead size w :: s.out }
    let held (size : Nat) (a : HostAcc) : State := { s with sup := { s.sup with held := s.sup.held ++ [⟨off.toNat, size, a, HostObs.plain⟩] } }
    (∀ size, (if onCompat off.toNat then size = 4 else size = 8) → regLayout off.toNat = none → off.toNat % size = 0 →
      ((s.takesWrites off.toNat = false ∨ s.holding = false) → exec (.reservedOffsetAccess false off (.wr v)) s = .next s)
      ∧ (s.takesWrites off.toNat = true → s.holding = true → exec (.reservedOffsetAccess false off (.wr v)) s = .next (held size (.wr v)))
      ∧ (s.answers off.toNat = true → s.holding = false → exec (.reservedOffsetAccess false off .rd) s = .next (answer size 0#64))
      ∧ (s.answers off.toNat = true → s.holding = true → exec (.reservedOffsetAccess false off .rd) s = .next (held size .rd))
      ∧ (s.answers off.toNat = false → exec (.reservedOffsetAccess false off .rd) s = .next (answer size (BitVec.ofNat 64 (2 ^ (8 * size) - 1)))))
    ∧ (bar2Reserved off.toNat = true → off.toNat % 8 = 0 →
      exec (.reservedOffsetAccess true off (.wr v)) s = .next s
      ∧ (s.answers 0x200000 = true → exec (.reservedOffsetAccess true off .rd) s = .next (answer 8 0#64))
      ∧ (s.answers 0x200000 = false → exec (.reservedOffsetAccess true off .rd) s = .next (answer 8 (BitVec.allOnes 64))))

/-- A host access to BAR0. An aligned read answers the register as it stands, WO and W1S fields as zero but verify, which reads 1 while a verify
runs (R47), and clears its RC fields (R12); while the module does not answer it reads all bits set (R415); while the supervisor restores it is
held (R472). A write of a context's seed stores it and changes no other register. An access of another size or alignment, in BAR0 or at a doorbell
of BAR2 (R171), is logged with its offset, and a read of it returns all bits set (R5); none is logged before the auxiliary stage has ended (R415),
and one in BAR0 is held too while the supervisor restores (log entry 68).
Read by inference or chosen by the model: log entries 22 and 75. -/
def Obligations.HostAccessBar0 : Prop :=
  ∀ (off : BitVec 26) (v : Word) (obs : HostObs) (s : State),
    let held (size : Nat) (a : HostAcc) (o : HostObs) : State := { s with sup := { s.sup with held := s.sup.held ++ [⟨off.toNat, size, a, o⟩] } }
    (onCompat off.toNat = false → off.toNat % 8 = 0 →
      (∀ l, regLayout off.toNat = some l → s.answers off.toNat = true → s.holding = false →
        exec (.registerWrite off .rd obs) s = .next { (s.setReg off.toNat (readClear (s.reg off.toNat) l)) with
          out := .hostRead 8 (if off.toNat = rCuveeCtl then putBits (readView (s.regNow off.toNat) l) fCuveeCtlVerify (ofBool s.img.verify.isSome)
            else readView (s.regNow off.toNat) l) :: s.out })
      ∧ (s.answers off.toNat = true → s.holding = true → exec (.registerWrite off .rd obs) s = .next (held 8 .rd HostObs.plain))
      ∧ (s.answers off.toNat = false →
        exec (.registerWrite off .rd obs) s = .next { s with out := .hostRead 8 (BitVec.ofNat 64 (2 ^ 64 - 1)) :: s.out })
      ∧ (s.takesWrites off.toNat = false → exec (.registerWrite off (.wr v) obs) s = .next s)
      ∧ (s.takesWrites off.toNat = true → s.holding = true → exec (.registerWrite off (.wr v) obs) s = .next (held 8 (.wr v) obs)))
    ∧ (∀ c : Ctx, Taken s (0x500400 + c.val * 8) →
      exec (.registerWrite (BitVec.ofNat 26 (0x500400 + c.val * 8)) (.wr v) obs) s = .next (s.setReg (0x500400 + c.val * 8) v))
    ∧ (∀ bar2 size a, (bar2 = true ∨ onCompat off.toNat = false) → ¬(size = 8 ∧ off.toNat % 8 = 0) →
      let logged := s.log { code := 0x0101, kind := 13, detail := leBytes 4 off.toNat }
      let ones (t : State) : State := if a = .rd then { t with out := .hostBytes (List.replicate size 0xFF#8) :: t.out } else t
      (s.logsAccess = true → (bar2 = true ∨ s.holding = false) → exec (.bar0BadAccess bar2 off size a) s = .next (ones logged))
      ∧ (s.logsAccess = true → bar2 = false → s.holding = true → exec (.bar0BadAccess bar2 off size a) s = .next (held size a HostObs.plain))
      ∧ (s.logsAccess = false → exec (.bar0BadAccess bar2 off size a) s = .next (ones s))
      ∧ (bar2 = false → size = 8 → exec (.registerWrite off a obs) s = exec (.bar0BadAccess false off 8 a) s))

/-- BAR4 (R8, R208, R231): a bound host window reads and writes its context's space, base aligned down to the size of BAR4, which the Resizable
BAR capability sets from 1 to 64 GiB (R3); an unbound one, or bytes that fail, read all ones or are discarded, and HOSTWIN is logged; a poisoned
line makes a poisoned TLP. A window is bound only to an ACTIVE context that the owner's policy admits (R450).
Read by inference or chosen by the model: log entry 73. -/
def Obligations.HostWindow : Prop :=
  ∀ (off : BitVec 36) (len : Nat) (data : List Byte) (far : FarReply) (v : Word) (z : Option (Fin 7)) (s : State),
    let size : Nat := match z with
      | some k => 30 + k.val
      | none => s.fab.bar4Log2
    let u : State := { s with fab := { s.fab with bar4Log2 := size } }
    let va := s.fld fZfHostwinBase * 2 ^ 30 / 2 ^ size * 2 ^ size + off.toNat
    let c := s.fld fZfHostwinCtx
    let logged (t : State) : State := t.log { code := 0x0103, kind := 13, detail := leBytes 8 off.toNat }
    let ones (t : State) : State := { (logged t) with out := .hostBytes (List.replicate len 0xFF#8) :: (logged t).out }
    (s.bar4Up = true → off.toNat + len ≤ 2 ^ size →
      (s.fld fZfHostwinOn = 1 →
        (∀ t b, u.readRunVia (some unitHost) c va len far = (t, 0, b) →
          exec (.bar4Read off len z far) s = .next { t with out := .hostBytes b :: t.out })
        ∧ (∀ t n b, u.readRunVia (some unitHost) c va len far = (t, n, b) → n ≠ 0 → n ≠ 8 → exec (.bar4Read off len z far) s = .next (ones t))
        ∧ (∀ t b, u.readRunVia (some unitHost) c va len far = (t, 8, b) →
          ∃ p : State, exec (.bar4Read off len z far) s = .next { p with out := .poisonedTlp :: p.out }
            ∧ p = t.log { code := 0x0105, cls := 1, kind := 13, detail := leBytes 8 off.toNat }))
      ∧ (s.fld fZfHostwinOn = 0 → exec (.bar4Read off len z far) s = .next (ones u)))
    ∧ (s.bar4Up = false → off.toNat + len ≤ 2 ^ size →
      exec (.bar4Read off len z far) s = .next { u with out := .hostBytes (List.replicate len 0xFF#8) :: s.out })
    ∧ (s.bar4Up = true → off.toNat + data.length ≤ 2 ^ size →
      (s.fld fZfHostwinOn = 1 →
        (∀ t, u.writeRunVia (some unitHost) c va data far = (t, 0) → exec (.bar4Write off data z far) s = .next t)
        ∧ (∀ t n, u.writeRunVia (some unitHost) c va data far = (t, n) → n ≠ 0 → exec (.bar4Write off data z far) s = .next (logged t)))
      ∧ (s.fld fZfHostwinOn = 0 → exec (.bar4Write off data z far) s = .next (logged u)))
    ∧ (Taken s rZfHostwin →
      let w := s.writeUnder takesAll rZfHostwin v
      (getBits v fZfHostwinOn = 1 → s.active (getBits v fZfHostwinCtx) = true → s.admitsWindow (getBits v fZfHostwinCtx) = true →
        exec (.zfHostwinWrite v) s = .next w)
      ∧ (getBits v fZfHostwinOn = 0 → exec (.zfHostwinWrite v) s = .next w)
      ∧ (getBits v fZfHostwinOn = 1 → (s.active (getBits v fZfHostwinCtx) = false ∨ s.admitsWindow (getBits v fZfHostwinCtx) = false) → exec (.zfHostwinWrite v) s = .next (w.setFld fZfHostwinOn 0)))

/-- The decant pair (R191, R192, R194), where the page answers and no restore holds accesses. A 32-bit read of the low half takes the oldest entry
and latches its high half, discarding and counting an unread one; a read of the high half returns the latch, or 0, and empties it; an empty queue
reads 0xFFFFFFFE and keeps the latch; the counters read and clear. A 32-bit write is discarded without error. An access of another size or
alignment is logged with its offset and pops, latches or clears nothing; such a read is a Completer Abort. Where the page does not answer yet, reads return all ones and nothing is logged (R415); a 32-bit write is discarded in every state; while a
restore runs every other access of the page waits (R472, log entry 68). -/
def Obligations.DecantPair : Prop :=
  (∀ (s : State), s.pins.vaux = true → 2 ≤ s.fld fBringStateAux → s.holding = false →
    (s.que.decant = [] → exec .decantLoRead s = .next { s with out := .hostRead 4 0xFFFFFFFE#64 :: s.out })
    ∧ (∀ e l, s.que.decant = e :: l →
      let hi : BitVec 32 := BitVec.ofNat 32 (e.toNat / 2 ^ 31)
      let reads (t : State) : Prop := exec .decantLoRead s = .next (((({ t with que := { s.que with decant := l, latch := some hi } }).setFld
        fDecantHiHigh hi.toNat).decantShow).emit (.hostRead 4 (BitVec.ofNat 64 (e.toNat % 2 ^ 31))))
      (s.que.latch = none → reads s) ∧ (s.que.latch.isSome = true → reads (s.bump fDecantLostLost 1)))
    ∧ exec .decantHiRead s = .next ((({ s with que := { s.que with latch := none } }).setFld fDecantHiHigh 0).emit
        (.hostRead 4 ((s.que.latch.getD 0#32).setWidth 64)))
    ∧ exec .decantLostRead s = .next ((s.setFld fDecantLostLost 0).emit (.hostRead 4 (BitVec.ofNat 64 (s.fld fDecantLostLost))))
    ∧ exec .decantSpillRead s = .next ((s.setFld fDecantSpillSpill 0).emit (.hostRead 4 (BitVec.ofNat 64 (s.fld fDecantSpillSpill))))
    ∧ (∀ off v, exec (.decantWrite off v) s = .next s)
    ∧ (∀ (off : BitVec 12) size w, ¬(size = 4 ∧ off.toNat % 4 = 0) →
      let logged := s.log { code := 0x0104, kind := 13, detail := leBytes 4 (rDecantLo + off.toNat) ++ leBytes 4 size }
      exec (.decantBadAccess off size .rd) s = .next (logged.emit .completerAbort) ∧ exec (.decantBadAccess off size (.wr w)) s = .next logged))
  ∧ (∀ (s : State) (off : BitVec 12) (size : Nat) (a : HostAcc),
    let up : Prop := s.pins.vaux = true ∧ 2 ≤ s.fld fBringStateAux
    let held (o n : Nat) (x : HostAcc) : State := { s with sup := { s.sup with held := s.sup.held ++ [⟨o, n, x, HostObs.plain⟩] } }
    let ones (i : Instr) : Prop := exec i s = .next { s with out := .hostRead 4 0xFFFFFFFF#64 :: s.out }
    (¬ up → ones .decantLoRead ∧ ones .decantHiRead ∧ ones .decantLostRead ∧ ones .decantSpillRead)
    ∧ (¬ up → ¬(size = 4 ∧ off.toNat % 4 = 0) → exec (.decantBadAccess off size a) s = .next
        (if a = .rd then { s with out := .hostBytes (List.replicate size 0xFF#8) :: s.out } else s))
    ∧ (up → s.holding = true → exec .decantLoRead s = .next (held 0xF00000 4 .rd) ∧ exec .decantHiRead s = .next (held 0xF00004 4 .rd)
      ∧ exec .decantLostRead s = .next (held 0xF00008 4 .rd) ∧ exec .decantSpillRead s = .next (held 0xF00010 4 .rd)
      ∧ (¬(size = 4 ∧ off.toNat % 4 = 0) → exec (.decantBadAccess off size a) s = .next (held (0xF00000 + off.toNat) size a)))
    ∧ ∀ v, exec (.decantWrite off v) s = .next s)


/-! ### The structure image and bring-up (R14–R19, R42–R48, R55, R215–R218, R267, R331, R345, R418–R425) -/

/-- Staging and checking an image (R45–R48): a write of CUVEE.DATA appends eight bytes; at most 16,384 are kept, and a discarded excess makes the
next length check fail; clear empties the staging store; verify takes a copy of what is staged, which the result then judges, and nothing
takes effect from it. While a check runs, DATA is discarded and logged, and clear and verify do nothing.
Read by inference or chosen by the model: log entry 31. -/
def Obligations.ImageStaging : Prop :=
  ∀ (s : State) (v : Word),
    let full := s.img.staged ++ leBytes 8 v.toNat
    let judged := s.img.staged ++ (if s.img.excess then [0#8] else [])
    (Taken s rCuveeData → s.bit fCuveeResultBusy = false → exec (.cuveeDataWrite v) s = .next (({ s with img := { s.img with
        staged := full.take 16384, excess := s.img.excess || decide (16384 < s.img.staged.length + 8) } }).setFld fCuveeFillFill
          (min 16384 (s.img.staged.length + 8))))
    ∧ (Taken s rCuveeData → s.bit fCuveeResultBusy = true → exec (.cuveeDataWrite v) s = .next
        (s.log { code := 0x0106, kind := 13, detail := leBytes 4 rCuveeData ++ leBytes 4 (s.fld fCuveeFillFill) }))
    ∧ (Taken s rCuveeCtl → getBits v fCuveeCtlVerify = 0 →
      let w := s.writeUnder takesAll rCuveeCtl (putBits v fCuveeCtlClear 1)
      (s.bit fCuveeResultBusy = false →
        exec (.cuveeClear v) s = .next (({ w with img := { w.img with staged := [], excess := false } }).setFld fCuveeFillFill 0))
      ∧ (s.bit fCuveeResultBusy = true → exec (.cuveeClear v) s = .next w))
    ∧ (Taken s rCuveeCtl → getBits v fCuveeCtlClear = 0 →
      let w := s.writeUnder takesAll rCuveeCtl (putBits v fCuveeCtlVerify 1)
      (s.bit fCuveeResultBusy = false → s.auxDone = true →
        exec (.verify v) s = .next (({ w with img := { w.img with verify := some judged } }).setFld fCuveeResultBusy 1))
      ∧ (s.bit fCuveeResultBusy = true → exec (.verify v) s = .next w))
    ∧ (∀ b, s.img.verify = some b →
      let r := checkImage ⟨s.flash.owner, s.flash.floor, keyTag deviceKey⟩ true (if b = [] then none else some b)
      exec .verifyResult s = .next (({ s with img := { s.img with verify := none } }).setFlds
        [(fCuveeResultReason, r.1), (fCuveeResultSection, r.2), (fCuveeResultMode, 1), (fCuveeResultBusy, 0)]))
    ∧ (s.img.verify = none → exec .verifyResult s = .next s)

/-- A bring-up step out of its order is refused with ORDER, one while another runs with BUSY, and neither does anything (R420). A step in order
runs: IMAGE accepts or rejects its source, and a rejected image changes nothing in force (R17, R19); each other step does what R421 gives it
and keeps its result for STEP_RESULT. JOIN steps fabric time to that of the upstream, the sealed neighbour nearest to the hall root, or for a
module that is no master to the rack master over local ports, of equals that with the lowest node ID; the hall root keeps its own (R328). STEP_RESULT ends the running step (R421, R431): busy clears, the result and the time show, a step that ended DONE or PART_DOWN is marked
done and adds its time to the total; SECURE waits for ports that still attest, for at most 12 s (R445); OPEN forgets that a fatal-module error
came and, unless host software has written ERR.CTL, sets the mode SERVICE (R396), POWER lets its stages carry the load, JOIN shows the module
as joined, and a screen's outcome shows in the stacks.
Read by inference or chosen by the model: log entries 45 and 72. -/
def Obligations.BringUpSteps : Prop :=
  (∀ (s : State) (ok key : Bool) (rail : Fin 13) (tr : List TrainObs) (sc : ScreenObs) (df : DefectObs) (jn : JoinObs),
    (BringReady s 1 →
      let b := s.began 1
      let staged := s.fld fCuveeCtlSource == 0
      let judged := s.img.staged ++ (if s.img.excess then [0#8] else [])
      let src := if staged then (if judged = [] then none else some judged) else s.flash.image
      let r := checkImage ⟨s.flash.owner, s.flash.floor, keyTag deviceKey⟩ staged src
      let c := ({ b with img := { b.img with verify := none, result := some r } }).setFld fCuveeResultBusy 1
      (r.1 ≠ rsnAccepted → exec (.image ok) s = .next (c.reports 3))
      ∧ (r.1 = rsnAccepted → exec (.image ok) s = .next ((c.imageAccept (src.getD []) staged ok).reports 0)))
    ∧ (BringReady s 2 →
      (s.offSources ≠ [] → exec (.power none) s = .next ((s.began 2).reports 5))
      ∧ exec (.power none) s = .next (((s.began 2).powerStep none).1.reports ((s.began 2).powerStep none).2)
      ∧ (s.offSources = [] → s.pwr.validA = none → s.pwr.validB = none → s.fld fPwrFeedAState ≠ fsFault → s.fld fPwrFeedBState ≠ fsFault → ((s.began 2).powerStep none).2 = 4)
      ∧ (s.offSources = [] → s.pwr.validA.isSome = true → ((s.began 2).powerStep none).2 = 0 ∧ ((s.began 2).powerStep (some rail)).2 = 6)
      ∧ exec (.power (some rail)) s = .next (((s.began 2).powerStep (some rail)).1.reports ((s.began 2).powerStep (some rail)).2))
    ∧ (BringReady s 3 →
      exec (.clocks true) s = .next (((List.range 4).foldl (fun t d => t.setJob d (s.began 3).startFreq) (s.began 3)).reports 0)
      ∧ exec (.clocks false) s = .next ((s.began 3).reports 7))
    ∧ (BringReady s 4 → exec (.memtrain tr) s = .next ((((s.began 4).setInterleave.train tr).1).reports
        (if tr.all (fun o => o.result == 0) then 0 else 8)))
    ∧ (∀ c, BringReady s 5 → s.img.cfg = some c → c.screensFull s.img.startC = true →
      exec (.memscreen sc) s = .next ((((s.began 5).screen true sc).1.setSinceFull (some 0)).reports
        (if ((s.began 5).screen true sc).2 then 0 else 8)))
    ∧ (∀ c, BringReady s 5 → s.img.cfg = some c → c.screensFull s.img.startC = false → s.img.startC < 255 →
      exec (.memscreen sc) s = .next ((((s.began 5).screen false sc).1.setSinceFull (some (s.img.startC + 1))).reports
        (if ((s.began 5).screen false sc).2 then 0 else 8)))
    ∧ (BringReady s 7 → exec .links s = .next (((List.range 32).foldl (fun t p => if t.mayTrain p then t.startTraining p false else t)
        (s.began 7)).reports 0))
    ∧ (BringReady s 8 → exec .cabling s = .next (((List.range 32).foldl State.checkCable (s.began 8)).reports 0))
    ∧ (BringReady s 9 →
      exec (.secure true true) s = .next (((List.range 32).foldl State.securePort ((s.began 9).setFld fSecStateRngOk 1)).reports 0)
      ∧ exec (.secure false key) s = .next (((s.began 9).setFld fSecStateRngOk 0).reports 11))
    ∧ (BringReady s 10 → (∀ n ∈ jn.joined, s.node.toNat ≤ n.toNat) →
      ∃ t : State, exec (.join jn) s = .next (t.reports 0) ∧ t.rte.offset = s.rte.offset ∧ t.rte.slew = 0)
    ∧ (BringReady s 10 → (∃ n ∈ jn.joined, n.toNat < s.node.toNat) →
      let master := jn.joined.all (fun n => rackOf n != rackOf s.node || decide (posOf s.node ≤ posOf n))
      let near (q : TimePeer) : Prop := q ∈ jn.peers ∧ s.portState q.port = stSealed ∧ (master = true ∨ q.port.val < 28)
      let dist (q : TimePeer) : Nat := if master then q.hall.toNat else q.rack.toNat
      (∃ q, near q) → ∃ (t : State) (q : TimePeer), exec (.join jn) s = .next (t.reports 0) ∧ near q
        ∧ (∀ x, near x → dist q < dist x ∨ (dist q = dist x ∧ q.node.toNat ≤ x.node.toNat))
        ∧ t.rte.offset = (q.time.toNat : Int) - s.time ∧ t.rte.slew = 0)
    ∧ (∀ c, BringReady s 11 → s.img.cfg = some c →
      exec .openStep s = .next ((s.began 11).openUp.reports 0))
    ∧ (∀ c, BringReady s 6 → s.img.cfg = some c →
      let vs := (s.began 6).defectVerdicts df
      let down (p : PartCfg) : Bool := (maskClusters p.clusters).any (fun n => !clusterFit vs n)
      ∃ t : State, exec (.defects df) s = .next (t.reports (if c.parts.all down then 10 else
          if (c.parts.zipIdx.map (fun p => if down p.1 then 2 ^ p.2 else 0)).foldl (· + ·) 0 ≠ 0 then 9 else 0))
        ∧ t.cores = ((List.range 32).foldl (fun u n => u.buildMap vs n) (vs.foldl State.unionLog (s.began 6))).cores
        ∧ t.grp.suspect = (vs.filter (fun v => v.kind == 8 && !v.usable)).map (·.unit)
        ∧ t.img.lanesBad = (vs.filter (fun v => v.kind == 7 && !v.usable)).map (·.unit))
    ∧ (Taken s rBringCtl → s.fld fBringStateBusy = 1 → exec .openStep s = .next ((s.setFld fBringCtlStep 11).setFld fBringStateResult 2))
    ∧ (Taken s rBringCtl → s.bit fBringStateBusy = false → s.stepDone 10 = false →
      exec .openStep s = .next ((s.setFld fBringCtlStep 11).setFld fBringStateResult 1)))
  ∧ (∀ (s : State) (ms : BitVec 32), s.bit fBringStateBusy = true → s.img.result = none →
    let n := s.fld fBringStateStep
    let a := s.setFlds [(fBringStateBusy, 0), (fBringStateResult, s.img.stepRes), (fBringTimeStepMs, ms.toNat)]
    let b := (a.setFld fBringStateDone (a.fld fBringStateDone ||| 2 ^ (n - 1))).setFld fBringTimeTotalMs (a.fld fBringTimeTotalMs + ms.toNat)
    let attests : Prop := ∃ p < 32, bitsOf (s.fld fSecPortsPorts) (2 * p + 1) (2 * p) = 3
    (n = 9 → s.img.stepRes = 0 → s.time < s.img.stepAt + 12 * 10 ^ 9 → attests → exec (.stepResult ms) s = .next s)
    ∧ (s.img.stepRes ≠ 0 → s.img.stepRes ≠ 9 → n ≠ 5 → exec (.stepResult ms) s = .next a)
    ∧ (s.img.stepRes ≠ 0 → s.img.stepRes ≠ 9 → n = 5 → exec (.stepResult ms) s = .next a.screenEnd)
    ∧ (s.img.stepRes = 0 → n ≠ 2 → n ≠ 5 → n ≠ 10 → n ≠ 11 → (n = 9 → s.img.stepAt + 12 * 10 ^ 9 ≤ s.time ∨ ¬attests) → exec (.stepResult ms) s = .next b)
    ∧ (s.img.stepRes = 0 → n = 5 → exec (.stepResult ms) s = .next b.screenEnd)
    ∧ (s.img.stepRes = 0 → n = 10 → exec (.stepResult ms) s = .next b.joinEnd)
    ∧ (s.img.stepRes = 0 → n = 2 → exec (.stepResult ms) s = .next b.powered)
    ∧ (s.img.stepRes = 9 → n = 6 → exec (.stepResult ms) s = .next b)
    ∧ (s.img.stepRes = 0 → n = 11 → 
      let o : State := { b with flash := ({ b.flash with fatalSinceOpen := false } : Flash).wrote 6 [1] }
      exec (.stepResult ms) s = .next (State.faultSince (if o.bit fErrCtlHostSet then o else o.setFld fErrCtlMode 0) b)))


/-! ### Contexts, programs, queues and records (R70–R86, R131, R132, R170–R185, R309, R513) -/

/-- CTX.CTL and the quota limits. A create of a FREE context whose partition is OPEN makes it ACTIVE with its image quotas and a new key domain
(R71); a destroy of an ACTIVE context that holds nothing makes it CLOSING (R72), and CONTEXT_FREE gives back all that it held, its keys with
it, once none of its records is due (log entry 94); the other outcomes are codes and change nothing else (R73). A limit write takes the smaller
of the value and the ceiling (R85, R86). BIND and UNBIND (R131, R132). A bind whose checks all pass places the bundles at the lowest free run of every cluster of the mask, takes
the lowest free regions and clears them; each failing check gives its code and binds nothing. An unbind drops a binding that no task uses.
Read by inference or chosen by the model: log entries 32 and 94. -/
def Obligations.ContextsAndPrograms : Prop :=
  (∀ (c : Ctx) (v : Word) (s : State),
    (Taken s (rCtxCtl c) → getBits v (fCtxCtlDestroy c) = 0 →
      (∀ p, s.fld (fCtxCtlState c) = 0 → s.partOf c = some p → s.isOpen p = true →
        exec (.ctxCreate c v) s = .next ((s.ctxOpen c).setFld (fCtxCtlResult c) 0))
      ∧ (s.fld (fCtxCtlState c) ≠ 0 → exec (.ctxCreate c v) s = .next (s.setFld (fCtxCtlResult c) 3))
      ∧ (s.fld (fCtxCtlState c) = 0 → s.partOf c = none → exec (.ctxCreate c v) s = .next (s.setFld (fCtxCtlResult c) 1))
      ∧ (∀ p, s.fld (fCtxCtlState c) = 0 → s.partOf c = some p → s.isOpen p = false →
        exec (.ctxCreate c v) s = .next (s.setFld (fCtxCtlResult c) 2)))
    ∧ (Taken s (rCtxCtl c) → getBits v (fCtxCtlCreate c) = 0 →
      (s.fld (fCtxCtlState c) = 1 → s.ctxBusy c = false → s.fld fZfHostwinOn = 0 →
        exec (.ctxDestroy c v) s = .next ((s.setFld (fCtxCtlState c) 2).setFld (fCtxCtlResult c) 0))
      ∧ (s.fld (fCtxCtlState c) = 1 → s.ctxBusy c = true → exec (.ctxDestroy c v) s = .next (s.setFld (fCtxCtlResult c) 4))
      ∧ (s.fld (fCtxCtlState c) ≠ 1 → exec (.ctxDestroy c v) s = .next (s.setFld (fCtxCtlResult c) 3)))
    ∧ (s.que.recs.any (fun w => w.record.ctx == c.val) = true → exec (.contextFree c) s = .next s)
    ∧ (s.fld (fCtxCtlState c) = 2 → s.fab.dropping = none → s.que.recs.any (fun w => w.record.ctx == c.val) = false → ∃ t, exec (.contextFree c) s = .next t
      ∧ t = { ((((((s.releaseSync c).releasePages c).releaseGroups c).releaseStores c).releaseQueues c).setFld (fCtxCtlState c) 0) with
          fab := t.fab }
      ∧ t.fld (fCtxCtlState c) = 0 ∧ lookupKey t.fab.keyOf c = none)
    ∧ (s.active c = true →
      (Taken s (rCtxQsync c) → ∃ t, exec (.qsyncLimitWrite c v) s = .next t
        ∧ t.fld (fCtxQsyncLimit c) = min (getBits v (fCtxQsyncLimit c)) (s.fld (fCtxQsyncCeiling c)))
      ∧ (Taken s (rCtxQpages c) → ∃ t, exec (.qpagesLimitWrite c v) s = .next t
        ∧ t.fld (fCtxQpagesLimit c) = min (getBits v (fCtxQpagesLimit c)) (s.fld (fCtxQpagesCeiling c)))
      ∧ (Taken s (rCtxQgroups c) → ∃ t, exec (.qgroupsLimitWrite c v) s = .next t
        ∧ t.fld (fCtxQgroupsLimit c) = min (getBits v (fCtxQgroupsLimit c)) (s.fld (fCtxQgroupsCeiling c)))
      ∧ (Taken s (rCtxQbw c) → ∃ t, exec (.qbwShareWrite c v) s = .next t
        ∧ t.fld (fCtxQbwShare c) = max 1 (min (getBits v (fCtxQbwShare c)) (s.fld (fCtxQbwCeiling c))))))
  ∧ (∀ (v : Word) (far : FarReply) (queued : List (Fin 64)) (s : State), Taken s rTaskBindcmd →
    (getBits v fTaskBindcmdUnbind = 0 →
      let s1 := s.writeUnder takesAll rTaskBindcmd (putBits v fTaskBindcmdBind 1)
      let c := getBits v fTaskBindcmdContext
      let prog := getBits v fTaskBindcmdProg
      let mask := s1.fld fTaskBindctlClusters
      let len := s1.fld fTaskBindctlLenM1 + 1
      let cls := (List.range 32).filter (bitOf mask)
      let fits := cls.all (fun n => (s1.bundleRun n len).isSome)
      let room := cls.all (fun n => decide (s1.fld fTaskBindctlRegions ≤ (s1.freeRegions n).length))
      let code (n : Nat) : Prop := exec (.bind v far) s = .next (s1.setFld fTaskBindcmdResult n)
      (s1.mayBind c = false → code 1)
      ∧ (s1.mayBind c = true → s1.maskOk c mask = false → code 2)
      ∧ (s1.mayBind c = true → s1.maskOk c mask = true → fits = false → code 3)
      ∧ (s1.mayBind c = true → s1.maskOk c mask = true → fits = true → room = false → code 4)
      ∧ (s1.mayBind c = true → s1.maskOk c mask = true → fits = true → room = true → s1.isBound c prog = true → code 5)
      ∧ (∀ t b, s1.mayBind c = true → s1.maskOk c mask = true → fits = true → room = true → s1.isBound c prog = false →
        s1.readRun c (s1.fld fTaskBindaddrAddr * 16) (16 * len) far = (t, 0, b) →
        let regs := cls.map (fun n => (n, (s1.freeRegions n).take (s1.fld fTaskBindctlRegions)))
        let u := regs.foldl (fun s x => x.2.foldl (fun s g => s.clearMem (clusterStoreAt x.1 (g * 2 ^ 20)) (2 ^ 20)) s) t
        exec (.bind v far) s = .next (({ u with cores := { u.cores with bindings := u.cores.bindings ++
          [(⟨c, prog, bundlesOf b len, cls.map (fun n => (n, (s1.bundleRun n len).getD 0)), regs⟩ : Binding)] } }).setFld fTaskBindcmdResult 0)))
    ∧ (getBits v fTaskBindcmdBind = 0 →
      let s1 := s.writeUnder takesAll rTaskBindcmd (putBits v fTaskBindcmdUnbind 1)
      let c := getBits v fTaskBindcmdContext
      let prog := getBits v fTaskBindcmdProg
      (s1.mayBind c = true → s1.isBound c prog = true → s1.progUsed c prog queued = false →
        exec (.unbind v queued) s = .next (({ s1 with cores := { s1.cores with
          bindings := s1.cores.bindings.filter (fun b => !(b.ctx == c && b.prog == prog)) } }).setFld fTaskBindcmdResult 0))
      ∧ (s1.mayBind c = true → s1.isBound c prog = true → s1.progUsed c prog queued = true →
        exec (.unbind v queued) s = .next (s1.setFld fTaskBindcmdResult 5))
      ∧ (s1.mayBind c = true → s1.isBound c prog = false → exec (.unbind v queued) s = .next (s1.setFld fTaskBindcmdResult 0))
      ∧ (s1.mayBind c = false → exec (.unbind v queued) s = .next (s1.setFld fTaskBindcmdResult 1)))
    ∧ (∀ c prog, s.progUsed c prog [] = true ↔
      (∃ t ∈ s.que.fed ++ s.cores.pool ++ s.cores.next.map Prod.snd ++ s.cores.runs.map (fun p => p.2.task), t.ctx = c ∧ t.prog = prog)
      ∨ ∃ q < 16, some prog ∈ s.unfetchedProgs c q))


/-- Enabling and disabling (R170, R196, R309): an enable whose rules hold writes CFG, starts the ring empty and RUNNING and answers DONE; a
disable of a queue that has nothing unfetched and nothing running answers DONE and turns it OFF, and one that has answers BUSY. Doorbells (R7, R172, R309): a tail that passes neither head nor ring size is taken, a head that passes no tail is; any other write is
discarded and logged. A read returns the STATE register of the queue or ring, of the communication doorbell zero.
Read by inference or chosen by the model: log entries 44, 75 and 126. -/
def Obligations.QueuesAndDoorbells : Prop :=
  (∀ (c : Ctx) (n : Fin 16) (x : Fin 4) (r : Fin 8) (g : Grp) (v : Word) (s : State),
    let on (q : QRegs) (w : Word) : State := (s.writeUnder takesAll q.cfg w).setFlds [(q.state, 1), (q.head, 0), (q.tail, 0), (q.result, 0)]
    let off (q : QRegs) : State := s.setFlds [(q.enable, 0), (q.state, 0), (q.result, 0)]
    let aligned (base log2 unit : Nat) : Prop := 4 ≤ log2 ∧ log2 ≤ 16 ∧ base % (unit * 2 ^ log2) = 0
    let cq := cqRegs c n
    let xq := xqRegs c x
    let rq := ringRegs c r
    let gq := commRegs g
    let gc := s.fld (fGrpGStatContext g)
    let e := putBits v (fQueCqCfgEnable 0 0) 1
    (Taken s cq.cfg →
      (s.active c = true → s.fld cq.state = 0 → s.maskOk c (getBits e (fQueCqCfgClusters c n)) = true →
        s.ringOn (ringKey c (getBits e (fQueCqCfgRing c n))) = true →
        aligned (s.fld (fQueCqBaseBase c n) * 32) (getBits e (fQueCqCfgLog2size c n)) 64 →
        exec (.queueEnable c ⟨n.val, by omega⟩ v) s = .next (on cq e))
      ∧ (s.active c = false → exec (.queueEnable c ⟨n.val, by omega⟩ v) s = .next (s.setFld cq.result 1))
      ∧ (s.active c = true → s.fld cq.state ≠ 0 → exec (.queueEnable c ⟨n.val, by omega⟩ v) s = .next (s.setFld cq.result 7))
      ∧ (s.active c = true → s.fld cq.state ≠ 0 → s.unfetched cq = false → s.queueTasks c n = false →
        exec (.queueDisable c ⟨n.val, by omega⟩ v) s = .next (off cq))
      ∧ (s.active c = true → s.fld cq.state ≠ 0 → s.unfetched cq = true →
        exec (.queueDisable c ⟨n.val, by omega⟩ v) s = .next (s.setFld cq.result 6)))
    ∧ (Taken s xq.cfg →
      (s.active c = true → s.fld xq.state = 0 → s.ringOn (ringKey c (getBits e (fQueXqCfgRing c x))) = true →
        aligned (s.fld (fQueXqBaseBase c x) * 32) (getBits e (fQueXqCfgLog2size c x)) 64 →
        exec (.queueEnable c ⟨16 + x.val, by omega⟩ v) s = .next (on xq e))
      ∧ (s.active c = true → s.fld xq.state ≠ 0 → s.unfetched xq = false →
        s.que.copies.any (fun y => y.ctx == c.val && y.queue == x.val) = false →
        exec (.queueDisable c ⟨16 + x.val, by omega⟩ v) s = .next (off xq)))
    ∧ (Taken s rq.cfg →
      (s.active c = true → s.fld rq.state = 0 →
        aligned (s.fld (fQueRingBaseBase c r) * 32) (getBits (putBits v (fQueRingCfgEnable 0 0) 1) (fQueRingCfgLog2size c r)) 32 →
        ∃ t, exec (.ringEnable c r v) s = .next t ∧ lookupKey t.que.ringIrq (ringKey c r) = none
          ∧ t = { (on rq (putBits v (fQueRingCfgEnable 0 0) 1)) with que := t.que })
      ∧ (s.active c = true → s.fld rq.state ≠ 0 → s.ringUsed c r = false → exec (.ringDisable c r v) s = .next (off rq))
      ∧ (s.active c = true → s.fld rq.state ≠ 0 → s.ringUsed c r = true → exec (.ringDisable c r v) s = .next (s.setFld rq.result 6)))
    ∧ (Taken s gq.cfg →
      (s.fld (fGrpGStateState g) = 2 → s.active gc = true → s.fld gq.state = 0 →
        s.ringOn (ringKey gc (getBits (putBits v (fGrpGQcfgEnable 0) 1) (fGrpGQcfgRing g))) = true →
        aligned (s.fld (fGrpGQbaseBase g) * 32) (getBits (putBits v (fGrpGQcfgEnable 0) 1) (fGrpGQcfgLog2size g)) 64 →
        exec (.commQueueEnable g v) s = .next (on gq (putBits v (fGrpGQcfgEnable 0) 1)))
      ∧ (s.fld (fGrpGStateState g) ≠ 0 → s.active gc = true → s.fld gq.state ≠ 0 → s.unfetched gq = false → s.commOf g = [] →
        lookupKey s.grp.inflight g = none → exec (.commQueueDisable g v) s = .next (off gq))))
  ∧ (∀ (c : Ctx) (n : Fin 16) (x : Fin 4) (r : Fin 8) (v : Word) (s : State), s.fld fBringStateAux ≥ 2 → s.pins.vaux = true →
    let t := v.toNat % 2 ^ 24
    let cq := cqRegs c n
    let xq := xqRegs c x
    let rq := ringRegs c r
    let g := bitsOf v.toNat 57 48
    let gq := commRegs g
    let may (q : QRegs) (log2 : Nat) : Bool := s.fld q.state == 1 && tailOk t (s.fld q.head) (s.fld q.tail) log2
    let logged (off : Nat) : State := s.log { code := 0x0102, kind := 13, part := s.partOf c, ctx := some c.val
                                              detail := leBytes 2 off ++ leBytes 8 v.toNat }
    let log2 := s.fld (fQueCqCfgLog2size c n)
    let fits := decide ((t + 2 ^ 24 - s.fld rq.head) % 2 ^ 24 ≤ (s.fld rq.tail + 2 ^ 24 - s.fld rq.head) % 2 ^ 24)
    (s.inUse c = true →
      (may cq log2 = true → s.isDown c = false → exec (.tailDoorbell c ⟨n.val, by omega⟩ (.wr v)) s = .next (s.setFld cq.tail t))
      ∧ (may cq log2 = false → exec (.tailDoorbell c ⟨n.val, by omega⟩ (.wr v)) s = .next (logged (8 * n)))
      ∧ (may xq (s.fld (fQueXqCfgLog2size c x)) = true → exec (.tailDoorbell c ⟨16 + x.val, by omega⟩ (.wr v)) s = .next (s.setFld xq.tail t))
      ∧ (s.fld rq.state ≠ 0 → fits = true → exec (.headDoorbell c r (.wr v)) s = .next ((s.setFld rq.head t).ringShow (ringKey c r)).settle)
      ∧ (fits = false → exec (.headDoorbell c r (.wr v)) s = .next (logged (0xC0 + 8 * r)))
      ∧ (v.toNat = g * 2 ^ 48 + t → s.fld (fGrpGStateState g) = 2 → s.fld (fGrpGStatContext g) = c.val →
        may gq (s.fld (fGrpGQcfgLog2size g)) = true → exec (.commDoorbell c (.wr v)) s = .next (s.setFld gq.tail t))
      ∧ (may gq (s.fld (fGrpGQcfgLog2size g)) = false → exec (.commDoorbell c (.wr v)) s = .next (logged 0x400)))
    ∧ (s.inUse c = false → exec (.tailDoorbell c ⟨n.val, by omega⟩ (.wr v)) s = .next (logged (8 * n))
      ∧ exec (.headDoorbell c r (.wr v)) s = .next (logged (0xC0 + 8 * r)) ∧ exec (.commDoorbell c (.wr v)) s = .next (logged 0x400))
    ∧ (let answer (w : Word) : State := { s with out := .hostRead 8 w :: s.out }
      exec (.tailDoorbell c ⟨n.val, by omega⟩ .rd) s = .next (answer (s.reg (rQueCqState c n)))
      ∧ exec (.tailDoorbell c ⟨16 + x.val, by omega⟩ .rd) s = .next (answer (s.reg (rQueXqState c x)))
      ∧ exec (.headDoorbell c r .rd) s = .next (answer (s.reg (rQueRingState c r)))
      ∧ exec (.commDoorbell c .rd) s = .next (answer 0#64)))


/-- From a descriptor to a core (R77–R80, R174–R177, R309): a fetch of a RUNNING queue brings the descriptor at its head and moves the head; a
failed fetch leaves a record and HALTS the queue; a pool credits the queues that wait for its slots round-robin (R79); a fetched task enters the pool with the most free slots where its objects and its program
are there, and fails at once where they are not; a core pulls the task that the pool gives it.
Read by inference or chosen by the model: log entries 28, 80, 83 and 112. -/
def Obligations.TasksReachCores : Prop :=
  ∀ (c : Ctx) (n : Fin 16) (x : Fin 4) (g : Grp) (k : LCore) (s : State),
    let cq := cqRegs c n
    let xq := xqRegs c x
    let gq := commRegs g
    let more (q : QRegs) (ctx ring : Nat) : Prop := s.fld q.state = 1 ∧ s.fld q.head ≠ s.fld q.tail ∧ s.ringBlocks (ringKey ctx ring) = false
    let moved (q : QRegs) : State := s.setFld q.head ((s.fld q.head + 1) % 2 ^ 24)
    (more cq c (s.fld (fQueCqCfgRing c n)) → s.fld (fQueCqCfgLoc c n) = 1 → s.isDown c = false →
      s.que.fed.any (fun t => t.ctx == c.val && t.queue == n.val) = false → (s.boundClusters c n).all (fun m => s.poolFree m == 0) = false →
      (∀ b : List Byte, b.length = 64 →
        exec (.descriptorFetch (.compute c n) (.bytes b)) s = .next { (moved cq) with que := { s.que with
          fed := s.que.fed ++ [taskOf c n s.que.place b], place := s.que.place + 1 } })
      ∧ exec (.descriptorFetch (.compute c n) .pcieError) s = .next (s.fetchFailed cq 0 n c (s.fld (fQueCqCfgRing c n)) 4)
      ∧ (∀ b, exec (.descriptorFetch (.compute c n) (.poisoned b)) s = .next (s.fetchFailed cq 0 n c (s.fld (fQueCqCfgRing c n)) 8)))
    ∧ (∀ b : List Byte, b.length = 64 → more xq c (s.fld (fQueXqCfgRing c x)) → s.fld (fQueXqCfgLoc c x) = 1 →
      exec (.descriptorFetch (.copy c x) (.bytes b)) s = .next ((moved xq).copyAccept c x b))
    ∧ (∀ b : List Byte, b.length = 64 → more gq (s.fld (fGrpGStatContext g)) (s.fld (fGrpGQcfgRing g)) → s.fld (fGrpGQcfgLoc g) = 1 →
      (s.commOf g).length < 16 →
      exec (.descriptorFetch (.comm g) (.bytes b)) s = .next { (moved gq) with que := { s.que with
        comm := insertKey s.que.comm g (s.commOf g ++ [b]) } })
    ∧ (∀ t m, s.que.fed.find? (fun t => t.ctx == c.val && t.queue == n.val) = some t → s.placeFor c n = some m →
      s.creditNext m = some (c.val * 16 + n.val) →
      let s1 := { s with que := { s.que with fed := s.que.fed.filter (fun u => u.place != t.place) }
                         cores := { s.cores with credPtr := insertKey s.cores.credPtr m (c.val * 16 + n.val) } }
      (s.objsHeld t = true → s.boundIn c t.prog m = true →
        exec (.poolEntry c n) s = .next ({ s1 with cores := { s1.cores with pool := s1.cores.pool ++ [{ t with cluster := m }] } }).settle)
      ∧ (s.objsHeld t = false →
        exec (.poolEntry c n) s = .next (s1.closeTask t 4 ftSyncOwner (some 0) (8 * ofBool t.shadow) none none false))
      ∧ (s.objsHeld t = true → s.boundIn c t.prog m = false →
        exec (.poolEntry c n) s = .next (s1.closeTask t 4 ftNoProgram (some 0) (8 * ofBool t.shadow) none none false)))
    ∧ (∀ (m ptr : Nat) x, lookupKey s.cores.credPtr m = some ptr → s.creditNext m = some x → x ∈ s.waitingFor m
      ∧ (ptr < x → ∀ y ∈ s.waitingFor m, ptr < y → x ≤ y) ∧ (x ≤ ptr → ∀ y ∈ s.waitingFor m, y ≤ ptr ∧ x ≤ y))
    ∧ (∀ t turn, s.serve (clusterOf k) s.cores.pool = some (k.val, t, turn) → s.inWaves k = false →
      exec (.taskPull k) s = .next ((s.takeTask k t turn).giveTask k t).settle)

/-- Completion records (R179–R185, R188, R190, R379, R513): the first record due that may pass is written at its ring's tail, its done signal
and decant entry following it; one that cannot be written is lost and logged; a quiet one only sends its signal; the holdoff of a ring, or
of the error ring, raises its vector; a pair whose counterpart does not come stops.
Read by inference or chosen by the model: log entries 35 and 125. -/
def Obligations.RecordsWritten : Prop :=
  ∀ (c : Ctx) (r : Fin 8) (linkOk : Bool) (k : LCore) (s : State),
    let key := ringKey c r
    (∀ w l, s.que.recs = w :: l → ringKey w.record.ctx w.ring = key →
      (s.ringOn key = true → s.ringSpace key ≠ 0 → w.quiet = false → exec (.recordWrite c r linkOk) s = .next (s.writeRec 0 w linkOk))
      ∧ (w.quiet = true → w.decant = false → exec (.recordWrite c r linkOk) s = .next
          ((({ s with que := { s.que with recs := l } }).doneSignal w).settle)))
    ∧ (∀ w l, s.que.recs = w :: l → w.record.ctx = c.val → w.ring = r.val → s.fld (fQueRingCfgLoc c r) = 1 → s.ringOn key = true →
      s.ringSpace key ≠ 0 → w.quiet = false → w.decant = false →
      let p := s.fld (fQueRingStateTail c r)
      let a := s.fld (fQueRingBaseBase c r) * 32 + p % 2 ^ s.fld (fQueRingCfgLog2size c r) * 32
      let b := w.record.bytes (ringGen p (s.fld (fQueRingCfgLog2size c r)))
      let out := { s with out := .hostWrite (a + 31) (b.drop 31) :: .hostWrite a (b.take 31) :: s.out, que := { s.que with recs := l } }
      exec (.recordWrite c r true) s = .next
        (((((out.setFld (fQueRingStateTail c r) ((p + 1) % 2 ^ 24)).ringShow key).ringCount key).doneSignal w).settle)
      ∧ exec (.recordWrite c r false) s = .next
        ((({ s with que := { s.que with recs := l } }).log { code := 0x0107, kind := 0, unit := 0, part := s.partOf c, ctx := some c.val
                                                             detail := leBytes 1 r ++ leBytes 4 w.record.tag ++ leBytes 1 w.record.kind }).settle))
    ∧ (∀ n, s.fld (fQueRingCfgIrq c r) = 1 → s.fld (fQueRingCfgHoldoff c r) ≠ 0 → lookupKey s.que.ringIrq key = some n → n ≠ 0 →
      exec (.interruptHoldoff (.result c r)) s = .next { (s.msix (s.fld (fQueRingCfgVector c r))) with
        que := { s.que with ringIrq := insertKey s.que.ringIrq key 0 } })
    ∧ (s.fld fErrRingCfgIrq = 1 → s.fld fErrRingCfgHoldoff ≠ 0 → s.err.ringFirst = true →
      exec (.interruptHoldoff .errors) s = .next { (s.msix (s.fld fErrRingCfgVector)) with
        err := { s.err with ringCount := 0, ringFirst := false } })
    ∧ (∀ p b, s.runOf k = some p → s.bundleAt p = some b → p.issue = none → p.fault = none → p.ending = none → s.stallPair p b = true →
      exec (.shadowTimeout k) s = .next (s.pairStop k))

/-! ### The SYNC block and its signals (R84, R159–R167, R197, R349) -/

/-- SYNC.CMD and the signals. Each command of an ACTIVE context does what R164 gives it and leaves DONE, or leaves the code of the first check
that fails and does nothing else (R197). A signal takes effect on an object that its sender may signal, and is dropped and logged otherwise
(R163), be it one of this module or the SIGNAL packet of another (R288, log entry 40); a double error in the object's state is fatal, a single one
is corrected and logged (R165). The next wave of a pour wakes at most sixteen cores (R166); VCORE returns from its
raised setpoint (R349). Signals of one stop for one die arrive as they were sent (R65).
Read by inference or chosen by the model: log entry 40. -/
def Obligations.SyncBlock : Prop :=
  ∀ (v : Word) (m : SigMsg) (p : Pkt) (d : Die) (s : State),
    let c := getBits v fSyncCmdContext
    let i := getBits v fSyncCmdIndex
    let t (op : Nat) : State := s.writeUnder takesAll rSyncCmd (withOp v fSyncCmdGo fSyncCmdOp op)
    let ends (u : State) (n : Nat) : State := u.setFld fSyncCmdResult n
    (Taken s rSyncCmd → s.active c = true →
      (∀ n, (t 1).fld (fCtxQsyncUse c) + 1 ≤ (t 1).fld (fCtxQsyncLimit c) → s.freeObj (getBits v fSyncCmdDie) = some n →
        exec (.syncAlloc v) s = .next (ends (({ (t 1) with sync := insertKey s.sync n ⟨c, 0, 1, false, false⟩ }.setSyncUse c
          ((t 1).fld (fCtxQsyncUse c) + 1)).setFld fSyncCmdIndex n) 0))
      ∧ ((t 1).fld (fCtxQsyncUse c) + 1 > (t 1).fld (fCtxQsyncLimit c) → exec (.syncAlloc v) s = .next (ends (t 1) 3))
      ∧ ((t 1).fld (fCtxQsyncUse c) + 1 ≤ (t 1).fld (fCtxQsyncLimit c) → s.freeObj (getBits v fSyncCmdDie) = none →
        exec (.syncAlloc v) s = .next (ends (t 1) 4))
      ∧ (s.holds c i = true → s.waiters i = 0 → exec (.syncFree v) s = .next (ends ((t 2).syncDrop c i) 0))
      ∧ (s.holds c i = true → s.waiters i ≠ 0 → exec (.syncFree v) s = .next (ends (t 2) 5))
      ∧ (s.holds c i = true → exec (.syncArm v) s = .next (ends ((t 3).syncArm i (s.fld fSyncFireFire) (getBits v fSyncCmdHeavy == 1)
          (getBits v fSyncCmdRemote == 1)) 0))
      ∧ (s.holds c i = true → exec (.syncSignal v) s = .next (ends ((t 4).applySignal i (s.fld fSyncValueValue)) 0))
      ∧ (s.holds c i = true → exec (.syncReset v) s = .next (ends ((t 5).setCounter i 0) 0))
      ∧ (∀ o, s.holds c i = true → lookupKey s.sync i = some o →
        exec (.syncRead v) s = .next (ends (((t 6).setFld fSyncValueValue o.counter).setFld fSyncFireFire o.fire) 0))
      ∧ (s.holds c i = false → exec (.syncFree v) s = .next (ends (t 2) 2) ∧ exec (.syncArm v) s = .next (ends (t 3) 2)
        ∧ exec (.syncSignal v) s = .next (ends (t 4) 2) ∧ exec (.syncReset v) s = .next (ends (t 5) 2)
        ∧ exec (.syncRead v) s = .next (ends (t 6) 2)))
    ∧ (Taken s rSyncCmd → s.active c = false → exec (.syncAlloc v) s = .next (ends (t 1) 1) ∧ exec (.syncRead v) s = .next (ends (t 6) 1))
    ∧ (let j := field p.body 0 8 % 2 ^ 14
      (∀ o, lookupKey s.sync j = some o → o.remote = true →
        exec (.signal (.packet p) .clean) s = .next (s.applySignal j (field p.body 16 8)))
      ∧ ((∀ o, lookupKey s.sync j = some o → o.remote = false) → exec (.signal (.packet p) .clean) s = .next
          (s.log { code := 0x0406, kind := 15, unit := j, detail := leBytes 2 p.src.toNat ++ leBytes 2 j }))
      ∧ exec (.signal (.packet p) .single) s = exec (.signal (.packet p) .clean) (s.log { code := 0x020B, kind := 15, unit := j })
      ∧ exec (.signal (.packet p) .double) s = .next (s.fatalModule { code := 0x020C, kind := 15, unit := j } caFatal))
    ∧ (∀ x k, s.signalAt m = some k → m.fromCtx = some x →
      let u := { s with cores := { s.cores with signals := s.cores.signals.eraseIdx k } }
      (s.holds x m.obj.toNat = true → exec (.signal (.own m) .clean) s = .next (u.applySignal m.obj.toNat m.value.toNat))
      ∧ (s.holds x m.obj.toNat = false → exec (.signal (.own m) .clean) s = .next
          (u.log { code := 0x020D, kind := 15, unit := m.obj.toNat, part := s.partOf x, ctx := some x.val
                   detail := leBytes 1 x ++ leBytes 8 m.value.toNat }))
      ∧ (let w := u.log { code := 0x020B, kind := 15, unit := m.obj.toNat }
        w.holds x m.obj.toNat = true → exec (.signal (.own m) .single) s = .next (w.applySignal m.obj.toNat m.value.toNat))
      ∧ exec (.signal (.own m) .double) s = .next (u.fatalModule { code := 0x020C, kind := 15, unit := m.obj.toNat } caFatal))
    ∧ (∀ stop rest, s.cores.signals = (stop, m) :: rest → s.signalAt m = some 0)
    ∧ (s.signalAt m = none → exec (.signal (.own m) .clean) s = .next s)
    ∧ (∀ l, lookupKey s.cores.wavesDue d = some l → l ≠ [] → exec (.pourWave d) s = .next ((l.take 16).foldl State.waveWake
        { s with cores := { s.cores with wavesDue := insertKey s.cores.wavesDue d (l.drop 16) } }))
    ∧ (s.cores.raised.contains d.val = true → exec (.setpointReturn d) s = .next
        (({ s with cores := { s.cores with raised := s.cores.raised.filter (· != d.val) } }).setFld (fPwrDieVcore d) (s.fld (fPwrDieVcore d) - 20)))

/-! ### Monitors, tasting and moves (R57–R60, R81, R383–R392, R412) -/

/-- Hangs, stalls and the levels of reset: a stalled core is logged once, and its task ends with TIMEOUT where ERR.PMON says so (R391); a hung
core or engine is logged, its task ends ABORTED and its reset starts, and the second hang in 24 hours retires it (R392); a unit that misses its
deadline is replaced by the level above (R412); one that reports is out of its reset. Tasting and moves: a cluster tastes its next core; a pass clears what it owed; a failure repeats, a repeat that passes is TASTE_TRANSIENT, and a
repeated failure, or a second transient in 24 hours, retires (R385). An overdue core is marked and warned of (R386). A core whose store met a
hard fault retires, listed with its row (R221, R389). A move waits until the core runs nothing and then takes a spare: a retirement abandons the
test of that spare, another move waits for it (R384); where no spare is left it ends, a retirement as R60 says. Completing it checks the parity of
what it copies (R57), names the spare in the map, delivers what was held, and starts the next retirement due (R57, R58).
Read by inference or chosen by the model: log entries 42, 47, 80, 81, 111, 116 and 123. -/
def Obligations.CoresWatched : Prop :=
  (∀ (k : LCore) (e : Option (Fin 4)) (u : RUnit) (n : Cluster) (s : State),
    (∀ r, s.runOf k = some r → r.stallLogged = false → r.issue = none → s.fld fErrPmonLimit ≠ 0 →
      let arg (a : Nat) : ErrArg := { code := 0x0205, kind := 3, unit := s.physOf k, action := a, part := s.partOf r.task.ctx
                                      ctx := some r.task.ctx, detail := leBytes 4 r.task.id ++ leBytes 2 r.pc ++ leBytes 1 (s.waitReason k r) }
      let stops (q : Run) : Run := if q.issue.isSome then { q with timedOut := true } else { q with timedOut := true, chain := none, waiting := none }
      (s.fld fErrPmonAction = 0 → exec (.stall k) s = .next ((s.setRun k { r with stallLogged := true }).log (arg 0)))
      ∧ (s.fld fErrPmonAction = 1 → r.partner = none →
        exec (.stall k) s = .next ((s.setRun k (stops { r with stallLogged := true })).log (arg 11)))
      ∧ (∀ j, s.fld fErrPmonAction = 1 → r.partner = some j →
        exec (.stall k) s = .next (((s.setRun k (stops { r with stallLogged := true })).log (arg 11)).modRun j stops)))
    ∧ (∀ r, s.runOf k = some r → s.coreResetting k = false →
      let p := s.physOf k
      let logged := s.log { code := 0x0206, kind := if e.isSome then 4 else 3, unit := (e.map (fun x => p * 4 + x.val)).getD p, action := 6
                            part := s.partOf r.task.ctx, ctx := some r.task.ctx, detail := leBytes 4 r.task.id ++ leBytes 2 r.pc }
      let t := (logged.resetCore k).startReset ((e.map (fun x => RUnit.engine k x)).getD (.core k))
      let l := t.recent (t.coreLog p).hangs
      let u := t.setCoreLog p { t.coreLog p with hangs := l }
      (l.length < 2 → exec (.coreHang k e) s = .next u.refreshReady ∧ (e = none → exec (.hangProbe [k]) s = .next u.refreshReady))
      ∧ (2 ≤ l.length → exec (.coreHang k e) s = .next (u.retire p 4).refreshReady))
    ∧ exec (.hangProbe []) s = .next s
    ∧ (s.cores.resetting.contains u = true →
      let rest := { s with cores := { s.cores with resetting := s.cores.resetting.filter (fun v => v != u) } }
      (∀ j x, u = .engine j x → exec (.resetDeadline u) s = .next (rest.startReset (.core j)) ∧ exec (.resetReported u []) s = .next rest)
      ∧ (∀ p, u = .cluster n → s.partOfCluster n = some p → exec (.resetDeadline u) s = .next
          (rest.fatalDomain { code := 0x0207, kind := 2, unit := n, action := 7, part := some p } [p] rcEscalated))
      ∧ (∀ p, u = .domain p → exec (.resetDeadline u) s = .next (rest.warm caFatal 0 1))
      ∧ (∀ p failed, u = .domain p → s.fld (fRstPartHeld p) = 0 → exec (.resetReported u failed) s = .next ((rest.reopen p failed).rstOver p))
      ∧ (∀ p failed, u = .domain p → s.fld (fRstPartHeld p) = 1 → exec (.resetReported u failed) s = .next (rest.rstOver p))))
  ∧ (∀ (n : Cluster) (item : Byte) (s : State),
    (∀ p, lookupKey s.cores.tasting n = none → s.tastePick n = some p → exec (.tastingStart n) s = .next
      (({ s with cores := { s.cores with tasting := insertKey s.cores.tasting n ⟨p, false⟩ } }).setFlds
        [(fTstClRunning n, 1), (fTstClCore n, p % 18)]))
    ∧ (∀ t, lookupKey s.cores.tasting n = some t →
      let done := s.tasteEnd n
      (t.again = false → exec (.tastingResult n true item) s = .next (done.tastePass t.core).settle)
      ∧ (t.again = false → exec (.tastingResult n false item) s = .next
          { s with cores := { s.cores with tasting := insertKey s.cores.tasting n { t with again := true } } })
      ∧ (t.again = true → exec (.tastingResult n false item) s = .next (({ done with cores := { done.cores with
          pairs := s.cores.pairs.filter (fun p => p.a != t.core && p.b != t.core) } }).retire t.core 2))
      ∧ (t.again = true →
        let l := done.recent (done.coreLog t.core).transients
        let logged := done.log { code := 0x0201, kind := 3, unit := t.core, part := s.partOfCluster (t.core / 18), detail := [item] }
        let u := (logged.setCoreLog t.core { done.coreLog t.core with transients := l }).bump (fTstClTransients (t.core / 18)) 1
        (2 ≤ l.length → exec (.tastingResult n true item) s = .next (({ u with cores := { u.cores with
          pairs := u.cores.pairs.filter (fun p => p.a != t.core && p.b != t.core) } }).retire t.core 2).settle)
        ∧ (l.length < 2 → exec (.tastingResult n true item) s = .next (u.tastePass t.core).settle)))
    ∧ exec (.tasteOverdue n) s = .next ((s.setFld (fTstClOverdue n) 1).raise 0x09 2 n [])
    ∧ (∀ h, s.cores.hardFaults.find? (fun q => q.1 / 18 == n.val) = some h →
      let rest : State := { s with cores := { s.cores with hardFaults := s.cores.hardFaults.filter (fun x => x.1 != h.1) } }
      exec (.moveBegin n) s = .next (if s.coreState h.1 ≤ 1 then rest.retireAt h.1 6 h.2 else rest).settle)
    ∧ (∀ m b, s.cores.hardFaults.find? (fun q => q.1 / 18 == n.val) = none → lookupKey s.cores.moves n = some m → m.begun = false →
      (m.to_ = some b ∧ s.coreState b = 1 ∨ m.to_ = none ∧ s.moveTarget n = some b) → s.runOf m.lcore = none →
      s.coreResetting m.lcore = false →
      (lookupKey s.cores.tasting n = none → exec (.moveBegin n) s = .next
        (({ s with cores := { s.cores with moves := insertKey s.cores.moves n { m with to_ := some b, begun := true } } }).setCoreState b 3))
      ∧ (∀ t, lookupKey s.cores.tasting n = some t → t.core = b → m.retire = true →
        let u := s.tasteEnd n
        exec (.moveBegin n) s = .next (({ u with cores := { u.cores with
          moves := insertKey u.cores.moves n { m with to_ := some b, begun := true } } }).setCoreState b 3))
      ∧ (∀ t, lookupKey s.cores.tasting n = some t → t.core = b → m.retire = false → exec (.moveBegin n) s = .next s))
    ∧ (∀ m, s.cores.hardFaults.find? (fun q => q.1 / 18 == n.val) = none → lookupKey s.cores.moves n = some m → m.begun = false →
      m.to_ = none → s.moveTarget n = none → s.sparesOf n = [] →
      let rest : State := { s with cores := { s.cores with moves := eraseKey s.cores.moves n } }
      exec (.moveBegin n) s = .next (if m.retire then rest.noSpare m.from_ else rest).settle)
    ∧ (∀ m b lines, lookupKey s.cores.moves n = some m → m.to_ = some b → m.begun = true →
      let moved := (s.storeReads m.lcore [(0, 2 ^ 20)] lines).moveCore m.lcore m.from_ b m.retire
      exec (.moveCompleteMap ⟨n, lines⟩) s = .next ((((({ moved with cores := { moved.cores with
        moves := eraseKey moved.cores.moves n } }).releaseTokens m.lcore).overdueClear n).retireNext n).settle)))


/-! ### Fabric memory: map commands, requests at their home, copies, stacks (R205–R214, R226–R250, R299, R382) -/

/-- ZF.MAPCMD (R232, R233): a command that passes its checks maps, unmaps, protects or looks up its run; UNMAP, and PROTECT where it removes a
permission, stay busy until every cache has dropped the run, and an UNMAP then gives up its frames and its charge; a failed check leaves its
code and changes no mapping, and a command during another is refused. No cache holds an entry of the run afterwards, and a unit translates by
its cache, a copy under way by the entry that is being dropped, else by the tables (R234).
Read by inference or chosen by the model: log entries 36, 92 and 93. -/
def Obligations.MapCommands : Prop :=
  ∀ (v : Word) (s : State),
    let t (op : Nat) : State := s.writeUnder takesAll rZfMapcmd (withOp v fZfMapcmdGo fZfMapcmdOp op)
    let r := s.zfRun v
    (Taken s rZfMapcmd → s.fld fZfMapcmdBusy = 0 →
      ((t 1).zfCheck .map r = 0 → exec (.map v) s = .next (((t 1).zfMap r).zfResult 0))
      ∧ ((t 1).zfCheck .map r ≠ 0 → exec (.map v) s = .next ((t 1).zfResult ((t 1).zfCheck .map r)))
      ∧ ((t 2).zfCheck .unmap r = 0 → exec (.unmap v) s = .next (({ (t 2) with fab := { s.fab with
          leaves := eraseAll s.fab.leaves ((s.runLeaves r).map Prod.fst)
          dropping := some ⟨r.ctx, true, s.runLeaves r⟩ } }).showTables.setFld fZfMapcmdBusy 1))
      ∧ ((t 3).zfCheck .protect r = 0 → s.removesPerm r = false → exec (.protect v) s = .next
          ((((t 3).zfProtect r).cacheDrop ((s.runLeaves r).map Prod.fst)).zfResult 0))
      ∧ ((t 3).zfCheck .protect r = 0 → s.removesPerm r = true → exec (.protect v) s = .next
          (({ ((t 3).zfProtect r) with fab := { ((t 3).zfProtect r).fab with dropping := some ⟨r.ctx, false, s.runLeaves r⟩ } }).setFld
            fZfMapcmdBusy 1))
      ∧ (∀ l, (t 4).zfCheck .lookup r = 0 → lookupKey s.fab.leaves (leafKey r.ctx (r.va / 2 ^ 21)) = some l →
        exec (.lookup v) s = .next (((t 4).zfResult 0).setReg rZfLookup l.entry)))
    ∧ (Taken s rZfMapcmd → s.fld fZfMapcmdBusy = 1 → exec (.map v) s = .next ((t 1).zfResult 0x0A)
      ∧ exec (.unmap v) s = .next ((t 2).zfResult 0x0A))
    ∧ (∀ d, s.fab.dropping = some d → s.dropPending d = false →
      let u := ({ s with fab := { s.fab with dropping := none } }).cacheDrop (d.leaves.map Prod.fst)
      (d.unmap = false → exec .cacheDropComplete s = .next ((u.setFld fZfMapcmdBusy 0).zfResult 0))
      ∧ (d.unmap = true →
        let w := (d.leaves.flatMap (fun p => s.leafFrames p.2)).foldl (fun s f => s.dropFrame d.ctx f) u
        exec .cacheDropComplete s = .next (((w.setPageUse d.ctx
          (w.fld (fCtxUpagesUse d.ctx) - (d.leaves.map (·.2.charge)).foldl (· + ·) 0)).setFld fZfMapcmdBusy 0).zfResult 0)))
    ∧ (∀ l : List Nat, ∀ n, ∀ k ∈ l, ∀ e, (k, e) ∉ (s.cacheDrop l).cacheOf n)
    ∧ (∀ n c (a : Word), a.toNat < 2 ^ 52 → n < 32 ∨ n = unitHost → leafIn (s.cacheOf n) c a = none → s.leafVia (some n) c a = s.leafAt c a)
    ∧ (∀ n c (a : Word) p, a.toNat < 2 ^ 52 → leafIn (s.cacheOf n) c a = some p → s.leafVia (some n) c a = some p.2)

/-- Requests at their home (R207, R208, R229–R231, R236, R240, R241). A read that its frame admits is answered with the bytes; a write stores its
bytes and no other, and is acknowledged; an atomic answers the old word and stores the new; a line that the flow of R207 leaves poisoned comes
marked, and refuses an atomic; a request that the frame does not admit is
refused and changes no memory; an answer reaches the chunk that waits for it (R142, R299).
Read by inference or chosen by the model: log entries 34 and 36. -/
def Obligations.HomeRequests : Prop :=
  ∀ (q : Req) (lines : List LineObs) (a : Reply) (id : BitVec 32) (s : State),
    let at_ := gpaLocal q.gpa.toNat
    let answers (n : Nat) (b : Reply) : State := { s with cores := { s.cores with runs := s.cores.runs.map (fun p => (p.1, p.2.answer n b)) } }
    let answered (u : State) (k n : Nat) (b : List Byte) (bad : List Nat) : State :=
      u.sendPkt k q.src (frameOf q.gpa.toNat) (replyBody q.id.toNat n b) bad
    (s.isHome q = true →
      (s.admits q.src q.ctx q.job.toNat 1 at_ = true →
        (s.mem.poisonedOffsets at_ q.len = [] → exec (.read q []) s = .next
          (answered (s.activate at_ q.len) pkData 0 (s.mem.bytes at_ q.len) []))
        ∧ (let r := (s.activate at_ q.len).lineReads at_ q.len lines
           lineOffsets at_ q.len r.2 ≠ [] → exec (.read q lines) s = .next
             (answered r.1 pkData 8 (s.mem.bytes at_ q.len) (lineOffsets at_ q.len r.2))))
      ∧ (s.admits q.src q.ctx q.job.toNat 2 at_ = true → ∃ t, exec (.write q) s = .next t
        ∧ t = answered { (s.activate at_ q.data.length) with mem := s.mem.store at_ q.data } pkAck 0 [] []
        ∧ (∀ (i : Nat) (h : i < q.data.length), t.mem.read (at_ + i) = q.data[i])
        ∧ (∀ x, x < at_ ∨ at_ + q.data.length ≤ x → t.mem.read x = s.mem.read x))
      ∧ (s.admits q.src q.ctx q.job.toNat 3 at_ = true → s.mem.poisonedOffsets at_ 8 = [] → ∃ t, exec (.atomic q []) s = .next t
        ∧ t = answered { (s.activate at_ 8) with mem := s.mem.store at_ (leBytes 8 (atomicNew q.op.toNat (s.mem.word at_)
              (BitVec.ofNat 64 (field q.data 0 8)) (BitVec.ofNat 64 (field q.data 8 8))).toNat) } pkOld 0 (leBytes 8 (s.mem.word at_).toNat) []
        ∧ (∀ x, x < at_ ∨ at_ + 8 ≤ x → t.mem.read x = s.mem.read x))
      ∧ (s.admits q.src q.ctx q.job.toNat 3 at_ = true →
        let r := (s.activate at_ 8).lineReads at_ 8 lines
        r.2 ≠ [] → exec (.atomic q lines) s = .next (answered r.1 pkRefused 8 [] []))
      ∧ (s.admits q.src q.ctx q.job.toNat 2 at_ = false → exec (.write q) s = .next
        (answered (s.borrowRefused q.src q.ctx at_) pkRefused 4 [] []))
      ∧ (s.admits q.src q.ctx q.job.toNat 1 at_ = false → exec (.read q lines) s = .next
        (answered (s.borrowRefused q.src q.ctx at_) pkRefused 4 [] [])))
    ∧ (s.isHome q = false → exec (.read q lines) s = .next s ∧ exec (.write q) s = .next s ∧ exec (.atomic q lines) s = .next s)
    ∧ exec (.data a) s = .next (answers a.id.toNat a) ∧ exec (.ack a) s = .next (answers a.id.toNat a)
    ∧ exec (.old a) s = .next (answers a.id.toNat a)
    ∧ (a.status ≠ 0#8 → exec (.refused a) s = .next (answers a.id.toNat a))
    ∧ exec (.requestTimeout id) s = .next (answers id.toNat ⟨id, 7#8, [], []⟩)

/-- Copies (R243–R248): the next copy of a queue starts when its wait object has fired and fewer than four run, its seed latched; a part ends with
the status that its transfer gave, PARTIAL where its source is refused (R231, R297), and the copy completes with its last part; a part that waits for a silent node ends with TIMEOUT.
Read by inference or chosen by the model: log entries 38, 40 and 91. -/
def Obligations.CopiesRun : Prop :=
  ∀ (c : Ctx) (q : Fin 4) (i : Nat) (part : Fin 32) (obs : PartObs) (s : State),
    (∀ n x, s.copyIdx c q (fun x => !x.started) = some n → s.que.copies[n]? = some x → x.wait = none →
      (s.que.copies.filter (fun x => x.ctx == c.val && x.queue == q.val && x.started)).length < 4 →
      exec (.copyStart c q) s = .next { s with que := { s.que with
        copies := setAt s.que.copies n { x with started := true, seed := s.reg (rTaskSeed c) } } })
    ∧ (∀ n x, s.runningPart c q i part = some (n, x) →
      let r := s.copyPart x part obs
      exec (.copyPartEnd c q i part obs) s = .next (r.1.partEnd n part r.2.1 r.2.2 (decide (obs.disagree.val ≠ 0)) obs.record obs.sink)
      ∧ (x.op ≠ 2 → x.ctx = c.val → x.queue = q.val →
        let u := some (unitCopy q)
        let lo := part.val * 2 ^ 21
        let len := min (2 ^ 21) (x.bytes - lo)
        (∀ t b p, x.op = 0 → s.readRunVia u c (x.src.toNat + lo) len obs.far = (t, 0, b) →
          t.writeRunVia u c (x.dst.toNat + lo) b obs.sink = (p, 0) → r = (p, 0, 0#64))
        ∧ (∀ t n b, s.readRunVia u c (x.src.toNat + lo) len obs.far = (t, n, b) → n ≠ 0 → n ≠ 8 →
          r = (t.undefineRunVia u c (x.dst.toNat + lo) len [], 4, 0#64))))
    ∧ (∀ n x, s.runningPart c q i part = some (n, x) →
      let r := partRange x.bytes part
      let u := some (unitCopy q)
      let waits := s.runIsFar u c (x.dst.toNat + r.1) r.2 permWrite = true
        ∨ (x.op ≠ 2 ∧ s.runIsFar u c (x.src.toNat + r.1) r.2 permRead = true)
      (waits → exec (.partTimeout c q i part) s = .next
        ((s.undefineRunVia u c (x.dst.toNat + r.1) r.2 []).partEnd n part 7 0#64 false true FarReply.ok))
      ∧ (¬waits → exec (.partTimeout c q i part) s = .next s))
    ∧ (∀ n j d x, s.que.copies[n]? = some x → (modifyAt x.parts j (fun _ => ⟨some 0, d, false⟩)).all (·.status == some 0) = true →
      x.op ≠ 1 → s.partEnd n j 0 d false true FarReply.ok = ({ s with que := { s.que with copies := s.que.copies.eraseIdx n } }).copyRecord
        { x with parts := modifyAt x.parts j (fun _ => ⟨some 0, d, false⟩) } 0 0)

/-- Stacks and paths (R206–R214, R382): a due row or bank is remapped to a spare, shown, logged and entered in the defect log, or its remap fails
and its bank is due; scrubbing, refresh, a temperature and a dead stack; a word replayed clean is logged, one that four replays do not bring is
delivered poisoned, and a second such on a link within 1 ms is fatal. A row whose line becomes poisoned is due for a remap.
Read by inference or chosen by the model: log entries 7 and 110. -/
def Obligations.StacksAndPaths : Prop :=
  ∀ (r : RowRef) (st : Stack) (line : Nat) (obs : LineObs) (temp : Int) (path : PathRef) (s : State),
    let k := keyOfRow r
    let b := k.bankKey
    let count (l : List RowKey) : Nat := (l.filter (fun x => x.stack == k.stack)).length
    let due := { s with dram := { s.dram with rowDue := s.dram.rowDue.filter (· != k) } }
    let bdue := { s with dram := { s.dram with bankDue := s.dram.bankDue.filter (· != b) } }
    (s.dram.rowDue.contains k = true →
      let rows := s.dram.rows.filter (· != k) ++ [k]
      let spare := s.dram.rows.contains k = true ∨ count s.dram.rows < 1024
      (¬spare → ∀ ok, exec (.rowRemap r ok) s = .next (due.spareExhausted k.stack))
      ∧ (spare → exec (.rowRemap r false) s = .next (due.dueBank b))
      ∧ (spare → ∃ t, t.dram.rows = rows
          ∧ t = (((({ due with dram := { due.dram with rows := rows, rereads := s.dram.rereads.filter (fun p => p.1 != k) } }).showSpares
              k.stack).stackLast 3 k).log { code := 0x0303, kind := 5, unit := k.stack, action := 4, defect := s.canList, detail := k.detail }).defect
              5 5 k.stack k.location 0x0303 0
          ∧ ((rows.filter (fun x => x.bankKey == b)).length < 8 → exec (.rowRemap r true) s = .next t)
          ∧ (8 ≤ (rows.filter (fun x => x.bankKey == b)).length → exec (.rowRemap r true) s = .next (t.dueBank b))))
    ∧ (s.dram.bankDue.contains b = true →
      (111 ≤ (s.dram.banks.filter (fun x => x.stack == b.stack)).length → exec (.bankRemap r) s = .next (bdue.spareExhausted b.stack))
      ∧ ((s.dram.banks.filter (fun x => x.stack == b.stack)).length < 111 → exec (.bankRemap r) s = .next
        ((((({ bdue with dram := { bdue.dram with banks := s.dram.banks ++ [b] } }).showSpares b.stack).stackLast 3 b).log
          { code := 0x0304, kind := 5, unit := b.stack, action := 4, defect := s.canList, detail := b.detail }).defect
          5 5 b.stack b.location 0x0304 2)))
    ∧ (s.mem.poison.contains line = false → 64 * line < memoryEnd → let w := s.markLine line
        w.mem.poison.contains line = true ∧ w.dram.rowDue.contains (s.rowOf (64 * line)) = true)
    ∧ exec (.stackDead st) s = .next (s.fatalModule { code := 0x0308, kind := 5, unit := st } caFatal)
    ∧ (s.fld (fMemcStkStateState st) = 3 → s.fld fMemcScrubPaused = 0 → (s.rowOf (64 * line)).stack = st.val →
      s.dram.scrubSkip.contains line = false →
      let u := (s.activateRow (s.rowOf (64 * line))).lineRead { obs with line := line }
      (u.mem.poison.contains line = false → exec (.patrolScrub st line obs) s = .next (u.scrubCount st line))
      ∧ (u.mem.poison.contains line = true → exec (.patrolScrub st line obs) s = .next
          (({ u with dram := { u.dram with scrubSkip := line :: u.dram.scrubSkip } }).scrubCount st line)))
    ∧ (s.fld fMemcScrubPaused = 1 → exec (.patrolScrub st line obs) s = .next s)
    ∧ exec (.refresh st) s = .next { s with dram := { s.dram with acts := s.dram.acts.filter (fun p => p.1.stack != st.val) } }
    ∧ exec (.stackTemperatureRead st temp) s = .next { s with dram := { s.dram with temps := insertKey s.dram.temps st temp } }
    ∧ (let unit := pathUnit path
      let marked := s.markLine line
      let lost := marked.log { code := 0x0209, cls := 1, kind := unit.1, unit := unit.2, action := 3, detail := pathDetail path }
      let kept := { lost with err := { lost.err with paths := (path, lost.time) :: lost.err.paths.filter (fun p => p.1 != path) } }
      let again := lost.err.paths.any (fun p => p.1 == path && decide (lost.time < p.2 + 10 ^ 6))
      exec (.wordReplay path true line) s = .next (s.log { code := 0x0208, kind := unit.1, unit := unit.2, action := 1, detail := pathDetail path })
      ∧ ((∃ x, path = .storePort x) ∨ (∃ x, path = .clusterPort x) → exec (.wordReplay path false line) s = .next
          (marked.log { code := 0x0307, cls := 1, kind := unit.1, unit := unit.2, action := 3, detail := leBytes 8 (64 * line) }))
      ∧ ((∃ x, path = .cipher x) → exec (.wordReplay path false line) s = .next kept)
      ∧ ((∃ x, path = .trellis x) ∨ (∃ x, path = .dieLink x) ∨ path = .hubLink →
        (again = false → exec (.wordReplay path false line) s = .next kept)
        ∧ (again = true → exec (.wordReplay path false line) s = .next
          (kept.fatalModule { code := 0x020A, kind := unit.1, unit := unit.2, detail := pathDetail path } caFatal))))

/-! ### Routing, fabric time, groups and collectives (R287–R334) -/

/-- Routing and fabric time. A packet of no known kind is logged and dropped (R288); one that is 64 µs old is dropped and counted (R298); any
other takes its next hop (R291), into a buffer or behind those that wait for one (R289), or is held while a route change of the last 64 µs moved
that hop; held packets leave with a new stamp (R298). A newer ROUTE_UPDATE is applied and passed on once (R294). The source of time is the
neighbour nearest to the root, of those the lowest node ID (R328); fabric time slews by at most 50 ppm and is asked for upstream (R329), and is held from
the oscillator while there is none (R330); a lost upstream is replaced, or clears the lock, or makes the module root (R330).
Read by inference or chosen by the model: log entries 49, 54, 98, 99 and 103. -/
def Obligations.RoutingAndTime : Prop :=
  ∀ (p : Pkt) (q pr : Port) (m : RouteMsg) (t1 t2 t3 : Word) (distance : BitVec 16) (root : Node) (joined : List Node)
    (peers : List TimePeer) (s : State),
    let h := s.routeView.nextHop p
    let fresh := { p with stamp := BitVec.ofNat 8 s.usNow, stage := 0, phase := 0, last := 7, adv := false }
    let young := decide ((s.usNow + 256 - p.stamp.toNat) % 256 < 64)
    let router (o : Option Nat) : Nat := match o with
      | some n => if 16 ≤ n then 1 else 0
      | none => 0
    let send (x : State) (k : Pkt) (from_ : Option Nat) : State := match x.routeView.nextHop k with
      | .here => x.emit (.forward none k)
      | .port o y d =>
        let u := (x.emit (.forward (some o) y)).modPort o (fun z =>
          if z.room o y then { z with txq := z.txq ++ pktFlits y k } else { z with blocked := z.blocked ++ [(y, k)] })
        if d then u.bump fRteErrDetours 1 else u
      | .unreachable =>
        let u := x.bump fRteErrUnreachable 1
        if pktClass k = 0 ∧ k.tunnel = false then
          (u.log { code := 0x0404, kind := 8, unit := router from_, action := 0, detail := leBytes 2 k.dst.toNat }).sendPkt pkRefused k.src (pktFrame k)
            (replyBody (field k.body 12 4) 7 []) []
        else u
    (∀ o, knownKind p.kind.toNat = false →
      exec (.routerForward p o) s = .next (s.log { code := 0x0405, kind := 8, unit := router (o.map Fin.val), detail := leBytes 1 p.kind.toNat }))
    ∧ (knownKind p.kind.toNat = true →
      (young = false → exec (.routerForward p (some q)) s = .next (s.bump fRteErrAged 1))
      ∧ (young = true → (∀ c ∈ s.rte.changes, ((s.routeView.before c).nextHop p).portOf = h.portOf) →
        exec (.routerForward p (some q)) s = .next (send s p (some q.val)))
      ∧ (∀ c ∈ s.rte.changes, young = true → ((s.routeView.before c).nextHop p).portOf ≠ h.portOf →
        exec (.routerForward p (some q)) s = .next { s with rte := { s.rte with held := s.rte.held ++ [(p, some q.val)] } })
      ∧ (s.rte.changes = [] → exec (.routerForward p none) s = .next (send s fresh none)))
    ∧ exec .holdRelease s = .next (s.rte.held.foldl (fun u x =>
        let k : Pkt := { x.1 with stamp := BitVec.ofNat 8 u.usNow }
        if u.moved k then { u with rte := { u.rte with held := u.rte.held ++ [(k, x.2)] } } else send u k x.2)
          { s with rte := { s.rte with held := [], changes := s.rte.changes.drop 1 } })
    ∧ (m.pos.toNat ≠ posOf s.node →
      ((∀ g, lookupKey s.rte.updates m.pos.toNat = some g → newer16 m.gen.toNat g = true) →
        let noted := { s with rte := { s.rte with updates := insertKey s.rte.updates m.pos.toNat m.gen.toNat } }
        exec (.routeUpdate m) s = .next (((noted.setGateways m.pos.toNat (m.works.take 7)).routeChanged s.routeView).flood (some m.arrived.val)
          (updateData m.pos.toNat m.gen.toNat m.works)))
      ∧ (∀ g, lookupKey s.rte.updates m.pos.toNat = some g → newer16 m.gen.toNat g = false → exec (.routeUpdate m) s = .next s))
    ∧ (∀ master,
      let can (x : TimePeer) : Bool := s.portState x.port == stSealed && (master || decide (x.port.val < 28))
      let d (x : TimePeer) : Nat := if master then x.hall.toNat else x.rack.toNat
      (s.pickUpstream master peers = none ↔ peers.all (fun x => !can x) = true)
      ∧ (∀ x, s.pickUpstream master peers = some x → x ∈ peers ∧ can x = true
        ∧ ∀ y ∈ peers, can y = true → d x < d y ∨ (d x = d y ∧ x.node.toNat ≤ y.node.toNat)))
    ∧ (s.fld fRteStateJoined = 1 →
      let d := max (-5) (min 5 s.rte.slew)
      let slewed := { s with rte := { s.rte with offset := s.rte.offset + d, slew := s.rte.slew - d } }
      let u := s.setFld fRteStateMaster (ofBool (s.isMaster joined))
      let still (v : State) : State := { v with rte := { v.rte with slew := 0, asked := none } }
      (s.fld fRteStateUpValid = 1 → s.portUp (s.fld fRteStateUpstream) = true →
        exec .timeSyncTick s = .next (({ slewed with rte := { slewed.rte with asked := some slewed.fabTime } }).sendCtl
          (s.fld fRteStateUpstream) 0x20 (leBytes 8 slewed.fabTime)))
      ∧ ((s.fld fRteStateUpValid = 0 ∨ s.portUp (s.fld fRteStateUpstream) = false) → exec .timeSyncTick s = .next (still s))
      ∧ (s.isRoot joined = true → exec (.upstreamTimeout joined peers) s = .next ((still u).setFlds
        [(fRteStateTimeRoot, s.node.toNat), (fRteStateDistance, 0), (fRteStateUpValid, 0), (fRteStateTimeLocked, 1), (fRteStateMaster, 1)]))
      ∧ (∀ x, s.isRoot joined = false → s.pickUpstream (s.isMaster joined) peers = some x →
        exec (.upstreamTimeout joined peers) s = .next ((still u).setFlds [(fRteStateTimeRoot, (joined.map BitVec.toNat).foldl min s.node.toNat),
          (fRteStateDistance, min 255 (x.hall.toNat + 1)), (fRteStateUpValid, 1), (fRteStateUpstream, x.port), (fRteStateTimeLocked, 1)]))
      ∧ (s.isRoot joined = false → s.pickUpstream (s.isMaster joined) peers = none →
        exec (.upstreamTimeout joined peers) s = .next ((still u).setFlds [(fRteStateUpValid, 0), (fRteStateTimeLocked, 0)])))
    ∧ (s.portUp pr = true → exec (.timeReq pr t1) s = .next (s.sendCtl pr 0x21
        (leBytes 8 s.fabTime ++ leBytes 8 s.fabTime ++ leBytes 2 (s.fld fRteStateDistance) ++ leBytes 2 (s.fld fRteStateTimeRoot))))
    ∧ (∀ a, s.fld fRteStateUpValid = 1 → s.fld fRteStateUpstream = pr.val → s.rte.asked = some a →
      (root.toNat < s.node.toNat → exec (.timeRsp pr t2 t3 distance root) s = .next (({ s with rte := { s.rte with
          slew := (((t2.toNat : Int) - a) - ((s.fabTime : Int) - t3.toNat)) / 2, asked := none } }).setFlds
        [(fRteStateDistance, min 255 (distance.toNat + 1)), (fRteStateTimeRoot, root.toNat)]))
      ∧ (s.node.toNat ≤ root.toNat → exec (.timeRsp pr t2 t3 distance root) s = .next s.asRoot))

/-- Groups (R301–R308, R333, R334). CREATE charges the context, forms the number and, once it has met every JOIN of its rank map, builds the
tree; JOIN forms the lowest free number of the partition and tells the leader; DESTROY frees an idle number and tells the others; a check that
passes takes its place in the tree and each check is answered; the leader's last good answer commits, its first bad one fails the formation; a
commit makes the group READY with its sequence at 0, a failure frees what was reserved, and a forming time that runs out does the same.
Read by inference or chosen by the model: log entries 46, 99 and 102. -/
def Obligations.GroupsForm : Prop :=
  ∀ (v : Word) (far : FarReply) (views : List RouterObs) (m : SetupMsg) (g : Grp) (s : State),
    let t (op : Nat) : State := s.writeUnder takesAll rGrpCmd (withOp v fGrpCmdGo fGrpCmdOp op)
    let c := getBits v fGrpCmdContext
    let n := getBits v fGrpCmdNumber
    let key := m.key.toNat
    let noted (u : State) (i : Nat) (f : Forming) : State := { u with grp := { u.grp with forming := insertKey u.grp.forming i f } }
    let answer (u : State) (r : Nat) : State := u.sendSetup (key / 1024) { m with step := .answer, sender := s.node, reason := Fin.ofNat 16 r }
    (∀ p, Taken s rGrpCmd → s.active c = true → s.partOf c = some p → s.isOpen p = true →
      let members := s.fld fGrpArg1Members
      let use := s.fld (fCtxQgroupsUse c)
      let lowest := ((List.range (s.groupRange p).2).map ((s.groupRange p).1 + ·)).find? (fun i => s.fld (fGrpGStateState i) == 0)
      let formed (u : State) (i lead mem key : Nat) : State := u.setFlds [(fGrpGStateReason i, 0), (fGrpGStateTunnelled i, 0),
        (fGrpGStateLeader i, lead), (fGrpGStateState i, 1), (fGrpGStateHub i, 0), (fGrpGStateRank i, 0), (fGrpGStateMembers i, mem),
        (fGrpGStateKey i, key), (fGrpGStatContext i, c)]
      let room := decide (use + 1 ≤ s.fld (fCtxQgroupsLimit c))
      let named := decide ((s.groupRange p).1 ≤ n ∧ n < (s.groupRange p).1 + (s.groupRange p).2 ∧ 2 ≤ members ∧ members ≤ 4096
        ∧ 1 ≤ s.fld fGrpArg1FormMs ∧ s.fld fGrpArg1FormMs ≤ 10000)
      let own := s.node.toNat * 1024 + n
      let lead := formed (((t 1).setFld fGrpCmdResult 0).setGroupUse c (use + 1)) n 1 members own
      let theirs := (s.reg rGrpArg0).toNat % 2 ^ 22
      let free := s.fld (fGrpGStateState n) ≠ 0 ∧ s.fld (fGrpGStatContext n) = c ∧ s.commOf n = [] ∧ lookupKey s.grp.inflight n = none
        ∧ s.fld (fGrpGQstateHead n) = s.fld (fGrpGQstateTail n)
      let ended (w : State) : State := (w.dropTree (s.fld (fGrpGStateKey n))).freeGroup n 0
      let left := s.setupMsg .left (s.fld (fGrpGStateKey n)) 8
      (∀ i, lowest = some i → room = true →
        let u := noted (formed ((((t 2).setFld fGrpCmdResult 0).setFld fGrpCmdNumber i).setGroupUse c (use + 1)) i 0 0 theirs) i
          ⟨0, false, [], s.fld fGrpArg1Timeout, [], [], []⟩
        exec (.groupJoin v) s = .next (u.sendSetup (theirs / 1024) { s.setupMsg .joined theirs 0 with member := some (Fin.ofNat 128 c) }))
      ∧ (lowest = none → exec (.groupJoin v) s = .next ((t 2).setFld fGrpCmdResult 3))
      ∧ (∀ i, lowest = some i → room = false → exec (.groupJoin v) s = .next ((t 2).setFld fGrpCmdResult 4))
      ∧ (named = false → exec (.groupCreate v far views) s = .next ((t 1).setFld fGrpCmdResult 2))
      ∧ (named = true → s.fld (fGrpGStateState n) ≠ 0 → exec (.groupCreate v far views) s = .next ((t 1).setFld fGrpCmdResult 3))
      ∧ (named = true → s.fld (fGrpGStateState n) = 0 → room = false → exec (.groupCreate v far views) s = .next ((t 1).setFld fGrpCmdResult 4))
      ∧ (∀ u x b, named = true → s.fld (fGrpGStateState n) = 0 → room = true →
        (s.gpaPieces c (s.reg rGrpArg0).toNat (4 * members) permRead).isSome = true →
        lead.readRun c (s.reg rGrpArg0).toNat (4 * members) far = (u, x, b) →
        (x ≠ 0 → exec (.groupCreate v far views) s = .next (u.freeGroup n 5))
        ∧ (x = 0 → ((mapEntries b members).map Prod.fst).eraseDups.length = members → (mapEntries b members).head? = some (s.node.toNat, c) →
          let met := (u.grp.joins.filter (fun j => j.1 == own)).map (fun j => j.2.1)
          let f : Forming := ⟨members, true, mapEntries b members, s.fld fGrpArg1Timeout, views, met, []⟩
          let w := noted { u with grp := { u.grp with joins := u.grp.joins.filter (fun j => j.1 != own) } } n f
          ((∀ e ∈ (mapEntries b members).drop 1, e.1 ∈ met) → exec (.groupCreate v far views) s = .next (w.formTree n f))
          ∧ (∀ e ∈ (mapEntries b members).drop 1, e.1 ∉ met → exec (.groupCreate v far views) s = .next w)))
      ∧ (free → s.fld (fGrpGStateLeader n) = 0 →
        exec (.groupDestroy v) s = .next (ended (((t 3).setFld fGrpCmdResult 0).sendSetup (s.fld (fGrpGStateKey n) / 1024) left)))
      ∧ (free → s.fld (fGrpGStateLeader n) = 1 → s.fld (fGrpGStateState n) ≠ 1 →
        exec (.groupDestroy v) s = .next (ended (((t 3).setFld fGrpCmdResult 0).sendSetups (s.ledNodes n) left)))
      ∧ (s.fld (fGrpGStateState n) = 0 → exec (.groupDestroy v) s = .next ((t 3).setFld fGrpCmdResult 6)))
    ∧ (∀ i (f : Forming), m.step = .joined → s.memberFor key = some i → lookupKey s.grp.forming i = some f → f.leader = true →
      let f1 : Forming := { f with met := f.met ++ [m.sender.toNat] }
      exec (.groupSetup m) s = .next (if f1.ready then (noted s i f1).formTree i f1 else noted s i f1))
    ∧ (∀ i (f : Forming) edges, s.treeEdges f.views (s.fld (fGrpGStateKey i)) f.map = some edges →
      let k := s.fld (fGrpGStateKey i)
      let nodes := (edges.map Prod.fst).eraseDups
      let r := s.reserve (s.partOfTree i k f edges s.node.toNat)
      let asked := { r.1 with grp := { r.1.grp with
        forming := insertKey r.1.grp.forming i { f with asked := nodes }, led := insertKey r.1.grp.led i nodes } }
      (r.2 = 0 → s.formTree i f = nodes.foldl (fun u x => u.sendSetup x (u.partOfTree i k f edges x)) asked)
      ∧ (r.2 ≠ 0 → s.formTree i f = r.1.formFail i r.2))
    ∧ (∀ i (f : Forming), m.step = .answer → s.memberFor key = some i → lookupKey s.grp.forming i = some f → f.asked.contains m.sender.toNat = true →
      let rest := f.asked.filter (· != m.sender.toNat)
      (m.reason.val ≠ 0 → exec (.groupSetup m) s = .next (((s.sendSetups (s.ledNodes i) (s.setupMsg .fail (s.fld (fGrpGStateKey i)) m.reason)).dropTree
        (s.fld (fGrpGStateKey i))).freeGroup i m.reason))
      ∧ (m.reason.val = 0 → rest ≠ [] → exec (.groupSetup m) s = .next (noted s i { f with asked := rest }))
      ∧ (m.reason.val = 0 → rest = [] → exec (.groupSetup m) s = .next ((s.sendSetups (s.ledNodes i) (s.setupMsg .commit key 0)).setupCommit key)))
    ∧ (∀ (x : Tree) i (f : Forming), m.step = .commit → s.treeOf key = some x → x.member = some i → lookupKey s.grp.forming i = some f →
      exec (.groupSetup m) s = .next (({ s with grp := { s.grp with
          trees := s.grp.trees.map (fun (u : Tree) => if u.key = key then { u with committed := true } else u)
          forming := eraseKey s.grp.forming i } }).setFlds
        [(fGrpGStateState i, 2), (fGrpGStateReason i, 0), (fGrpGStatSeq i, 0), (fGrpGQcfgTimeout i, f.timeout)]))
    ∧ (∀ i, m.step = .fail → s.memberFor key = some i → s.fld (fGrpGStateState i) = 1 →
      exec (.groupSetup m) s = .next ((s.dropTree key).freeGroup i 1))
    ∧ (∀ i, m.step = .left → s.memberFor key = some i → s.fld (fGrpGStateState i) = 2 → s.fld (fGrpGStateLeader i) = 0 →
      exec (.groupSetup m) s = .next ((s.setFlds [(fGrpGStateState i, 3), (fGrpGStateReason i, 8)]).pactsBroken i))
    ∧ (∀ x i, m.step = .check → m.member = some x → s.formingFor key x = some i → s.jobTag x = m.tag.toNat →
      s.fld (fCtxQgroupsUse x) ≤ s.fld (fCtxQgroupsLimit x) → m.children = [] →
      let place : Tree := ⟨key, m.parent.map Fin.val, [], 0, s.partOf x, some i, false, 0⟩
      (s.tableRoom place = true → exec (.groupSetup m) s = .next (answer (({ s with grp := { s.grp with trees := s.grp.trees ++ [place] } }).setFlds
        [(fGrpGStateHub i, 0), (fGrpGStateRank i, m.rank.toNat), (fGrpGStateMembers i, m.members.toNat), (fGrpGStatDepth i, m.depth.val)]) 0))
      ∧ (s.tableRoom place = false → exec (.groupSetup m) s = .next (answer s 3)))
    ∧ (∀ x, m.step = .check → m.member = some x → s.formingFor key x = none → exec (.groupSetup m) s = .next (answer s 1))
    ∧ (∀ x i, m.step = .check → m.member = some x → s.formingFor key x = some i → s.jobTag x ≠ m.tag.toNat →
      exec (.groupSetup m) s = .next (answer s 2))
    ∧ (s.fld (fGrpGStateState g) = 1 → s.fld (fGrpGStateLeader g) = 0 → exec (.formTimeout g) s = .next
        ((s.dropTree (s.fld (fGrpGStateKey g))).freeGroup g 7))
    ∧ (s.fld (fGrpGStateState g) = 1 → s.fld (fGrpGStateLeader g) = 1 → exec (.formTimeout g) s = .next (s.formFail g 7))

/-- Collectives (R308–R327). The next collective of a READY leaf sends its contribution, with its seal and digest, up the tree; a reduction
context merges its inputs once all are there and their seals agree, checks the digest of what it hands on (R317, R318) and passes the result on;
differing seals stop it with MISMATCH, also at a member that has not started; results, statuses and verdicts go down to every child; a collective
that times out ends so and breaks its group, one that only passes is discarded (R321). A hop no longer meets the faults of a lane that is suspect or
whose checker is retired (R388). Control of collectives on the tree (R313, R315, R318, R319): MISMATCH goes on to the root; verdicts are gathered; an abort goes up to the root and
from there down to every member, be its sequence late or not; the joint verdict ends a collective at the member that waits for it. A module that only carries a tree from one port to another passes each unit on across it, under the credits that its source holds (R304, R305).
With the last unit of a message it has checked the digest of what it forwards (R317); where that fails an abort goes up, and down in the place of
the rest (R318).
Read by inference or chosen by the model: log entries 37, 91, 101, 104, 105 and 122. -/
def Obligations.CollectivesRun : Prop :=
  (∀ (g : Grp) (far : FarReply) (u : CollIn) (hop here : DigestObs) (s : State),
    let start (b : List Byte) (rest : List (List Byte)) : Prop :=
      s.commOf g = b :: rest ∧ lookupKey s.grp.inflight g = none ∧ (CDesc.read b).wait = none
    let left (b : List Byte) (rest : List (List Byte)) : State :=
      let d := CDesc.read b
      let s1 := ({ s with que := { s.que with comm := insertKey s.que.comm g rest } }).dropColl (s.fld (fGrpGStateKey g)) (s.fld (fGrpGStatSeq g))
      { s1 with grp := { s1.grp with
        inflight := insertKey s1.grp.inflight g ⟨d.tag, d.quiet, d.word, d.count, d.dst, d.done, s.fld (fGrpGStatSeq g), [], none⟩
        early := eraseKey s1.grp.early g } }
    (∀ b rest (x : Tree) p, start b rest → s.fld (fGrpGStateState g) = 2 → (∀ e, lookupKey s.grp.early g = some e → e.seq ≠ s.fld (fGrpGStatSeq g)) →
      s.treeOf (s.fld (fGrpGStateKey g)) = some x → x.children = [] → x.parent = some p →
      ∃ (w : State) (o : CollMsg) (c : Coll), exec (.collectiveStart g far hop here) s = .next (w.sendColl x .up p o)
        ∧ lookupKey w.grp.inflight g = some c
        ∧ c.tag = (CDesc.read b).tag ∧ c.w = (CDesc.read b).word ∧ c.count = (CDesc.read b).count ∧ c.seq = s.fld (fGrpGStatSeq g)
        ∧ c.verdict = none ∧ c.own = o.values ∧ o.key = x.key ∧ o.seq = c.seq ∧ o.child = none
        ∧ o.lowRank = s.fld (fGrpGStateRank g) ∧ o.lowNode = s.node.toNat ∧ o.w = c.w ∧ o.count = c.count
        ∧ o.dseal = (if o.void then BitVec.allOnes 64 else dsealOf x.key c.seq c.w c.count)
        ∧ o.digest = (if hasDigest c.w then BitVec.ofNat 64 o.dataDigest else 0#64))
    ∧ (∀ b rest, s.commOf g = b :: rest → lookupKey s.grp.inflight g = none → s.fld (fGrpGStateState g) = 3 →
      exec (.collectiveStart g far hop here) s = .next
        (({ s with que := { s.que with comm := insertKey s.que.comm g rest } }).collAbortEntry g (CDesc.read b)))
    ∧ (∀ b rest e, start b rest → s.fld (fGrpGStateState g) = 2 → lookupKey s.grp.early g = some e → e.seq = s.fld (fGrpGStatSeq g) →
      exec (.collectiveStart g far hop here) s = .next ((left b rest).collEnd g e.status (if e.status = 6 then e.lowNode else 0)))
    ∧ (∀ (x : Tree) (m : CollMsg), hasDigest m.w = true → m.status = 0 →
      let hub : Nat := if x.hub = 0 then hubOf x.ports else x.hub
      let o := s.laneFaults hub hop
      let again := m.damage o.second
      (digestHolds m m.digest o.first o.unit1 = true → s.hopCheck x m hop = (s, m.damage o.first, true))
      ∧ (digestHolds m m.digest o.first o.unit1 = false →
        (digestHolds m m.digest o.second o.unit2 = true →
          s.hopCheck x m hop = (s.log { code := 0x0501, kind := 8, unit := hub - 1, action := 1 }, again, true))
        ∧ (digestHolds m m.digest o.second o.unit2 = false → BitVec.ofNat 64 again.dataDigest = m.digest →
          s.hopCheck x m hop = (s.laneVerdict hub o.lane true m, again, true))
        ∧ (digestHolds m m.digest o.second o.unit2 = false → BitVec.ofNat 64 again.dataDigest ≠ m.digest →
          s.hopCheck x m hop = (s.laneVerdict hub o.lane false m, again, false)))
      ∧ (let lane := 2 + 4 * (hub - 1) + hop.lane % 4
        o.lane = hop.lane
        ∧ (s.grp.suspect.contains lane = true → o.first = [] ∧ o.second = [])
        ∧ (s.grp.checkers.contains lane = true → o.unit1 = 0#64 ∧ o.unit2 = 0#64)
        ∧ (s.grp.suspect.contains lane = false → s.grp.checkers.contains lane = false → o = hop)))
    ∧ (∀ x, s.treeOf (unitKey u) = some x → x.forwards = false →
      let v : CollIn := { u with port := Fin.ofNat 32 (x.edgeOn u.port) }
      let credit (p : Nat) : State := s.emit (.credit p (unitKey u) (unitFlitCount u))
      let sc := credit v.port.val
      (s.lateColl x (unitSeq u) = true →
        exec (.collUp u hop here) s = .next (credit u.port.val) ∧ exec (.collDown u hop here) s = .next (credit u.port.val))
      ∧ (s.lateColl x (unitSeq u) = false →
        let r := sc.unitIn true v
        let r1 := sc.unitIn false v
        (r.2 = none → exec (.collUp u hop here) s = .next r.1)
        ∧ (r1.2 = none → exec (.collDown u hop here) s = .next r1.1)
        ∧ (∀ m, r.2 = some m →
          let got := r.1.gathered x.key m.seq
          let all := { got with inputs := got.inputs ++ [m] }
          let after := r.1.setGathered { all with inputs := [] }
          (all.inputs.length < x.expects → exec (.collUp u hop here) s = .next (r.1.setGathered all))
          ∧ (∀ node, x.expects ≤ all.inputs.length → offender all.inputs = some node → exec (.collUp u hop here) s = .next (r.1.mismatch x m node))
          ∧ (∀ a l, x.expects ≤ all.inputs.length → offender all.inputs = none → all.inputs = a :: l →
            let merged := { (l.foldl mergeTwo a) with child := none }
            let ck := after.hopCheck x merged hop
            (∀ p, x.parent = some p → exec (.collUp u hop here) s = .next
              (ck.1.sendColl x .up p (if ck.2.2 then ck.2.1 else { ck.2.1 with status := 0x0A })))
            ∧ (x.parent = none → ck.2.2 = true → exec (.collUp u hop here) s = .next (ck.1.rootDown x ck.2.1 DigestObs.clean here))
            ∧ (x.parent = none → ck.2.2 = false → exec (.collUp u hop here) s = .next (ck.1.statusDown x merged 0x0A 0))))
        ∧ (∀ m, r1.2 = some m →
          let ck := r1.1.hopCheck x m hop
          let on := ck.1.sendDown x .down ck.2.1
          exec (.collDown u hop here) s = .next (r1.1.downHere x m hop here)
          ∧ (ck.2.2 = false → exec (.collDown u hop here) s = .next ((ck.1.statusDown x m 0x0A 0).abortUp x m))
          ∧ (ck.2.2 = true → x.member = none → hasVerdict m.w = true → m.status = 0 → exec (.collDown u hop here) s = .next on)
          ∧ (ck.2.2 = true → x.member = none → (hasVerdict m.w = false ∨ m.status ≠ 0) →
            exec (.collDown u hop here) s = .next (on.passed x m.seq)))))
    ∧ (∀ e, lookupKey s.grp.inflight g = some e → exec (.collectiveTimeout (.member g)) s = .next
        ((((s.dropColl (s.fld (fGrpGStateKey g)) e.seq).collComplete g 7 0).setFlds
          [(fGrpGStateState g, 3), (fGrpGStateReason g, 7)]).pactsBroken g))
    ∧ (∀ key seq x, s.treeOf (BitVec.toNat (w := 22) key) = some x → x.member = none → ∃ t, exec (.collectiveTimeout (.transit key seq)) s = .next t
        ∧ t.grp.gathers.all (fun h => !(h.key == key.toNat && h.seq == seq.toNat)) = true
        ∧ t.grp.arriving.all (fun h => !(h.key == key.toNat && h.seq == seq.toNat)) = true
        ∧ ∀ y, t.treeOf key.toNat = some y → t.lateColl y seq.toNat = true))
  ∧ ((∀ (u : CollIn) (x : Tree) (s : State), s.treeOf (unitKey u) = some x → x.forwards = false → (u.express = true → unitMark u ≠ 0xB0) →
    let v : CollIn := { u with port := Fin.ofNat 32 (x.edgeOn u.port) }
    let sc := s.emit (.credit v.port.val (unitKey u) (unitFlitCount u))
    let up := x.children.contains v.port.val
    let k := readCtrl up v
    let abort : Prop := k.status = 0x0A ∧ hasVerdict k.w = false
    (s.lateColl x (unitSeq u) = true → ¬abort →
      exec (.collCtrl u) s = .next (s.emit (.credit u.port.val (unitKey u) (unitFlitCount u))))
    ∧ ((s.lateColl x (unitSeq u) = false ∨ abort) →
      let gone := sc.dropColl x.key k.seq
      let down := (sc.sendDown x .ctl k).passed x k.seq
      (up = true → k.status = 6 → exec (.collCtrl u) s = .next (sc.mismatch x k k.lowNode))
      ∧ (up = true → k.status ≠ 6 → hasVerdict k.w = true → exec (.collCtrl u) s = .next (sc.verdictAdd x k))
      ∧ (∀ p, up = true → k.status ≠ 6 → hasVerdict k.w = false → x.parent = some p →
        exec (.collCtrl u) s = .next (gone.sendColl x .ctl p (k.ended 0x0A 0)))
      ∧ (up = true → k.status ≠ 6 → hasVerdict k.w = false → x.parent = none →
        exec (.collCtrl u) s = .next ((gone.sendDown x .ctl (k.ended 0x0A 0)).memberAbort x k))
      ∧ (up = false → x.member = none → exec (.collCtrl u) s = .next down)
      ∧ (∀ i e, up = false → x.member = some i → lookupKey down.grp.inflight i = some e → e.seq = k.seq → e.verdict.isSome = true ∨ abort →
        exec (.collCtrl u) s = .next (down.collComplete i k.status 0)))
    ∧ (∀ (i : Nat) (e : Coll) (m : CollMsg), x.member = some i → lookupKey s.grp.inflight i = some e →
      (e.seq = m.seq → s.memberAbort x m = s.collComplete i 0x0A 0) ∧ (e.seq ≠ m.seq → s.memberAbort x m = s))
    ∧ (∀ (i : Nat) (m : CollMsg), x.member = some i → lookupKey s.grp.inflight i = none → m.seq = s.fld (fGrpGStatSeq i) →
      s.memberAbort x m = { s with grp := { s.grp with early := insertKey s.grp.early i (m.ended 0x0A 0) } }))
  ∧ (∀ (u : CollIn) (x : Tree) (q : Nat) (hop here : DigestObs) (s : State), s.treeOf (unitKey u) = some x → x.forwards = true →
    let v : CollIn := { u with port := Fin.ofNat 32 (x.edgeOn u.port) }
    x.across v.port.val = some q → s.lateColl x (unitSeq u) = false →
    let r := s.unitIn true v
    let r1 := s.unitIn false v
    (r.2 = none → exec (.collUp u hop here) s = .next (r.1.passUnit q v))
    ∧ (r1.2 = none → exec (.collDown u hop here) s = .next (r1.1.passUnit q v))
    ∧ (∀ m, r.2 = some m →
      let ck := r.1.hopCheck x m hop
      (ck.2.2 = true → exec (.collUp u hop here) s = .next (ck.1.passUnit q v))
      ∧ (ck.2.2 = false → exec (.collUp u hop here) s = .next (ck.1.abortUp x m)))
    ∧ (∀ m, r1.2 = some m →
      let ck := r1.1.hopCheck x m hop
      (ck.2.2 = true → hasVerdict m.w = true → m.status = 0 → exec (.collDown u hop here) s = .next (ck.1.passUnit q v))
      ∧ (ck.2.2 = true → (hasVerdict m.w = false ∨ m.status ≠ 0) →
        exec (.collDown u hop here) s = .next ((ck.1.passUnit q v).passed x m.seq))
      ∧ (ck.2.2 = false → exec (.collDown u hop here) s = .next ((ck.1.statusDown x m 0x0A 0).abortUp x m)))
    ∧ ((u.express = true → unitMark u ≠ 0xB0) →
      let up := x.children.contains v.port.val
      let k := readCtrl up v
      let s1 := if k.status = 0x0A ∧ hasVerdict k.w = false then s.dropColl x.key k.seq else s
      (up = true → exec (.collCtrl u) s = .next (s1.passUnit q v))
      ∧ (up = false → exec (.collCtrl u) s = .next ((s1.passUnit q v).passed x k.seq)))
    ∧ (∀ (t : State) (p : Nat) (m : CollMsg), x.parent = some p → t.abortUp x m = t.sendColl x .ctl p (m.ended 0x0A 0))))


/-! ### Optical links (R251–R286, R440–R445, R479) -/

/-- Blocks, express flits, commas and lane changes of a port that is up. A block time sends a retained block again, bit for bit but for RPL and the
check (R264), or a new one with the next sequence number and its check, express flits only when UP_SEALED (R258–R261); a block that decodes, checks
and is the one expected is delivered and its ack taken; of one that fails the ack counts where its copies agree, and NAK is due (R258, R261, R262);
an express flit newer than the last is delivered once, from its raw bits or else the corrected ones (R265, R266). Packets grown too old do not
leave (R298), and a credit that comes back is this port's own, or goes on along its tree where a forwarder has no members (R305). A comma that misses a third time
loses its lane (R276); SWAP, NARROW and their answers name blocks after which each direction changes by itself (R277), and a peer that went down
disables the port (R278).
Read by inference or chosen by the model: log entries 9, 10, 50, 51, 96, 100 and 122. -/
def Obligations.LinkBlocks : Prop :=
  ∀ (p : Port) (credits : List (BitVec 22 × Fin 17)) (cw : BitVec 5440) (s : State),
    let x := s.portSt p
    let got (l : List (Codeword × Nat)) : List (Nat × Codeword) := l.zipIdx.map (fun c => (c.2, c.1.1))
    let t := credits.foldl (fun u c => u.creditIn p c) s
    let z := t.portSt p
    let z0 := (z.age t.aged).1
    (t.portUp p = true → t.keySpent p = false →
      (∀ q l (b : Block), z.resend = q :: l → z.retained.find? (fun b => b.ctr == q) = some b →
        exec (.blockSend p credits) s = .next ((t.putBlock p b.replay (t.commaLanes p)).modPort p (fun y => { y with resend := l })))
      ∧ (z.resend = [] → 256 ≤ z.retained.length → exec (.blockSend p credits) s = .next
        ((t.modPort p (fun _ => { z with winFull := true })).resendBlock p (z.retained.map (·.ctr))))
      ∧ (z.resend = [] → z.retained.length < 256 → z.keyDue = true → exec (.blockSend p credits) s = .next t)
      ∧ (z.resend = [] → z.retained.length < 256 → z.keyDue = false → (z.nakDue = true → z.nakRun < 7 ∨ z.laneWaits = true) →
        ∃ (b : Block) (y : PortSt), exec (.blockSend p credits) s = .next
            ((((t.bump fRteErrAged (z.age t.aged).2).modPort p (fun _ => y)).putBlock p b.cws (t.commaLanes p)).bump (fLnkPortErrNaks p)
              (ofBool z.nakDue))
          ∧ b.ctr = z.txCtr ∧ b.key = z.txKeyAt z.txCtr ∧ b.cws.length = 16 ∧ nibbleCheck b.cws = blockCheck b.key b.ctr b.cws
          ∧ b.flits.length + b.xs.length ≤ 160 ∧ b.xs.length ≤ 16 ∧ (t.portState p = 2 → b.xs = [])
          ∧ (z.tq = [] → b.flits = z0.txq.take (160 - b.xs.length))
          ∧ y.retained = z.retained ++ [b] ∧ y.txCtr = z.txCtr + 1 ∧ y.xTx = z.xTx + b.xs.length ∧ y.nakDue = false
          ∧ y.nakRun = z.nakRun + ofBool z.nakDue ∧ y.keyBlocks = z.keyBlocks + 1)
      ∧ (z.resend = [] → z.retained.length < 256 → z.keyDue = false → z.nakDue = true → 7 ≤ z.nakRun → z.laneWaits = false →
        ∃ w : State, exec (.blockSend p credits) s = .next (w.portDown p 5 10)))
    ∧ (t.portState p = 3 → keyLimit ≤ z.keyBlocks → exec (.blockSend p credits) s = .next
        ((t.portDown p 5 11).log { code := 0x0903, kind := 6, unit := p, detail := leBytes 1 p }))
    ∧ (∀ c : BitVec 22 × Fin 17,
      (s.grp.trees.find? (fun g => g.key == c.1.toNat) = none →
        s.creditIn p c = s.modPort p (fun y => { y with credits := insertKey y.credits c.1.toNat (y.usedCredits c.1.toNat - c.2.val) }))
      ∧ (∀ g r, s.grp.trees.find? (fun g => g.key == c.1.toNat) = some g → g.forwards = true → g.across (g.edgeOn p) = some r →
        s.creditIn p c = s.emit (.credit r c.1.toNat c.2)))
    ∧ (∀ b : Block, b.replay.map (fun c => (c.hdr.getLsbD 15, c.slots)) = b.cws.map (fun c => (c.hdr.getLsbD 15, c.slots)))
    ∧ (∀ (cws : List (BitVec 5440)) l rpl nak ack, s.portUp p = true → cws.map decodeCodeword = l.map some → l.length = 16 →
      agreed (headersAt (got l) 0) = some (rpl, x.rxCtr % 2 ^ 14) → agreed (headersAt (got l) 1) = some (nak, ack) →
      (x.nakWait = false → nibbleCheck (l.map (·.1)) = blockCheck (x.rxKeyAt x.rxCtr) x.rxCtr (l.map (·.1)) →
        ∃ t, exec (.blockReceive p cws) s = .next t
          ∧ (t.portSt p).delivered = (unitFlits x.rxRest (plainFlits (x.rxKeyAt x.rxCtr) x.rxCtr (l.map (·.1)))).1
          ∧ (t.portSt p).rxCtr = x.rxCtr + 1 ∧ (t.portSt p).nakRun = 0 ∧ (t.portSt p).nakDue = x.nakDue
          ∧ (t.portSt p).retained = (x.takeAck ack nak).retained)
      ∧ (nibbleCheck (l.map (·.1)) ≠ blockCheck (x.rxKeyAt x.rxCtr) x.rxCtr (l.map (·.1)) → ∃ t, exec (.blockReceive p cws) s = .next t
          ∧ (t.portSt p).nakDue = true ∧ (t.portSt p).nakWait = true ∧ (t.portSt p).rxCtr = x.rxCtr
          ∧ (t.portSt p).delivered = x.delivered ∧ (t.portSt p).retained = (x.takeAck ack nak).retained))
    ∧ (∀ cws : List (BitVec 5440), s.portUp p = true → cws.length = 16 → x.uncorr = [] →
      let n := ((cws.map decodeCodeword).filter Option.isNone).length
      0 < n → n < 4 → ∃ t, exec (.blockReceive p cws) s = .next t
        ∧ (t.portSt p).nakDue = true ∧ (t.portSt p).nakWait = true ∧ (t.portSt p).rxCtr = x.rxCtr ∧ (t.portSt p).delivered = x.delivered)
    ∧ (s.portState p = 3 →
      let key := x.rxKeyAt x.rxCtr
      let flit (c : Codeword) : List Byte := c.slots.headD []
      let ctr (c : Codeword) : Nat := nearCtr 16 x.xRx (field (flit c) 44 2)
      let good (c : Codeword) : Bool := c.ex && expressOk key (ctr c) (flit c)
      let old (c : Codeword) : Bool := decide (2 ^ 15 ≤ (field (flit c) 44 2 + 2 ^ 16 - x.xRx % 2 ^ 16) % 2 ^ 16)
      let takes (c : Codeword) : State := if old c = true then s else s.modPort p (fun y => { y with
        xRx := ctr c + 1, delivered := [cipher key true (ctr c) 0 ((flit c).take 44)] })
      (good (rawCodeword cw) = true → exec (.expressFlit p cw) s = .next (takes (rawCodeword cw)))
      ∧ (good (rawCodeword cw) = false →
        (∀ c n, decodeCodeword cw = some (c, n) → good c = true → exec (.expressFlit p cw) s = .next (takes c))
        ∧ (∀ c n, decodeCodeword cw = some (c, n) → good c = false → exec (.expressFlit p cw) s = .next s)
        ∧ (decodeCodeword cw = none → exec (.expressFlit p cw) s = .next s)))
    ∧ (∀ obs : CommaObs, portHasLane p obs.lane = true →
      let t := s.modPort p (fun y => y.comma obs)
      let gone := x.locked.contains obs.lane.val && !(t.portSt p).locked.contains obs.lane.val
      let used := (t.lanesInUse p).contains obs.lane.val
      let all := (t.lanesInUse p).all (fun l => decide (2 ≤ (lookupKey (t.portSt p).misses l).getD 0))
      (s.portState p = 1 → exec (.comma p obs) s = .next (t.commaPhase p))
      ∧ (s.portUp p = true → gone = false → exec (.comma p obs) s = .next t)
      ∧ (s.portUp p = true → gone = true → used = true → all = false → exec (.comma p obs) s = .next (t.laneFailed p obs.lane))
      ∧ (s.portUp p = true → gone = true → used = true → all = true → exec (.comma p obs) s = .next (t.portDown p 5 11))
      ∧ (s.portUp p = true → gone = true → used = false → exec (.comma p obs) s = .next
          (((t.markBad (engineOf p) [obs.lane.val] true).showLanes p).showLanes (siblingOf p)))
      ∧ (∀ y : PortSt, commaHit obs.levels = false → lookupKey y.misses obs.lane.val = some 2 →
          (y.comma obs).locked.contains obs.lane.val = false))
    ∧ (∀ (lane : Fin 34) tg, commaHit (commaWord lane tg) = true ∧ commaOwn (commaWord lane tg) lane = true)
    ∧ (s.portUp p = true →
      (∀ (lane : Fin 16) (sub : Fin 34) (seq : BitVec 14), x.hasLane (p.val % 2 * 16 + lane.val) = true →
        let t := (s.markBad (engineOf p) [p.val % 2 * 16 + lane.val] false).showLanes p
        exec (.swap p lane sub seq) s = .next ((t.modPort p (fun y => { y with switches := y.switches ++
          [⟨none, p.val % 2 * 16 + lane.val, sub.val, t.nameBlock p, some (s.peerBlock p seq), false, false⟩] })).sendCtl p 0x02
          (leBytes 1 lane ++ leBytes 1 sub ++ leBytes 2 (t.nameBlock p % 2 ^ 14))))
      ∧ (∀ w : LaneSwitch, x.switches = [w] → w.narrow = none →
        let tx (y : PortSt) : PortSt := { y with lanes := swapLane y.lanes w.lane w.sub, txBlocks := 0 }
        let rx (y : PortSt) : PortSt := { y with rxLanes := swapLane y.rxLanes w.lane w.sub, rxBlocks := 0 }
        (w.lane < 32 → w.txReady x = true → w.rxReady x = true →
          let t := (s.modPort p (fun y => { (rx (tx y)) with switches := [] })).modPort p (fun y => { y with
            uncorr := y.uncorr.filter (fun u => u.1 != w.lane) })
          exec (.swapApply p) s = .next (((((t.showSpare p (s.relLane p w.lane) w.sub).showLanes p).showLanes (siblingOf p)).bump
            (fLnkPortErrChanges p) 1).log { code := 0x0402, kind := 7, unit := laneUnit (engineOf p) w.lane, action := 4
                                            detail := leBytes 1 (s.relLane p w.lane) ++ leBytes 1 w.sub }))
        ∧ (w.txReady x = true → w.rxReady x = false → w.rxDone = false → exec (.swapApply p) s = .next
          (s.modPort p (fun y => { (tx y) with switches := [{ w with txDone := true }] })))
        ∧ (w.txReady x = false → w.rxReady x = true → w.txDone = false → exec (.swapApply p) s = .next
          (s.modPort p (fun y => { (rx y) with switches := [{ w with rxDone := true }] })))
        ∧ (w.txReady x = false → w.rxReady x = false → exec (.swapApply p) s = .next s))
      ∧ (∀ w seq, w.toNat < x.txWidth → exec (.narrow p w seq) s = .next ((s.modPort p (fun y => { y with
          switches := y.switches ++ [⟨some w.toNat, 0, 0, s.nameBlock p, some (s.peerBlock p seq), false, false⟩] })).sendCtl p 0x04
          (leBytes 1 w.toNat ++ [0x00#8] ++ leBytes 2 (s.nameBlock p % 2 ^ 14))))
      ∧ (∀ w seq, x.txWidth ≤ w.toNat → exec (.narrow p w seq) s = .next s)
      ∧ (∀ reason, exec (.disable p reason) s = .next (s.portDown p 4 8)))
    ∧ (∀ w seq, exec (.narrowAck p w seq) s = .next (s.modPort p (fun y => { y with switches := y.switches.map (fun z =>
        if z.narrow = some w.toNat ∧ z.rxAt = none then { z with rxAt := some (s.peerBlock p seq) } else z) })))
    ∧ (∀ lane (sub : Fin 34) (seq : BitVec 14), exec (.swapAck p lane sub seq) s = .next (s.modPort p (fun y => { y with
        switches := y.switches.map (fun w =>
          if w.narrow = none ∧ w.sub = sub.val ∧ w.rxAt = none then { w with rxAt := some (s.peerBlock p seq) } else w) })))
    ∧ (s.mgmt.linksDue = true → exec .linksRecordDue s = .next
        (({ s with mgmt := { s.mgmt with linksDue := false, linksAt := some s.time } }).mgmtQueue ⟨5, s.linksBody, false, false, none⟩))

/-- Training (R267–R282): each tap request is applied once, within its limits, and answered; a lane is accepted below 1,000 errors; LANE_DONE,
IDENT and WIDTH move both sides on, a round trip beyond reach or a width below the least of either side does not; a retrain after CABLING is
compared with the plan however it ends (R282); an accepted spare counts for both ports of its engine (R271); ABORT starts over; a message
whose CRC fails does nothing (R268); a state whose time runs out fails with its reason or goes on with four lanes; FAILED ports train again; a
request of the host retrains a port, waits for a quiesce, or ends with its code.
Read by inference or chosen by the model: log entries 52 and 97. -/
def Obligations.LinkTraining : Prop :=
  ∀ (p : Port) (lane : Fin 34) (s : State),
    let x := s.portSt p
    (s.portState p = 1 →
      (∀ (r : TapReq), portHasLane p lane = true → lookupKey x.tapNum lane ≠ some r.num.toNat →
        let t := applyTaps ((lookupKey x.taps lane).getD ⟨0, -6, 52, -6⟩) r
        exec (.tapReq p lane r (msgCrc (tapReqMsg r))) s = .next ((s.modPort p (fun y => { y with
          taps := insertKey y.taps lane t.1, tapNum := insertKey y.tapNum lane r.num.toNat })).sendTrain p (some lane.val)
          (tapStatMsg t.1 r.num.toNat t.2)))
      ∧ (∀ (r : TapReq) crc, crc ≠ msgCrc (tapReqMsg r) ∨ lookupKey x.tapNum lane = some r.num.toNat → exec (.tapReq p lane r crc) s = .next s)
      ∧ (∀ (num : Byte) t (res : BitVec 8), portHasLane p lane = true → lookupKey x.reqNum lane = some num.toNat →
        exec (.tapStat p lane num t res (msgCrc (tapStatMsg t num.toNat res.toNat))) s = .next
          (s.modPort p (fun y => { y with peerTaps := insertKey y.peerTaps lane t })))
      ∧ (s.fld (fLnkPortStatePhase p) = 2 → portHasLane p lane = true → s.laneBad (engineOf p) lane = false → x.done = false →
        let t := s.modPort p (fun y => if y.accepted.contains lane.val then y else { y with accepted := lane.val :: y.accepted })
        let closes (u : State) (q : Nat) : State := if u.portState q = 1 ∧ u.fld (fLnkPortStatePhase q) = 2 ∧ (u.portSt q).done = false
          ∧ u.allLanesIn q (·.accepted) = true then u.sendLaneDone q else u
        (∀ errors, errors < 1000 → lane.val < 32 → exec (.prbsCount p lane errors) s = .next (closes t p))
        ∧ (∀ errors, errors < 1000 → 32 ≤ lane.val → exec (.prbsCount p lane errors) s = .next (closes (closes t p) (siblingOf p)))
        ∧ (∀ errors, 1000 ≤ errors → exec (.prbsCount p lane errors) s = .next (s.askTaps p lane)))
      ∧ (∀ lanes : BitVec 34, s.fld (fLnkPortStatePhase p) = 2 → exec (.laneDone p lanes (msgCrc (laneDoneMsg lanes.toNat))) s = .next
          ((s.modPort p (fun y => { y with peerDone := some lanes.toNat })).equalizeEnd p))
      ∧ (∀ (node : Node) (port : Port) (token echo : BitVec 12) (rtt : BitVec 16), s.fld (fLnkPortStatePhase p) = 3 →
        let crc := msgCrc (identMsg node.toNat port token.toNat echo.toNat)
        let t := (s.modPort p (fun y => { y with
          identIn := true, peerToken := token.toNat, echoed := y.echoed || decide (echo.toNat = x.token) })).setFlds
          [(fLnkPortCableSeenNode p, node.toNat), (fLnkPortCableSeenPort p, port.val)]
        let u := t.sendTrain p none (t.ownIdent p)
        (echo.toNat ≠ x.token → exec (.ident p node port token echo rtt crc) s = .next u)
        ∧ (echo.toNat = x.token → rtt.toNat ≤ 5600 → exec (.ident p node port token echo rtt crc) s = .next
            (((u.setFld (fLnkPortStateRtt p) rtt.toNat).setPhase p 4).offerWidth p))
        ∧ (echo.toNat = x.token → 5600 < rtt.toNat → exec (.ident p node port token echo rtt crc) s = .next
            ((u.setFld (fLnkPortStateRtt p) rtt.toNat).trainFail p 5)))
      ∧ (∀ (w wmin : BitVec 5) (bad : BitVec 34), s.fld (fLnkPortStatePhase p) = 4 → s.pastEqualize (siblingOf p) = true →
        let crc := msgCrc (widthMsg w.toNat wmin.toNat bad.toNat)
        let t := s.modPort p (fun y => { y with minPeer := wmin.toNat })
        let mine := widthOf (s.workingList p).length
        let own := s.fld (fLnkPortStateWidthMin p)
        (w.toNat = mine → bad.toNat = s.badMap (engineOf p) →
          (own ≤ mine → wmin.toNat ≤ mine → exec (.width p w wmin bad crc) s = .next (t.portPlain p))
          ∧ (s.stepDone 8 = false →
            (mine < own → exec (.width p w wmin bad crc) s = .next (t.portDown p 4 6))
            ∧ (own ≤ mine → mine < wmin.toNat → exec (.width p w wmin bad crc) s = .next (t.portDown p 4 8)))
          ∧ (s.stepDone 8 = true → mine < own ∨ mine < wmin.toNat →
            ((t.checkCable p).portState p ≠ 1 → exec (.width p w wmin bad crc) s = .next (t.checkCable p))
            ∧ ((t.checkCable p).portState p = 1 → exec (.width p w wmin bad crc) s = .next
              ((t.checkCable p).portDown p 4 (if mine < own then 6 else 8)))))
        ∧ (w.toNat ≠ mine ∨ bad.toNat ≠ s.badMap (engineOf p) → exec (.width p w wmin bad crc) s = .next t))
      ∧ (∀ reason : Byte, exec (.abort p reason (msgCrc (abortMsg reason.toNat))) s = .next (s.startTraining p x.retried))
      ∧ (∀ msg rtt, bitsOf (BitVec.toNat msg) 63 60 = 6 →
        exec (.trainingSuperframe p lane msg (msgCrc msg) rtt) s = .next (s.startTraining p x.retried))
      ∧ (∀ msg crc rtt, crc ≠ msgCrc msg → exec (.trainingSuperframe p lane msg crc rtt) s = .next s)
      ∧ (s.fld (fLnkPortStatePhase p) = 0 → exec (.trainingTimeout p) s = .next (s.trainFail p 1))
      ∧ (s.fld (fLnkPortStatePhase p) = 1 → (x.locked.filter (dataLanes p).contains).length < 4 →
        exec (.trainingTimeout p) s = .next (s.trainFail p 2))
      ∧ (s.fld (fLnkPortStatePhase p) = 1 → 4 ≤ (x.locked.filter (dataLanes p).contains).length →
        exec (.trainingTimeout p) s = .next (s.lockEnd p)))
    ∧ (s.portState p = 5 → s.mayTrain p = true → exec (.retrainTimer p) s = .next (s.startTraining p true)
      ∧ (∀ msg crc rtt, exec (.trainingSuperframe p lane msg crc rtt) s = .next (s.startTraining p true)))
    ∧ (∀ (oe : Fin 16) (w0 h0 w1 h1 : Byte), (s.portUp (2 * oe.val) || s.portUp (2 * oe.val + 1)) = true → s.spareIdle oe 32 = true →
      s.spareIdle oe 33 = true → exec (.eyeMarginSweep oe w0 h0 w1 h1) s = .next ((s.setFlds [(fLnkOeStatS0Width oe, w0.toNat),
        (fLnkOeStatS0Height oe, h0.toNat)]).setFlds [(fLnkOeStatS1Width oe, w1.toNat), (fLnkOeStatS1Height oe, h1.toNat)]))
    ∧ (∀ v : Word, Taken s rLnkCtl →
      let q := getBits v fLnkCtlPort
      let t := s.writeUnder takesAll rLnkCtl (putBits v fLnkCtlGo 1)
      (s.fld fLnkCtlBusy = 1 → exec (.portRetrain v) s = .next t)
      ∧ (s.fld fLnkCtlBusy = 0 →
        (s.portState q = 5 → s.mayTrain q = true → exec (.portRetrain v) s = .next (t.askRetrain q))
        ∧ (s.portUp q = true → s.mayTrain q = true → s.quiesced = true → exec (.portRetrain v) s = .next (t.askRetrain q))
        ∧ (s.portUp q = true → s.mayTrain q = true → s.quiesced = false → getBits v fLnkCtlDefer = 1 →
          exec (.portRetrain v) s = .next (({ t with lnk := { t.lnk with waiting := some q } }).setFld fLnkCtlBusy 1))
        ∧ (s.portUp q = true → s.mayTrain q = true → s.quiesced = false → getBits v fLnkCtlDefer = 0 →
          exec (.portRetrain v) s = .next (t.lnkStatus 2))
        ∧ (s.portState q = 1 → exec (.portRetrain v) s = .next (t.lnkStatus 0))
        ∧ (s.portState q = 0 → exec (.portRetrain v) s = .next (t.lnkStatus 4))))
    ∧ (∀ q, s.lnk.waiting = some q →
      let t := { s with lnk := { s.lnk with waiting := none } }
      (s.quiesced = true → s.portState q ≠ 1 → s.mayTrain q = true → exec .deferredRetrainStart s = .next (t.askRetrain q))
      ∧ (s.quiesced = false → exec .deferredRetrainStart s = .next s))

/-- Attestation and link keys (R440–R445). Each message in its turn joins the transcript, moves the exchange on and the next leaves; a node or port
other than IDENT showed, a certificate that fails a check, in the order of the checks, a bad signature or a bad MAC refuses with its reason; the
exchange that takes more than 1 s is refused; a refused port takes no HELLO until it has retrained (R442). Each direction is sealed under its new key at the block that its KEY_SWITCH named; a rekey starts at
the lower node, and a key that is spent fails the port.
Read by inference or chosen by the model: log entries 53, 106, 107 and 118. -/
def Obligations.LinksAttest : Prop :=
  ∀ (p : Port) (half : Fin 2) (bytes : List Byte) (s : State),
    let x := s.portSt p
    let a := x.att
    let halves (u : State) (b : List Byte) : State :=
      (u.sendCtl p 0x1A (halfParams 0 b)).sendCtl p 0x1A (halfParams 1 (b.drop 48))
    (∀ (node : Node) (port : Port), s.portState p = 2 → a.refused = true → exec (.hello p bytes node port) s = .next s)
    ∧ (∀ (node : Node) (port : Port), s.portState p = 2 → a.helloIn = false → a.refused = false →
      let t := (s.modAtt p (fun a => { a with helloIn := true, since := some (a.since.getD s.time) })).noteTheirs p 0x10
        (helloParams bytes node.toNat port)
      let same := node.toNat = s.fld (fLnkPortCableSeenNode p) ∧ port.val = s.fld (fLnkPortCableSeenPort p)
      (same → a.begun = true → exec (.hello p bytes node port) s = .next (t.sendCert p))
      ∧ (same → a.begun = false → s.stepDone 9 = false → exec (.hello p bytes node port) s = .next t)
      ∧ (¬same → exec (.hello p bytes node port) s = .next (t.sendRefuse p 5)))
    ∧ (s.attesting p = true →
      (∀ off : BitVec 16, a.helloIn = true → a.certOk = false →
        let o := off.toNat
        let frag := bytes.take 56
        let b := a.peerCert.take o ++ List.replicate (o - a.peerCert.length) 0#8 ++ frag ++ a.peerCert.drop (o + frag.length)
        let t := (s.modAtt p (fun a => { a with peerCert := b })).noteTheirs p 0x11 (certParams o bytes)
        let f := (t.modAtt p (fun a => { a with certOk := true })).takeScalar
        (certWhole b = false → exec (.cert p off bytes) s = .next t)
        ∧ (certWhole b = true → s.certReason b ≠ 0 → exec (.cert p off bytes) s = .next (t.sendRefuse p (s.certReason b)))
        ∧ (certWhole b = true → s.certReason b = 0 → 1 ≤ f.1 ∧ f.1 < p384n ∧ exec (.cert p off bytes) s = .next
            ((f.2.modAtt p (fun a => { a with secret := f.1 })).sendHalves p 0x12 (publicKey f.1))))
      ∧ (∀ c, let m := Config.certMeasure8 c
        (Config.certChainOk Config.deviceCaKeyHash c = false → s.certReason c = 1)
        ∧ (Config.certChainOk Config.deviceCaKeyHash c = true →
          (field m 6 1 ≠ 0 ∨ field m 7 1 ≠ 0 → s.certReason c = 2)
          ∧ (field m 6 1 = 0 → field m 7 1 = 0 →
            (field m 0 2 < s.flash.svnFloor → s.certReason c = 3)
            ∧ (s.flash.svnFloor ≤ field m 0 2 →
              ((Config.certOwner c).toNat ≠ s.fld fSecOwnerKeyId → s.certReason c = 4)
              ∧ ((Config.certOwner c).toNat = s.fld fSecOwnerKeyId → s.certReason c = 0)))))
      ∧ (a.certOk = true → a.shares ≠ 3 →
        let n := a.shares ||| 2 ^ half.val
        let t := (s.modAtt p (fun b => { b with shares := n, shareIn := insertKey a.shareIn half bytes })).noteTheirs p 0x12 (halfParams half bytes)
        let k := t.firstKeys p
        (n ≠ 3 → exec (.share p half bytes) s = .next t)
        ∧ (n = 3 → exec (.share p half bytes) s = .next (k.sendHalves p 0x13 (k.aliasSign (k.transcript p 0x12)))))
      ∧ (a.shares = 3 → a.proofs ≠ 3 →
        let n := a.proofs ||| 2 ^ half.val
        let t := (s.modAtt p (fun b => { b with proofs := n, proofIn := insertKey a.proofIn half bytes })).noteTheirs p 0x13 (halfParams half bytes)
        let ok := ecdsaOk (Config.certAliasKey a.peerCert) (t.transcript p 0x12) (joinHalves (insertKey a.proofIn half.val bytes))
        (n ≠ 3 → exec (.proof p half bytes) s = .next t)
        ∧ (n = 3 → ok = false → exec (.proof p half bytes) s = .next (t.sendRefuse p 6))
        ∧ (n = 3 → ok = true → exec (.proof p half bytes) s = .next ((t.modAtt p (fun a => { a with finishOut := true })).sendAttest p 0x14
            (finishParams (hmac384 a.finKey (t.transcript p 0x13))))))
      ∧ (a.finishOut = true → a.finishIn = false →
        (bytes = hmac384 a.finKey (s.transcript p 0x13) → exec (.finish p bytes) s = .next
          ((s.modAtt p (fun a => { a with finishIn := true })).sendKeySwitch p false))
        ∧ (bytes ≠ hmac384 a.finKey (s.transcript p 0x13) → exec (.finish p bytes) s = .next (s.sendRefuse p 6)))
      ∧ (a.helloIn = true → exec (.attestTimeout p) s = .next (s.sendRefuse p 7))
      ∧ (a.helloIn = false → exec (.attestTimeout p) s = .next s))
    ∧ (∀ reason, s.portState p = 2 → exec (.refuse p reason) s = .next (s.refusePort p reason))
    ∧ (∀ (seq : BitVec 14) (rekey : Bool), s.awaitsSwitch p rekey = false → exec (.keySwitch p seq rekey) s = .next s)
    ∧ (∀ rekey : Bool, s.awaitsSwitch p rekey = true ↔ (rekey = true ∧ s.portState p = 3 ∧ x.rxNext ≠ [])
        ∨ (rekey = false ∧ s.attesting p = true ∧ a.finishOut = true ∧ a.finishIn = true))
    ∧ (∀ (seq : BitVec 14) (rekey : Bool), s.awaitsSwitch p rekey = true → exec (.keySwitch p seq rekey) s = .next
        ((s.modAtt p (fun a => { a with rxNamed := some (s.peerBlock p seq) })).sendCtl p 0x19 (leBytes 2 seq.toNat ++ leBytes 1 (ofBool rekey))))
    ∧ (∀ n (seq : BitVec 14) rekey, a.txNamed = some n → n % 2 ^ 14 = seq.toNat → exec (.keySwitchAck p seq rekey) s = .next
        (s.modAtt p (fun a => { a with acked := true })))
    ∧ (s.portUp p = true →
      let tx := s.modPort p (fun x => { x with
        txKey := x.txNext, txNext := [], keyBlocks := 0, att := { x.att with txNamed := none, txSealed := true } })
      let rx (n : Nat) : State := s.modPort p (fun x => { x with
        rxOld := x.rxKey, rxKey := x.rxNext, rxNext := [], rxFrom := n, att := { x.att with rxNamed := none, rxSealed := true } })
      let over_ (u : State) : State := u.modAtt p (fun a => { a with rekey := false, rekeyShares := 0, rekeyIn := [] })
      (∀ n, a.txNamed = some n →
        (x.txCtr < n → exec (.keySwitchBlock p true) s = .next s)
        ∧ (n ≤ x.txCtr → a.rxNamed.isSome = true → s.portState p = 3 ∨ a.rxSealed = false → exec (.keySwitchBlock p true) s = .next tx)
        ∧ (n ≤ x.txCtr → a.rxNamed = none → s.portState p = 3 ∨ a.rxSealed = false → exec (.keySwitchBlock p true) s = .next (over_ tx))
        ∧ (n ≤ x.txCtr → a.rxNamed = none → s.portState p = 2 → a.rxSealed = true → exec (.keySwitchBlock p true) s = .next
          (((((over_ tx).modAtt p (fun a => { a with begun := false })).setSecPort p 1).setPortState p 3 0).admitPort p)))
      ∧ (∀ n, a.rxNamed = some n →
        (x.rxCtr < n → exec (.keySwitchBlock p false) s = .next s)
        ∧ (n ≤ x.rxCtr → a.txNamed.isSome = true → s.portState p = 3 ∨ a.txSealed = false → exec (.keySwitchBlock p false) s = .next (rx n))
        ∧ (n ≤ x.rxCtr → a.txNamed = none → s.portState p = 2 → a.txSealed = true → exec (.keySwitchBlock p false) s = .next
          (((((over_ (rx n)).modAtt p (fun a => { a with begun := false })).setSecPort p 1).setPortState p 3 0).admitPort p))))
    ∧ (s.portState p = 3 →
      (s.keySpent p = true → exec (.rekey p half bytes) s = .next (s.keyStop p) ∧ exec (.rekeyDue p) s = .next (s.keyStop p)
        ∧ exec (.rekeyRetry p) s = .next (s.keyStop p))
      ∧ (s.keySpent p = false → a.rekeyShares ≠ 3 →
        let n := a.rekeyShares ||| 2 ^ half.val
        let t := s.modAtt p (fun b => { b with rekeyShares := n, rekeyIn := insertKey a.rekeyIn half bytes })
        (s.lowerNode p = true → a.rekey = false → exec (.rekey p half bytes) s = .next s)
        ∧ (s.lowerNode p = false ∨ a.rekey = true → n ≠ 3 → exec (.rekey p half bytes) s = .next t)
        ∧ (s.lowerNode p = true → a.rekey = true → n = 3 → exec (.rekey p half bytes) s = .next ((t.nextKeys p).sendKeySwitch p true))
        ∧ (s.lowerNode p = false → n = 3 → exec (.rekey p half bytes) s = .next (((t.sendRekey p).nextKeys p).sendKeySwitch p true)))
      ∧ (s.keySpent p = false → s.lowerNode p = true → a.rekey = false →
        let f := (s.modAtt p (fun a => { a with rekeyShares := 0, rekeyIn := [] })).takeScalar
        exec (.rekeyDue p) s = .next (halves (f.2.modAtt p (fun a => { a with rekey := true, rekeySecret := f.1 })) (publicKey f.1)))
      ∧ (s.keySpent p = false → s.lowerNode p = true → a.rekey = true → a.rekeyShares ≠ 3 → exec (.rekeyRetry p) s = .next
          (halves s (publicKey a.rekeySecret)))
      ∧ (s.keySpent p = false → a.rekeyShares = 3 ∨ s.lowerNode p = false → exec (.rekeyRetry p) s = .next s)
      ∧ (s.keySpent p = false → s.lowerNode p = false → exec (.rekeyDue p) s = .next s))

/-! ### Power and cooling (R86, R336–R371) -/

/-- Feeds and rails (R336–R348, R508). Without VAUX the mate inputs only are followed. A feed that loses its mate or its range is invalid and its stage OFF, one whose stage faults is FAULT; in
standby mode the load goes over to the COLD stage, a COLD one that takes over before the load was on becomes ACTIVE
(R337); in share mode the other carries on, and where no stage can the last gasp is sent and the
module resets. A feed that is valid again precharges, and takes its place. Lost phases lower a rail's limit; a rail fault is fatal but for a core
rail in a droop stretch; each response of a rail follows its averages and lasts until they have stayed low, VOPT's switches off the engine that draws more than 20 A; a
droop stretches its cluster's clock
until it ends.
Read by inference or chosen by the model: log entry 57. -/
def Obligations.FeedsAndRails : Prop :=
  ∀ (f : Feed) (tenths : BitVec 10) (r : Fin 13) (o : RailObs) (n : Cluster) (s : State),
    (∀ mate, (s.setMate f mate).mated f = mate ∧ (s.setMate f mate).mated (feedOther f) = s.mated (feedOther f)
      ∧ (s.pins.vaux = true → (s.setMate f mate).fld (feedMateF f) = ofBool mate) ∧ (s.pins.vaux = false → (s.setMate f mate).regs = s.regs))
    ∧ exec (.earlyBreakAssert f) s = .next (s.setMate f true)
    ∧ (s.pins.vaux = true → exec (.earlyBreakDeassert f) s = .next (((s.setMate f false).setGone f true).feedInvalid f false))
    ∧ (s.pins.vaux = false → exec (.earlyBreakDeassert f) s = .next (s.setMate f false)
      ∧ exec (.feedVoltageFault f tenths) s = .next s ∧ exec (.feedValid f tenths) s = .next s)
    ∧ (s.pins.vaux = true →
      let seen := s.setVolts f tenths.toNat;
      seen.fld (feedVoltsF f) = tenths.toNat
      ∧ (tenths.toNat < 385 ∨ 615 < tenths.toNat → exec (.feedVoltageFault f tenths) s = .next ((seen.setGone f true).feedInvalid f false))
      ∧ (385 ≤ tenths.toNat → tenths.toNat ≤ 615 → exec (.feedVoltageFault f tenths) s = .next seen)
      ∧ (400 ≤ tenths.toNat → tenths.toNat ≤ 600 → s.mated f = true → s.feedValidAt f = none → s.fld (feedStateF f) ≠ fsFault →
        let valid := (seen.setFeedValid f (some s.time)).setFld (feedStateF f) (if s.drawing then fsPrecharge else fsOff)
        exec (.feedValid f tenths) s = .next ({ valid with pwr := { valid.pwr with holdFeeds := false } }).pwrShow))
    ∧ (s.fld (feedStateF f) ≠ fsOff → s.fld (feedStateF f) ≠ fsFault → exec (.stageFault f) s = .next ((s.setGone f false).feedInvalid f true))
    ∧ (let g := feedOther f
      let off := (s.setFeedValid f none).setFlds [(feedStateF f, fsOff), (feedAmpsF f, 0)]
      let noted := ({ off with pwr := { off.pwr with charged := s.pwr.charged.filter (· != feedNum f) } }).log
        { code := 0x0601, kind := 10, unit := feedNum f }
      (s.feedValidAt f).isSome = true → s.fld (feedStateF f) ≠ fsFault →
        (s.drawing = false → s.feedInvalid f false = noted)
        ∧ (s.drawing = true →
          ((s.feedValidAt g).isSome = false → s.feedInvalid f false = noted.powerLoss)
          ∧ ((s.feedValidAt g).isSome = true →
            (s.fld fPwrFeedMode = 1 → s.fld fPwrFeedPrimary = feedNum f → s.fld (feedStateF f) = fsActive → s.feedInvalid f false =
              (((noted.setFlds [(feedStateF g, fsActive), (fPwrFeedPrimary, feedNum g)]).bump fPwrFeedSwitches 1).stretchAll))
            ∧ (s.fld fPwrFeedMode = 1 → s.fld fPwrFeedPrimary = feedNum f → s.fld (feedStateF f) ≠ fsActive →
              (s.fld (feedStateF g) = fsCold →
                s.feedInvalid f false = noted.setFlds [(fPwrFeedPrimary, feedNum g), (feedStateF g, fsActive)])
              ∧ (s.fld (feedStateF g) ≠ fsCold → s.feedInvalid f false = noted.setFld fPwrFeedPrimary (feedNum g)))
            ∧ (s.fld fPwrFeedMode = 1 → s.fld fPwrFeedPrimary = feedNum g → s.feedInvalid f false = noted)
            ∧ (s.fld fPwrFeedMode = 0 → s.fld (feedStateF f) = fsActive → s.feedInvalid f false = noted.setFld (feedStateF g) fsActive))))
    ∧ (s.fld (feedStateF f) = fsPrecharge →
      let other := s.fld (feedStateF (feedOther f));
      (s.fld fPwrFeedMode = 1 → s.fld fPwrFeedPrimary = feedNum f → other ≠ fsActive →
        exec (.prechargeDone f) s = .next (s.setFld (feedStateF f) fsActive))
      ∧ (s.fld fPwrFeedMode = 1 → other = fsActive → exec (.prechargeDone f) s = .next (s.setFld (feedStateF f) fsCold))
      ∧ (s.fld fPwrFeedMode = 0 → s.railsUp = false → exec (.prechargeDone f) s = .next (s.setFld (feedStateF f) fsActive))
      ∧ (s.fld fPwrFeedMode = 0 → s.railsUp = true →
        let others := s.pwr.charged.filter (· != feedNum f)
        exec (.prechargeDone f) s = .next { s with pwr := { s.pwr with charged := others ++ [feedNum f] } }
        ∧ ((s.feedValidAt f).isSome = true → s.pwr.charged.contains (feedNum f) = true →
          exec (.shareReturn f) s = .next (({ s with pwr := { s.pwr with charged := others } }).setFld (feedStateF f) fsActive))
        ∧ (s.pwr.charged.contains (feedNum f) = false → exec (.shareReturn f) s = .next s)))
    ∧ (s.railsUp = true → s.fld fPwrFeedMode = 1 → s.fld fPwrFeedPrimary = 1 → s.fld fPwrFeedAState = fsCold → s.pwr.validA.isSome = true →
      s.pwr.validB.isSome = true → exec .revertTimer s = .next
        (((s.switchTo .A).setFld fPwrFeedBState fsCold).log { code := 0x0601, kind := 10, unit := feedNum .A }))
    ∧ (s.drawing = true →
      let gasp := s.sendLastGasp
      exec .powerLoss s = .next (({ gasp with pwr := { gasp.pwr with holdFeeds := true } }).fatalModule { code := 0x0606 } caFatal))
    ∧ (s.fld (fPwrRailPhasesOk r) ≠ 0 →
      let ok := s.fld (fPwrRailPhasesOk r) - 1
      let l := railFull r
      exec (.phaseLoss r) s = .next ((s.setFlds [(fPwrRailPhasesOk r, ok),
        (fPwrRailLimit r, l.1 - (s.fld (fPwrRailPhases r) - ok - l.2.1) * l.2.2)]).log { code := 0x0602, kind := 9, unit := r }))
    ∧ (let droop := r.val < 4 ∧ ∃ n ∈ s.pwr.droops, n / 8 = r.val
      (s.drawing = true ∨ r.val = 12 → ¬droop →
        exec (.railFault r) s = .next ((s.setFld (fPwrRailFault r) 1).fatalModule { code := 0x0603, kind := 9, unit := r } caFatal))
      ∧ (droop → exec (.railFault r) s = .next s))
    ∧ (let lim := s.fld (fPwrRailLimit o.rail)
      let seen := s.setFlds [(fPwrRailAmps o.rail, min 2047 o.avg2us), (fPwrRailMv o.rail, o.mv.toNat)]
      let now := (lookupKey s.pwr.rails o.rail).getD 0
      let d := o.rail.val % 4
      let full := ofBool (decide (lim ≤ o.avg2us))
      let want := full + 2 * full * ofBool (decide (2000 ≤ o.heldNs)) + 4 * ofBool (decide (120 * lim ≤ o.avg200ns * 100))
      let new := want - (want &&& now)
      let kept := seen.setRail o.rail (now ||| want)
      (want ≠ 0 → o.rail.val < 8 → exec (.railSample o) s = .next
        ((kept.bump (fPwrDieStretches d) (ofBool (bitOf new 0) + ofBool (bitOf new 2))).bump (fPwrDieThrottles d) (ofBool (bitOf new 1))))
      ∧ (want ≠ 0 → 8 ≤ o.rail.val → o.rail.val < 11 → exec (.railSample o) s = .next kept)
      ∧ (want ≠ 0 → o.rail.val = 11 → (∀ e < 16, 20 < o.engines.getD e 0 → e ∈ s.lnk.off) → exec (.railSample o) s = .next kept)
      ∧ (∀ e < 16, want ≠ 0 → o.rail.val = 11 → s.lnk.off.contains e = false → 20 < o.engines.getD e 0 →
        (∀ g < 16, g ≠ e → o.engines.getD g 0 ≤ 20) → exec (.railSample o) s = .next (kept.engineOff e))
      ∧ (want ≠ 0 → o.rail.val = 12 → exec (.railSample o) s = .next
        ((kept.setFld (fPwrRailFault 12) 1).fatalModule { code := 0x0603, kind := 9, unit := 12 } caFatal))
      ∧ (want = 0 → o.avg2us * 100 < 90 * lim → 10000 ≤ o.below90Ns → exec (.railSample o) s = .next (seen.setRail o.rail 0))
      ∧ (want = 0 → 90 * lim ≤ o.avg2us * 100 ∨ o.below90Ns < 10000 → exec (.railSample o) s = .next seen))
    ∧ (s.pwr.droops.contains n.val = false → exec (.droop n) s = .next
        (({ s with pwr := { s.pwr with droops := s.pwr.droops ++ [n.val] } }).bump (fPwrDieStretches (n.val / 8)) 1))
    ∧ exec (.droopRelease n) s = .next { s with pwr := { s.pwr with droops := s.pwr.droops.filter (· != n.val) } }

/-- Frequencies, caps, pacts and orders (R86, R352–R358, R368–R371). Each 100 µs every die's sustainable frequency and what limits it are
computed; a draw above the cap throttles every die. A bind makes a pact ACTIVE, or says why not; at its epoch a member's offer goes up the
tree, the result comes down in time, and at the switch bound dies take it or miss it. The host's order, its cap and the end of a notice take
effect at once, and only what changed takes effect; budgets are clamped.
Read by inference or chosen by the model: log entries 56, 58, 59, 60 and 108. -/
def Obligations.PowerControl : Prop :=
  ∀ (p : Part) (g : Grp) (k v : Word) (u : CollIn) (o : FreqObs) (watts : BitVec 16) (draws : List (BitVec 16)) (aA aB : Byte) (s : State),
    (s.stepDone 3 = true → s.pwr.urgent.contains o.die.val = false →
      let u := { (s.setFld (fPwrDieFsus o.die) (s.sustain o).1) with
        pwr := { s.pwr with terms := insertKey s.pwr.terms o.die.val (s.sustain o).2 } }
      (s.pwr.pactHeld.contains o.die.val = true → s.fld (fPwrDieFjob o.die) < (s.sustain o).1 →
        exec (.freqCompute [o]) s = .next (u.setFld (fPwrDieLimit o.die) 6))
      ∧ (s.pwr.pactHeld.contains o.die.val = false ∨ (s.sustain o).1 ≤ s.fld (fPwrDieFjob o.die) →
        exec (.freqCompute [o]) s = .next (u.setFld (fPwrDieLimit o.die) (s.sustain o).2)))
    ∧ (800 ≤ (s.sustain o).1 ∧ (s.sustain o).1 % 25 = 0 ∧ (s.sustain o).2 ≤ 5
      ∧ ∀ c, s.img.cfg = some c → (s.sustain o).1 ≤ max 800 (c.maxFreq - 100 * s.derated))
    ∧ (let seen := s.setFlds ([(fPwrInputPower, watts.toNat), (fPwrFeedAAmps, aA.toNat), (fPwrFeedBAmps, aB.toNat)]
        ++ (draws.take 4).zipIdx.map (fun x => (fPwrPartDraw x.2, x.1.toNat)))
      (watts.toNat ≤ s.fld fPwrInputCap → exec (.capCheck watts draws aA aB) s = .next seen)
      ∧ (s.railsUp = true → s.fld fPwrInputCap < watts.toNat → exec (.capCheck watts draws aA aB) s = .next
          (((List.range 4).filter (fun d => !s.pwr.capThrottle.contains d)).foldl (fun t d => t.bump (fPwrDieThrottles d) 1)
            { seen with pwr := { seen.pwr with capThrottle := List.range 4 } })))
    ∧ (Taken s (rPwrPart p) →
      let b := s.clampBudget p (getBits v (fPwrPartBudget p))
      let gn := getBits v (fPwrPartGroup p);
      (getBits v (fPwrPartEnable p) = 1 → (s.pactBound p = true → s.fld (fPwrPartGroup p) ≠ gn) →
        (∃ t, exec (.pactBind p v) s = .next t ∧ t.fld (fPwrPartBudget p) = b ∧ t.fld (fPwrPartGroup p) = gn
          ∧ t.fld (fPwrPartPactState p) = s.bindState p gn ∧ t.fld (fPwrPartEnable p) = ofBool (s.bindState p gn == paActive))
        ∧ (∀ q : Part, s.pactBound q = true → s.fld (fPwrPartGroup q) ≠ gn → (∃ d ∈ s.diesOf q, d ∈ s.diesOf p) → s.bindState p gn = paConflict))
      ∧ (getBits v (fPwrPartEnable p) = 0 →
        ∃ t, exec (.budgetWrite p v) s = .next t ∧ t.fld (fPwrPartBudget p) = b ∧ t.fld (fPwrPartPactState p) = 0
          ∧ (b < s.fld (fPwrPartBudget p) → b < s.fld (fPwrPartDraw p) → ∀ d ∈ s.diesOf p, d ∈ t.pwr.urgent)))
    ∧ (s.pactGroups = [g.val] →
      let offer := s.pactOffer g
      let t := { s with pwr := { s.pwr with pacts := s.pwr.pacts.filter (fun (y : Pact) => y.group != g.val) ++ [(⟨g, k, offer, none⟩ : Pact)] } }
      (s.treeOf (s.fld (fGrpGStateKey g)) = none → exec (.pactEpoch k) s = .next t)
      ∧ (∀ (x : Tree) port, s.treeOf (s.fld (fGrpGStateKey g)) = some x → x.children = [] → x.parent = some port →
        s.pwr.offers.find? (fun y => y.key == x.key && y.epoch == k) = none → exec (.pactEpoch k) s = .next
        (({ t with pwr := { t.pwr with offers := s.pwr.offers.filter (fun y => y.key != x.key) } }).treeFlit port
          ⟨some x.key, pactFlit x.key k s.node.toNat (min 44 offer), false⟩)))
    ∧ (let credit := s.emit (.credit u.port.val (unitKey u) 1)
      let e := pactEpoch u
      (s.treeOf (unitKey u) = none → exec (.pactResult u) s = .next s)
      ∧ (∀ x q, s.treeOf (unitKey u) = some x → x.forwards = true → x.across (x.edgeOn u.port) = some q →
        exec (.pactResult u) s = .next (s.passUnit q u))
      ∧ (∀ x : Tree, s.treeOf (unitKey u) = some x → x.forwards = false → x.ports.contains u.port.val = true → x.key = unitKey u →
        (44 < pactCode u → exec (.pactResult u) s = .next credit)
        ∧ (pactCode u ≤ 44 → x.children = [] → x.member = some g.val →
          (s.fabTime ≤ e.toNat * 1000000 + 120000 → exec (.pactResult u) s = .next { credit with pwr := { s.pwr with
            pacts := s.pwr.pacts.map (fun y => if y.group = g.val ∧ y.epoch = e ∧ y.result.isNone then { y with result := some (pactCode u) } else y) } })
          ∧ (e.toNat * 1000000 + 120000 < s.fabTime → exec (.pactResult u) s = .next credit))
        ∧ (pactCode u ≤ 44 → x.children.contains u.port.val = true → exec (.pactResult u) s = .next (credit.pactOfferIn x e u.port (pactCode u)))))
    ∧ (s.stepDone 3 = true → s.pactGroups = [] →
      let free (u : State) (d : Nat) : State := { (u.setJob d (s.fld (fPwrDieFsus d))) with
        pwr := { (u.setJob d (s.fld (fPwrDieFsus d))).pwr with pactHeld := u.pwr.pactHeld.filter (· != d) } }
      let w := (List.range 4).foldl (fun u d => if s.fld (fPwrDieFsus d) = 0 then u else (free u d).showLimit d) s
      exec (.pactSwitch k) s = .next { w with pwr := { w.pwr with capThrottle := [], pacts := w.pwr.pacts.filter (fun y => y.epoch != k) } })
    ∧ (∀ x d c, x = some (⟨g, k, d, some c⟩ : Pact) → ∀ die, s.pactDie die x =
        (if s.fld (fPwrDieFsus die) < 800 + 25 * c then (s.fld (fPwrDieFsus die), true) else (800 + 25 * c, false)))
    ∧ (s.fld fPwrRackNotice = 1 → exec .noticeEnd s = .next s.noticeStop.pwrUpdate)
    ∧ (Taken s rPwrHost →
      let w := s.writeUnder takesPlain rPwrHost v
      let cap := clampCap (getBits v fPwrHostCap) s.inputCap
      let capped := w.setFlds ([(fPwrHostCap, cap)] ++ (if cap ≠ getBits v fPwrHostCap then [(fPwrHostClamped, 1)] else []));
      (getBits v fPwrHostAckOff = 0 → getBits v fPwrHostOrder ≠ 0 → getBits v fPwrHostOrder ≠ 3 →
        exec (.hostOrder v) s = .next (s.capCut (capped.setFlds [(fPwrHostOrder, getBits v fPwrHostOrder), (fPwrHostResult, 0)]).pwrUpdate))
      ∧ (getBits v fPwrHostAckOff = 0 → getBits v fPwrHostOrder = 0 → s.heldOff = true →
        exec (.hostOrder v) s = .next (s.capCut (capped.setFld fPwrHostResult 1).pwrUpdate))
      ∧ (getBits v fPwrHostAckOff = 0 → getBits v fPwrHostOrder = 0 → s.heldOff = false →
        exec (.hostCap v) s = .next (s.capCut (capped.setFlds [(fPwrHostOrder, 0), (fPwrHostResult, 0)]).pwrUpdate)))
    ∧ (Taken s rPwrHost → s.fld fPwrRackNotice = 1 → getBits v fPwrHostOrder = 0 → s.heldOff = false →
      let a := putBits v fPwrHostAckOff 1
      let cap := clampCap (getBits v fPwrHostCap) s.inputCap
      exec (.ackOff v) s = .next (s.capCut ((((s.writeUnder takesPlain rPwrHost a).setFlds ([(fPwrHostCap, cap)] ++
        (if cap ≠ getBits v fPwrHostCap then [(fPwrHostClamped, 1)] else []))).setFlds [(fPwrHostOrder, 0), (fPwrHostResult, 0)]).noticeStop.pwrUpdate)))

/-- Cooling (R359–R367, R483). Forecasts show, and a hot core asks to be moved away; ten implausible readings fail a diode, and 115 °C is
fatal; the flow follows from power and temperatures; a failed coolant sensor is replaced and logged; warnings are raised, repeated and
cleared; three equal samples of the leak loop count, and 5 s after WET the module is OFF.
Read by inference or chosen by the model: log entries 61, 108 and 111. -/
def Obligations.CoolingRules : Prop :=
  ∀ (n : Cluster) (fore : BitVec 12) (sites : List Int) (obs : List DiodeObs) (w : CoolWarn) (code : Fin 16) (loop : BitVec 16) (earth : List Nat)
    (q : Nat) (tin tout : Int) (cool : CoolObs) (s : State),
    (let seen := s.setFld (fThmClForecast n) fore.toNat;
      (sites.length < 18 → exec (.thermalForecast n fore sites) s = .next seen)
      ∧ (18 ≤ sites.length → seen.riddlePair n sites = none → exec (.thermalForecast n fore sites) s = .next seen)
      ∧ (∀ a b, 18 ≤ sites.length → seen.riddlePair n sites = some (a, b) → exec (.thermalForecast n fore sites) s = .next (seen.riddleAsk n a b)))
    ∧ (let seen := (obs.foldl State.diodeOne s).showHot obs;
      (∀ x, (seen.plausible obs).find? (fun y => decide (16 * 115 ≤ y.reading)) = some x → seen.pwr.holdThermal = false →
        exec (.diodeCheck obs) s = .next (({ seen with pwr := { seen.pwr with holdThermal := true } }).fatalModule
          { code := 0x0604, kind := 11, unit := x.core } caFatal))
      ∧ ((seen.plausible obs).find? (fun y => decide (16 * 115 ≤ y.reading)) = none → (seen.thermalHold obs).stepDone 3 = true →
        exec (.diodeCheck obs) s = .next ((List.range 4).foldl State.throttleDie (seen.thermalHold obs)))
      ∧ ((seen.plausible obs).find? (fun y => decide (16 * 115 ≤ y.reading)) = none → (seen.thermalHold obs).stepDone 3 = false →
        exec (.diodeCheck obs) s = .next (seen.thermalHold obs)))
    ∧ (∀ x : DiodeObs, s.diodeFailed x.core = false → s.implausible x = true → (lookupKey s.pwr.diodeRun x.core).getD 0 = 9 →
        s.diodeOne x = ({ s with pwr := { s.pwr with diodeRun := eraseKey s.pwr.diodeRun x.core } }).diodeFail x.core)
    ∧ (800 ≤ q → 16 ≤ tout - tin → s.fld fThmCoolInletFailed = 0 → s.fld fThmCoolOutletFailed = 0 → exec (.flowInference q tin tout) s = .next
        (s.setFlds [(fThmCoolFlow, min 255 (flowOf q (tout - tin))), (fThmCoolFlowState, flMeasured)]))
    ∧ (q < 800 ∨ tout - tin < 16 → exec (.flowInference q tin tout) s = .next (s.setFld fThmCoolFlowState flUnknown))
    ∧ (let below (tin : Int) : Bool := decide (cool.outlet < tin - 32) && decide (800 ≤ s.fld fPwrInputPower)
      let seen (x : State) (ti te : Int) : State := x.setFlds [(fThmCoolInlet, showTemp ti), (fThmCoolOutlet, showTemp te)]
      s.fld fThmCoolInletFailed = 0 → s.fld fThmCoolOutletFailed = 0 →
      (coolBad cool.inlet cool.modelIn = false → coolBad cool.outlet cool.modelOut = false → below cool.inlet = false →
        exec (.coolantSensorCheck cool) s = .next (seen s cool.inlet cool.outlet))
      ∧ (coolBad cool.inlet cool.modelIn = true → coolBad cool.outlet cool.modelOut = false → below cool.modelIn = false →
        exec (.coolantSensorCheck cool) s = .next (seen (s.coolantFail fThmCoolInletFailed 576) cool.modelIn cool.outlet))
      ∧ (coolBad cool.inlet cool.modelIn = false → coolBad cool.outlet cool.modelOut = true ∨ below cool.inlet = true →
        exec (.coolantSensorCheck cool) s = .next (seen (s.coolantFail fThmCoolOutletFailed 577) cool.inlet cool.modelOut)))
    ∧ (let c := coolWarn w
      (s.coolHolds w = true → exec (.coolingWarning w) s = .next ((s.setFld c.2.2.2 1).raise c.1 c.2.1 c.2.2.1 []))
      ∧ (s.coolHolds w = false → exec (.coolingWarning w) s = .next (s.clearWarning c.1 c.2.1 c.2.2.1)))
    ∧ (s.coolHolds .thermalLimit = (List.range 4).any (fun d => lookupKey s.pwr.terms d == some 4 && decide (s.fld (fPwrDieFsus d) < 1600)))
    ∧ (s.stepDone 2 = false → s.coolHolds .inlet = false ∧ s.coolHolds .outlet = false ∧ s.coolHolds .flow = false)
    ∧ (∀ c, s.img.cfg = some c → s.stepDone 2 = true → s.coolHolds .inlet = decide (16 * c.inletWarn < s.fld fThmCoolInlet)
      ∧ s.coolHolds .outlet = decide (16 * c.outletWarn < s.fld fThmCoolOutlet)
      ∧ s.coolHolds .flow = (s.fld fThmCoolFlowState != flUnknown && decide (s.fld fThmCoolFlow < c.flowWarn)))
    ∧ (s.warned code.val = true → repeats code = true →
      exec (.warningRepeat code) s = .next (s.sendWarning code 1 (warnUnit code).1 (warnUnit code).2 []))
    ∧ (s.warned code.val = false → exec (.warningRepeat code) s = .next s)
    ∧ (let ground := earth.any (· ≤ 100)
      let lv := leakLevel loop.toNat ground
      let kept (l : List Nat) : State := ({ s with pwr := { s.pwr with leak := l } }).setFlds [(fThmLeakLoop, loop.toNat), (fThmLeakGround, ofBool ground)];
      (∀ x y z, s.pwr.leak = [x, y, z] → (y ≠ lv ∨ z ≠ lv) → exec (.leakSample loop earth) s = .next (kept [y, z, lv]))
      ∧ (∀ x, s.pwr.leak = [x, lv, lv] → exec (.leakSample loop earth) s = .next ((kept [lv, lv, lv]).leakTaken lv)))
    ∧ (s.pwr.leakDue = true → exec .leakShutdown s = .next ({ s with pwr := { s.pwr with leakDue := false, holdLeak := true } }).pwrUpdate)

/-! ### Errors, waves and lees; resets; tests; the supervisor (R169–R172, R373–R407, R410–R430, R449, R462–R472) -/

/-- Error reporting. A second of repeats goes out as one summary with its count (R376); the error ring is enabled, disabled and its head moved
like a completion ring (R170, R172, R379); what was sent and not acknowledged is sent again (R380); ERR.CTL takes the mode and domain, and with
its wave bit starts a wave outside SERVICE mode (R396, R397); a wave not seen before is passed on and, in its domain, acted on (R399, R400); the
lees of a partition are copied to an ACTIVE context, its lines read as any line of the stacks (R395, R207).
Read by inference or chosen by the model: log entries 6, 44, 62, 63, 116 and 119. -/
def Obligations.ErrorReports : Prop :=
  ∀ (code : BitVec 16) (kind : Byte) (unit : BitVec 16) (v : Word) (p : Port) (origin : Node) (gen : BitVec 32) (dom : BitVec 16) (hops : Byte)
    (lines : List LineObs) (s : State),
    let same (w : Summary) : Bool := w.record.code == code.toNat && w.record.kind == kind.toNat && w.record.unit == unit.toNat
    (∀ w, s.err.window.find? same = some w →
      (w.more = 0 → exec (.summaryTimer code kind unit) s = .next
        { s with err := { s.err with window := s.err.window.filter (fun x => !same x) } })
      ∧ (w.more ≠ 0 → exec (.summaryTimer code kind unit) s = .next
        (({ s with err := { s.err with window := s.err.window.map (fun x => if same x then ⟨x.record, 0⟩ else x) } }).report
          { w.record with seq := s.err.seq, time := BitVec.ofNat 64 s.stampTime, timeLocked := s.bit fRteStateTimeLocked, summary := true
                          count := w.more })))
    ∧ (Taken s rErrRingCfg →
      let e := putBits v fErrRingCfgEnable 1
      let n := getBits v fErrRingCfgLog2size
      (s.fld fErrRingCfgEnable = 0 → 4 ≤ n → n ≤ 12 → s.fld fErrRingBaseBase * 32 % (64 * 2 ^ n) = 0 →
        ∃ t : State, exec (.errRingEnable v) s = .next t ∧ t.err.ringCount = 0 ∧ t.err.ringFirst = false
          ∧ t = { ((s.writeUnder takesAll rErrRingCfg e).setFlds [(fErrRingStateProducer, 0), (fErrRingStateHead, 0), (fErrRingStateResult, 0)]) with
            err := t.err })
      ∧ (s.fld fErrRingCfgEnable = 1 → exec (.errRingEnable v) s = .next (s.setFld fErrRingStateResult 7)
        ∧ exec (.errRingDisable v) s = .next (s.setFlds [(fErrRingCfgEnable, 0), (fErrRingStateResult, 0)])))
    ∧ (Taken s rErrRingState →
      let h := getBits v fErrRingStateHead
      let fits := decide ((h + 2 ^ 24 - s.fld fErrRingStateHead) % 2 ^ 24 ≤
        (s.fld fErrRingStateProducer + 2 ^ 24 - s.fld fErrRingStateHead) % 2 ^ 24)
      (s.fld fErrRingCfgEnable = 1 → fits = true → exec (.errRingHeadWrite v) s = .next (s.setFld fErrRingStateHead h))
      ∧ (fits = false → exec (.errRingHeadWrite v) s = .next
          (s.log { code := 0x0102, kind := 13, detail := leBytes 4 rErrRingState ++ leBytes 8 v.toNat })))
    ∧ (s.fld fMgtLinkUp = 1 → 2 ≤ s.fld fBringStateAux → exec .recordResend s = .next
        ({ s with mgmt := { s.mgmt with queue := s.mgmt.queue.map (fun (it : MgmtItem) => if it.resend then { it with sent := none } else it) } }).mgmtFlush)
    ∧ (Taken s rErrCtl → getBits v fErrCtlWave = 0 → exec (.errCtlWrite v) s = .next ((s.writeUnder takesAll rErrCtl v).setFld fErrCtlHostSet 1))
    ∧ (Taken s rErrCtl →
      let w := (s.writeUnder takesAll rErrCtl (putBits v fErrCtlWave 1)).setFld fErrCtlHostSet 1
      (w.fld fErrCtlMode ≠ 0 → exec (.wave v) s = .next (w.waveStart 0)) ∧ (w.fld fErrCtlMode = 0 → exec (.wave v) s = .next w))
    ∧ (s.portState p = 3 →
      (s.err.waves.contains (origin, gen.toNat) = true → exec (.waveArrival p origin gen dom code hops) s = .next s)
      ∧ (s.err.waves.contains (origin, gen.toNat) = false →
        let t := ((s.bump fErrCtlWavesRx 1).noteWave origin gen.toNat).waveOut (some p.val) origin.toNat gen.toNat dom.toNat code.toNat
          ((hops.toNat + 1) % 256)
        (s.fld fErrCtlMode ≠ 0 → s.fld fErrCtlDomain = dom.toNat → exec (.waveArrival p origin gen dom code hops) s = .next
          (t.waveAct origin.toNat gen.toNat code.toNat))
        ∧ (s.fld fErrCtlMode = 0 → exec (.waveArrival p origin gen dom code hops) s = .next t)
        ∧ (s.fld fErrCtlDomain ≠ dom.toNat → exec (.waveArrival p origin gen dom code hops) s = .next t)))
    ∧ (Taken s rErrLeescmd →
      let t := s.writeUnder takesAll rErrLeescmd (putBits v fErrLeescmdGo 1)
      let c := getBits v fErrLeescmdContext
      (s.active c = false → exec (.leesCopy ⟨v, lines⟩) s = .next (t.setFlds [(fErrLeescmdResult, 1), (fErrLeescmdBytes, 0)]))
      ∧ (s.active c = true → s.err.lees.find? (fun l => l.part == getBits v fErrLeescmdPartition) = none →
        exec (.leesCopy ⟨v, lines⟩) s = .next (t.setFlds [(fErrLeescmdResult, 2), (fErrLeescmdBytes, 0)]))
      ∧ (∀ l, s.active c = true → s.err.lees.find? (fun l => l.part == getBits v fErrLeescmdPartition) = some l →
        let segs := l.recs.zipIdx.filter (fun r => r.2 == 0 || r.1.2.2 == some c)
        let place (n : Nat) : Nat := leesAt (getBits v fErrLeescmdPartition) + n
        let data := (segs.flatMap (fun r => s.mem.bytes (place r.1.1) r.1.2.1)).take (2 ^ 22)
        let va := s.fld fErrLeesvaVa * 64
        let met := segs.foldl (fun (acc : State × Nat × List Nat) r =>
          let x := acc.1.lineReads (place r.1.1) r.1.2.1 lines
          (x.1, acc.2.1 + r.1.2.1, acc.2.2 ++ (lineOffsets (place r.1.1) r.1.2.1 x.2).map (· + acc.2.1))) (t, 0, [])
        let w := (met.1.writeRun c va data FarReply.ok).1
        ((s.gpaPieces c va data.length permWrite).isSome = false → exec (.leesCopy ⟨v, lines⟩) s = .next
          (t.setFlds [(fErrLeescmdResult, 3), (fErrLeescmdBytes, 0)]))
        ∧ ((s.gpaPieces c va data.length permWrite).isSome = true → exec (.leesCopy ⟨v, lines⟩) s = .next
          ((w.markRun (w.reached none c va data.length) met.2.2).setFlds [(fErrLeescmdResult, 0), (fErrLeescmdBytes, data.length)]))))

/-- Resets and starts (R405–R411, R415, R419, R449, R456, R462, R463). A cold reset starts the module with nothing but flash; every warm reset
keeps the VAUX domain and names its cause; PERST_N holds the start; the auxiliary stage boots the staged bank, or the active one, or else the
other, and ends DONE or FAILED by what it verified (R462, R463); VAUX that is lost takes everything but flash and the levels of inputs. RST.CTL
resets the partitions that it names, releases held ones, or resets the module; while it is busy a go is refused (R432).
Read by inference or chosen by the model: log entries 10, 21, 48, 55, 91, 109 and 115. -/
def Obligations.ResetsStart : Prop :=
  ∀ (v : Word) (silent : List LCore) (failed : List TasteFail) (b c : Bool) (s : State),
    (let r := s.restart caCold 0 (if s.pins.perst then 0 else 1)
      let t := { r with pins := { s.pins with vaux := true, held := none }, sec := { r.sec with pressed := s.pins.presence } };
      exec (.coldReset true) s = .next (t.setFld fSecStateSealClosed 1) ∧ exec (.coldReset false) s = .next (t.setFld fSecStateSealClosed 0).zeroise)
    ∧ (s.pins.vaux = true → exec .perstAssert s = .next ({ s with pins := { s.pins with perst := true } }.warm caPerst 0 0)
      ∧ exec .hotReset s = .next (s.warm caHotReset 0 1) ∧ exec .flr s = .next (s.warm caFlr 0 1))
    ∧ (s.pins.vaux = false → exec .perstAssert s = .next { s with pins := { s.pins with perst := true } }
      ∧ exec .hotReset s = .next s ∧ exec .flr s = .next s)
    ∧ (s.pins.vaux = true → s.pins.perst = true → s.fld fBringStateAux = 0 →
      exec .perstDeassert s = .next ({ s with pins := { s.pins with perst := false } }.setFld fBringStateAux 1))
    ∧ (∀ cause code aux, (s.warm cause code aux).flash.boot = s.flash.boot + 1 ∧ (s.warm cause code aux).pending = s.pending
      ∧ (s.warm cause code aux).mgmt.key = s.mgmt.key ∧ (s.warm cause code aux).cores = State.reset.cores
      ∧ (s.warm cause code aux).mem = State.reset.mem ∧ (s.warm cause code aux).que = State.reset.que)
    ∧ (s.fld fBringStateAux < 2 → s.pins.perst = false → s.pins.vaux = true →
      let d := s.loadFlash
      let f := s.flash
      let good (k : Nat) (found : Bool) : Bool := found && f.bank k != FwBank.blank
      let fails (u : State) (k vintage : Nat) : State := u.log { code := 0x0906, detail := leBytes 1 k ++ leBytes 4 vintage }
      (d.activates = none →
        (good f.active (b && c) = true → ∀ o, exec (.auxDone b o c []) s = .next (d.runs (f.bank f.active)).auxOk)
        ∧ (good f.active (b && c) = false →
          (∀ o, good (1 - f.active) o = true → exec (.auxDone b o c []) s = .next
            ((fails (d.setFld fSecFwstateFallback 1) (1 - f.active) (f.bank (1 - f.active)).vintage).runs (f.bank (1 - f.active))).auxOk)
          ∧ (∀ o, good (1 - f.active) o = false → exec (.auxDone b o c []) s = .next d.auxFail)))
      ∧ (∀ w, d.activates = some w →
        let n := 1 - f.active
        let failed := fails { d with flash := ({ f with staged := some { w with failed := true } } : Flash).wrote 6 [1] } n w.bank.vintage
        (good n (b && c) = true → ∀ o, exec (.auxDone b o c []) s = .next (({ d with
          flash := ({ f with active := n, staged := none, svnFloor := max f.svnFloor w.bank.svn } : Flash).wrote 6 [1] }).runs (f.bank n)).auxOk)
        ∧ (good n (b && c) = false → (∀ o, good f.active o = true → exec (.auxDone b o c []) s = .next (failed.runs (f.bank f.active)).auxOk)
          ∧ (∀ o, good f.active o = false → exec (.auxDone b o c []) s = .next failed.auxFail))))
    ∧ (s.pins.vaux = true → s.pwr.validA = none → s.pwr.validB = none → s.railsUp = false → exec .vauxLoss s = .next { State.reset with
        flash := s.flashCut, pins := { s.pins with vaux := false, held := none }, free := s.free, out := s.out, pending := s.pending })
    ∧ (Taken s rRstCtl →
      let t (op : Nat) : State := s.writeUnder takesAll rRstCtl (withOp v fRstCtlGo fRstCtlOp op)
      let ps := maskParts (getBits v fRstCtlParts)
      let u := ps.foldl (fun u p => u.domainReset p rcHost 0 0 (getBits v fRstCtlHold == 1) (some (silent.map Fin.val))) (t 1)
      (s.fld fRstCtlBusy = 1 → exec (.domain v silent) s = .next ((t 1).setFld fRstCtlResult 3)
        ∧ exec (.release v failed) s = .next ((t 2).setFld fRstCtlResult 3) ∧ exec (.module v) s = .next ((t 3).setFld fRstCtlResult 3))
      ∧ (s.fld fRstCtlBusy = 0 →
      (ps.any (fun p => s.fld (fCtxPartState p) == 0 || s.fld (fCtxPartState p) == 3) = true →
        exec (.domain v silent) s = .next ((t 1).setFld fRstCtlResult 1))
      ∧ (ps.any (fun p => s.fld (fCtxPartState p) == 0 || s.fld (fCtxPartState p) == 3) = false →
        exec (.domain v silent) s = .next
          ((u.setFld fRstCtlResult 0).rstAwait (ps.filter (fun p => u.cores.resetting.contains (.domain (partFin p))))))
      ∧ (ps.all (fun p => s.bit (fRstPartHeld p)) = false → exec (.release v failed) s = .next ((t 2).setFld fRstCtlResult 2))
      ∧ (ps.all (fun p => s.bit (fRstPartHeld p)) = true → exec (.release v failed) s = .next ((ps.foldl (fun u p =>
          let w := u.setFld (fRstPartHeld p) 0
          if w.cores.resetting.contains (.domain (partFin p)) then w else w.reopen p failed) (t 2)).setFld fRstCtlResult 0))
      ∧ exec (.module v) s = .next ((t 3).warm caHost 0 1)))

/-- Test requests (R81, R281, R384, R427–R430). While none runs, CORE_TEST puts a cluster's cores at the head of their tasting order; the sweeps
and checks end DONE; the intrusive ones run where no partition is OPEN and every context FREE, wait if deferred, and are refused if not; a
waiting one may be cancelled, and runs once its needs hold.
Read by inference or chosen by the model: log entry 71. -/
def Obligations.TestRequests : Prop :=
  ∀ (v : Word) (w0 h0 w1 h1 : Byte) (obs : List DiodeObs) (cool : CoolObs) (sc : ScreenObs) (tr : List TrainObs) (s : State),
    let w (op : Nat) : Word := withOp v fTstReqGo fTstReqOp op
    let t (op : Nat) : State := s.writeUnder takesAll rTstReq (w op)
    let n := getBits v fTstReqTarget
    let sense (x : State) : State := (x.sensorsChecked { HostObs.plain with diodes := obs, cool := cool })
    (Taken s rTstReq → s.fld fTstReqBusy = 0 → s.fld fTstReqWaiting = 0 →
      let cores := ((List.range 18).map (n * 18 + ·)).filter (fun p => decide ((t 1).coreState p ≤ 1));
      (n < 32 → cores ≠ [] → exec (.coreTest v) s = .next { ((t 1).setFld fTstReqBusy 1) with cores := { s.cores with
        asked := cores, tasteHead := s.cores.tasteHead ++ cores.filter (fun p => !s.cores.tasteHead.contains p) } })
      ∧ (32 ≤ n → exec (.coreTest v) s = .next ((t 1).tstEnd 4))
      ∧ (∀ e : Fin 16, n = e.val → exec (.eyeMargin v w0 h0 w1 h1) s = .next (((t 2).eyeSweep e [w0, h0, w1, h1]).tstEnd 0)
        ∧ exec (.eyeMarginSweep e w0 h0 w1 h1) (t 2) = .next ((t 2).eyeSweep e [w0, h0, w1, h1]))
      ∧ exec (.sensorCheck v obs cool) s = .next ((sense (t 3)).tstEnd 0)
      ∧ ((t 10).quiesced = true → exec (.sensorCal v) s = .next ((t 10).tstEnd 0))
      ∧ ((t 8).tstNeeds 8 = true → exec (.memScreen v sc) s = .next ((t 8).tstScreen (n == 1) sc))
      ∧ ((t 9).tstNeeds 9 = true → ((t 9).setInterleave.train tr).2 = true → exec (.memTrain v tr sc) s = .next
          (((t 9).setInterleave.train tr).1.tstScreen false sc))
      ∧ ((t 9).tstNeeds 9 = true → ((t 9).setInterleave.train tr).2 = false → exec (.memTrain v tr sc) s = .next
          (((t 9).setInterleave.train tr).1.tstEnd 4))
      ∧ ((t 8).tstNeeds 8 = false → getBits v fTstReqDefer = 1 → exec (.memScreen v sc) s = .next
          ((t 8).setFlds [(fTstReqBusy, 1), (fTstReqWaiting, 1)]))
      ∧ ((t 8).tstNeeds 8 = false → getBits v fTstReqDefer = 0 → exec (.memScreen v sc) s = .next ((t 8).tstEnd 2)))
    ∧ (Taken s rTstReq → s.fld fTstReqWaiting = 1 → exec .tstCancel s = .next (s.tstEnd 0x0A))
    ∧ (s.fld fTstReqWaiting = 1 → s.fld fTstReqOp = 8 → s.tstNeeds 8 = true →
      exec (.deferredTestStart tr sc) s = .next (s.tstScreen (s.fld fTstReqTarget == 1) sc))
    ∧ (s.fld fTstReqWaiting = 1 → s.fld fTstReqOp = 10 → s.tstNeeds 10 = true → exec (.deferredTestStart tr sc) s = .next (s.tstEnd 0))
    ∧ (s.tstNeeds (s.fld fTstReqOp) = false → exec (.deferredTestStart tr sc) s = .next s)

/-- The supervisor (R390, R467–R472). A core without heartbeats is lost: the others run on, or a spare restores, or the watchdog resets the
module; in vote mode a dissenter resynchronises; a disagreeing pair loses one core and restores; and a core that restored or resynchronised
runs with the state of the checkpoint or of the others, after which the held accesses are served. A beat moves a core's SRAM on, and outside a
whole vote the checkpoint; an owner command begins at one beat and ends at a later one.
Read by inference or chosen by the model: log entries 68, 120 and 121. -/
def Obligations.SupervisorCores : Prop :=
  ∀ (i : Fin 3) (fails : List (Fin 3)) (s : State),
    (s.supUp = true → s.fld (supF i) = 0 →
      let t := s.supLose i
      (t.supIn 0 ≠ [] → exec (.heartbeatTimeout i) s = .next
        ((t.log { code := 0x0702, kind := 12, unit := i, action := 6, warning := t.supWarns }).supShow))
      ∧ (∀ b l, t.supIn 0 = [] → t.supIn 1 = b :: l → exec (.heartbeatTimeout i) s = .next
          { t with sup := { t.sup with restoring := some (b, i.val) } })
      ∧ (t.supIn 0 = [] → t.supIn 1 = [] → exec (.heartbeatTimeout i) s = .next (t.fatalModule { code := 0x0703, kind := 12, unit := i }
          caWatchdog))
      ∧ (let b := if (s.supIn 0).headD 0 = i.val then s.ownerBeat else s
        let w := { b with sup := { b.sup with beat := insertKey b.sup.beat i s.time, sram := insertKey b.sup.sram i b.supImage } }
        (3 ≤ (w.supIn 0).length → exec (.supHeartbeat i) s = .next w)
        ∧ ((w.supIn 0).length < 3 → exec (.supHeartbeat i) s = .next { w with sup := { w.sup with checkpoint := some w.supImage } })))
    ∧ (s.sec.cmd = none → s.ownerBeat = s)
    ∧ (∀ blob, s.sec.cmd = some ⟨blob, false⟩ → s.ownerBeat = { s with sec := { s.sec with cmd := some ⟨blob, true⟩ } })
    ∧ (∀ blob, s.sec.cmd = some ⟨blob, true⟩ →
      s.ownerBeat = (({ s with sec := { s.sec with cmd := none } }).setFld fSecCmdBusy 0).ownerCmd blob)
    ∧ (s.supUp = true → s.fld fSupStateMode = 0 → (s.supIn 0).length = 3 →
      let image := (lookupKey s.sup.sram (((s.supIn 0).filter (· != i.val)).headD 0)).getD s.supImage
      let t := (((s.setFld (supF i) 2).setSram i image).bump fSupStateDissents 1).log { code := 0x0701, kind := 12, unit := i }
      exec (.supDissent i) s = .next ({ t with sup := { t.sup with resync := t.sup.resync ++ [i.val] } }).supShow)
    ∧ (∀ x y, s.supUp = true → s.supIn 0 = [x, y] → x ≠ y →
      let keeps (a b : Nat) : Prop := exec (.duplexDisagree fails) s = .next
        { (s.supLose b) with sup := { (s.supLose b).sup with restoring := some (a, b) } }
      let bad (n : Nat) : Bool := (fails.map Fin.val).contains n
      (bad x = false → keeps x y) ∧ (bad x = true → bad y = false → keeps y x)
      ∧ (bad x = true → bad y = true → exec (.duplexDisagree fails) s = .next (((s.supLose x).supLose y).watchdog x)))
    ∧ (s.sup.resync.contains i.val = true → exec (.resyncDone i) s = .next
        ((((({ s with sup := { s.sup with resync := s.sup.resync.filter (· != i.val) } }).setSram i s.supImage).setFld (supF i) 0).bump
          fSupStateRestores 1).supShow).serveHeld)
    ∧ (∀ lost, s.sup.restoring = some (i.val, lost) → exec (.restoreDone i) s = .next
        (let u := ({ s with sup := { s.sup with restoring := none } } : State).fromCheckpoint;
          ((((u.setSram i u.supImage).setFld (supF i) 0).bump fSupStateRestores 1).supLostLog lost).supShow.serveHeld))
    ∧ (∀ m, s.sup.checkpoint = some m → s.fromCheckpoint.mgmt = { s.mgmt with sendCtr := max s.mgmt.sendCtr m.sendCtr }
      ∧ (∀ x, m.cmd = some x → s.fromCheckpoint.sec.cmd = some { x with begun := false }))

/-! ### Security and management (R434–R466, R473–R492) -/

/-- The SPDM responder, on either transport (R436, R437, R481): GET_VERSION, GET_CAPABILITIES and NEGOTIATE_ALGORITHMS in order, then what the
connection allows, each message out of order an error; at most four sessions, which FINISH establishes; a measurement is signed over the nonce.
Within a session answers over management take its secured format (R481), and KEY_UPDATE changes its keys.
IDE keys arrive inside a session over DOE (R438), and a stream that is lost clears a host window where the policy requires IDE (R439); an entropy
source that fails is a fatal-module error (R446).
Read by inference or chosen by the model: log entries 64, 65, 66 and 117. -/
def Obligations.SpdmAndHostLink : Prop :=
  ∀ (t : SpdmPath) (off len : BitVec 16) (idx : Byte) (sign : Bool) (nonce share : List Byte) (n : Nat) (s : State), s.supUp = true →
    let x := s.spdm t
    let chain := s.certChain
    let at3 (st : Nat) : Spdm := { x with stage := st }
    exec (.getVersion t) s = .next ((s.setSpdm t (at3 1)).spdmSay t 0x04 [0x13#8])
    ∧ (x.stage = 1 → exec (.getCapabilities t) s = .next ((s.setSpdm t (at3 2)).spdmSay t 0x61 (leBytes 4 spdmCaps)))
    ∧ (x.stage = 2 → exec (.negotiateAlgorithms t true) s = .next ((s.setSpdm t (at3 3)).spdmSay t 0x63 spdmAlgos)
      ∧ exec (.negotiateAlgorithms t false) s = .next (s.spdmError t 1))
    ∧ (x.stage ≠ 1 → exec (.getCapabilities t) s = .next (s.spdmError t 4))
    ∧ (x.stage ≠ 3 → exec (.getDigests t) s = .next (s.spdmError t 4) ∧ exec (.keyExchange t 0#8 share) s = .next (s.spdmError t 4)
      ∧ exec (.challenge t 0#8 nonce) s = .next (s.spdmError t 4))
    ∧ (x.stage = 3 →
      exec (.getDigests t) s = .next (s.spdmSay t 0x01 (0x01#8 :: sha384 chain))
      ∧ (off.toNat < chain.length → exec (.getCertificate t 0#8 off len) s = .next
        (s.spdmSay t 0x02 ((chain.drop off.toNat).take (min len.toNat (certMost t)))))
      ∧ exec (.challenge t 0#8 nonce) s = .next ((s.takeBytes 4).2.spdmSay t 0x03
        (s.signed nonce (sha384 chain ++ (s.takeBytes 4).1)))
      ∧ (let sends (b : List Byte) : Prop := exec (.getMeasurements t idx sign nonce) s = .next (s.spdmSay t 0x60
            (if sign then b ++ s.aliasSign (nonce ++ b) else b));
        (idx = 0#8 → sends [0x0B#8]) ∧ (0 < idx.toNat → idx.toNat ≤ 11 → sends (s.measBlock idx.toNat))
        ∧ (idx = 0xFF#8 → sends ((List.range 11).flatMap (fun (i : Nat) => s.measBlock (i + 1))))
        ∧ (11 < idx.toNat → idx ≠ 0xFF#8 → exec (.getMeasurements t idx sign nonce) s = .next (s.spdmError t 1)))
      ∧ (x.sessions.length < 4 →
        let f := (s.setSpdm t { x with sessions := x.sessions ++ [⟨x.next, false, 0⟩], next := x.next + 1 }).takeBytes 16
        exec (.keyExchange t 0#8 share) s = .next (f.2.spdmSay t 0x64 (s.signed share (leBytes 2 x.next ++ f.1))))
      ∧ (4 ≤ x.sessions.length → exec (.keyExchange t 0#8 share) s = .next (s.spdmError t 0x0A))
      ∧ (x.sessions.any (fun p => p.id == n && !p.up) = true →
        exec (.spdmFinish t n true) s = .next (s.within n (fun u =>
          (u.setSpdm t ((u.spdm t).change n (fun p => { p with up := true }))).spdmSay t 0x65 []))
        ∧ exec (.spdmFinish t n false) s = .next (s.within n (fun u => (u.setSpdm t ((u.spdm t).drop n)).spdmError t 1))))
    ∧ (x.up n = true →
      let after (code : Nat) (f : Spdm → Spdm) : State := s.within n (fun u =>
        let w := u.spdmSay t code []
        w.setSpdm t (f (w.spdm t)))
      exec (.heartbeat t n) s = .next (s.within n (fun u => u.spdmSay t 0x68 []))
      ∧ exec (.keyUpdate t n) s = .next (after 0x69 (fun y => y.change n (fun p => { p with epoch := p.epoch + 1 })))
      ∧ exec (.endSession t n) s = .next (after 0x6C (fun y => y.drop n)))
    ∧ (x.up n = false → exec (.heartbeat t n) s = .next (s.spdmError t 4) ∧ exec (.keyUpdate t n) s = .next (s.spdmError t 4)
      ∧ exec (.endSession t n) s = .next (s.spdmError t 4))
    ∧ (∀ (code : Nat) (body : List Byte), s.spdmSay .mgmt code body = (s.emit (.spdm .mgmt code (code == 0x7F) body)).answerMgmt 0x20
      (match s.sec.mgmt.within.bind s.sec.mgmt.session with
        | some y =>
          let c := Config.securedWrap y.id y.epoch ([0x13#8, BitVec.ofNat 8 code] ++ body)
          leBytes 4 y.id ++ leBytes 2 c.length ++ c
        | none => [0x13#8, BitVec.ofNat 8 code] ++ body))
    ∧ (s.sec.doe.up n = true → exec (.ideKmKeyProg n) s = .next (s.setFld fSecIdeState 2))
    ∧ (s.sec.doe.up n = false → exec (.ideKmKeyProg n) s = .next s)
    ∧ (s.fld fSecIdeState = 2 →
      let u := (s.setFld fSecIdeState 3).log { code := 0x0904, kind := 13 }
      (s.flash.requireIde = true → exec .ideStreamLoss s = .next (u.setFld fZfHostwinOn 0))
      ∧ (s.flash.requireIde = false → exec .ideStreamLoss s = .next u))
    ∧ exec .rngHealth s = .next ((s.setFld fSecStateRngOk 0).fatalModule { code := 0x0908 } caFatal)

/-- Owner commands (R450–R456): each through SEC.CMD, or the management port, which answers with the result and the next nonce; a command that
passes every check takes its effect, one that does not changes nothing the owner governs, and SEC.CMD shows op and result with a fresh nonce; one that comes while
another runs ends with WRONG_STATE (R466).
Presence opens a window of 60 s at a press (R453); a seal loop open for 1 ms ends a running command with NEEDS and zeroises the module
(R456, R465).
Read by inference or chosen by the model: log entries 67 and 120. -/
def Obligations.OwnerCommands : Prop :=
  ∀ (b : List Byte) (s : State),
    let op := field b 4 1
    let t := s.ownerCmd b
    (s.sec.cmd = none → Taken s rSecCmd → exec (.enroll b false) s = .next t ∧ exec (.debugUnlock b false) s = .next t ∧ exec (.debugLock b false) s = .next t
      ∧ exec (.rollback b false) s = .next t ∧ exec (.recover b false) s = .next t ∧ exec (.policy b false) s = .next t)
    ∧ (s.sec.cmd.isSome = true → Taken s rSecCmd →
      let busy := s.setFld fSecCmdResult 9
      exec (.enroll b false) s = .next busy ∧ exec (.debugUnlock b false) s = .next busy ∧ exec (.debugLock b false) s = .next busy
      ∧ exec (.rollback b false) s = .next busy ∧ exec (.recover b false) s = .next busy ∧ exec (.policy b false) s = .next busy)
    ∧ (s.supUp = true →
      let w := if s.sec.cmd = none then t else s.setFld fSecCmdResult 9
      let a := w.answerMgmt 0x21 (leBytes 1 (w.fld fSecCmdResult) ++ leBytes 7 0 ++ leBytes 8 (w.fld fSecNonceNonce))
      exec (.enroll b true) s = .next a ∧ exec (.debugUnlock b true) s = .next a ∧ exec (.debugLock b true) s = .next a
      ∧ exec (.rollback b true) s = .next a ∧ exec (.recover b true) s = .next a ∧ exec (.policy b true) s = .next a)
    ∧ (t.fld fSecCmdOp = op ∧ t.fld fSecCmdResult = s.ownerCheck b ∧ ∃ n, t.reg rSecNonce = Config.freeWord n)
    ∧ (s.ownerCheck b ≠ 0 → t.flash.owner = s.flash.owner ∧ t.flash.ownerPending = s.flash.ownerPending ∧ t.flash.debug = s.flash.debug
      ∧ t.flash.debugPending = s.flash.debugPending ∧ t.flash.svnFloor = s.flash.svnFloor ∧ t.flash.zeroised = s.flash.zeroised
      ∧ t.flash.win0 = s.flash.win0 ∧ t.flash.win1 = s.flash.win1 ∧ t.flash.requireIde = s.flash.requireIde ∧ t.sec.window = s.sec.window)
    ∧ (s.ownerCheck b = 0 →
      let kept (f : Flash) : Prop := t.flash = f
      (op = 1 → kept (({ s.flash with ownerPending := some ((b.drop 40).take 96) } : Flash).wrote 6 [0]) ∧ t.sec.window = none)
      ∧ (op = 2 → kept (({ s.flash with debugPending := some true } : Flash).wrote 6 [1]) ∧ t.sec.window = none)
      ∧ (op = 3 → kept (({ s.flash with debugPending := some false } : Flash).wrote 6 [1]) ∧ t.sec.window = s.sec.window)
      ∧ (op = 4 → kept (({ s.flash with svnFloor := field b 24 8 % 2 ^ 16 } : Flash).wrote 6 [1]) ∧ t.sec.window = none)
      ∧ (op = 5 → kept (({ s.flash with zeroised := false, owner := none } : Flash).wrote 6 [1]) ∧ t.sec.window = none)
      ∧ (op = 6 → kept (({ s.flash with win0 := BitVec.ofNat 64 (field b 24 8), win1 := BitVec.ofNat 64 (field b 32 8),
                                                requireIde := bitOf (field b 136 8) 0 } : Flash).wrote 6 [0])))
    ∧ (s.pins.vaux = true →
      (s.sec.pressed = false → exec .presencePress s = .next
        (({ s with sec := { s.sec with pressed := true, window := some (s.time + 60000000000) },
                   pins := { s.pins with presence := true } }).setFld fSecStatePresence 1))
      ∧ (s.sec.pressed = true → exec .presencePress s = .next { s with pins := { s.pins with presence := true } })
      ∧ exec .presenceRelease s = .next (({ s with sec := { s.sec with pressed := false },
                                                   pins := { s.pins with presence := false } }).setFld fSecStatePresence 0)
      ∧ exec .presenceExpire s = .next { s with sec := { s.sec with window := none } }
      ∧ exec (.sealSample false) s = .next (({ s with sec := { s.sec with openRun := 0 } }).setFld fSecStateSealClosed 1)
      ∧ (let u := ({ s with sec := { s.sec with openRun := s.sec.openRun + 1 } }).setFld fSecStateSealClosed 0
        (s.sec.openRun ≠ 9 → exec (.sealSample true) s = .next u) ∧ (s.sec.openRun = 9 → exec (.sealSample true) s = .next u.ownerCut.zeroise)))
    ∧ (s.pins.vaux = false → exec .presencePress s = .next { s with pins := { s.pins with presence := true } }
      ∧ exec .presenceRelease s = .next { s with pins := { s.pins with presence := false } })
    ∧ (∀ c, s.sec.cmd = some c → ∃ n, s.ownerCut.reg rSecNonce = Config.freeWord n ∧ s.ownerCut.sec.cmd = none
      ∧ s.ownerCut.fld fSecCmdResult = 8 ∧ s.ownerCut.fld fSecCmdBusy = 0)

/-- The service port (R457–R464): a frame in sequence is acknowledged after its effect, or refused with its reason; BEGIN, DATA and END bring a
bundle, whose first failed check rejects it or which is written to the inactive bank; while aux is FAILED a checked bundle runs from memory;
DEBUG frames act on BAR0 only while debug is unlocked.
Read by inference or chosen by the model: log entries 11, 14, 67 and 74. -/
def Obligations.ServicePort : Prop :=
  ∀ (f : SFrame) (obs : HostObs) (ok : Bool) (s : State),
    (FrameTaken s f →
      let n := s.sec.svcSeq
      exec (.svcHello f) s = .next (s.svcStatus.acked n)
      ∧ exec (.svcAbandon f) s = .next ((s.setReceiving none).acked n)
      ∧ (f.payload.length = 5 → exec (.svcBegin f) s = .next
        ((s.setReceiving (some ⟨field f.payload 0 4, bitOf (field f.payload 4 1) 0, []⟩)).acked n))
      ∧ (s.sec.receiving = none → exec (.svcData f) s = .next (s.svcNak 3) ∧ exec (.svcEnd f) s = .next (s.svcNak 3))
      ∧ (∀ r, s.sec.receiving = some r →
        (r.data.length + f.payload.length ≤ r.length → exec (.svcData f) s = .next
          ((s.setReceiving (some { r with data := r.data ++ f.payload })).acked n))
        ∧ (r.length ≤ r.data.length →
          let c := s.bundleCheck r.length r.data
          let u := (s.setReceiving none).setFld fSecFwstateResult c
          let w : FwStaged := ⟨bundleBank r.data, (r.data.length + 4095) / 4096, r.together, false⟩
          (c ≠ 0 → exec (.svcEnd f) s = .next
            (((u.log { code := 0x0905, detail := leBytes 4 (field r.data 4 4) ++ leBytes 1 c }).svcStatus).acked n))
          ∧ (c = 0 → s.fld fBringStateAux = 3 → exec (.svcEnd f) s = .next
            ((({ u with sec := { u.sec with rescue := some (bundleBank r.data) } }).svcStatus).acked n))
          ∧ (c = 0 → s.fld fBringStateAux = 2 → exec (.svcEnd f) s = .next
            (((({ s with sec := { s.sec with receiving := none, writing := some w } }).showSec).setFld fSecFwstateResult 0).acked n))))
      ∧ (∀ b, s.sec.rescue = some b → s.fld fBringStateAux = 3 → exec (.svcRun f) s = .next
        (({ s with sec := { s.sec with rescue := none, running := b } } : State).auxOk.acked n))
      ∧ (s.flash.debug = false → exec (.svcDebug f obs) s = .next (s.svcNak 4))
      ∧ (s.flash.debug = true → f.payload.length = 17 →
        (field f.payload 0 1 = 2 → exec (.svcDebug f obs) s = .next
          (((s.bar0Write (field f.payload 1 8) (BitVec.ofNat 64 (field f.payload 9 8)) obs).svcSay 0x30 f.payload).acked n))
        ∧ (field f.payload 0 1 = 1 →
          let r := s.debugRead (field f.payload 1 8)
          exec (.svcDebug f obs) s = .next ((r.1.svcSay 0x30 (f.payload.take 9 ++ leBytes 8 r.2.toNat)).acked n))))
    ∧ (s.svcUp = true → s.sec.svcStale = false → (svcCrcOk f = false → exec (.svcBadFrame f) s = .next (s.svcNak 1))
      ∧ (svcCrcOk f = true → f.seq.toNat ≠ s.sec.svcSeq → exec (.svcBadFrame f) s = .next (s.svcNak 2)))
    ∧ (s.svcUp = true → s.sec.svcStale = true → exec (.svcHello f) s = .next s.svcFirst)
    ∧ (exec .svcEnDeassert s = .next { s with pins := { s.pins with svcEn := false } }
      ∧ exec .svcEnAssert s = .next { s with pins := { s.pins with svcEn := true } })
    ∧ (∀ b, s.sec.writing = some b →
      let bank := if ok then b.bank else FwBank.blank
      let f := ({ s.flash with banks := setAt s.flash.banks (1 - s.flash.active) bank, staged := some { b with failed := !ok } } : Flash).wrote
        (1 - s.flash.active) (List.range b.sectors)
      let u := (({ s with sec := { s.sec with writing := none }, flash := f }).showSec).fwSince s
      let w := if ok then u else u.log { code := 0x0705 }
      (w.svcUp = true → exec (.bundleStaged ok) s = .next w.svcStatus) ∧ (w.svcUp = false → exec (.bundleStaged ok) s = .next w))

/-- The management plane (R474–R489): an authenticated record is taken once, its sender's floor rising past it; each order answers with a REPLY,
then acts, and one that is refused does nothing but answer; queries answer their sender, acknowledgements free the queue, bad records are counted;
the link counts its losses, sends what waited when it returns, and the side-band serves its commands.
Read by inference or chosen by the model: log entries 69, 70, 111 and 117. -/
def Obligations.ManagementPlane : Prop :=
  ∀ (m : MRec) (fec : Bool) (addr : Option (BitVec 128)) (v : Word) (a7 : BitVec 7) (eid : Byte) (x : Sensor) (y : StateSensor) (on : Bool)
    (key : List Byte) (s : State),
    let a : State := { s with mgmt := { s.mgmt with asker := beBytes 16 m.from_.toNat } }
    let t := a.raiseFloor m
    (s.authResult m = 0 → t.authResult m = 3)
    ∧ (Arrives s m 0x10 →
      let c := field m.body 2 2
      let cc := clampCap c t.inputCap
      let u := t.reply m (if c ≠ 0 ∧ cc ≠ c then 1 else 0)
      let w := if c = 0 then u else u.setFld fPwrRackCeiling cc
      (s.authResult m = 0 → powerBodyOk m.body = true →
        exec (.powerOrder m) s = .next (t.capCut (w.rackOrder (field m.body 0 1) (field m.body 1 1 == 1))))
      ∧ (s.authResult m = 0 → powerBodyOk m.body = false → exec (.powerOrder m) s = .next (a.reply m 5))
      ∧ (s.authResult m ≠ 0 → exec (.powerOrder m) s = .next (a.reply m (s.authResult m))))
    ∧ (Arrives s m 0x11 → s.authResult m = 0 → resetBodyOk m.body = true → exec (.resetOrder m) s = .next ((t.reply m 0).warm caRack 0 1))
    ∧ (Arrives s m 0x12 → s.authResult m = 0 → configBodyOk m.body = true → exec (.config m) s = .next ((t.configDo m.body).reply m 0))
    ∧ (Arrives s m 0x13 → s.authResult m = 0 →
      (m.body = [1#8] → exec (.query m) s = .next ((t.answerMgmt 3 t.telemetry).telReset))
      ∧ (m.body = [2#8] → exec (.query m) s = .next (t.answerMgmt 5 t.linksBody)))
    ∧ (recSigned m = false → m.sender = 0#32 → (Arrives s m 0x20 → exec (.mgmtSpdm m) s = .next (a.reply m 7))
      ∧ (Arrives s m 0x21 → exec (.mgmtOwnerCmd m) s = .next (a.reply m 7)) ∧ (Arrives s m 0x22 → exec (.nonce m) s = .next (a.reply m 7)))
    ∧ (m.tag = keyTag deviceKey → recSigned m = false → m.sender ≠ 0#32 →
      (Arrives s m 0x20 → exec (.mgmtSpdm m) s = .next (a.spdmMsg m.body))
      ∧ (Arrives s m 0x21 → ∃ u, exec (.enroll m.body true) a = .next u ∧ exec (.mgmtOwnerCmd m) s = .next u)
      ∧ (Arrives s m 0x22 → exec (.nonce m) s = .next (a.answerMgmt 0x22 (leBytes 8 (s.fld fSecNonceNonce)))))
    ∧ (Arrives s m 0x7F → (s.authResult m = 0 → exec (.reply m) s = .next (t.ackRecord (field m.body 0 8)))
      ∧ (s.authResult m ≠ 0 → exec (.reply m) s = .next a))
    ∧ (s.supUp = true → s.fld fMgtLinkUp = 1 → recFormed m = false → exec (.badRecord m) s = .next (s.bump fMgtQueueBad 1))
    ∧ (s.supUp = true → exec .telemetryTimer s = .next (s.mgmtQueue ⟨3, s.telemetry, false, false, none⟩).telReset)
    ∧ (s.fld fMgtLinkUp = 1 → exec .mgmtLinkDown s = .next
      ((s.setFlds [(fMgtLinkUp, 0), (fMgtLinkGlobal, 0), (fMgtAddrhiAddr, 0), (fMgtAddrloAddr, 0)]).bump fMgtLinkDowns 1)
      ∧ exec .mgmtDownTimer s = .next s)
    ∧ (s.fld fMgtLinkUp = 0 → exec .mgmtDownTimer s = .next (s.log { code := 0x0704, kind := 14 })
      ∧ (s.pins.vaux = true →
        let at_ : Nat := (addr.map BitVec.toNat).getD 0
        exec (.mgmtLinkUp fec addr) s = .next ((((s.setFlds [(fMgtLinkUp, 1), (fMgtLinkFec, ofBool fec), (fMgtLinkGlobal, ofBool addr.isSome),
          (fMgtAddrhiAddr, at_ / 2 ^ 64), (fMgtAddrloAddr, at_ % 2 ^ 64)]).log { code := 0x0704, kind := 14 }).reportDrops).mgmtFlush)))
    ∧ (s.pins.vaux = true →
      let d := s.setFld fMgtI3cDynAddr a7.toNat;
      (s.mgmt.events = [] ∨ a7 = 0#7 → exec (.entdaa a7) s = .next d)
      ∧ (s.mgmt.events ≠ [] → a7 ≠ 0#7 → exec (.entdaa a7) s = .next (d.emit .ibi))
      ∧ exec (.setEndpointId eid) s = .next ((s.setFld fMgtI3cEid eid.toNat).emit (.i3c [0#8, eid])))
    ∧ (s.supUp = true →
      let sends (u : State) (b : List Byte) : Host.Outcome State Fault Refusal := .next (u.emit (.i3c (0#8 :: b)))
      exec (.getSensorReading x) s = sends s (leBytes 2 (s.sensor x))
      ∧ exec (.getStateSensorReadings y) s = sends s ((s.stateSensor y).map (BitVec.ofNat 8))
      ∧ exec (.setStateEffecterStates on) s = sends { s with mgmt := { s.mgmt with locatePldm := on } } []
      ∧ (s.mgmt.events = [] → exec .pollForPlatformEventMessage s = sends s [])
      ∧ (∀ e l, s.mgmt.events = e :: l → exec .pollForPlatformEventMessage s = sends { s with mgmt := { s.mgmt with events := l } }
          (leBytes 2 e.1 ++ leBytes 1 e.2))
      ∧ (key.length = 32 →
        let waiting : List MgmtItem := s.mgmt.queue.map (fun (it : MgmtItem) => { it with sent := none })
        let g : Mgmt := { s.mgmt with key := some key, sendCtr := 0, floors := [], queue := waiting }
        exec (.setManagementKey key) s = sends (({ s with mgmt := g }).setFld fMgtLinkKey 1) []))
    ∧ (Taken s rMgtCtl → exec (.locateHostWrite v) s = .next (s.writeUnder takesAll rMgtCtl v))

/-! ### Rules of the whole machine (R12, R84–R86, R129, R151, R193) -/

/-- Every task instruction, every request at its home, every answer and every BAR4 access keeps the form of the register file and of memory,
from every state that has it. -/
def Obligations.CanonicalFormKept : Prop :=
  ∀ (c : Instr) (s t : State) (rest : List Instr), s.pending = c :: rest →
    ((slotOf c).isSome = true ∨ (∃ q obs, c = .read q obs) ∨ (∃ q, c = .write q) ∨ (∃ q obs, c = .atomic q obs) ∨ (∃ r, c = .data r) ∨ (∃ r, c = .ack r)
      ∨ (∃ r, c = .old r) ∨ (∃ r, c = .refused r) ∨ (∃ off len z far, c = .bar4Read off len z far) ∨ (∃ off d z far, c = .bar4Write off d z far)) →
    s.canonicalForm = true → step s = .next t → t.canonicalForm = true

/-- What a task cannot reach: an instruction of the task on core k leaves the run of every core but k and k's partner, the programs and what they
are bound to, the page tables, the structure image, groups, links, routes, power, security, the supervisor, the pins, the clock and the waiting
commands as they were; of flash it leaves all but the error records and the defect log.
Read by inference or chosen by the model: log entry 78. -/
def Obligations.TaskIsolation : Prop :=
  ∀ (i : Instr) (k : LCore) (sl : Slot) (w : Nat) (s t : State), slotOf i = some (k, sl, w) → exec i s = .next t →
    (∀ j, j ≠ k.val → (∀ r, s.runOf k = some r → r.partner ≠ some j) → t.runOf j = s.runOf j)
    ∧ t.cores.bindings = s.cores.bindings ∧ t.fab.leaves = s.fab.leaves ∧ t.fab.frames = s.fab.frames ∧ t.img = s.img
    ∧ t.grp = s.grp ∧ t.lnk = s.lnk ∧ t.rte = s.rte ∧ t.pwr = s.pwr ∧ t.sec = s.sec ∧ t.sup = s.sup ∧ t.pins = s.pins ∧ t.time = s.time
    ∧ t.pending = s.pending ∧ t.dram = s.dram ∧ t.flash.owner = s.flash.owner ∧ t.flash.win0 = s.flash.win0 ∧ t.flash.win1 = s.flash.win1
    ∧ t.flash.requireIde = s.flash.requireIde ∧ t.flash.banks = s.flash.banks ∧ t.flash.image = s.flash.image
    ∧ t.flash.floor = s.flash.floor ∧ t.flash.svnFloor = s.flash.svnFloor ∧ t.flash.debug = s.flash.debug

/-- An allocation is admitted only if it keeps the use at or below the limit; one that would raise the use above the limit fails with QUOTA and
changes nothing; one that brings the use exactly to the limit succeeds (R84): sync objects, fabric pages, and groups by CREATE and JOIN, for
commands that pass the checks before the quota's. -/
def Obligations.QuotaAdmission : Prop :=
  ∀ (v : Word) (map : FarReply) (views : List RouterObs) (s : State),
    (Taken s rSyncCmd →
      let t := s.writeUnder takesAll rSyncCmd (withOp v fSyncCmdGo fSyncCmdOp 1)
      let c := getBits v fSyncCmdContext
      s.active c = true →
      (t.fld (fCtxQsyncUse c) + 1 > t.fld (fCtxQsyncLimit c) → exec (.syncAlloc v) s = .next (t.setFld fSyncCmdResult 3))
      ∧ (t.fld (fCtxQsyncUse c) + 1 ≤ t.fld (fCtxQsyncLimit c) → (s.freeObj (getBits v fSyncCmdDie)).isSome = true →
        ∃ u : State, exec (.syncAlloc v) s = .next u ∧ u.fld fSyncCmdResult = 0 ∧ u.fld (fCtxQsyncUse c) = t.fld (fCtxQsyncUse c) + 1)
      ∧ (∀ u : State, exec (.syncAlloc v) s = .next u → u.fld fSyncCmdResult = 0 → u.fld (fCtxQsyncUse c) ≤ u.fld (fCtxQsyncLimit c)))
    ∧ (Taken s rZfMapcmd → s.fld fZfMapcmdBusy = 0 →
      let t := s.writeUnder takesAll rZfMapcmd (withOp v fZfMapcmdGo fZfMapcmdOp 1)
      let r := s.zfRun v
      let after := t.fld (fCtxUpagesUse r.ctx) + r.count * (r.size / 2 ^ 21)
      (t.zfCheck .map r = 8 → exec (.map v) s = .next (t.zfResult 8))
      ∧ (after > t.fld (fCtxQpagesLimit r.ctx) → t.zfCheck .map r ≠ 0 ∧ (t.zfCheck .map r ≤ 6 ∨ t.zfCheck .map r = 8))
      ∧ (after ≤ t.fld (fCtxQpagesLimit r.ctx) → t.zfCheck .map r ≠ 8)
      ∧ (t.zfCheck .map r = 0 → ∃ u : State, exec (.map v) s = .next u ∧ u.fld fZfMapcmdResult = 0 ∧ u.fld (fCtxUpagesUse r.ctx) = after
        ∧ u.fld (fCtxUpagesUse r.ctx) ≤ u.fld (fCtxQpagesLimit r.ctx)))
    ∧ (∀ p i, Taken s rGrpCmd →
      let t (op : Nat) : State := s.writeUnder takesAll rGrpCmd (withOp v fGrpCmdGo fGrpCmdOp op)
      let c := getBits v fGrpCmdContext
      let n := getBits v fGrpCmdNumber
      let use := s.fld (fCtxQgroupsUse c)
      let above := decide (use + 1 > s.fld (fCtxQgroupsLimit c))
      let members := s.fld fGrpArg1Members
      s.active c = true → s.partOf c = some p → s.isOpen p = true →
      (((List.range (s.groupRange p).2).map ((s.groupRange p).1 + ·)).find? (fun i => s.fld (fGrpGStateState i) == 0) = some i →
        (above = true → exec (.groupJoin v) s = .next ((t 2).setFld fGrpCmdResult 4))
        ∧ (above = false → ∃ u : State, exec (.groupJoin v) s = .next u ∧ u.fld fGrpCmdResult = 0 ∧ u.fld (fCtxQgroupsUse c) = use + 1
          ∧ u.fld (fCtxQgroupsUse c) ≤ u.fld (fCtxQgroupsLimit c)))
      ∧ ((s.groupRange p).1 ≤ n → n < (s.groupRange p).1 + (s.groupRange p).2 → 2 ≤ members → members ≤ 4096 → 1 ≤ s.fld fGrpArg1FormMs →
        s.fld fGrpArg1FormMs ≤ 10000 → s.fld (fGrpGStateState n) = 0 → above = true →
        exec (.groupCreate v map views) s = .next ((t 1).setFld fGrpCmdResult 4)))

/-- A cold or warm reset empties the decant queue and the latch and clears the counters; a compute-domain reset leaves them as they stand (R193).
The warm resets are those of the host, the PCIe pins and functions, and every reset that the module starts itself. -/
def Obligations.DecantAtResets : Prop :=
  ∀ (v : Word) (silent : List LCore) (isOpen : Bool) (s t : State),
    let emptied : Prop := t.que.decant = [] ∧ t.que.latch = none ∧ t.fld fDecantLevelLevel = 0 ∧ t.fld fDecantLostLost = 0
      ∧ t.fld fDecantSpillSpill = 0
    let left (u : State) : Prop := u.que.decant = s.que.decant ∧ u.que.latch = s.que.latch ∧ u.fld fDecantLostLost = s.fld fDecantLostLost
      ∧ u.fld fDecantSpillSpill = s.fld fDecantSpillSpill ∧ u.fld fDecantLevelLevel = s.fld fDecantLevelLevel
    (exec (.coldReset isOpen) s = .next t → emptied)
    ∧ (Taken s rRstCtl → s.fld fRstCtlBusy = 0 → exec (.module v) s = .next t → emptied)
    ∧ (s.pins.vaux = true → (exec .perstAssert s = .next t → emptied) ∧ (exec .hotReset s = .next t → emptied) ∧ (exec .flr s = .next t → emptied))
    ∧ (∀ cause code aux, t = s.warm cause code aux → emptied)
    ∧ (Taken s rRstCtl → exec (.domain v silent) s = .next t → left t)
    ∧ (∀ p cause seq code hold l, left (s.domainReset p cause seq code hold l))
end

