-- ==== Sys2Proof/Laws/Crypto.lean ====
section
/-! SUPPORT. Lengths of the digests: SHA-384 gives 48 bytes. -/

namespace Sys2Proof.Machine

theorem shaRound_length {h : List Word} (k w : Word) (e : h.length = 8) : (shaRound h k w).length = 8 := by
  unfold shaRound; split
  · rfl
  · exact e

theorem shaRounds_length (ks w h : List Word) (e : h.length = 8) : (shaRounds ks w h).length = 8 := by
  induction ks generalizing w h with
  | nil => exact e
  | cons k ks ih => exact ih _ _ (shaRound_length _ _ e)

theorem shaBlocks_length (n : Nat) (h : List Word) (m : List Byte) (e : h.length = 8) : (shaBlocks n h m).length = 8 := by
  induction n generalizing h m with
  | zero => exact e
  | succ n ih => exact ih _ _ (by simp [shaBlock, shaRounds_length _ _ _ e, e])

theorem sha384_length (m : List Byte) : (sha384 m).length = 48 := by
  have b (n : Nat) : (beBytes 8 n).length = 8 := by simp [beBytes, leBytes]
  have f (l : List Word) : (l.flatMap (fun w => beBytes 8 w.toNat)).length = 8 * l.length := by
    induction l with
    | nil => rfl
    | cons a t ih => simp [b, ih]; omega
  simp [sha384, f, shaBlocks_length _ _ _ (show shaH.length = 8 from rfl)]

end Sys2Proof.Machine
end

