-- ==== Sys2Proof/Laws/Entry.lean ====
section
/-! SUPPORT. Laws of how commands enter the block: host writes, bring-up steps, management records, service-port frames, each once
everything that could turn it away does not hold. -/

namespace Sys2Proof.Machine

open Sys2Proof

/-- A host write that is taken now does what its register's write does. -/
theorem hostWrite_taken {s : State} {off : Nat} (h : Taken s off) (v : Word) (obs : HostObs) (f : State → State) :
    s.hostWrite off v obs f = f s := by
  simp only [State.hostWrite, h.1, h.2, Bool.not_true, Bool.false_eq_true, if_false]

/-- Where writes are not taken nothing changes. -/
theorem hostWrite_refused {s : State} {off : Nat} (h : s.takesWrites off = false) (v : Word) (obs : HostObs) (f : State → State) :
    s.hostWrite off v obs f = s := by
  simp only [State.hostWrite, h, Bool.not_false, if_true]

/-- A step in order runs (R420). -/
theorem startStep_ready {s : State} {n : Nat} (h : BringReady s n) (obs : HostObs) (f : State → State × Nat) :
    s.startStep n obs f = (f (s.began n)).1.reports (f (s.began n)).2 := by
  obtain ⟨ht, hb, ha, hd, hn⟩ := h
  have h1 : ¬ ((!s.auxDone) = true ∨ s.stepDone n = true ∨ (n ≥ 2 ∧ (!s.stepDone (n - 1)) = true)) := by
    rintro (h | h | ⟨h2, h⟩)
    · simp [ha] at h
    · simp [hd] at h
    · rcases hn with rfl | h3
      · omega
      · simp [h3] at h
  simp only [State.startStep, hostWrite_taken ht, hb, Bool.false_eq_true, if_false, if_neg h1]
  rfl

/-- A record that arrives does what its type gives it. -/
theorem recRow_arrives {s : State} {m : MRec} {kind : Nat} (h : Arrives s m kind) : s.recRow m kind = s.recDo m := by
  obtain ⟨h1, h2, h3, h4, h5⟩ := h
  have : ({ m with kind := BitVec.ofNat 8 kind } : MRec) = m := by rw [← h4]
  simp only [State.recRow, this, State.recv, h1, h2, h3, h5, Bool.not_true, Bool.false_eq_true, or_self, if_false]

/-- An order that is authentic and well formed acts once its sender's floor has risen. -/
theorem ordered_accepted {s : State} {m : MRec} {ok : Bool} (h : s.authResult m = 0) (hb : ok = true) (f : State → State) :
    s.ordered m ok f = f (s.raiseFloor m) := by
  simp only [State.ordered, h, hb, rpDone, ne_eq, not_true, if_false, Bool.not_true, Bool.false_eq_true]

/-- A frame in sequence that its effect refuses is answered with NAK. -/
theorem svcFrame_refused {s : State} {f : SFrame} (h : FrameTaken s f) {g : State → State × Option Nat} {t : State} {n : Nat}
    (hg : g s = (t, some n)) : s.svcFrame f g = t.svcNak n := by
  obtain ⟨h1, h2, h3, h4⟩ := h
  simp only [State.svcFrame, h1, h2, h3, h4, hg, Bool.not_true, Bool.false_eq_true, if_false, ne_eq, not_true]

/-- A frame in sequence takes its effect and is acknowledged. -/
theorem svcFrame_acked {s : State} {f : SFrame} (h : FrameTaken s f) {g : State → State × Option Nat} {t : State} (hg : g s = (t, none)) :
    s.svcFrame f g = t.acked s.sec.svcSeq := by
  obtain ⟨h1, h2, h3, h4⟩ := h
  simp only [State.svcFrame, h1, h2, h3, h4, hg, Bool.not_true, Bool.false_eq_true, if_false, ne_eq, not_true]
  rfl

/-- Once the supervisor has booted the side-band serves its commands. -/
theorem i3cSay_up {s : State} (h : s.supUp = true) (f : State → State × List Byte) : s.i3cSay f = (f s).1.emit (.i3c (0#8 :: (f s).2)) := by
  have hv : s.pins.vaux = true := by
    simp only [State.supUp, Bool.and_eq_true] at h; exact h.1
  simp only [State.i3cSay, h, hv, Bool.not_true, Bool.false_eq_true, if_false]

end Sys2Proof.Machine
end

