-- ==== Sys2Proof/Laws/Fec.lean ====
section
/-! SUPPORT. Laws of the line code (R254, R255): products in GF(2^10), and a codeword that arrives as it was sent decodes to what was sent. -/

namespace Sys2Proof.Machine

/-! ### Products in GF(2^10) -/

/-- Times x. -/
def gfX (c : Nat) : Nat := if c ≥ 512 then (2 * c) ^^^ 0x409 else 2 * c

/-- The steps of a product at given places of the second factor. -/
def gfSteps (a b : Nat) (l : List Nat) (c : Nat) : Nat := l.foldl (fun c i => if bitOf b i then gfX c ^^^ a else gfX c) c

theorem gfMul_steps (a b : Nat) : gfMul a b = gfSteps a b [9, 8, 7, 6, 5, 4, 3, 2, 1, 0] 0 := rfl

theorem two_mul_xor (a b : Nat) : 2 * (a ^^^ b) = 2 * a ^^^ 2 * b := by
  have h (n : Nat) : 2 * n = n <<< 1 := by rw [Nat.shiftLeft_eq]; omega
  simp only [h, Nat.shiftLeft_xor_distrib]

theorem top_bit {a : Nat} (h : a < 1024) : decide (a ≥ 512) = a.testBit 9 := by
  rw [Nat.testBit_eq_decide_div_mod_eq]
  exact decide_eq_decide.2 (by omega)

theorem xor_lt {a b : Nat} (ha : a < 1024) (hb : b < 1024) : a ^^^ b < 1024 := Nat.xor_lt_two_pow (n := 10) ha hb

theorem gfX_lt {c : Nat} (h : c < 1024) : gfX c < 1024 := by
  have e : ∀ c < 1024, gfX c < 1024 := by decide +kernel
  exact e c h

theorem gfX_xor {a b : Nat} (ha : a < 1024) (hb : b < 1024) : gfX (a ^^^ b) = gfX a ^^^ gfX b := by
  have e (n : Nat) (h : n < 1024) : gfX n = 2 * n ^^^ (if n.testBit 9 then 0x409 else 0) := by
    rw [← top_bit h]; by_cases g : n ≥ 512 <;> simp [gfX, g]
  rw [e _ (xor_lt ha hb), e a ha, e b hb, Nat.testBit_xor, two_mul_xor]
  cases a.testBit 9 <;> cases b.testBit 9 <;> simp [Nat.xor_assoc, Nat.xor_left_comm, Nat.xor_comm]

theorem bitOf_xor (a b i : Nat) : bitOf (a ^^^ b) i = (bitOf a i ^^ bitOf b i) := by
  have e (n : Nat) : bitOf n i = n.testBit i := by
    rw [Nat.testBit_eq_decide_div_mod_eq]; rfl
  simp [e, Nat.testBit_xor]

theorem gfSteps_lt {a b c : Nat} (ha : a < 1024) (hc : c < 1024) (l : List Nat) : gfSteps a b l c < 1024 := by
  induction l generalizing c with
  | nil => exact hc
  | cons i t ih =>
    refine ih ?_
    show (if bitOf b i then gfX c ^^^ a else gfX c) < 1024
    split; exacts [xor_lt (gfX_lt hc) ha, gfX_lt hc]

theorem gfMul_lt {a : Nat} (b : Nat) (ha : a < 1024) : gfMul a b < 1024 := by
  rw [gfMul_steps]; exact gfSteps_lt ha (by decide) _

theorem gfSteps_left {a a' b c c' : Nat} (ha : a < 1024) (ha' : a' < 1024) (hc : c < 1024) (hc' : c' < 1024) (l : List Nat) :
    gfSteps (a ^^^ a') b l (c ^^^ c') = gfSteps a b l c ^^^ gfSteps a' b l c' := by
  induction l generalizing c c' with
  | nil => rfl
  | cons i t ih =>
    simp only [gfSteps, List.foldl_cons] at ih ⊢
    rw [gfX_xor hc hc']
    split
    · rw [← ih (xor_lt (gfX_lt hc) ha) (xor_lt (gfX_lt hc') ha')]
      congr 1; ac_rfl
    · exact ih (gfX_lt hc) (gfX_lt hc')

theorem gfSteps_right {a b b' c c' : Nat} (ha : a < 1024) (hc : c < 1024) (hc' : c' < 1024) (l : List Nat) :
    gfSteps a (b ^^^ b') l (c ^^^ c') = gfSteps a b l c ^^^ gfSteps a b' l c' := by
  induction l generalizing c c' with
  | nil => rfl
  | cons i t ih =>
    simp only [gfSteps, List.foldl_cons] at ih ⊢
    rw [gfX_xor hc hc', bitOf_xor]
    have hx := gfX_lt hc
    have hx' := gfX_lt hc'
    have h1 := xor_lt hx ha
    have h2 := xor_lt hx' ha
    cases bitOf b i <;> cases bitOf b' i <;> simp only [Bool.xor_false, Bool.xor_true, Bool.not_true, Bool.not_false, if_true, if_false, Bool.false_eq_true]
    · exact ih hx hx'
    · rw [← ih hx h2]; congr 1; ac_rfl
    · rw [← ih h1 hx']; congr 1; ac_rfl
    · rw [← ih h1 h2]; congr 1
      rw [Nat.xor_assoc (gfX c), ← Nat.xor_assoc a, Nat.xor_comm a, Nat.xor_assoc (gfX c'), Nat.xor_self, Nat.xor_zero]

theorem gfMul_xor {a a' : Nat} (b : Nat) (ha : a < 1024) (ha' : a' < 1024) : gfMul (a ^^^ a') b = gfMul a b ^^^ gfMul a' b := by
  simp only [gfMul_steps]
  exact gfSteps_left (c := 0) (c' := 0) ha ha' (by decide) (by decide) _

theorem gfMul_xor_right {a : Nat} (b b' : Nat) (ha : a < 1024) : gfMul a (b ^^^ b') = gfMul a b ^^^ gfMul a b' := by
  simp only [gfMul_steps]
  exact gfSteps_right (c := 0) (c' := 0) ha (by decide) (by decide) _

theorem gfMul_zero {a : Nat} (ha : a < 1024) : gfMul a 0 = 0 := by
  have h := gfMul_xor_right 0 0 ha
  rw [Nat.xor_self] at h
  rw [h, Nat.xor_self]

theorem zero_gfMul (b : Nat) : gfMul 0 b = 0 := by
  have h := gfMul_xor (a := 0) (a' := 0) b (by decide) (by decide)
  rw [Nat.xor_self] at h
  rw [h, Nat.xor_self]

/-- Functions that respect sums agree if they agree on the powers of two. -/
theorem eq_of_bits {f g : Nat → Nat} (hf : ∀ a b, a < 1024 → b < 1024 → f (a ^^^ b) = f a ^^^ f b)
    (hg : ∀ a b, a < 1024 → b < 1024 → g (a ^^^ b) = g a ^^^ g b) (h : ∀ i < 10, f (2 ^ i) = g (2 ^ i)) {n : Nat} (hn : n < 1024) : f n = g n := by
  have z (k : Nat → Nat) (hk : ∀ a b, a < 1024 → b < 1024 → k (a ^^^ b) = k a ^^^ k b) : k 0 = 0 := by
    have := hk 0 0 (by decide) (by decide)
    rw [Nat.xor_self] at this
    rw [this, Nat.xor_self]
  have e (k : Nat) (hk : k ≤ 10) : ∀ n < 2 ^ k, f n = g n := by
    induction k with
    | zero => intro n hn; have : n = 0 := by omega
              rw [this, z f hf, z g hg]
    | succ k ih =>
      intro n hn
      have p : 2 ^ k * 2 ≤ 1024 := by
        have : 2 ^ k * 2 = 2 ^ (k + 1) := rfl
        rw [this]; exact Nat.pow_le_pow_right (by decide) hk
      by_cases hb : n < 2 ^ k
      · exact ih (by omega) n hb
      · have e : n = (n - 2 ^ k) ^^^ 2 ^ k := by
          have h1 : n - 2 ^ k < 2 ^ k := by rw [Nat.pow_succ] at hn; omega
          have := Nat.two_pow_add_eq_or_of_lt h1 1
          rw [Nat.mul_one] at this
          have h2 : (n - 2 ^ k) ^^^ 2 ^ k = 2 ^ k ||| (n - 2 ^ k) := by
            apply Nat.eq_of_testBit_eq
            intro i
            rw [Nat.testBit_xor, Nat.testBit_or, Nat.testBit_two_pow]
            by_cases hi : k = i
            · subst hi; rw [Nat.testBit_lt_two_pow h1]; simp
            · simp [hi]
          omega
        have l : n - 2 ^ k < 2 ^ k := by rw [Nat.pow_succ] at hn; omega
        rw [e, hf _ _ (by omega) (by omega), hg _ _ (by omega) (by omega), ih (by omega) _ l, h k (by omega)]
  exact e 10 (by decide) n hn

theorem two_pow_lt {i : Nat} (h : i < 10) : 2 ^ i < 1024 := Nat.pow_lt_pow_right (a := 2) (by decide) h

theorem gfMul_assoc_bits : ∀ i < 10, ∀ j < 10, ∀ k < 10, gfMul (gfMul (2 ^ i) (2 ^ j)) (2 ^ k) = gfMul (2 ^ i) (gfMul (2 ^ j) (2 ^ k)) := by
  decide +kernel

theorem gfMul_assoc {a b c : Nat} (ha : a < 1024) (hb : b < 1024) (hc : c < 1024) : gfMul (gfMul a b) c = gfMul a (gfMul b c) := by
  refine eq_of_bits (f := fun a => gfMul (gfMul a b) c) (g := fun a => gfMul a (gfMul b c)) ?_ ?_ ?_ ha
  · intro x y hx hy; simp only [gfMul_xor b hx hy, gfMul_xor c (gfMul_lt b hx) (gfMul_lt b hy)]
  · intro x y hx hy; exact gfMul_xor _ hx hy
  intro i hi
  refine eq_of_bits (f := fun b => gfMul (gfMul (2 ^ i) b) c) (g := fun b => gfMul (2 ^ i) (gfMul b c)) ?_ ?_ ?_ hb
  · intro x y _ _; simp only [gfMul_xor_right x y (two_pow_lt hi), gfMul_xor c (gfMul_lt x (two_pow_lt hi)) (gfMul_lt y (two_pow_lt hi))]
  · intro x y hx hy; simp only [gfMul_xor c hx hy, gfMul_xor_right _ _ (two_pow_lt hi)]
  intro j hj
  refine eq_of_bits (f := fun c => gfMul (gfMul (2 ^ i) (2 ^ j)) c) (g := fun c => gfMul (2 ^ i) (gfMul (2 ^ j) c)) ?_ ?_ ?_ hc
  · intro x y _ _; exact gfMul_xor_right x y (gfMul_lt _ (two_pow_lt hi))
  · intro x y _ _; simp only [gfMul_xor_right x y (two_pow_lt hj), gfMul_xor_right _ _ (two_pow_lt hi)]
  intro k hk
  exact gfMul_assoc_bits i hi j hj k hk

theorem gfMul_one {a : Nat} (ha : a < 1024) : gfMul a 1 = a := by
  refine eq_of_bits (f := fun a => gfMul a 1) (g := id) (fun x y hx hy => gfMul_xor 1 hx hy) (fun _ _ _ _ => rfl) ?_ ha
  decide +kernel

/-! ### What is sent has no syndrome (R254) -/

/-- Value of a polynomial at x, highest coefficient first, behind an accumulator. -/
def horner (x acc : Nat) (l : List Nat) : Nat := l.foldl (fun acc c => gfMul acc x ^^^ c) acc

theorem horner_lt {x acc : Nat} {l : List Nat} (ha : acc < 1024) (hl : ∀ c ∈ l, c < 1024) : horner x acc l < 1024 := by
  induction l generalizing acc with
  | nil => exact ha
  | cons c t ih =>
    exact ih (xor_lt (gfMul_lt x ha) (hl c (by simp))) (fun d hd => hl d (by simp [hd]))

/-- Sums of accumulators and of coefficients give sums. -/
theorem horner_xor {x : Nat} {l m : List Nat} {a b : Nat} (ha : a < 1024) (hb : b < 1024) (e : l.length = m.length) (hl : ∀ c ∈ l, c < 1024)
    (hm : ∀ c ∈ m, c < 1024) : horner x (a ^^^ b) (List.zipWith (· ^^^ ·) l m) = horner x a l ^^^ horner x b m := by
  induction l generalizing m a b with
  | nil => cases m with
    | nil => rfl
    | cons _ _ => simp at e
  | cons c t ih => cases m with
    | nil => simp at e
    | cons d u =>
      have hc := hl c (by simp)
      have hd := hm d (by simp)
      simp only [horner, List.zipWith_cons_cons, List.foldl_cons] at ih ⊢
      rw [gfMul_xor x ha hb, ← ih (xor_lt (gfMul_lt x ha) hc) (xor_lt (gfMul_lt x hb) hd) (by simpa using e)
        (fun c hc => hl c (by simp [hc])) (fun c hc => hm c (by simp [hc]))]
      congr 1; ac_rfl

/-- A factor may be taken out. -/
theorem horner_scale {x f acc : Nat} {l : List Nat} (hx : x < 1024) (hf : f < 1024) (ha : acc < 1024) (hl : ∀ c ∈ l, c < 1024) :
    horner x (gfMul f acc) (l.map (gfMul f)) = gfMul f (horner x acc l) := by
  induction l generalizing acc with
  | nil => rfl
  | cons c t ih =>
    simp only [horner, List.map_cons, List.foldl_cons] at ih ⊢
    rw [gfMul_assoc hf ha hx, ← gfMul_xor_right _ _ hf]
    exact ih (xor_lt (gfMul_lt x ha) (hl c (by simp))) (fun d hd => hl d (by simp [hd]))

/-- x to the n-th. -/
def gfRaise (x n : Nat) : Nat := horner x 1 (List.replicate n 0)

theorem horner_append (x a : Nat) (l m : List Nat) : horner x a (l ++ m) = horner x (horner x a l) m := List.foldl_append

theorem horner_zeros (x n : Nat) : horner x 0 (List.replicate n 0) = 0 := by
  induction n with
  | zero => rfl
  | succ n ih => simpa [horner, List.replicate_succ, zero_gfMul] using ih

theorem horner_raise {x a : Nat} (hx : x < 1024) (ha : a < 1024) (n : Nat) : horner x a (List.replicate n 0) = gfMul a (gfRaise x n) := by
  have h := horner_scale (x := x) (f := a) (acc := 1) (l := List.replicate n 0) hx ha (by decide) (by simp +contextual)
  rw [gfMul_one ha] at h
  rw [gfRaise, ← h]
  simp [gfMul_zero ha]

/-- The accumulator's share and the coefficients'. -/
theorem horner_split {x a : Nat} {l : List Nat} (hx : x < 1024) (ha : a < 1024) (hl : ∀ c ∈ l, c < 1024) :
    horner x a l = gfMul a (gfRaise x l.length) ^^^ horner x 0 l := by
  have h := horner_xor (x := x) (a := a) (b := 0) (l := List.replicate l.length 0) (m := l) ha (by decide) (by simp) (by simp +contextual) hl
  rw [Nat.xor_zero, horner_raise hx ha] at h
  rw [← h]
  congr 1
  induction l with
  | nil => rfl
  | cons c t ih => simp [List.replicate_succ, ← ih (fun c hc => hl c (by simp [hc])) (by
      have := horner_xor (x := x) (a := a) (b := 0) (l := List.replicate t.length 0) (m := t) ha (by decide) (by simp) (by simp +contextual)
        (fun c hc => hl c (by simp [hc]))
      rw [Nat.xor_zero, horner_raise hx ha] at this
      exact this)]

theorem rsGen_eq : rsGen = [575, 552, 187, 230, 552, 1, 108, 565, 282, 249, 593, 132, 94, 720, 495, 385, 942, 503, 883, 361, 788, 610, 193, 392, 127, 185, 158, 128, 834, 523] := by decide +kernel

theorem rsGen_length : rsGen.length = 30 := by rw [rsGen_eq]; rfl

theorem rsGen_lt : ∀ c ∈ rsGen, c < 1024 := by rw [rsGen_eq]; decide

/-- Each root of the generator: there the rest of it equals the thirtieth power. -/
theorem rsGen_root : ∀ j < 30, horner (gfExp j) 0 rsGen = gfRaise (gfExp j) 30 := by rw [rsGen_eq]; decide +kernel

theorem gfExp_lt : ∀ j < 30, gfExp j < 1024 := by decide +kernel

/-- One symbol of the division. -/
def rsStep (rem : List Nat) (m : Nat) : List Nat :=
  List.zipWith (fun r g => r ^^^ gfMul (m ^^^ rem.headD 0) g) (rem.drop 1 ++ [0]) rsGen

theorem rsCheck_steps (msg : List Nat) : rsCheck msg = msg.foldl rsStep (List.replicate 30 0) := rfl

/-- A remainder under way: thirty symbols whose value at x is the accumulator's share of the thirtieth power. -/
structure Remains (x acc : Nat) (rem : List Nat) : Prop where
  length : rem.length = 30
  lt : ∀ c ∈ rem, c < 1024
  value : horner x 0 rem = gfMul acc (gfRaise x 30)

theorem rsStep_eq (rem : List Nat) (m : Nat) :
    rsStep rem m = List.zipWith (· ^^^ ·) (rem.drop 1 ++ [0]) (rsGen.map (gfMul (m ^^^ rem.headD 0))) := by
  rw [rsStep, List.zipWith_map_right]

theorem rsStep_remains {x acc m : Nat} {rem : List Nat} (hx : x < 1024) (hg : horner x 0 rsGen = gfRaise x 30) (ha : acc < 1024) (hm : m < 1024)
    (h : Remains x acc rem) : Remains x (gfMul acc x ^^^ m) (rsStep rem m) := by
  obtain ⟨hl, hr, hv⟩ := h
  cases rem with
  | nil => simp at hl
  | cons r t =>
    have hr0 : r < 1024 := hr r (by simp)
    have ht : ∀ c ∈ t, c < 1024 := fun c hc => hr c (by simp [hc])
    have hf : m ^^^ r < 1024 := xor_lt hm hr0
    have hlt : t.length = 29 := by simpa using hl
    have ht0 : ∀ c ∈ t ++ [0], c < 1024 := by
      intro c hc; rcases List.mem_append.1 hc with h | h
      · exact ht c h
      · simp at h; omega
    have hgm : ∀ c ∈ rsGen.map (gfMul (m ^^^ r)), c < 1024 := by
      intro c hc; obtain ⟨g, _, rfl⟩ := List.mem_map.1 hc; exact gfMul_lt g hf
    have e : rsStep (r :: t) m = List.zipWith (· ^^^ ·) (t ++ [0]) (rsGen.map (gfMul (m ^^^ r))) := rsStep_eq _ _
    have hp : gfRaise x 30 < 1024 := horner_lt (by decide) (by simp +contextual)
    have h29 : gfRaise x 29 < 1024 := horner_lt (by decide) (by simp +contextual)
    refine ⟨by rw [e]; simp [rsGen_length, hlt], ?_, ?_⟩
    · rw [e]
      intro c hc
      obtain ⟨i, hi, rfl⟩ := List.mem_iff_getElem.1 hc
      rw [List.getElem_zipWith]
      exact xor_lt (ht0 _ (List.getElem_mem _)) (hgm _ (List.getElem_mem _))
    · have s : horner x 0 (r :: t) = gfMul r (gfRaise x 29) ^^^ horner x 0 t := by
        have := horner_split (x := x) (a := r) hx hr0 ht
        rw [hlt] at this
        rw [← this]; simp [horner, zero_gfMul]
      have p30 : gfRaise x 30 = gfMul (gfRaise x 29) x := by
        have : List.replicate 30 0 = List.replicate 29 0 ++ [0] := rfl
        rw [gfRaise, this, horner_append]; simp [horner, gfRaise]
      have hz := horner_scale (x := x) (f := m ^^^ r) (acc := 0) (l := rsGen) hx hf (by decide) rsGen_lt
      rw [gfMul_zero hf] at hz
      have hs := horner_xor (x := x) (a := 0) (b := 0) (l := t ++ [0]) (m := rsGen.map (gfMul (m ^^^ r))) (by decide) (by decide)
        (by simp [rsGen_length, hlt]) ht0 hgm
      rw [Nat.xor_self] at hs
      have ht1 : horner x 0 t < 1024 := horner_lt (by decide) ht
      rw [e, hs, hz, hg, horner_append]
      have one (a : Nat) : horner x a [0] = gfMul a x := by simp [horner]
      rw [one, gfMul_xor _ hm hr0, gfMul_xor _ (gfMul_lt x ha) hm]
      have hv' : gfMul (gfMul r (gfRaise x 29) ^^^ horner x 0 t) x = gfMul (gfMul acc (gfRaise x 30)) x := by rw [← s, hv]
      have comm : gfMul (gfRaise x 30) x = gfMul x (gfRaise x 30) := by
        rw [← horner_raise hx hx 30]
        have : horner x x (List.replicate 30 0) = horner x 1 ([0] ++ List.replicate 30 0) := by
          simp only [List.singleton_append, horner, List.foldl_cons, Nat.xor_zero]
          congr 1
          have := gfMul_one hx
          exact (eq_of_bits (f := fun x => gfMul 1 x) (g := id) (fun a b _ _ => gfMul_xor_right a b (by decide)) (fun _ _ _ _ => rfl)
            (by decide +kernel) hx).symm
        rw [this]
        have : [0] ++ List.replicate 30 0 = List.replicate 30 0 ++ [0] := rfl
        rw [this, horner_append]; simp [horner, gfRaise]
      rw [gfMul_xor x (gfMul_lt _ hr0) ht1, gfMul_assoc hr0 h29 hx, ← p30, gfMul_assoc ha hp hx, comm, ← gfMul_assoc ha hx hp] at hv'
      rw [← hv']
      rw [Nat.xor_comm (gfMul m _), ← Nat.xor_assoc, Nat.xor_comm (horner x 0 t |> (gfMul · x))]

/-- What is sent has no syndrome. -/
theorem rsEncode_horner {x : Nat} {msg : List Nat} (hx : x < 1024) (hg : horner x 0 rsGen = gfRaise x 30) (hm : ∀ c ∈ msg, c < 1024) :
    horner x 0 (rsEncode msg) = 0 := by
  have h (l : List Nat) (hl : ∀ c ∈ l, c < 1024) : ∀ acc rem, acc < 1024 → Remains x acc rem → Remains x (horner x acc l) (l.foldl rsStep rem) := by
    induction l with
    | nil => intro acc rem _ h; exact h
    | cons c t ih =>
      intro acc rem ha h
      exact ih (fun d hd => hl d (by simp [hd])) _ _ (xor_lt (gfMul_lt x ha) (hl c (by simp))) (rsStep_remains hx hg ha (hl c (by simp)) h)
  have r := h msg hm 0 (List.replicate 30 0) (by decide) ⟨by simp, by simp +contextual, by rw [horner_zeros, zero_gfMul]⟩
  rw [← rsCheck_steps] at r
  have hw : horner x 0 msg < 1024 := horner_lt (by decide) hm
  rw [rsEncode, horner_append, horner_split hx hw r.lt, r.length, r.value, Nat.xor_self]

theorem rsEncode_syndromes {msg : List Nat} (hm : ∀ c ∈ msg, c < 1024) : (syndromes (rsEncode msg)).all (· == 0) = true := by
  simp only [syndromes, List.all_map, List.all_eq_true, List.mem_range, Function.comp, beq_iff_eq]
  intro j hj
  exact rsEncode_horner (gfExp_lt j hj) (rsGen_root j hj) hm

/-! ### Levels and message bits (R254, R255) -/

theorem levelAt_pack (l : List Nat) : ∀ j, levelAt (packLevels l) j = (l.getD j 0) % 4 := by
  induction l with
  | nil => intro j; simp [levelAt, packLevels]
  | cons a t ih =>
    intro j
    cases j with
    | zero => simp [levelAt, packLevels]
    | succ j =>
      have e : packLevels (a :: t) / 4 ^ (j + 1) = packLevels t / 4 ^ j := by
        have q : (a % 4 + 4 * packLevels t) / 4 = packLevels t := by omega
        rw [packLevels, Nat.pow_succ, Nat.mul_comm (4 ^ j), ← Nat.div_div_eq_div_mul, q]
      simp only [levelAt, e, List.getD_cons_succ]
      exact ih j

theorem packLevels_lt (l : List Nat) : packLevels l < 4 ^ l.length := by
  induction l with
  | nil => simp [packLevels]
  | cons a t ih => simp only [packLevels, List.length_cons, Nat.pow_succ]; omega

theorem symbolLevels_length (v : Nat) : (symbolLevels v).length = 5 := rfl

theorem gray_back : ∀ v < 4, grayBits (grayLevel v % 4) = v := by decide

/-- The five levels of a symbol spell it. -/
theorem symbolLevels_spell (v : Nat) (h : v < 1024) :
    (List.range 5).foldl (fun acc i => acc * 4 + grayBits ((symbolLevels v).getD i 0 % 4)) 0 = v := by
  have g (d : Nat) : grayBits (grayLevel (v / d % 4) % 4) = v / d % 4 := gray_back _ (Nat.mod_lt _ (by decide))
  have r : List.range 5 = [0, 1, 2, 3, 4] := rfl
  simp only [r, symbolLevels, List.foldl_cons, List.foldl_nil, List.map_cons, List.map_nil, List.getD_cons_zero, List.getD_cons_succ, g]
  omega

theorem getD_flatMap (l : List Nat) : ∀ k i, k < l.length → i < 5 → (l.flatMap symbolLevels).getD (5 * k + i) 0 = (symbolLevels (l.getD k 0)).getD i 0 := by
  induction l with
  | nil => intro k i h; simp at h
  | cons a t ih =>
    intro k i hk hi
    rw [List.flatMap_cons]
    cases k with
    | zero =>
      rw [Nat.mul_zero, Nat.zero_add, List.getD_append _ _ _ _ (by rw [symbolLevels_length]; exact hi)]; rfl
    | succ k =>
      rw [List.getD_append_right _ _ _ _ (by rw [symbolLevels_length]; omega), symbolLevels_length]
      have e : 5 * (k + 1) + i - 5 = 5 * k + i := by omega
      rw [e, ih k i (by simpa using hk) hi]; rfl

/-- Levels spell the symbols that they carry. -/
theorem receivedSymbols_pack {syms : List Nat} (hl : syms.length = 544) (hs : ∀ c ∈ syms, c < 1024) :
    receivedSymbols (BitVec.ofNat 5440 (packLevels (syms.flatMap symbolLevels))) = syms := by
  have len : (syms.flatMap symbolLevels).length = 2720 := by
    rw [List.length_flatMap, List.map_congr_left (g := fun _ => 5) (fun v _ => symbolLevels_length v), List.map_const', List.sum_replicate_nat, hl]
  have small : packLevels (syms.flatMap symbolLevels) < 2 ^ 5440 := by
    have h := packLevels_lt (syms.flatMap symbolLevels)
    rw [len] at h
    have e : (4 : Nat) ^ 2720 = 2 ^ 5440 := (Nat.pow_mul 2 2 2720).symm
    rwa [e] at h
  apply List.ext_getElem
  · simp [receivedSymbols, hl]
  intro k h1 h2
  have hk : k < 544 := by simpa [receivedSymbols] using h1
  simp only [receivedSymbols, List.getElem_map, List.getElem_range, BitVec.toNat_ofNat, Nat.mod_eq_of_lt small, levelAt_pack]
  have e := symbolLevels_spell (syms[k]) (hs _ (List.getElem_mem _))
  rw [← e]
  have g (i : Nat) (hi : i < 5) : (syms.flatMap symbolLevels).getD (5 * k + i) 0 = (symbolLevels syms[k]).getD i 0 := by
    rw [getD_flatMap syms k i h2 hi, List.getD_eq_getElem _ _ h2]
  have r : List.range 5 = [0, 1, 2, 3, 4] := rfl
  simp only [r, List.foldl_cons, List.foldl_nil, g 0 (by decide), g 1 (by decide), g 2 (by decide), g 3 (by decide), g 4 (by decide)]

theorem rsStep_length {rem : List Nat} (m : Nat) (h : rem.length = 30) : (rsStep rem m).length = 30 := by
  simp [rsStep, rsGen_length, h]

theorem rsCheck_length (msg : List Nat) : (rsCheck msg).length = 30 := by
  rw [rsCheck_steps]
  have h (l : List Nat) : ∀ rem : List Nat, rem.length = 30 → (l.foldl rsStep rem).length = 30 := by
    induction l with
    | nil => intro rem h; exact h
    | cons m t ih => intro rem h; exact ih _ (rsStep_length m h)
  exact h msg _ (by simp)

theorem rsCheck_lt {msg : List Nat} (hm : ∀ c ∈ msg, c < 1024) : ∀ c ∈ rsCheck msg, c < 1024 := by
  rw [rsCheck_steps]
  have h (l : List Nat) (hl : ∀ c ∈ l, c < 1024) : ∀ rem : List Nat, (∀ c ∈ rem, c < 1024) → ∀ c ∈ l.foldl rsStep rem, c < 1024 := by
    induction l with
    | nil => intro rem h; exact h
    | cons m t ih =>
      intro rem h
      refine ih (fun d hd => hl d (by simp [hd])) _ ?_
      intro c hc
      have hh : rem.headD 0 < 1024 := by
        cases rem with
        | nil => decide
        | cons a _ => exact h a (by simp)
      obtain ⟨i, hi, rfl⟩ := List.mem_iff_getElem.1 hc
      simp only [rsStep, List.getElem_zipWith]
      refine xor_lt ?_ (gfMul_lt _ (xor_lt (hl m (by simp)) hh))
      have z : ∀ d ∈ rem.drop 1 ++ [0], d < 1024 := by
        intro d hd
        rcases List.mem_append.1 hd with q | q
        · exact h _ (List.mem_of_mem_drop q)
        · rw [List.mem_singleton.1 q]; decide
      exact z _ (List.getElem_mem _)
  exact h msg hm _ (by simp +contextual)

theorem messageSymbols_lt (c : Codeword) : ∀ d ∈ messageSymbols c, d < 1024 := by
  intro d hd
  obtain ⟨k, _, rfl⟩ := List.mem_map.1 hd
  exact Nat.mod_lt _ (by decide)

/-- Digits of a number in base 1,024 give it back. -/
theorem digits_back (m : Nat) : ∀ n, (((List.range n).map (fun k => m / 2 ^ (10 * k) % 1024)).foldr (fun s acc => s % 1024 + 1024 * acc) 0) = m % 1024 ^ n := by
  intro n
  induction n generalizing m with
  | zero => simp [Nat.mod_one]
  | succ n ih =>
    rw [List.range_succ_eq_map, List.map_cons, List.map_map, List.foldr_cons]
    have e : (List.range n).map ((fun k => m / 2 ^ (10 * k) % 1024) ∘ Nat.succ) = (List.range n).map (fun k => m / 1024 / 2 ^ (10 * k) % 1024) := by
      refine List.map_congr_left (fun k _ => ?_)
      show m / 2 ^ (10 * (k + 1)) % 1024 = _
      rw [Nat.div_div_eq_div_mul, show 10 * (k + 1) = 10 + 10 * k from by omega, Nat.pow_add]
    rw [e, ih (m / 1024), Nat.mul_zero, Nat.pow_zero, Nat.div_one, Nat.mod_mod, Nat.pow_succ, Nat.mul_comm (1024 ^ n), Nat.mod_mul]

/-- What a codeword's message symbols say again. -/
def Codeword.plain (c : Codeword) : Codeword :=
  { c with slots := (List.range 10).map (fun s => leBytes 64 (fromLe c.slots.flatten % 2 ^ 5120 / 2 ^ (512 * s))) }

theorem readMessage_symbols (c : Codeword) : readMessage (messageSymbols c ++ rsCheck (messageSymbols c)) = c.plain := by
  have len : (messageSymbols c).length = 514 := by rw [messageSymbols, List.length_map, List.length_range]
  have hh := c.hdr.isLt
  have hn := c.nib.isLt
  have hs : fromLe c.slots.flatten % 2 ^ 5120 < 2 ^ 5120 := Nat.mod_lt _ (Nat.two_pow_pos 5120)
  have split : (1024 : Nat) ^ 514 = 2 ^ 20 * 2 ^ 5120 := by rw [show (1024 : Nat) = 2 ^ 10 from rfl, ← Nat.pow_mul, ← Nat.pow_add]
  rw [readMessage, List.take_left' len, messageSymbols, digits_back, split, Codeword.plain]
  generalize (2 : Nat) ^ 5120 = T at hs ⊢
  generalize fromLe c.slots.flatten % T = S at hs ⊢
  have lt : c.hdr.toNat + 2 ^ 16 * c.nib.toNat + 2 ^ 20 * S < 2 ^ 20 * T := by
    have : 2 ^ 20 * S + 2 ^ 20 ≤ 2 ^ 20 * T := by rw [← Nat.mul_succ]; exact Nat.mul_le_mul_left _ hs
    omega
  rw [Nat.mod_eq_of_lt lt]
  have h1 : BitVec.ofNat 16 (c.hdr.toNat + 2 ^ 16 * c.nib.toNat + 2 ^ 20 * S) = c.hdr := by
    apply BitVec.eq_of_toNat_eq; rw [BitVec.toNat_ofNat]; omega
  have h2 : BitVec.ofNat 4 ((c.hdr.toNat + 2 ^ 16 * c.nib.toNat + 2 ^ 20 * S) / 2 ^ 16) = c.nib := by
    apply BitVec.eq_of_toNat_eq; rw [BitVec.toNat_ofNat]; omega
  have h3 (k : Nat) : (c.hdr.toNat + 2 ^ 16 * c.nib.toNat + 2 ^ 20 * S) / 2 ^ (20 + k) = S / 2 ^ k := by
    have e : (c.hdr.toNat + 2 ^ 16 * c.nib.toNat + 2 ^ 20 * S) / 2 ^ 20 = S := by omega
    rw [Nat.pow_add 2 20 k, ← Nat.div_div_eq_div_mul, e]
  simp only [h1, h2, h3]

/-- A codeword that arrives as it was sent decodes to what its message symbols say, with nothing corrected. -/
theorem decode_send_plain (c : Codeword) : decodeCodeword (sendCodeword c) = some (c.plain, 0) := by
  have hl : (rsEncode (messageSymbols c)).length = 544 := by
    rw [rsEncode, List.length_append, rsCheck_length, messageSymbols, List.length_map, List.length_range]
  have hs : ∀ d ∈ rsEncode (messageSymbols c), d < 1024 := by
    intro d hd
    rcases List.mem_append.1 hd with h | h
    exacts [messageSymbols_lt c d h, rsCheck_lt (messageSymbols_lt c) d h]
  rw [decodeCodeword, sendCodeword, receivedSymbols_pack hl hs, rsDecode]
  simp only [rsEncode_syndromes (messageSymbols_lt c), if_true, Option.map_some]
  rw [rsEncode, readMessage_symbols]

/-! ### Bytes of slots and of express flits (R254, R265, R266) -/

@[simp] theorem leBytes_length (n v : Nat) : (leBytes n v).length = n := by
  induction n generalizing v with
  | zero => rfl
  | succ n ih => simp [leBytes, ih]

theorem fromLe_lt (l : List Byte) : fromLe l < 2 ^ (8 * l.length) := by
  induction l with
  | nil => simp [fromLe]
  | cons b t ih =>
    have hb := b.isLt
    rw [fromLe, List.length_cons, show 8 * (t.length + 1) = 8 * t.length + 8 from by omega, Nat.pow_add]
    omega

/-- The lowest bytes of what bytes spell. -/
theorem leBytes_fromLe (n : Nat) (l : List Byte) (h : n ≤ l.length) : leBytes n (fromLe l) = l.take n := by
  induction n generalizing l with
  | zero => rfl
  | succ n ih => cases l with
    | nil => simp at h
    | cons b t =>
      have hb := b.isLt
      have e1 : BitVec.ofNat 8 (b.toNat + 256 * fromLe t) = b := by
        apply BitVec.eq_of_toNat_eq; rw [BitVec.toNat_ofNat]; omega
      have e2 : (b.toNat + 256 * fromLe t) / 256 = fromLe t := by omega
      rw [leBytes, fromLe, e1, e2, ih t (by simpa using h)]; rfl

theorem fromLe_leBytes (n v : Nat) : fromLe (leBytes n v) = v % 2 ^ (8 * n) := by
  induction n generalizing v with
  | zero => simp [leBytes, fromLe, Nat.mod_one]
  | succ n ih =>
    rw [leBytes, fromLe, ih, BitVec.toNat_ofNat, show 8 * (n + 1) = 8 + 8 * n from by omega, Nat.pow_add, Nat.mod_mul]

theorem fromLe_drop (l : List Byte) : ∀ k, fromLe l / 2 ^ (8 * k) = fromLe (l.drop k) := by
  induction l with
  | nil => intro k; simp [fromLe]
  | cons b t ih =>
    intro k
    cases k with
    | zero => simp
    | succ k =>
      have hb := b.isLt
      have e : (b.toNat + 256 * fromLe t) / 2 ^ 8 = fromLe t := by omega
      rw [fromLe, show 8 * (k + 1) = 8 + 8 * k from by omega, Nat.pow_add 2 8, ← Nat.div_div_eq_div_mul, e, ih k, List.drop_succ_cons]

theorem flatten_slots (l : List (List Byte)) (h : ∀ b ∈ l, b.length = 64) :
    (List.range l.length).map (fun s => (l.flatten.drop (64 * s)).take 64) = l := by
  induction l with
  | nil => rfl
  | cons b t ih =>
    have hb := h b (by simp)
    have ht := ih (fun c hc => h c (by simp [hc]))
    rw [List.length_cons, List.range_succ_eq_map, List.map_cons, List.map_map, Nat.mul_zero, List.drop_zero, List.flatten_cons, List.take_left' hb]
    congr 1
    refine Eq.trans (List.map_congr_left (fun s _ => ?_)) ht
    show ((b ++ t.flatten).drop (64 * (s + 1))).take 64 = _
    rw [show 64 * (s + 1) = b.length + 64 * s from by omega, ← List.drop_drop, List.drop_left]

/-- A codeword of ten slots of 64 bytes. -/
theorem plain_eq (c : Codeword) (h : c.slots.length = 10) (hs : ∀ b ∈ c.slots, b.length = 64) : c.plain = c := by
  have len : c.slots.flatten.length = 640 := by
    rw [List.length_flatten, List.map_congr_left (g := fun _ => 64) hs, List.map_const', List.sum_replicate_nat, h]
  have small := fromLe_lt c.slots.flatten
  rw [len] at small
  have e : (List.range 10).map (fun s => leBytes 64 (fromLe c.slots.flatten % 2 ^ 5120 / 2 ^ (512 * s))) = c.slots := by
    rw [Nat.mod_eq_of_lt small]
    have f := flatten_slots c.slots hs
    rw [h] at f
    refine Eq.trans (List.map_congr_left (fun s hr => ?_)) f
    have hr := List.mem_range.1 hr
    rw [show 512 * s = 8 * (64 * s) from by omega, fromLe_drop, leBytes_fromLe _ _ (by rw [List.length_drop, len]; omega)]
  simp only [Codeword.plain, e]

/-- A codeword that arrives as it was sent decodes to what was sent, with nothing corrected. -/
theorem decode_send (c : Codeword) (h : c.slots.length = 10) (hs : ∀ b ∈ c.slots, b.length = 64) :
    decodeCodeword (sendCodeword c) = some (c, 0) := by
  rw [decode_send_plain, plain_eq c h hs]

theorem raw_send (c : Codeword) (h : c.slots.length = 10) (hs : ∀ b ∈ c.slots, b.length = 64) : rawCodeword (sendCodeword c) = c := by
  have hl : (rsEncode (messageSymbols c)).length = 544 := by
    rw [rsEncode, List.length_append, rsCheck_length, messageSymbols, List.length_map, List.length_range]
  have hd : ∀ d ∈ rsEncode (messageSymbols c), d < 1024 := by
    intro d hd
    rcases List.mem_append.1 hd with h | h
    exacts [messageSymbols_lt c d h, rsCheck_lt (messageSymbols_lt c) d h]
  rw [rawCodeword, sendCodeword, receivedSymbols_pack hl hd, rsEncode, readMessage_symbols, plain_eq c h hs]

theorem crc32Bit_lt {c : Nat} (h : c < 2 ^ 32) : crc32Bit c < 2 ^ 32 := by
  rw [crc32Bit]; split
  · exact Nat.xor_lt_two_pow (by omega) (by decide)
  · omega

theorem crc32_lt (l : List Byte) : crc32 l < 2 ^ 32 := by
  refine Nat.xor_lt_two_pow ?_ (by decide)
  have h : ∀ c < 2 ^ 32, l.foldl crc32Byte c < 2 ^ 32 := by
    induction l with
    | nil => exact fun c h => h
    | cons b t ih =>
      refine fun c hc => ih _ ?_
      have hb : c ^^^ b.toNat < 2 ^ 32 := Nat.xor_lt_two_pow hc (Nat.lt_trans b.isLt (by decide))
      exact crc32Bit_lt (crc32Bit_lt (crc32Bit_lt (crc32Bit_lt (crc32Bit_lt (crc32Bit_lt (crc32Bit_lt (crc32Bit_lt hb)))))))
  exact h _ (by decide)

theorem sealTag_length (key : List Byte) (x : Bool) (ctr : Nat) (aad ct : List Byte) : (sealTag key x ctr 12 aad ct).length = 12 := by
  simp [sealTag, gcmTag, beBytes]

/-- An express flit that arrives as it was sent holds, and shows its counter (R265, R266). -/
theorem express_holds (ctr : Nat) (content : List Byte) (h : content.length = 44) : expressOk [] ctr (expressFlit [] ctr content) = true
    ∧ (expressFlit [] ctr content).length = 64 ∧ field (expressFlit [] ctr content) 44 2 = ctr % 2 ^ 16 := by
  have body : (content ++ List.replicate 44 0#8).take 44 = content := List.take_left' h
  have tl := sealTag_length [] true ctr (leBytes 2 (ctr % 2 ^ 16) ++ [0#8, 0#8]) content
  simp only [expressFlit, cipher, if_true, body]
  generalize hT : sealTag [] true ctr 12 (leBytes 2 (ctr % 2 ^ 16) ++ [0#8, 0#8]) content = T at tl ⊢
  generalize hA : leBytes 2 (ctr % 2 ^ 16) ++ [0#8, 0#8] = A at hT ⊢
  have al : A.length = 4 := by rw [← hA]; simp
  have bl : (content ++ A ++ T).length = 60 := by simp [h, al, tl]
  generalize hB : content ++ A ++ T = B at bl ⊢
  generalize hC : leBytes 4 (crc32 B) = C
  have cl : C.length = 4 := by rw [← hC]; simp
  have t60 : (B ++ C).take 60 = B := List.take_left' bl
  have d60 : (B ++ C).drop 60 = C := List.drop_left' bl
  have f60 : field (B ++ C) 60 4 = crc32 B := by
    rw [field, d60, List.take_of_length_le (by omega), ← hC, fromLe_leBytes, Nat.mod_eq_of_lt (crc32_lt B)]
  have e : B ++ C = content ++ (A ++ (T ++ C)) := by rw [← hB]; simp
  have d44 : (B ++ C).drop 44 = A ++ (T ++ C) := by rw [e]; exact List.drop_left' h
  have t44 : (B ++ C).take 44 = content := by rw [e]; exact List.take_left' h
  have d48 : (B ++ C).drop 48 = T ++ C := by
    rw [show 48 = 44 + 4 from rfl, ← List.drop_drop, d44]; exact List.drop_left' al
  refine ⟨?_, by simp [bl, cl], ?_⟩
  · simp only [expressOk, f60, t60, d44, t44, d48, List.take_left' al, List.take_left' tl, hT]
    simp [bl, cl]
  · rw [field, d44, ← hA, List.append_assoc, List.take_left' (by simp), fromLe_leBytes, Nat.mod_mod]

end Sys2Proof.Machine
end

