-- ==== Sys2Proof/Laws/Map.lean ====
section
/-! SUPPORT. Laws of the sparse tables: a read after a write to the same key gives the value written, a write leaves every other key
alone, and every operation keeps the canonical form. -/

namespace Sys2Proof.Machine

variable {α : Type}

/-- The keys of a rising list lie above its head. -/
theorem rising_head {k : Nat} {v : α} {t : List (Nat × α)} (h : rising ((k, v) :: t) = true) : ∀ p ∈ t, k < p.1 := by
  induction t generalizing k v with
  | nil => simp
  | cons q t ih =>
    obtain ⟨b, w⟩ := q
    simp only [rising, Bool.and_eq_true, decide_eq_true_eq] at h
    intro p hp
    rcases List.mem_cons.mp hp with rfl | hp
    · exact h.1
    · exact Nat.lt_trans h.1 (ih h.2 p hp)

/-- The tail of a rising list rises. -/
theorem rising_tail {p : Nat × α} {t : List (Nat × α)} (h : rising (p :: t) = true) : rising t = true := by
  cases t with
  | nil => rfl
  | cons q t => simp only [rising, Bool.and_eq_true] at h; exact h.2

/-- A list rises when its tail does and its head lies below. -/
theorem rising_cons {k : Nat} {v : α} {t : List (Nat × α)} (h : ∀ p ∈ t, k < p.1) (ht : rising t = true) :
    rising ((k, v) :: t) = true := by
  cases t with
  | nil => rfl
  | cons q t => simp only [rising, Bool.and_eq_true, decide_eq_true_eq]; exact ⟨h q (by simp), ht⟩

theorem lookupKey_insertKey_same (l : List (Nat × α)) (a : Nat) (v : α) : lookupKey (insertKey l a v) a = some v := by
  induction l with
  | nil => simp [insertKey, lookupKey]
  | cons p t ih =>
    obtain ⟨k, w⟩ := p
    unfold insertKey
    split
    · simp [lookupKey]
    · split
      · simp [lookupKey]
      · next h1 h2 => simp [lookupKey, ih, Ne.symm h2]

theorem lookupKey_insertKey_other (l : List (Nat × α)) {a b : Nat} (v : α) (h : b ≠ a) :
    lookupKey (insertKey l a v) b = lookupKey l b := by
  induction l with
  | nil => simp [insertKey, lookupKey, Ne.symm h]
  | cons p t ih =>
    obtain ⟨k, w⟩ := p
    unfold insertKey
    split
    · simp [lookupKey, Ne.symm h]
    · split
      · next h2 => subst h2; simp [lookupKey, Ne.symm h]
      · simp [lookupKey, ih]

/-- Of two writes to one key the second stands. -/
theorem insertKey_insertKey (l : List (Nat × α)) (a : Nat) (v w : α) : insertKey (insertKey l a v) a w = insertKey l a w := by
  induction l with
  | nil => simp [insertKey]
  | cons p t ih =>
    obtain ⟨k, u⟩ := p
    simp only [insertKey]
    split
    · simp [insertKey]
    · split
      · next h1 h2 => simp [insertKey]
      · next h1 h2 => simp [insertKey, h1, h2, ih]

theorem mem_insertKey {l : List (Nat × α)} {a : Nat} {v : α} {p : Nat × α} (h : p ∈ insertKey l a v) : p = (a, v) ∨ p ∈ l := by
  induction l with
  | nil => simpa [insertKey] using h
  | cons q t ih =>
    obtain ⟨k, w⟩ := q
    unfold insertKey at h
    split at h
    · simpa using h
    · split at h
      · rcases List.mem_cons.mp h with h | h
        · exact .inl h
        · exact .inr (by simp [h])
      · rcases List.mem_cons.mp h with h | h
        · exact .inr (by simp [h])
        · rcases ih h with h | h
          · exact .inl h
          · exact .inr (by simp [h])

theorem rising_insertKey (l : List (Nat × α)) (a : Nat) (v : α) (h : rising l = true) : rising (insertKey l a v) = true := by
  induction l with
  | nil => rfl
  | cons p t ih =>
    obtain ⟨k, w⟩ := p
    unfold insertKey
    split
    · next h1 =>
      refine rising_cons ?_ h
      intro p hp
      rcases List.mem_cons.mp hp with rfl | hp
      · exact h1
      · exact Nat.lt_trans h1 (rising_head h p hp)
    · split
      · next h1 h2 => subst h2; exact rising_cons (rising_head h) (rising_tail h)
      · next h1 h2 =>
        refine rising_cons ?_ (ih (rising_tail h))
        intro p hp
        rcases mem_insertKey hp with rfl | hp
        · exact Nat.lt_of_le_of_ne (Nat.le_of_not_lt h1) (fun e => h2 e.symm)
        · exact rising_head h p hp

theorem lookupKey_eraseKey_same (l : List (Nat × α)) (a : Nat) : lookupKey (eraseKey l a) a = none := by
  induction l with
  | nil => rfl
  | cons p t ih =>
    obtain ⟨k, w⟩ := p
    by_cases h : k = a
    · simpa [eraseKey, h] using ih
    · simpa [eraseKey, h, lookupKey] using ih

theorem lookupKey_eraseKey_other (l : List (Nat × α)) {a b : Nat} (h : b ≠ a) : lookupKey (eraseKey l a) b = lookupKey l b := by
  induction l with
  | nil => rfl
  | cons p t ih =>
    obtain ⟨k, w⟩ := p
    by_cases hk : k = a
    · subst hk
      rw [show eraseKey ((k, w) :: t) k = eraseKey t k by simp [eraseKey], ih]
      simp [lookupKey, Ne.symm h]
    · rw [show eraseKey ((k, w) :: t) a = (k, w) :: eraseKey t a by simp [eraseKey, hk]]
      simp [lookupKey, ih]

/-- Filtering keeps a list rising. -/
theorem rising_filter (f : Nat × α → Bool) (l : List (Nat × α)) (h : rising l = true) : rising (l.filter f) = true := by
  induction l with
  | nil => rfl
  | cons p t ih =>
    obtain ⟨k, v⟩ := p
    rw [List.filter_cons]
    split
    · exact rising_cons (fun q hq => rising_head h q (List.mem_filter.mp hq).1) (ih (rising_tail h))
    · exact ih (rising_tail h)

/-- A read after a write to the same key gives the value written. -/
theorem readKey_writeKey_same [DecidableEq α] (d : Nat → α) (l : List (Nat × α)) (a : Nat) (v : α) :
    readKey d (writeKey d l a v) a = v := by
  unfold readKey writeKey
  split
  · next h => simp [lookupKey_eraseKey_same, h]
  · simp [lookupKey_insertKey_same]

/-- A write leaves every other key alone. -/
theorem readKey_writeKey_other [DecidableEq α] (d : Nat → α) (l : List (Nat × α)) {a b : Nat} (v : α) (h : b ≠ a) :
    readKey d (writeKey d l a v) b = readKey d l b := by
  unfold readKey writeKey
  split
  · rw [lookupKey_eraseKey_other _ h]
  · rw [lookupKey_insertKey_other _ _ h]

/-- A write keeps the canonical form. -/
theorem canonical_writeKey [DecidableEq α] (d : Nat → α) (l : List (Nat × α)) (a : Nat) (v : α) (h : canonical d l = true) :
    canonical d (writeKey d l a v) = true := by
  simp only [canonical, Bool.and_eq_true, List.all_eq_true, decide_eq_true_eq] at *
  unfold writeKey
  split
  · exact ⟨rising_filter _ _ h.1, fun p hp => h.2 p (List.mem_filter.mp hp).1⟩
  · next hv =>
    refine ⟨rising_insertKey _ _ _ h.1, fun p hp => ?_⟩
    rcases mem_insertKey hp with rfl | hp
    · exact hv
    · exact h.2 p hp

end Sys2Proof.Machine
end

