-- ==== Sys2Proof/Laws/State.lean ====
section
/-! SUPPORT. What the named updates of the state leave alone: one lemma for each field and each update, so that no later proof unfolds a
record update. -/

namespace Sys2Proof.Machine

@[simp] theorem setReg_flash (s : State) (off : Nat) (w : Word) : (s.setReg off w).flash = s.flash := rfl
@[simp] theorem setReg_err (s : State) (off : Nat) (w : Word) : (s.setReg off w).err = s.err := rfl
@[simp] theorem setReg_img (s : State) (off : Nat) (w : Word) : (s.setReg off w).img = s.img := rfl
@[simp] theorem setReg_mem (s : State) (off : Nat) (w : Word) : (s.setReg off w).mem = s.mem := rfl
@[simp] theorem setReg_dram (s : State) (off : Nat) (w : Word) : (s.setReg off w).dram = s.dram := rfl
@[simp] theorem setReg_fab (s : State) (off : Nat) (w : Word) : (s.setReg off w).fab = s.fab := rfl
@[simp] theorem setReg_sync (s : State) (off : Nat) (w : Word) : (s.setReg off w).sync = s.sync := rfl
@[simp] theorem setReg_que (s : State) (off : Nat) (w : Word) : (s.setReg off w).que = s.que := rfl
@[simp] theorem setReg_cores (s : State) (off : Nat) (w : Word) : (s.setReg off w).cores = s.cores := rfl
@[simp] theorem setReg_grp (s : State) (off : Nat) (w : Word) : (s.setReg off w).grp = s.grp := rfl
@[simp] theorem setReg_mgmt (s : State) (off : Nat) (w : Word) : (s.setReg off w).mgmt = s.mgmt := rfl
@[simp] theorem setReg_sup (s : State) (off : Nat) (w : Word) : (s.setReg off w).sup = s.sup := rfl
@[simp] theorem setReg_lnk (s : State) (off : Nat) (w : Word) : (s.setReg off w).lnk = s.lnk := rfl
@[simp] theorem setReg_rte (s : State) (off : Nat) (w : Word) : (s.setReg off w).rte = s.rte := rfl
@[simp] theorem setReg_pwr (s : State) (off : Nat) (w : Word) : (s.setReg off w).pwr = s.pwr := rfl
@[simp] theorem setReg_sec (s : State) (off : Nat) (w : Word) : (s.setReg off w).sec = s.sec := rfl
@[simp] theorem setReg_pins (s : State) (off : Nat) (w : Word) : (s.setReg off w).pins = s.pins := rfl
@[simp] theorem setReg_time (s : State) (off : Nat) (w : Word) : (s.setReg off w).time = s.time := rfl
@[simp] theorem setReg_free (s : State) (off : Nat) (w : Word) : (s.setReg off w).free = s.free := rfl
@[simp] theorem setReg_out (s : State) (off : Nat) (w : Word) : (s.setReg off w).out = s.out := rfl
@[simp] theorem setReg_pending (s : State) (off : Nat) (w : Word) : (s.setReg off w).pending = s.pending := rfl

@[simp] theorem setFld_flash (s : State) (f : Fld) (v : Nat) : (s.setFld f v).flash = s.flash := rfl
@[simp] theorem setFld_err (s : State) (f : Fld) (v : Nat) : (s.setFld f v).err = s.err := rfl
@[simp] theorem setFld_img (s : State) (f : Fld) (v : Nat) : (s.setFld f v).img = s.img := rfl
@[simp] theorem setFld_mem (s : State) (f : Fld) (v : Nat) : (s.setFld f v).mem = s.mem := rfl
@[simp] theorem setFld_dram (s : State) (f : Fld) (v : Nat) : (s.setFld f v).dram = s.dram := rfl
@[simp] theorem setFld_fab (s : State) (f : Fld) (v : Nat) : (s.setFld f v).fab = s.fab := rfl
@[simp] theorem setFld_sync (s : State) (f : Fld) (v : Nat) : (s.setFld f v).sync = s.sync := rfl
@[simp] theorem setFld_que (s : State) (f : Fld) (v : Nat) : (s.setFld f v).que = s.que := rfl
@[simp] theorem setFld_cores (s : State) (f : Fld) (v : Nat) : (s.setFld f v).cores = s.cores := rfl
@[simp] theorem setFld_grp (s : State) (f : Fld) (v : Nat) : (s.setFld f v).grp = s.grp := rfl
@[simp] theorem setFld_mgmt (s : State) (f : Fld) (v : Nat) : (s.setFld f v).mgmt = s.mgmt := rfl
@[simp] theorem setFld_sup (s : State) (f : Fld) (v : Nat) : (s.setFld f v).sup = s.sup := rfl
@[simp] theorem setFld_lnk (s : State) (f : Fld) (v : Nat) : (s.setFld f v).lnk = s.lnk := rfl
@[simp] theorem setFld_rte (s : State) (f : Fld) (v : Nat) : (s.setFld f v).rte = s.rte := rfl
@[simp] theorem setFld_pwr (s : State) (f : Fld) (v : Nat) : (s.setFld f v).pwr = s.pwr := rfl
@[simp] theorem setFld_sec (s : State) (f : Fld) (v : Nat) : (s.setFld f v).sec = s.sec := rfl
@[simp] theorem setFld_pins (s : State) (f : Fld) (v : Nat) : (s.setFld f v).pins = s.pins := rfl
@[simp] theorem setFld_time (s : State) (f : Fld) (v : Nat) : (s.setFld f v).time = s.time := rfl
@[simp] theorem setFld_free (s : State) (f : Fld) (v : Nat) : (s.setFld f v).free = s.free := rfl
@[simp] theorem setFld_out (s : State) (f : Fld) (v : Nat) : (s.setFld f v).out = s.out := rfl
@[simp] theorem setFld_pending (s : State) (f : Fld) (v : Nat) : (s.setFld f v).pending = s.pending := rfl

/-- A field is no more changed by several fields' writes than by one. -/
theorem setFlds_keeps {β : Type} (p : State → β) (h : ∀ s f v, p (State.setFld s f v) = p s) (l : List (Fld × Nat)) (s : State) :
    p (s.setFlds l) = p s := by
  unfold State.setFlds
  induction l generalizing s with
  | nil => rfl
  | cons a t ih => rw [List.foldl_cons, ih, h]

@[simp] theorem setFlds_flash (s : State) (l : List (Fld × Nat)) : (s.setFlds l).flash = s.flash :=
  setFlds_keeps _ (fun _ _ _ => rfl) l s
@[simp] theorem setFlds_err (s : State) (l : List (Fld × Nat)) : (s.setFlds l).err = s.err :=
  setFlds_keeps _ (fun _ _ _ => rfl) l s
@[simp] theorem setFlds_img (s : State) (l : List (Fld × Nat)) : (s.setFlds l).img = s.img :=
  setFlds_keeps _ (fun _ _ _ => rfl) l s
@[simp] theorem setFlds_mem (s : State) (l : List (Fld × Nat)) : (s.setFlds l).mem = s.mem :=
  setFlds_keeps _ (fun _ _ _ => rfl) l s
@[simp] theorem setFlds_dram (s : State) (l : List (Fld × Nat)) : (s.setFlds l).dram = s.dram :=
  setFlds_keeps _ (fun _ _ _ => rfl) l s
@[simp] theorem setFlds_fab (s : State) (l : List (Fld × Nat)) : (s.setFlds l).fab = s.fab :=
  setFlds_keeps _ (fun _ _ _ => rfl) l s
@[simp] theorem setFlds_sync (s : State) (l : List (Fld × Nat)) : (s.setFlds l).sync = s.sync :=
  setFlds_keeps _ (fun _ _ _ => rfl) l s
@[simp] theorem setFlds_que (s : State) (l : List (Fld × Nat)) : (s.setFlds l).que = s.que :=
  setFlds_keeps _ (fun _ _ _ => rfl) l s
@[simp] theorem setFlds_cores (s : State) (l : List (Fld × Nat)) : (s.setFlds l).cores = s.cores :=
  setFlds_keeps _ (fun _ _ _ => rfl) l s
@[simp] theorem setFlds_grp (s : State) (l : List (Fld × Nat)) : (s.setFlds l).grp = s.grp :=
  setFlds_keeps _ (fun _ _ _ => rfl) l s
@[simp] theorem setFlds_mgmt (s : State) (l : List (Fld × Nat)) : (s.setFlds l).mgmt = s.mgmt :=
  setFlds_keeps _ (fun _ _ _ => rfl) l s
@[simp] theorem setFlds_sup (s : State) (l : List (Fld × Nat)) : (s.setFlds l).sup = s.sup :=
  setFlds_keeps _ (fun _ _ _ => rfl) l s
@[simp] theorem setFlds_lnk (s : State) (l : List (Fld × Nat)) : (s.setFlds l).lnk = s.lnk :=
  setFlds_keeps _ (fun _ _ _ => rfl) l s
@[simp] theorem setFlds_rte (s : State) (l : List (Fld × Nat)) : (s.setFlds l).rte = s.rte :=
  setFlds_keeps _ (fun _ _ _ => rfl) l s
@[simp] theorem setFlds_pwr (s : State) (l : List (Fld × Nat)) : (s.setFlds l).pwr = s.pwr :=
  setFlds_keeps _ (fun _ _ _ => rfl) l s
@[simp] theorem setFlds_sec (s : State) (l : List (Fld × Nat)) : (s.setFlds l).sec = s.sec :=
  setFlds_keeps _ (fun _ _ _ => rfl) l s
@[simp] theorem setFlds_pins (s : State) (l : List (Fld × Nat)) : (s.setFlds l).pins = s.pins :=
  setFlds_keeps _ (fun _ _ _ => rfl) l s
@[simp] theorem setFlds_time (s : State) (l : List (Fld × Nat)) : (s.setFlds l).time = s.time :=
  setFlds_keeps _ (fun _ _ _ => rfl) l s
@[simp] theorem setFlds_free (s : State) (l : List (Fld × Nat)) : (s.setFlds l).free = s.free :=
  setFlds_keeps _ (fun _ _ _ => rfl) l s
@[simp] theorem setFlds_out (s : State) (l : List (Fld × Nat)) : (s.setFlds l).out = s.out :=
  setFlds_keeps _ (fun _ _ _ => rfl) l s
@[simp] theorem setFlds_pending (s : State) (l : List (Fld × Nat)) : (s.setFlds l).pending = s.pending :=
  setFlds_keeps _ (fun _ _ _ => rfl) l s

@[simp] theorem bump_flash (s : State) (f : Fld) (n : Nat) : (s.bump f n).flash = s.flash := rfl
@[simp] theorem bump_err (s : State) (f : Fld) (n : Nat) : (s.bump f n).err = s.err := rfl
@[simp] theorem bump_img (s : State) (f : Fld) (n : Nat) : (s.bump f n).img = s.img := rfl
@[simp] theorem bump_mem (s : State) (f : Fld) (n : Nat) : (s.bump f n).mem = s.mem := rfl
@[simp] theorem bump_dram (s : State) (f : Fld) (n : Nat) : (s.bump f n).dram = s.dram := rfl
@[simp] theorem bump_fab (s : State) (f : Fld) (n : Nat) : (s.bump f n).fab = s.fab := rfl
@[simp] theorem bump_sync (s : State) (f : Fld) (n : Nat) : (s.bump f n).sync = s.sync := rfl
@[simp] theorem bump_que (s : State) (f : Fld) (n : Nat) : (s.bump f n).que = s.que := rfl
@[simp] theorem bump_cores (s : State) (f : Fld) (n : Nat) : (s.bump f n).cores = s.cores := rfl
@[simp] theorem bump_grp (s : State) (f : Fld) (n : Nat) : (s.bump f n).grp = s.grp := rfl
@[simp] theorem bump_mgmt (s : State) (f : Fld) (n : Nat) : (s.bump f n).mgmt = s.mgmt := rfl
@[simp] theorem bump_sup (s : State) (f : Fld) (n : Nat) : (s.bump f n).sup = s.sup := rfl
@[simp] theorem bump_lnk (s : State) (f : Fld) (n : Nat) : (s.bump f n).lnk = s.lnk := rfl
@[simp] theorem bump_rte (s : State) (f : Fld) (n : Nat) : (s.bump f n).rte = s.rte := rfl
@[simp] theorem bump_pwr (s : State) (f : Fld) (n : Nat) : (s.bump f n).pwr = s.pwr := rfl
@[simp] theorem bump_sec (s : State) (f : Fld) (n : Nat) : (s.bump f n).sec = s.sec := rfl
@[simp] theorem bump_pins (s : State) (f : Fld) (n : Nat) : (s.bump f n).pins = s.pins := rfl
@[simp] theorem bump_time (s : State) (f : Fld) (n : Nat) : (s.bump f n).time = s.time := rfl
@[simp] theorem bump_free (s : State) (f : Fld) (n : Nat) : (s.bump f n).free = s.free := rfl
@[simp] theorem bump_out (s : State) (f : Fld) (n : Nat) : (s.bump f n).out = s.out := rfl
@[simp] theorem bump_pending (s : State) (f : Fld) (n : Nat) : (s.bump f n).pending = s.pending := rfl

@[simp] theorem emit_regs (s : State) (o : Out) : (s.emit o).regs = s.regs := rfl
@[simp] theorem emit_flash (s : State) (o : Out) : (s.emit o).flash = s.flash := rfl
@[simp] theorem emit_err (s : State) (o : Out) : (s.emit o).err = s.err := rfl
@[simp] theorem emit_img (s : State) (o : Out) : (s.emit o).img = s.img := rfl
@[simp] theorem emit_mem (s : State) (o : Out) : (s.emit o).mem = s.mem := rfl
@[simp] theorem emit_dram (s : State) (o : Out) : (s.emit o).dram = s.dram := rfl
@[simp] theorem emit_fab (s : State) (o : Out) : (s.emit o).fab = s.fab := rfl
@[simp] theorem emit_sync (s : State) (o : Out) : (s.emit o).sync = s.sync := rfl
@[simp] theorem emit_que (s : State) (o : Out) : (s.emit o).que = s.que := rfl
@[simp] theorem emit_cores (s : State) (o : Out) : (s.emit o).cores = s.cores := rfl
@[simp] theorem emit_grp (s : State) (o : Out) : (s.emit o).grp = s.grp := rfl
@[simp] theorem emit_mgmt (s : State) (o : Out) : (s.emit o).mgmt = s.mgmt := rfl
@[simp] theorem emit_sup (s : State) (o : Out) : (s.emit o).sup = s.sup := rfl
@[simp] theorem emit_lnk (s : State) (o : Out) : (s.emit o).lnk = s.lnk := rfl
@[simp] theorem emit_rte (s : State) (o : Out) : (s.emit o).rte = s.rte := rfl
@[simp] theorem emit_pwr (s : State) (o : Out) : (s.emit o).pwr = s.pwr := rfl
@[simp] theorem emit_sec (s : State) (o : Out) : (s.emit o).sec = s.sec := rfl
@[simp] theorem emit_pins (s : State) (o : Out) : (s.emit o).pins = s.pins := rfl
@[simp] theorem emit_time (s : State) (o : Out) : (s.emit o).time = s.time := rfl
@[simp] theorem emit_free (s : State) (o : Out) : (s.emit o).free = s.free := rfl
@[simp] theorem emit_pending (s : State) (o : Out) : (s.emit o).pending = s.pending := rfl

@[simp] theorem clearMem_regs (s : State) (a n : Nat) : (s.clearMem a n).regs = s.regs := rfl
@[simp] theorem clearMem_flash (s : State) (a n : Nat) : (s.clearMem a n).flash = s.flash := rfl
@[simp] theorem clearMem_err (s : State) (a n : Nat) : (s.clearMem a n).err = s.err := rfl
@[simp] theorem clearMem_img (s : State) (a n : Nat) : (s.clearMem a n).img = s.img := rfl
@[simp] theorem clearMem_dram (s : State) (a n : Nat) : (s.clearMem a n).dram = s.dram := rfl
@[simp] theorem clearMem_fab (s : State) (a n : Nat) : (s.clearMem a n).fab = s.fab := rfl
@[simp] theorem clearMem_sync (s : State) (a n : Nat) : (s.clearMem a n).sync = s.sync := rfl
@[simp] theorem clearMem_que (s : State) (a n : Nat) : (s.clearMem a n).que = s.que := rfl
@[simp] theorem clearMem_cores (s : State) (a n : Nat) : (s.clearMem a n).cores = s.cores := rfl
@[simp] theorem clearMem_grp (s : State) (a n : Nat) : (s.clearMem a n).grp = s.grp := rfl
@[simp] theorem clearMem_mgmt (s : State) (a n : Nat) : (s.clearMem a n).mgmt = s.mgmt := rfl
@[simp] theorem clearMem_sup (s : State) (a n : Nat) : (s.clearMem a n).sup = s.sup := rfl
@[simp] theorem clearMem_lnk (s : State) (a n : Nat) : (s.clearMem a n).lnk = s.lnk := rfl
@[simp] theorem clearMem_rte (s : State) (a n : Nat) : (s.clearMem a n).rte = s.rte := rfl
@[simp] theorem clearMem_pwr (s : State) (a n : Nat) : (s.clearMem a n).pwr = s.pwr := rfl
@[simp] theorem clearMem_sec (s : State) (a n : Nat) : (s.clearMem a n).sec = s.sec := rfl
@[simp] theorem clearMem_pins (s : State) (a n : Nat) : (s.clearMem a n).pins = s.pins := rfl
@[simp] theorem clearMem_time (s : State) (a n : Nat) : (s.clearMem a n).time = s.time := rfl
@[simp] theorem clearMem_free (s : State) (a n : Nat) : (s.clearMem a n).free = s.free := rfl
@[simp] theorem clearMem_out (s : State) (a n : Nat) : (s.clearMem a n).out = s.out := rfl
@[simp] theorem clearMem_pending (s : State) (a n : Nat) : (s.clearMem a n).pending = s.pending := rfl

@[simp] theorem forget_regs (s : State) (a n : Nat) : (s.forget a n).regs = s.regs := rfl
@[simp] theorem forget_flash (s : State) (a n : Nat) : (s.forget a n).flash = s.flash := rfl
@[simp] theorem forget_err (s : State) (a n : Nat) : (s.forget a n).err = s.err := rfl
@[simp] theorem forget_img (s : State) (a n : Nat) : (s.forget a n).img = s.img := rfl
@[simp] theorem forget_dram (s : State) (a n : Nat) : (s.forget a n).dram = s.dram := rfl
@[simp] theorem forget_fab (s : State) (a n : Nat) : (s.forget a n).fab = s.fab := rfl
@[simp] theorem forget_sync (s : State) (a n : Nat) : (s.forget a n).sync = s.sync := rfl
@[simp] theorem forget_que (s : State) (a n : Nat) : (s.forget a n).que = s.que := rfl
@[simp] theorem forget_cores (s : State) (a n : Nat) : (s.forget a n).cores = s.cores := rfl
@[simp] theorem forget_grp (s : State) (a n : Nat) : (s.forget a n).grp = s.grp := rfl
@[simp] theorem forget_mgmt (s : State) (a n : Nat) : (s.forget a n).mgmt = s.mgmt := rfl
@[simp] theorem forget_sup (s : State) (a n : Nat) : (s.forget a n).sup = s.sup := rfl
@[simp] theorem forget_lnk (s : State) (a n : Nat) : (s.forget a n).lnk = s.lnk := rfl
@[simp] theorem forget_rte (s : State) (a n : Nat) : (s.forget a n).rte = s.rte := rfl
@[simp] theorem forget_pwr (s : State) (a n : Nat) : (s.forget a n).pwr = s.pwr := rfl
@[simp] theorem forget_sec (s : State) (a n : Nat) : (s.forget a n).sec = s.sec := rfl
@[simp] theorem forget_pins (s : State) (a n : Nat) : (s.forget a n).pins = s.pins := rfl
@[simp] theorem forget_time (s : State) (a n : Nat) : (s.forget a n).time = s.time := rfl
@[simp] theorem forget_out (s : State) (a n : Nat) : (s.forget a n).out = s.out := rfl
@[simp] theorem forget_pending (s : State) (a n : Nat) : (s.forget a n).pending = s.pending := rfl

@[simp] theorem setRun_regs (s : State) (k : Nat) (r : Run) : (s.setRun k r).regs = s.regs := rfl
@[simp] theorem setRun_flash (s : State) (k : Nat) (r : Run) : (s.setRun k r).flash = s.flash := rfl
@[simp] theorem setRun_err (s : State) (k : Nat) (r : Run) : (s.setRun k r).err = s.err := rfl
@[simp] theorem setRun_img (s : State) (k : Nat) (r : Run) : (s.setRun k r).img = s.img := rfl
@[simp] theorem setRun_mem (s : State) (k : Nat) (r : Run) : (s.setRun k r).mem = s.mem := rfl
@[simp] theorem setRun_dram (s : State) (k : Nat) (r : Run) : (s.setRun k r).dram = s.dram := rfl
@[simp] theorem setRun_fab (s : State) (k : Nat) (r : Run) : (s.setRun k r).fab = s.fab := rfl
@[simp] theorem setRun_sync (s : State) (k : Nat) (r : Run) : (s.setRun k r).sync = s.sync := rfl
@[simp] theorem setRun_que (s : State) (k : Nat) (r : Run) : (s.setRun k r).que = s.que := rfl
@[simp] theorem setRun_grp (s : State) (k : Nat) (r : Run) : (s.setRun k r).grp = s.grp := rfl
@[simp] theorem setRun_mgmt (s : State) (k : Nat) (r : Run) : (s.setRun k r).mgmt = s.mgmt := rfl
@[simp] theorem setRun_sup (s : State) (k : Nat) (r : Run) : (s.setRun k r).sup = s.sup := rfl
@[simp] theorem setRun_lnk (s : State) (k : Nat) (r : Run) : (s.setRun k r).lnk = s.lnk := rfl
@[simp] theorem setRun_rte (s : State) (k : Nat) (r : Run) : (s.setRun k r).rte = s.rte := rfl
@[simp] theorem setRun_pwr (s : State) (k : Nat) (r : Run) : (s.setRun k r).pwr = s.pwr := rfl
@[simp] theorem setRun_sec (s : State) (k : Nat) (r : Run) : (s.setRun k r).sec = s.sec := rfl
@[simp] theorem setRun_pins (s : State) (k : Nat) (r : Run) : (s.setRun k r).pins = s.pins := rfl
@[simp] theorem setRun_time (s : State) (k : Nat) (r : Run) : (s.setRun k r).time = s.time := rfl
@[simp] theorem setRun_free (s : State) (k : Nat) (r : Run) : (s.setRun k r).free = s.free := rfl
@[simp] theorem setRun_out (s : State) (k : Nat) (r : Run) : (s.setRun k r).out = s.out := rfl
@[simp] theorem setRun_pending (s : State) (k : Nat) (r : Run) : (s.setRun k r).pending = s.pending := rfl

@[simp] theorem dropRun_regs (s : State) (k : Nat) : (s.dropRun k).regs = s.regs := rfl
@[simp] theorem dropRun_flash (s : State) (k : Nat) : (s.dropRun k).flash = s.flash := rfl
@[simp] theorem dropRun_err (s : State) (k : Nat) : (s.dropRun k).err = s.err := rfl
@[simp] theorem dropRun_img (s : State) (k : Nat) : (s.dropRun k).img = s.img := rfl
@[simp] theorem dropRun_mem (s : State) (k : Nat) : (s.dropRun k).mem = s.mem := rfl
@[simp] theorem dropRun_dram (s : State) (k : Nat) : (s.dropRun k).dram = s.dram := rfl
@[simp] theorem dropRun_fab (s : State) (k : Nat) : (s.dropRun k).fab = s.fab := rfl
@[simp] theorem dropRun_sync (s : State) (k : Nat) : (s.dropRun k).sync = s.sync := rfl
@[simp] theorem dropRun_que (s : State) (k : Nat) : (s.dropRun k).que = s.que := rfl
@[simp] theorem dropRun_grp (s : State) (k : Nat) : (s.dropRun k).grp = s.grp := rfl
@[simp] theorem dropRun_mgmt (s : State) (k : Nat) : (s.dropRun k).mgmt = s.mgmt := rfl
@[simp] theorem dropRun_sup (s : State) (k : Nat) : (s.dropRun k).sup = s.sup := rfl
@[simp] theorem dropRun_lnk (s : State) (k : Nat) : (s.dropRun k).lnk = s.lnk := rfl
@[simp] theorem dropRun_rte (s : State) (k : Nat) : (s.dropRun k).rte = s.rte := rfl
@[simp] theorem dropRun_pwr (s : State) (k : Nat) : (s.dropRun k).pwr = s.pwr := rfl
@[simp] theorem dropRun_sec (s : State) (k : Nat) : (s.dropRun k).sec = s.sec := rfl
@[simp] theorem dropRun_pins (s : State) (k : Nat) : (s.dropRun k).pins = s.pins := rfl
@[simp] theorem dropRun_time (s : State) (k : Nat) : (s.dropRun k).time = s.time := rfl
@[simp] theorem dropRun_free (s : State) (k : Nat) : (s.dropRun k).free = s.free := rfl
@[simp] theorem dropRun_out (s : State) (k : Nat) : (s.dropRun k).out = s.out := rfl
@[simp] theorem dropRun_pending (s : State) (k : Nat) : (s.dropRun k).pending = s.pending := rfl

@[simp] theorem modPort_regs (s : State) (p : Nat) (f : PortSt → PortSt) : (s.modPort p f).regs = s.regs := rfl
@[simp] theorem modPort_flash (s : State) (p : Nat) (f : PortSt → PortSt) : (s.modPort p f).flash = s.flash := rfl
@[simp] theorem modPort_err (s : State) (p : Nat) (f : PortSt → PortSt) : (s.modPort p f).err = s.err := rfl
@[simp] theorem modPort_img (s : State) (p : Nat) (f : PortSt → PortSt) : (s.modPort p f).img = s.img := rfl
@[simp] theorem modPort_mem (s : State) (p : Nat) (f : PortSt → PortSt) : (s.modPort p f).mem = s.mem := rfl
@[simp] theorem modPort_dram (s : State) (p : Nat) (f : PortSt → PortSt) : (s.modPort p f).dram = s.dram := rfl
@[simp] theorem modPort_fab (s : State) (p : Nat) (f : PortSt → PortSt) : (s.modPort p f).fab = s.fab := rfl
@[simp] theorem modPort_sync (s : State) (p : Nat) (f : PortSt → PortSt) : (s.modPort p f).sync = s.sync := rfl
@[simp] theorem modPort_que (s : State) (p : Nat) (f : PortSt → PortSt) : (s.modPort p f).que = s.que := rfl
@[simp] theorem modPort_cores (s : State) (p : Nat) (f : PortSt → PortSt) : (s.modPort p f).cores = s.cores := rfl
@[simp] theorem modPort_grp (s : State) (p : Nat) (f : PortSt → PortSt) : (s.modPort p f).grp = s.grp := rfl
@[simp] theorem modPort_mgmt (s : State) (p : Nat) (f : PortSt → PortSt) : (s.modPort p f).mgmt = s.mgmt := rfl
@[simp] theorem modPort_sup (s : State) (p : Nat) (f : PortSt → PortSt) : (s.modPort p f).sup = s.sup := rfl
@[simp] theorem modPort_rte (s : State) (p : Nat) (f : PortSt → PortSt) : (s.modPort p f).rte = s.rte := rfl
@[simp] theorem modPort_pwr (s : State) (p : Nat) (f : PortSt → PortSt) : (s.modPort p f).pwr = s.pwr := rfl
@[simp] theorem modPort_sec (s : State) (p : Nat) (f : PortSt → PortSt) : (s.modPort p f).sec = s.sec := rfl
@[simp] theorem modPort_pins (s : State) (p : Nat) (f : PortSt → PortSt) : (s.modPort p f).pins = s.pins := rfl
@[simp] theorem modPort_time (s : State) (p : Nat) (f : PortSt → PortSt) : (s.modPort p f).time = s.time := rfl
@[simp] theorem modPort_free (s : State) (p : Nat) (f : PortSt → PortSt) : (s.modPort p f).free = s.free := rfl
@[simp] theorem modPort_out (s : State) (p : Nat) (f : PortSt → PortSt) : (s.modPort p f).out = s.out := rfl
@[simp] theorem modPort_pending (s : State) (p : Nat) (f : PortSt → PortSt) : (s.modPort p f).pending = s.pending := rfl

@[simp] theorem due_regs (s : State) (w : RecWait) : (s.due w).regs = s.regs := rfl
@[simp] theorem due_flash (s : State) (w : RecWait) : (s.due w).flash = s.flash := rfl
@[simp] theorem due_err (s : State) (w : RecWait) : (s.due w).err = s.err := rfl
@[simp] theorem due_img (s : State) (w : RecWait) : (s.due w).img = s.img := rfl
@[simp] theorem due_mem (s : State) (w : RecWait) : (s.due w).mem = s.mem := rfl
@[simp] theorem due_dram (s : State) (w : RecWait) : (s.due w).dram = s.dram := rfl
@[simp] theorem due_fab (s : State) (w : RecWait) : (s.due w).fab = s.fab := rfl
@[simp] theorem due_sync (s : State) (w : RecWait) : (s.due w).sync = s.sync := rfl
@[simp] theorem due_cores (s : State) (w : RecWait) : (s.due w).cores = s.cores := rfl
@[simp] theorem due_grp (s : State) (w : RecWait) : (s.due w).grp = s.grp := rfl
@[simp] theorem due_mgmt (s : State) (w : RecWait) : (s.due w).mgmt = s.mgmt := rfl
@[simp] theorem due_sup (s : State) (w : RecWait) : (s.due w).sup = s.sup := rfl
@[simp] theorem due_lnk (s : State) (w : RecWait) : (s.due w).lnk = s.lnk := rfl
@[simp] theorem due_rte (s : State) (w : RecWait) : (s.due w).rte = s.rte := rfl
@[simp] theorem due_pwr (s : State) (w : RecWait) : (s.due w).pwr = s.pwr := rfl
@[simp] theorem due_sec (s : State) (w : RecWait) : (s.due w).sec = s.sec := rfl
@[simp] theorem due_pins (s : State) (w : RecWait) : (s.due w).pins = s.pins := rfl
@[simp] theorem due_time (s : State) (w : RecWait) : (s.due w).time = s.time := rfl
@[simp] theorem due_free (s : State) (w : RecWait) : (s.due w).free = s.free := rfl
@[simp] theorem due_out (s : State) (w : RecWait) : (s.due w).out = s.out := rfl
@[simp] theorem due_pending (s : State) (w : RecWait) : (s.due w).pending = s.pending := rfl

end Sys2Proof.Machine
end

