-- ==== Sys2Proof/Laws/Ops.lean ====
section
/-! SUPPORT. Laws of registers, fields and memory: read after write, what else a write leaves alone, the canonical form. -/

namespace Sys2Proof.Machine

/-! ### Registers -/

@[simp] theorem reg_setReg_same (s : State) (off : Nat) (w : Word) : (s.setReg off w).reg off = w :=
  readKey_writeKey_same _ _ _ _

theorem reg_setReg_other (s : State) {a b : Nat} (w : Word) (h : b ≠ a) : (s.setReg a w).reg b = s.reg b :=
  readKey_writeKey_other _ _ _ h

/-- A register of a state depends on the register file alone. -/
theorem reg_congr {s t : State} (h : s.regs = t.regs) (off : Nat) : s.reg off = t.reg off := by simp [State.reg, h]

theorem fld_congr {s t : State} (h : s.regs = t.regs) (f : Fld) : s.fld f = t.fld f := by simp [State.fld, reg_congr h]

theorem bit_congr {s t : State} (h : s.regs = t.regs) (f : Fld) : s.bit f = t.bit f := by simp [State.bit, fld_congr h]

/-- Bit i of a field's mask. -/
theorem mask_bit (f : Fld) (i : Nat) (hi : i < 64) : (Fld.mask f).getLsbD i = (decide (f.lo ≤ i) && decide (i ≤ f.hi)) := by
  simp only [Fld.mask, BitVec.getLsbD_shiftLeft, BitVec.getLsbD_setWidth, BitVec.getLsbD_allOnes]
  by_cases h1 : f.lo ≤ i <;> by_cases h2 : i ≤ f.hi <;> simp [h1, h2, hi] <;> omega

/-- A bit of a word with a field replaced. -/
theorem putBits_bit (w : Word) (f : Fld) (v i : Nat) (hi : i < 64) :
    (putBits w f v).getLsbD i = if f.lo ≤ i ∧ i ≤ f.hi then v.testBit (i - f.lo) else w.getLsbD i := by
  simp only [putBits, BitVec.getLsbD_or, BitVec.getLsbD_and, BitVec.getLsbD_not, mask_bit f i hi, BitVec.getLsbD_shiftLeft,
    BitVec.getLsbD_ofNat, hi]
  by_cases h1 : f.lo ≤ i <;> by_cases h2 : i ≤ f.hi <;> simp [h1, h2, Nat.not_lt.mpr] <;> omega

/-- A bit of a field's value. -/
theorem getBits_testBit (w : Word) (f : Fld) (j : Nat) :
    (getBits w f).testBit j = (decide (j < f.hi + 1 - f.lo) && w.getLsbD (f.lo + j)) := by
  simp only [getBits, BitVec.testBit_toNat, BitVec.getLsbD_extractLsb']

/-- Reading a field that was replaced gives the value, cut to the field's width. -/
theorem getBits_putBits_same (w : Word) (f : Fld) (v : Nat) (h : f.hi < 64) :
    getBits (putBits w f v) f = v % 2 ^ (f.hi + 1 - f.lo) := by
  apply Nat.eq_of_testBit_eq
  intro j
  rw [getBits_testBit, Nat.testBit_mod_two_pow]
  by_cases hj : j < f.hi + 1 - f.lo
  · rw [putBits_bit _ _ _ _ (by omega), if_pos (by omega)]
    simp [hj]
  · simp [hj]

/-- Replacing a field leaves every field that shares no bit with it. -/
theorem getBits_putBits_other (w : Word) (f g : Fld) (v : Nat) (hg : g.hi < 64) (h : g.hi < f.lo ∨ f.hi < g.lo) :
    getBits (putBits w f v) g = getBits w g := by
  apply Nat.eq_of_testBit_eq
  intro j
  rw [getBits_testBit, getBits_testBit]
  by_cases hj : j < g.hi + 1 - g.lo
  · rw [putBits_bit _ _ _ _ (by omega), if_neg (by omega)]
  · simp [hj]

/-- Reading a field after writing it. -/
theorem fld_setFld_same (s : State) (f : Fld) (v : Nat) (h : f.hi < 64) : (s.setFld f v).fld f = v % 2 ^ (f.hi + 1 - f.lo) := by
  simp only [State.fld, State.setFld, reg_setReg_same]
  exact getBits_putBits_same _ _ _ h

/-- A field of another register is left. -/
theorem fld_setFld_off (s : State) (f g : Fld) (v : Nat) (h : g.off ≠ f.off) : (s.setFld f v).fld g = s.fld g := by
  simp only [State.fld, State.setFld, reg_setReg_other _ _ h]

/-- A field of the same register that shares no bit is left. -/
theorem fld_setFld_bits (s : State) (f g : Fld) (v : Nat) (hg : g.hi < 64) (h : g.hi < f.lo ∨ f.hi < g.lo) :
    (s.setFld f v).fld g = s.fld g := by
  by_cases ho : g.off = f.off
  · simp only [State.fld, State.setFld, ho, reg_setReg_same]
    exact getBits_putBits_other _ _ _ _ hg h
  · exact fld_setFld_off _ _ _ _ ho

/-- A field's write keeps the canonical form of the register file. -/
theorem canonical_setReg (s : State) (off : Nat) (w : Word) (h : canonical regReset s.regs = true) :
    canonical regReset (s.setReg off w).regs = true := canonical_writeKey _ _ _ _ h

theorem canonical_setFld (s : State) (f : Fld) (v : Nat) (h : canonical regReset s.regs = true) :
    canonical regReset (s.setFld f v).regs = true := canonical_setReg _ _ _ h

theorem canonical_setFlds (l : List (Fld × Nat)) (s : State) (h : canonical regReset s.regs = true) :
    canonical regReset (s.setFlds l).regs = true := by
  unfold State.setFlds
  induction l generalizing s with
  | nil => exact h
  | cons a t ih => exact ih _ (canonical_setFld _ _ _ h)

/-! ### Memory -/

/-- A line's failing words are those whose parity as read differs from the bit stored beside them (R205, R207): the words that come with an
odd number of bits changed, or, where the line's bits stand inverted, all the others. -/
theorem wordFails_parity (m : Mem) (ln : Nat) (flips : BitVec 16) :
    m.wordFails ln flips = ((List.range 16).filter (fun i =>
      (wordParity (m.word32 (64 * ln + 4 * i)) != flips.getLsbD i) != m.parityBit (64 * ln + 4 * i))).length := by
  unfold Mem.wordFails
  congr 1
  refine List.filter_congr (fun i hi => ?_)
  have e : (64 * ln + 4 * i) / 64 = ln := by
    have := List.mem_range.mp hi
    omega
  rw [Mem.parityBit, e]
  cases wordParity (m.word32 (64 * ln + 4 * i)) <;> cases m.inverted ln <;> cases flips.getLsbD i <;> rfl

@[simp] theorem dflt_write (m : Mem) (a : Nat) (b : Byte) : (m.write a b).dflt = m.dflt := rfl

/-- A byte reads as written. -/
@[simp] theorem read_write_same (m : Mem) (a : Nat) (b : Byte) : (m.write a b).read a = b :=
  readKey_writeKey_same _ _ _ _

/-- Every other byte is left. -/
theorem read_write_other (m : Mem) {a c : Nat} (b : Byte) (h : c ≠ a) : (m.write a b).read c = m.read c :=
  readKey_writeKey_other _ _ _ h

/-- Writing one byte keeps the canonical form. -/
theorem wf_write (m : Mem) (a : Nat) (b : Byte) (h : m.wf = true) : (m.write a b).wf = true := canonical_writeKey _ _ _ _ h

/-- Writing bytes leaves what lies before and after them. -/
theorem read_put_other (l : List Byte) (m : Mem) (a c : Nat) (h : c < a ∨ a + l.length ≤ c) : (m.put a l).read c = m.read c := by
  induction l generalizing m a with
  | nil => rfl
  | cons b t ih =>
    simp only [List.length_cons] at h
    rw [Mem.put, ih _ _ (by omega), read_write_other _ _ (by omega)]

/-- Bytes written read back. -/
theorem read_put (l : List Byte) (m : Mem) (a i : Nat) (h : i < l.length) : (m.put a l).read (a + i) = l[i] := by
  induction l generalizing m a i with
  | nil => simp at h
  | cons b t ih =>
    rw [Mem.put]
    cases i with
    | zero => rw [read_put_other _ _ _ _ (by omega)]; simp
    | succ i =>
      rw [show a + (i + 1) = (a + 1) + i by omega, ih _ _ _ (by simpa using h)]
      simp

/-- Writing bytes keeps the canonical form. -/
theorem wf_put (l : List Byte) (m : Mem) (a : Nat) (h : m.wf = true) : (m.put a l).wf = true := by
  induction l generalizing m a with
  | nil => exact h
  | cons b t ih => exact ih _ _ (wf_write _ _ _ h)

/-- What a byte reads as depends on the cells and holes alone. -/
theorem read_poison (m : Mem) (p : List Nat) (a : Nat) : ({ m with poison := p } : Mem).read a = m.read a := rfl

/-- A store keeps the canonical form, reads back, and leaves every other byte. -/
theorem wf_store (m : Mem) (a : Nat) (l : List Byte) (h : m.wf = true) : (m.store a l).wf = true := wf_put l m a h

theorem read_store (m : Mem) (a : Nat) (l : List Byte) (i : Nat) (h : i < l.length) : (m.store a l).read (a + i) = l[i] :=
  read_put l m a i h

theorem read_store_other (m : Mem) (a : Nat) (l : List Byte) (c : Nat) (h : c < a ∨ a + l.length ≤ c) :
    (m.store a l).read c = m.read c := read_put_other l m a c h

/-- Marking a line keeps the canonical form. -/
theorem wf_mark (m : Mem) (ln : Nat) (h : m.wf = true) : (m.mark ln).wf = true := by
  unfold Mem.mark; split <;> exact h

/-- Cells that a filter keeps, under a default that agrees on them, stay canonical. -/
theorem canonical_filter {α : Type} [DecidableEq α] (d e : Nat → α) (f : Nat × α → Bool) (l : List (Nat × α))
    (h : canonical d l = true) (hd : ∀ p ∈ l, f p = true → e p.1 = d p.1) : canonical e (l.filter f) = true := by
  simp only [canonical, Bool.and_eq_true, List.all_eq_true, decide_eq_true_eq] at *
  refine ⟨rising_filter _ _ h.1, fun p hp => ?_⟩
  have hm := List.mem_filter.mp hp
  rw [hd p hm.1 hm.2]
  exact h.2 p hm.1

/-- The seed of the first hole that covers a byte. -/
theorem find_holeOutside (a n c : Nat) (h : ¬ (a ≤ c ∧ c < a + n)) (l : List (Nat × Nat × Nat)) :
    ((l.flatMap (holeOutside a n)).find? (fun x => decide (x.1 ≤ c ∧ c < x.1 + x.2.1))).map (·.2.2)
      = (l.find? (fun x => decide (x.1 ≤ c ∧ c < x.1 + x.2.1))).map (·.2.2) := by
  induction l with
  | nil => rfl
  | cons q t ih =>
    rw [List.flatMap_cons, List.find?_append, List.find?_cons]
    by_cases hq : q.1 ≤ c ∧ c < q.1 + q.2.1
    · have : ((holeOutside a n q).find? (fun x => decide (x.1 ≤ c ∧ c < x.1 + x.2.1))).map (·.2.2) = some q.2.2 := by
        unfold holeOutside
        by_cases h1 : c < a
        · have e1 : q.1 < min (q.1 + q.2.1) a := by omega
          have e2 : q.1 ≤ c ∧ c < q.1 + (min (q.1 + q.2.1) a - q.1) := by omega
          simp [e1, e2]
        · have e1 : max q.1 (a + n) < q.1 + q.2.1 := by omega
          have e2 : max q.1 (a + n) ≤ c ∧ c < max q.1 (a + n) + (q.1 + q.2.1 - max q.1 (a + n)) := by omega
          by_cases e3 : q.1 < min (q.1 + q.2.1) a
          · have e4 : ¬ (q.1 ≤ c ∧ c < q.1 + (min (q.1 + q.2.1) a - q.1)) := by omega
            simp only [e1, e3, if_true, List.cons_append, List.nil_append, List.find?_cons, decide_eq_true e2, decide_eq_false e4, Option.map_some]
          · simp only [e1, e3, if_true, if_false, List.nil_append, List.find?_cons, decide_eq_true e2, Option.map_some]
      rw [decide_eq_true hq]
      generalize (holeOutside a n q).find? (fun x => decide (x.1 ≤ c ∧ c < x.1 + x.2.1)) = r at this ⊢
      cases r with
      | none => cases this
      | some x => simpa using this
    · have : (holeOutside a n q).find? (fun x => decide (x.1 ≤ c ∧ c < x.1 + x.2.1)) = none := by
        rw [List.find?_eq_none]
        intro x hx
        unfold holeOutside at hx
        simp only [List.mem_append] at hx
        rcases hx with hx | hx <;> split at hx <;> simp at hx <;> subst hx <;> simp <;> omega
      rw [this, decide_eq_false hq]
      simpa using ih

/-- Outside a range that is cleared, what an unlisted byte reads as stays. -/
theorem dflt_clear (m : Mem) (a n c : Nat) (h : ¬ (a ≤ c ∧ c < a + n)) : (m.clear a n).dflt c = m.dflt c := by
  have e := find_holeOutside a n c h m.holes
  unfold Mem.dflt Mem.clear
  revert e
  cases (List.flatMap (holeOutside a n) m.holes).find? _ <;> cases m.holes.find? _ <;> simp
  intro e; rw [e]

/-- Clearing a range keeps the canonical form. -/
theorem wf_clear (m : Mem) (a n : Nat) (h : m.wf = true) : (m.clear a n).wf = true := by
  refine canonical_filter m.dflt (m.clear a n).dflt _ m.cells h (fun p _ hf => dflt_clear m a n p.1 ?_)
  exact of_decide_eq_false ((Bool.not_eq_true' _).mp hf)

/-- Making a range undefined keeps the canonical form. -/
theorem wf_forget (m : Mem) (a n seed : Nat) (h : m.wf = true) : (m.forget a n seed).wf = true := by
  refine canonical_filter m.dflt (m.forget a n seed).dflt _ m.cells h (fun p _ hf => ?_)
  have hp : ¬ (a ≤ p.1 ∧ p.1 < a + n) := of_decide_eq_false ((Bool.not_eq_true' _).mp hf)
  simp only [Mem.dflt, Mem.forget, List.find?_cons, decide_eq_false hp]

end Sys2Proof.Machine
end

