-- ==== Sys2Proof/Laws/Issue.lean ====
section
/-! SUPPORT. Laws of the issue of slots: what a slot instruction does once its bundle is open, and how a bundle opens and closes. -/

namespace Sys2Proof.Machine

open Sys2Proof

/-- The open bundle's slot acts and closes. -/
theorem issue_acts {s : State} {i : Instr} {k : LCore} {sl : Slot} {w : Nat} {r : Run} {is : Issue} {b : Bundle}
    (h : Acts s i k sl w r is b) (f : Effect) : s.issue i f = (f k is b s).closeBundle k sl := by
  simp only [State.issue, h.slot, h.run, h.free, h.bundle, h.word, h.opened, Bool.not_true, if_false, ne_eq, not_true,
    State.actSlot, h.todo, or_true, if_true, Bool.false_eq_true]

/-- Changing the run of a core that runs a task. -/
theorem modRun_run {s : State} {k : Nat} {r : Run} (h : s.runOf k = some r) (f : Run → Run) : s.modRun k f = s.setRun k (f r) := by
  simp only [State.modRun, h]

@[simp] theorem runOf_setRun_same (s : State) (k : Nat) (r : Run) : (s.setRun k r).runOf k = some r := by
  simp [State.runOf, State.setRun, lookupKey_insertKey_same]

theorem runOf_setRun_other (s : State) {k j : Nat} (r : Run) (h : j ≠ k) : (s.setRun k r).runOf j = s.runOf j := by
  simp [State.runOf, State.setRun, lookupKey_insertKey_other _ _ h]

/-- Of two changes of one core's run the second stands. -/
@[simp] theorem setRun_setRun (s : State) (k : Nat) (q r : Run) : (s.setRun k q).setRun k r = s.setRun k r := by
  simp [State.setRun, insertKey_insertKey]

/-- A slot that is not the last leaves the bundle open for the rest. -/
theorem closeBundle_more {s : State} {k : Nat} {sl : Slot} {r : Run} {is : Issue} (hr : s.runOf k = some r) (hi : r.issue = some is)
    (h : is.todo.filter (· != slotNum sl) ≠ []) :
    s.closeBundle k sl = s.setRun k { r with issue := some { is with todo := is.todo.filter (· != slotNum sl) } } := by
  simp only [State.closeBundle, hr, hi, h, ne_eq, not_false_eq_true, if_true]

/-- Where local addresses lie, and which are marked, does not depend on the tasks. -/
@[simp] theorem localAt_setRun (s : State) (k : Nat) (r : Run) (j a : Nat) : (s.setRun k r).localAt j a = s.localAt j a := rfl

@[simp] theorem markedAt_setRun (s : State) (k : Nat) (r : Run) (j : Nat) (x : Range) : (s.setRun k r).markedAt j x = s.markedAt j x := rfl

/-- A use of no marked line is no fault. -/
theorem useMarked_clean {s : State} {k sl : Nat} {l : List Range} (h : ∀ x ∈ l, s.markedAt k x = false) : s.useMarked k sl l = s := by
  have : l.any (s.markedAt k) = false := by simpa using h
  simp only [State.useMarked, this, Bool.false_eq_true, if_false]
  split <;> rfl

end Sys2Proof.Machine
end

