-- ==== Sys2Proof/Laws/PerInstr.lean ====
section
/-! SUPPORT. One statement about every command as syntax: a task instruction's word fits the 42 bits of its slot (R134), and its opcode is
assigned in that slot (R140–R150); any other command has no word. -/

namespace Sys2Proof.Laws

open Sys2Proof.Machine

/-- The command's slot word, where it has one, fits its slot and carries an assigned opcode. -/
def Carried.Statement (i : Instr) : Prop := ∀ k sl w, slotOf i = some (k, sl, w) → w < 2 ^ 42 ∧ (useMask sl (opOf w)).isSome = true

/-- An opcode above 34 bits of operands. -/
theorem carried_word {sl : Slot} {op low : Nat} (h : op < 256) (hl : low < 2 ^ 34) (hm : (useMask sl op).isSome = true) :
    op * 2 ^ 34 + low < 2 ^ 42 ∧ (useMask sl (opOf (op * 2 ^ 34 + low))).isSome = true := by
  have e : opOf (op * 2 ^ 34 + low) = op := by unfold opOf; omega
  exact ⟨by omega, by rw [e]; exact hm⟩

/-- The same for a word given as any sum. -/
theorem carried_sum {sl : Slot} (op low : Nat) {w : Nat} (e : w = op * 2 ^ 34 + low) (h : op < 256) (hl : low < 2 ^ 34)
    (hm : (useMask sl op).isSome = true) : w < 2 ^ 42 ∧ (useMask sl (opOf w)).isSome = true := e ▸ carried_word h hl hm

theorem carried_enc3 {sl : Slot} {op : Nat} (rd rs1 rs2 : Fin 32) {fn : Nat} (h : op < 256) (hf : fn < 2 ^ 19)
    (hm : (useMask sl op).isSome = true) : enc3 op rd rs1 rs2 fn < 2 ^ 42 ∧ (useMask sl (opOf (enc3 op rd rs1 rs2 fn))).isSome = true :=
  carried_sum op (rd * 2 ^ 29 + rs1 * 2 ^ 24 + rs2 * 2 ^ 19 + fn) (by unfold enc3; omega) h (by omega) hm

theorem carried_encI {sl : Slot} {op : Nat} (rd rs1 : Fin 32) (imm : BitVec 24) (h : op < 256) (hm : (useMask sl op).isSome = true) :
    encI op rd rs1 imm.toNat < 2 ^ 42 ∧ (useMask sl (opOf (encI op rd rs1 imm.toNat))).isSome = true :=
  carried_sum op (rd * 2 ^ 29 + rs1 * 2 ^ 24 + imm.toNat) (by unfold encI; omega) h (by have := imm.isLt; omega) hm

theorem carried_encAg {sl : Slot} {op : Nat} (ag : Fin 4) {d : Nat} (rs1 rs2 : Fin 32) (h : op < 256) (hd : d < 8)
    (hm : (useMask sl op).isSome = true) : encAg op ag d rs1 rs2 < 2 ^ 42 ∧ (useMask sl (opOf (encAg op ag d rs1 rs2))).isSome = true :=
  carried_sum op (ag * 2 ^ 32 + d * 2 ^ 29 + rs1 * 2 ^ 24 + rs2 * 2 ^ 19) (by unfold encAg; omega) h (by omega) hm

theorem carried_encV {sl : Slot} {op : Nat} (vd vs1 vs2 vs3 : Fin 16) (rs : Fin 32) {fn : Nat} (h : op < 256) (hf : fn < 2 ^ 13)
    (hm : (useMask sl op).isSome = true) : encV op vd vs1 vs2 vs3 rs fn < 2 ^ 42 ∧ (useMask sl (opOf (encV op vd vs1 vs2 vs3 rs fn))).isSome = true :=
  carried_sum op (vd * 2 ^ 30 + vs1 * 2 ^ 26 + vs2 * 2 ^ 22 + vs3 * 2 ^ 18 + rs * 2 ^ 13 + fn) (by unfold encV; omega) h (by omega) hm

/-- A command without a word. -/
theorem carried_none {i : Instr} (h : slotOf i = none) : Carried.Statement i := by
  intro k sl w hw
  rw [h] at hw
  cases hw

/-- A command with the word given. -/
theorem carried_some {i : Instr} {k : LCore} {sl : Slot} {w : Nat} (h : slotOf i = some (k, sl, w))
    (hw : w < 2 ^ 42 ∧ (useMask sl (opOf w)).isSome = true) : Carried.Statement i := by
  intro k' sl' w' h'
  rw [h] at h'
  cases h'
  exact hw

theorem Carried.registerWrite (off : BitVec 26) (acc : HostAcc) (obs : HostObs) : Carried.Statement (.registerWrite off acc obs) := carried_none rfl
theorem Carried.bar0BadAccess (bar2 : Bool) (off : BitVec 26) (size : Nat) (acc : HostAcc) : Carried.Statement (.bar0BadAccess bar2 off size acc) := carried_none rfl
theorem Carried.reservedOffsetAccess (bar2 : Bool) (off : BitVec 26) (acc : HostAcc) : Carried.Statement (.reservedOffsetAccess bar2 off acc) := carried_none rfl
theorem Carried.bar4Read (off : BitVec 36) (len : Nat) (resize : Option (Fin 7)) (far : FarReply) : Carried.Statement (.bar4Read off len resize far) := carried_none rfl
theorem Carried.bar4Write (off : BitVec 36) (data : List Byte) (resize : Option (Fin 7)) (far : FarReply) : Carried.Statement (.bar4Write off data resize far) := carried_none rfl
theorem Carried.zfHostwinWrite (v : Word) : Carried.Statement (.zfHostwinWrite v) := carried_none rfl
theorem Carried.cuveeDataWrite (v : Word) : Carried.Statement (.cuveeDataWrite v) := carried_none rfl
theorem Carried.cuveeClear (v : Word) : Carried.Statement (.cuveeClear v) := carried_none rfl
theorem Carried.verify (v : Word) : Carried.Statement (.verify v) := carried_none rfl
theorem Carried.verifyResult : Carried.Statement .verifyResult := carried_none rfl
theorem Carried.image (flashOk : Bool) : Carried.Statement (.image flashOk) := carried_none rfl
theorem Carried.power (railFault : Option (Fin 13)) : Carried.Statement (.power railFault) := carried_none rfl
theorem Carried.clocks (locked : Bool) : Carried.Statement (.clocks locked) := carried_none rfl
theorem Carried.memtrain (obs : List TrainObs) : Carried.Statement (.memtrain obs) := carried_none rfl
theorem Carried.memscreen (obs : ScreenObs) : Carried.Statement (.memscreen obs) := carried_none rfl
theorem Carried.defects (obs : DefectObs) : Carried.Statement (.defects obs) := carried_none rfl
theorem Carried.links : Carried.Statement .links := carried_none rfl
theorem Carried.cabling : Carried.Statement .cabling := carried_none rfl
theorem Carried.secure (rngOk : Bool) (keyOk : Bool) : Carried.Statement (.secure rngOk keyOk) := carried_none rfl
theorem Carried.join (obs : JoinObs) : Carried.Statement (.join obs) := carried_none rfl
theorem Carried.openStep : Carried.Statement .openStep := carried_none rfl
theorem Carried.stepResult (ms : BitVec 32) : Carried.Statement (.stepResult ms) := carried_none rfl
theorem Carried.ctxCreate (c : Ctx) (v : Word) : Carried.Statement (.ctxCreate c v) := carried_none rfl
theorem Carried.ctxDestroy (c : Ctx) (v : Word) : Carried.Statement (.ctxDestroy c v) := carried_none rfl
theorem Carried.contextFree (c : Ctx) : Carried.Statement (.contextFree c) := carried_none rfl
theorem Carried.qsyncLimitWrite (c : Ctx) (v : Word) : Carried.Statement (.qsyncLimitWrite c v) := carried_none rfl
theorem Carried.qpagesLimitWrite (c : Ctx) (v : Word) : Carried.Statement (.qpagesLimitWrite c v) := carried_none rfl
theorem Carried.qgroupsLimitWrite (c : Ctx) (v : Word) : Carried.Statement (.qgroupsLimitWrite c v) := carried_none rfl
theorem Carried.qbwShareWrite (c : Ctx) (v : Word) : Carried.Statement (.qbwShareWrite c v) := carried_none rfl
theorem Carried.bind (v : Word) (far : FarReply) : Carried.Statement (.bind v far) := carried_none rfl
theorem Carried.unbind (v : Word) (queued : List (Fin 64)) : Carried.Statement (.unbind v queued) := carried_none rfl
theorem Carried.tailDoorbell (c : Ctx) (q : Fin 20) (acc : HostAcc) : Carried.Statement (.tailDoorbell c q acc) := carried_none rfl
theorem Carried.headDoorbell (c : Ctx) (r : Fin 8) (acc : HostAcc) : Carried.Statement (.headDoorbell c r acc) := carried_none rfl
theorem Carried.queueEnable (c : Ctx) (q : Fin 20) (v : Word) : Carried.Statement (.queueEnable c q v) := carried_none rfl
theorem Carried.queueDisable (c : Ctx) (q : Fin 20) (v : Word) : Carried.Statement (.queueDisable c q v) := carried_none rfl
theorem Carried.ringEnable (c : Ctx) (r : Fin 8) (v : Word) : Carried.Statement (.ringEnable c r v) := carried_none rfl
theorem Carried.ringDisable (c : Ctx) (r : Fin 8) (v : Word) : Carried.Statement (.ringDisable c r v) := carried_none rfl
theorem Carried.descriptorFetch (q : QRef) (obs : FetchObs) : Carried.Statement (.descriptorFetch q obs) := carried_none rfl
theorem Carried.poolEntry (c : Ctx) (q : Fin 16) : Carried.Statement (.poolEntry c q) := carried_none rfl
theorem Carried.taskPull (k : LCore) : Carried.Statement (.taskPull k) := carried_none rfl
theorem Carried.taskCompletion (k : LCore) : Carried.Statement (.taskCompletion k) := carried_none rfl
theorem Carried.recordWrite (c : Ctx) (r : Fin 8) (linkOk : Bool) : Carried.Statement (.recordWrite c r linkOk) := carried_none rfl
theorem Carried.interruptHoldoff (r : RingRef) : Carried.Statement (.interruptHoldoff r) := carried_none rfl
theorem Carried.shadowTimeout (k : LCore) : Carried.Statement (.shadowTimeout k) := carried_none rfl
theorem Carried.decantLoRead : Carried.Statement .decantLoRead := carried_none rfl
theorem Carried.decantHiRead : Carried.Statement .decantHiRead := carried_none rfl
theorem Carried.decantLostRead : Carried.Statement .decantLostRead := carried_none rfl
theorem Carried.decantSpillRead : Carried.Statement .decantSpillRead := carried_none rfl
theorem Carried.decantBadAccess (off : BitVec 12) (size : Nat) (acc : HostAcc) : Carried.Statement (.decantBadAccess off size acc) := carried_none rfl
theorem Carried.decantWrite (off : BitVec 12) (v : BitVec 32) : Carried.Statement (.decantWrite off v) := carried_none rfl
theorem Carried.syncAlloc (v : Word) : Carried.Statement (.syncAlloc v) := carried_none rfl
theorem Carried.syncFree (v : Word) : Carried.Statement (.syncFree v) := carried_none rfl
theorem Carried.syncArm (v : Word) : Carried.Statement (.syncArm v) := carried_none rfl
theorem Carried.syncSignal (v : Word) : Carried.Statement (.syncSignal v) := carried_none rfl
theorem Carried.syncReset (v : Word) : Carried.Statement (.syncReset v) := carried_none rfl
theorem Carried.syncRead (v : Word) : Carried.Statement (.syncRead v) := carried_none rfl
theorem Carried.signal (m : SigIn) (ecc : EccObs) : Carried.Statement (.signal m ecc) := carried_none rfl
theorem Carried.pourWave (d : Die) : Carried.Statement (.pourWave d) := carried_none rfl
theorem Carried.setpointReturn (d : Die) : Carried.Statement (.setpointReturn d) := carried_none rfl
theorem Carried.tokenArrival (k : LCore) (e : Endp) : Carried.Statement (.tokenArrival k e) := carried_none rfl
theorem Carried.nop (k : LCore) (sl : Slot) : Carried.Statement (.nop k sl) :=
  by
  cases sl <;> exact carried_some rfl ⟨by decide, by decide⟩
theorem Carried.add (k : LCore) (rd : XReg) (rs1 : XReg) (rs2 : XReg) : Carried.Statement (.add k rd rs1 rs2) :=
  carried_some rfl (carried_enc3 rd rs1 rs2 (by decide) (by decide) (by decide))
theorem Carried.sub (k : LCore) (rd : XReg) (rs1 : XReg) (rs2 : XReg) : Carried.Statement (.sub k rd rs1 rs2) :=
  carried_some rfl (carried_enc3 rd rs1 rs2 (by decide) (by decide) (by decide))
theorem Carried.and (k : LCore) (rd : XReg) (rs1 : XReg) (rs2 : XReg) : Carried.Statement (.and k rd rs1 rs2) :=
  carried_some rfl (carried_enc3 rd rs1 rs2 (by decide) (by decide) (by decide))
theorem Carried.or (k : LCore) (rd : XReg) (rs1 : XReg) (rs2 : XReg) : Carried.Statement (.or k rd rs1 rs2) :=
  carried_some rfl (carried_enc3 rd rs1 rs2 (by decide) (by decide) (by decide))
theorem Carried.xor (k : LCore) (rd : XReg) (rs1 : XReg) (rs2 : XReg) : Carried.Statement (.xor k rd rs1 rs2) :=
  carried_some rfl (carried_enc3 rd rs1 rs2 (by decide) (by decide) (by decide))
theorem Carried.sll (k : LCore) (rd : XReg) (rs1 : XReg) (rs2 : XReg) : Carried.Statement (.sll k rd rs1 rs2) :=
  carried_some rfl (carried_enc3 rd rs1 rs2 (by decide) (by decide) (by decide))
theorem Carried.srl (k : LCore) (rd : XReg) (rs1 : XReg) (rs2 : XReg) : Carried.Statement (.srl k rd rs1 rs2) :=
  carried_some rfl (carried_enc3 rd rs1 rs2 (by decide) (by decide) (by decide))
theorem Carried.sra (k : LCore) (rd : XReg) (rs1 : XReg) (rs2 : XReg) : Carried.Statement (.sra k rd rs1 rs2) :=
  carried_some rfl (carried_enc3 rd rs1 rs2 (by decide) (by decide) (by decide))
theorem Carried.mul (k : LCore) (rd : XReg) (rs1 : XReg) (rs2 : XReg) : Carried.Statement (.mul k rd rs1 rs2) :=
  carried_some rfl (carried_enc3 rd rs1 rs2 (by decide) (by decide) (by decide))
theorem Carried.mulhu (k : LCore) (rd : XReg) (rs1 : XReg) (rs2 : XReg) : Carried.Statement (.mulhu k rd rs1 rs2) :=
  carried_some rfl (carried_enc3 rd rs1 rs2 (by decide) (by decide) (by decide))
theorem Carried.divu (k : LCore) (rd : XReg) (rs1 : XReg) (rs2 : XReg) : Carried.Statement (.divu k rd rs1 rs2) :=
  carried_some rfl (carried_enc3 rd rs1 rs2 (by decide) (by decide) (by decide))
theorem Carried.remu (k : LCore) (rd : XReg) (rs1 : XReg) (rs2 : XReg) : Carried.Statement (.remu k rd rs1 rs2) :=
  carried_some rfl (carried_enc3 rd rs1 rs2 (by decide) (by decide) (by decide))
theorem Carried.slt (k : LCore) (rd : XReg) (rs1 : XReg) (rs2 : XReg) : Carried.Statement (.slt k rd rs1 rs2) :=
  carried_some rfl (carried_enc3 rd rs1 rs2 (by decide) (by decide) (by decide))
theorem Carried.sltu (k : LCore) (rd : XReg) (rs1 : XReg) (rs2 : XReg) : Carried.Statement (.sltu k rd rs1 rs2) :=
  carried_some rfl (carried_enc3 rd rs1 rs2 (by decide) (by decide) (by decide))
theorem Carried.min (k : LCore) (rd : XReg) (rs1 : XReg) (rs2 : XReg) : Carried.Statement (.min k rd rs1 rs2) :=
  carried_some rfl (carried_enc3 rd rs1 rs2 (by decide) (by decide) (by decide))
theorem Carried.max (k : LCore) (rd : XReg) (rs1 : XReg) (rs2 : XReg) : Carried.Statement (.max k rd rs1 rs2) :=
  carried_some rfl (carried_enc3 rd rs1 rs2 (by decide) (by decide) (by decide))
theorem Carried.addi (k : LCore) (rd : XReg) (rs1 : XReg) (imm : BitVec 24) : Carried.Statement (.addi k rd rs1 imm) :=
  carried_some rfl (carried_encI rd rs1 imm (by decide) (by decide))
theorem Carried.andi (k : LCore) (rd : XReg) (rs1 : XReg) (imm : BitVec 24) : Carried.Statement (.andi k rd rs1 imm) :=
  carried_some rfl (carried_encI rd rs1 imm (by decide) (by decide))
theorem Carried.ori (k : LCore) (rd : XReg) (rs1 : XReg) (imm : BitVec 24) : Carried.Statement (.ori k rd rs1 imm) :=
  carried_some rfl (carried_encI rd rs1 imm (by decide) (by decide))
theorem Carried.xori (k : LCore) (rd : XReg) (rs1 : XReg) (imm : BitVec 24) : Carried.Statement (.xori k rd rs1 imm) :=
  carried_some rfl (carried_encI rd rs1 imm (by decide) (by decide))
theorem Carried.lui (k : LCore) (rd : XReg) (imm : BitVec 24) : Carried.Statement (.lui k rd imm) :=
  carried_some rfl (carried_encI rd 0 imm (by decide) (by decide))
theorem Carried.lhi (k : LCore) (rd : XReg) (rs1 : XReg) (imm : BitVec 24) : Carried.Statement (.lhi k rd rs1 imm) :=
  carried_some rfl (carried_encI rd rs1 imm (by decide) (by decide))
theorem Carried.rdsr (k : LCore) (rd : XReg) (idx : BitVec 24) : Carried.Statement (.rdsr k rd idx) :=
  carried_some rfl (carried_encI rd 0 idx (by decide) (by decide))
theorem Carried.beq (k : LCore) (rs1 : XReg) (rs2 : XReg) (off : BitVec 24) : Carried.Statement (.beq k rs1 rs2 off) :=
  carried_some rfl (carried_encI rs1 rs2 off (by decide) (by decide))
theorem Carried.bne (k : LCore) (rs1 : XReg) (rs2 : XReg) (off : BitVec 24) : Carried.Statement (.bne k rs1 rs2 off) :=
  carried_some rfl (carried_encI rs1 rs2 off (by decide) (by decide))
theorem Carried.blt (k : LCore) (rs1 : XReg) (rs2 : XReg) (off : BitVec 24) : Carried.Statement (.blt k rs1 rs2 off) :=
  carried_some rfl (carried_encI rs1 rs2 off (by decide) (by decide))
theorem Carried.bge (k : LCore) (rs1 : XReg) (rs2 : XReg) (off : BitVec 24) : Carried.Statement (.bge k rs1 rs2 off) :=
  carried_some rfl (carried_encI rs1 rs2 off (by decide) (by decide))
theorem Carried.bltu (k : LCore) (rs1 : XReg) (rs2 : XReg) (off : BitVec 24) : Carried.Statement (.bltu k rs1 rs2 off) :=
  carried_some rfl (carried_encI rs1 rs2 off (by decide) (by decide))
theorem Carried.bgeu (k : LCore) (rs1 : XReg) (rs2 : XReg) (off : BitVec 24) : Carried.Statement (.bgeu k rs1 rs2 off) :=
  carried_some rfl (carried_encI rs1 rs2 off (by decide) (by decide))
theorem Carried.jal (k : LCore) (rd : XReg) (off : BitVec 24) : Carried.Statement (.jal k rd off) :=
  carried_some rfl (carried_encI rd 0 off (by decide) (by decide))
theorem Carried.jalr (k : LCore) (rd : XReg) (rs1 : XReg) (imm : BitVec 24) : Carried.Statement (.jalr k rd rs1 imm) :=
  carried_some rfl (carried_encI rd rs1 imm (by decide) (by decide))
theorem Carried.agbase (k : LCore) (ag : AReg) (rs1 : XReg) : Carried.Statement (.agbase k ag rs1) :=
  carried_some rfl (carried_encAg ag rs1 0 (by decide) (by decide) (by decide))
theorem Carried.agdim (k : LCore) (ag : AReg) (d : Fin 8) (rs1 : XReg) (rs2 : XReg) : Carried.Statement (.agdim k ag d rs1 rs2) :=
  carried_some rfl (carried_encAg ag rs1 rs2 (by decide) d.isLt (by decide))
theorem Carried.agstep (k : LCore) (ag : AReg) (d : Fin 8) : Carried.Statement (.agstep k ag d) :=
  carried_some rfl (carried_encAg ag 0 0 (by decide) d.isLt (by decide))
theorem Carried.agrd (k : LCore) (ag : AReg) (rd : XReg) : Carried.Statement (.agrd k ag rd) :=
  carried_some rfl (carried_encAg ag rd 0 (by decide) (by decide) (by decide))
theorem Carried.vld (k : LCore) (v : VReg) (ag : AReg) (w : Fin 4) (obs_ : List StoreLine) : Carried.Statement (.vld k v ag w obs_) :=
  carried_some rfl (carried_sum 0x08 (v * 2 ^ 30 + ag * 2 ^ 28 + w * 2 ^ 26) (by unfold encVm; omega) (by decide) (by omega) (by decide))
theorem Carried.vst (k : LCore) (v : VReg) (ag : AReg) (w : Fin 4) : Carried.Statement (.vst k v ag w) :=
  carried_some rfl (carried_sum 0x09 (v * 2 ^ 30 + ag * 2 ^ 28 + w * 2 ^ 26) (by unfold encVm; omega) (by decide) (by omega) (by decide))
theorem Carried.sld (k : LCore) (rd : XReg) (rs1 : XReg) (imm : BitVec 24) (obs_ : List StoreLine) : Carried.Statement (.sld k rd rs1 imm obs_) :=
  carried_some rfl (carried_encI rd rs1 imm (by decide) (by decide))
theorem Carried.sst (k : LCore) (rs : XReg) (rs1 : XReg) (imm : BitVec 24) : Carried.Statement (.sst k rs rs1 imm) :=
  carried_some rfl (carried_encI rs rs1 imm (by decide) (by decide))
theorem Carried.move (k : LCore) (rd : XReg) (rs1 : XReg) (rs2 : XReg) (obs_ : List StoreLine) : Carried.Statement (.move k rd rs1 rs2 obs_) :=
  carried_some rfl (carried_enc3 rd rs1 rs2 (by decide) (by decide) (by decide))
theorem Carried.moveComplete (k : LCore) (i : Nat) : Carried.Statement (.moveComplete k i) := carried_none rfl
theorem Carried.get (k : LCore) (rd : XReg) (rs1 : XReg) (rs2 : XReg) : Carried.Statement (.get k rd rs1 rs2) :=
  carried_some rfl (carried_enc3 rd rs1 rs2 (by decide) (by decide) (by decide))
theorem Carried.put (k : LCore) (rd : XReg) (rs1 : XReg) (rs2 : XReg) (obs_ : List StoreLine) : Carried.Statement (.put k rd rs1 rs2 obs_) :=
  carried_some rfl (carried_enc3 rd rs1 rs2 (by decide) (by decide) (by decide))
theorem Carried.puts (k : LCore) (rd : XReg) (rs1 : XReg) (rs2 : XReg) (rsig : XReg) (obs_ : List StoreLine) : Carried.Statement (.puts k rd rs1 rs2 rsig obs_) :=
  carried_some rfl (carried_enc3 rd rs1 rs2 (by decide) (by omega) (by decide))
theorem Carried.fwait (k : LCore) (n : BitVec 5) : Carried.Statement (.fwait k n) :=
  carried_some rfl (carried_enc3 0 0 0 (by decide) (by have := n.isLt; omega) (by decide))
theorem Carried.aadd (k : LCore) (rd : XReg) (rs1 : XReg) (rs2 : XReg) : Carried.Statement (.aadd k rd rs1 rs2) :=
  carried_some rfl (carried_enc3 rd rs1 rs2 (by decide) (by decide) (by decide))
theorem Carried.amin (k : LCore) (rd : XReg) (rs1 : XReg) (rs2 : XReg) : Carried.Statement (.amin k rd rs1 rs2) :=
  carried_some rfl (carried_enc3 rd rs1 rs2 (by decide) (by decide) (by decide))
theorem Carried.amax (k : LCore) (rd : XReg) (rs1 : XReg) (rs2 : XReg) : Carried.Statement (.amax k rd rs1 rs2) :=
  carried_some rfl (carried_enc3 rd rs1 rs2 (by decide) (by decide) (by decide))
theorem Carried.aswp (k : LCore) (rd : XReg) (rs1 : XReg) (rs2 : XReg) : Carried.Statement (.aswp k rd rs1 rs2) :=
  carried_some rfl (carried_enc3 rd rs1 rs2 (by decide) (by decide) (by decide))
theorem Carried.acas (k : LCore) (rd : XReg) (rs1 : XReg) (rs2 : XReg) : Carried.Statement (.acas k rd rs1 rs2) :=
  carried_some rfl (carried_enc3 rd rs1 rs2 (by decide) (by decide) (by decide))
theorem Carried.fabricReply (k : LCore) (i : Nat) (lines : List LineObs) : Carried.Statement (.fabricReply k i lines) := carried_none rfl
theorem Carried.tstart (k : LCore) (m1 : Fin 128) (n1 : Fin 128) (mode : Fin 4) (rk : XReg) (ra : XReg) (obs_ : List StoreLine) : Carried.Statement (.tstart k m1 n1 mode rk ra obs_) :=
  carried_some rfl (carried_sum 0x01 (m1 * 2 ^ 27 + n1 * 2 ^ 20 + mode * 2 ^ 18 + rk * 2 ^ 13 + ra * 2 ^ 8) (by omega) (by decide) (by omega) (by decide))
theorem Carried.tmma (k : LCore) (aga : AReg) (agb : AReg) (fa : Fin 16) (fb : Fin 16) (mx : Bool) (sparse : Bool) (rk : XReg) (rs : XReg) (obs_ : List StoreLine) : Carried.Statement (.tmma k aga agb fa fb mx sparse rk rs obs_) :=
  carried_some rfl (carried_sum 0x02 (aga * 2 ^ 32 + agb * 2 ^ 30 + fa * 2 ^ 26 + fb * 2 ^ 22 + ofBool mx * 2 ^ 21 + ofBool sparse * 2 ^ 20 + rk * 2 ^ 15 + rs * 2 ^ 10) (by omega) (by decide) (by cases mx <;> cases sparse <;> simp only [ofBool, if_true, if_false, Bool.false_eq_true] <;> omega) (by decide))
theorem Carried.tfin (k : LCore) (ago : AReg) (ofmt : Fin 16) (sat : Bool) (sr : Bool) (ftz : Bool) (rx : XReg) : Carried.Statement (.tfin k ago ofmt sat sr ftz rx) :=
  carried_some rfl (carried_sum 0x03 (ago * 2 ^ 32 + ofmt * 2 ^ 28 + ofBool sat * 2 ^ 27 + ofBool sr * 2 ^ 26 + ofBool ftz * 2 ^ 25 + rx * 2 ^ 20) (by omega) (by decide) (by cases sat <;> cases sr <;> cases ftz <;> simp only [ofBool, if_true, if_false, Bool.false_eq_true] <;> omega) (by decide))
theorem Carried.twait (k : LCore) : Carried.Statement (.twait k) :=
  carried_some rfl (carried_sum 0x04 (0) (by omega) (by decide) (by omega) (by decide))
theorem Carried.finishComplete (k : LCore) : Carried.Statement (.finishComplete k) := carried_none rfl
theorem Carried.vadd (k : LCore) (vd : VReg) (vs1 : VReg) (vs2 : VReg) : Carried.Statement (.vadd k vd vs1 vs2) :=
  carried_some rfl (carried_encV vd vs1 vs2 0 0 (by decide) (by decide) (by decide))
theorem Carried.vsub (k : LCore) (vd : VReg) (vs1 : VReg) (vs2 : VReg) : Carried.Statement (.vsub k vd vs1 vs2) :=
  carried_some rfl (carried_encV vd vs1 vs2 0 0 (by decide) (by decide) (by decide))
theorem Carried.vmul (k : LCore) (vd : VReg) (vs1 : VReg) (vs2 : VReg) : Carried.Statement (.vmul k vd vs1 vs2) :=
  carried_some rfl (carried_encV vd vs1 vs2 0 0 (by decide) (by decide) (by decide))
theorem Carried.vfma (k : LCore) (vd : VReg) (vs1 : VReg) (vs2 : VReg) (vs3 : VReg) : Carried.Statement (.vfma k vd vs1 vs2 vs3) :=
  carried_some rfl (carried_encV vd vs1 vs2 vs3 0 (by decide) (by decide) (by decide))
theorem Carried.vdiv (k : LCore) (vd : VReg) (vs1 : VReg) (vs2 : VReg) : Carried.Statement (.vdiv k vd vs1 vs2) :=
  carried_some rfl (carried_encV vd vs1 vs2 0 0 (by decide) (by decide) (by decide))
theorem Carried.vsqrt (k : LCore) (vd : VReg) (vs1 : VReg) : Carried.Statement (.vsqrt k vd vs1) :=
  carried_some rfl (carried_encV vd vs1 0 0 0 (by decide) (by decide) (by decide))
theorem Carried.vmax (k : LCore) (vd : VReg) (vs1 : VReg) (vs2 : VReg) : Carried.Statement (.vmax k vd vs1 vs2) :=
  carried_some rfl (carried_encV vd vs1 vs2 0 0 (by decide) (by decide) (by decide))
theorem Carried.vmin (k : LCore) (vd : VReg) (vs1 : VReg) (vs2 : VReg) : Carried.Statement (.vmin k vd vs1 vs2) :=
  carried_some rfl (carried_encV vd vs1 vs2 0 0 (by decide) (by decide) (by decide))
theorem Carried.vexp (k : LCore) (vd : VReg) (vs1 : VReg) : Carried.Statement (.vexp k vd vs1) :=
  carried_some rfl (carried_encV vd vs1 0 0 0 (by decide) (by decide) (by decide))
theorem Carried.vlog (k : LCore) (vd : VReg) (vs1 : VReg) : Carried.Statement (.vlog k vd vs1) :=
  carried_some rfl (carried_encV vd vs1 0 0 0 (by decide) (by decide) (by decide))
theorem Carried.vrsqrt (k : LCore) (vd : VReg) (vs1 : VReg) : Carried.Statement (.vrsqrt k vd vs1) :=
  carried_some rfl (carried_encV vd vs1 0 0 0 (by decide) (by decide) (by decide))
theorem Carried.vtanh (k : LCore) (vd : VReg) (vs1 : VReg) : Carried.Statement (.vtanh k vd vs1) :=
  carried_some rfl (carried_encV vd vs1 0 0 0 (by decide) (by decide) (by decide))
theorem Carried.vsig (k : LCore) (vd : VReg) (vs1 : VReg) : Carried.Statement (.vsig k vd vs1) :=
  carried_some rfl (carried_encV vd vs1 0 0 0 (by decide) (by decide) (by decide))
theorem Carried.vbcast (k : LCore) (vd : VReg) (rs : XReg) : Carried.Statement (.vbcast k vd rs) :=
  carried_some rfl (carried_encV vd 0 0 0 rs (by decide) (by decide) (by decide))
theorem Carried.vlane (k : LCore) (vs1 : VReg) (rs : XReg) (lane : Fin 128) : Carried.Statement (.vlane k vs1 rs lane) :=
  carried_some rfl (carried_encV 0 vs1 0 0 rs (by decide) (by omega) (by decide))
theorem Carried.vcvt (k : LCore) (vd : VReg) (vs1 : VReg) (rs : XReg) (frm : Fin 16) (dst : Fin 16) (sr : Bool) (sat : Bool) : Carried.Statement (.vcvt k vd vs1 rs frm dst sr sat) :=
  carried_some rfl (carried_encV vd vs1 0 0 rs (by decide) (by cases sr <;> cases sat <;> simp only [ofBool, if_true, if_false, Bool.false_eq_true] <;> omega) (by decide))
theorem Carried.vrsum (k : LCore) (vd : VReg) (vs1 : VReg) : Carried.Statement (.vrsum k vd vs1) :=
  carried_some rfl (carried_encV vd vs1 0 0 0 (by decide) (by decide) (by decide))
theorem Carried.vrmax (k : LCore) (vd : VReg) (vs1 : VReg) : Carried.Statement (.vrmax k vd vs1) :=
  carried_some rfl (carried_encV vd vs1 0 0 0 (by decide) (by decide) (by decide))
theorem Carried.vrmin (k : LCore) (vd : VReg) (vs1 : VReg) : Carried.Statement (.vrmin k vd vs1) :=
  carried_some rfl (carried_encV vd vs1 0 0 0 (by decide) (by decide) (by decide))
theorem Carried.vwred (k : LCore) (vd : VReg) (vs1 : VReg) (rs : XReg) : Carried.Statement (.vwred k vd vs1 rs) :=
  carried_some rfl (carried_encV vd vs1 0 0 rs (by decide) (by decide) (by decide))
theorem Carried.vwredr (k : LCore) (vd : VReg) (vs1 : VReg) (rs : XReg) : Carried.Statement (.vwredr k vd vs1 rs) :=
  carried_some rfl (carried_encV vd vs1 0 0 rs (by decide) (by decide) (by decide))
theorem Carried.vradd (k : LCore) (vd : VReg) (vs1 : VReg) (vs2 : VReg) : Carried.Statement (.vradd k vd vs1 vs2) :=
  carried_some rfl (carried_encV vd vs1 vs2 0 0 (by decide) (by decide) (by decide))
theorem Carried.ssig (k : LCore) (rs1 : XReg) (rs2 : XReg) : Carried.Statement (.ssig k rs1 rs2) :=
  carried_some rfl (carried_enc3 0 rs1 rs2 (by decide) (by decide) (by decide))
theorem Carried.swait (k : LCore) (rd : XReg) (rs1 : XReg) (rs2 : XReg) (fn : BitVec 19) : Carried.Statement (.swait k rd rs1 rs2 fn) :=
  carried_some rfl (carried_enc3 rd rs1 rs2 (by decide) fn.isLt (by decide))
theorem Carried.srst (k : LCore) (rs1 : XReg) : Carried.Statement (.srst k rs1) :=
  carried_some rfl (carried_enc3 0 rs1 0 (by decide) (by decide) (by decide))
theorem Carried.srd (k : LCore) (rd : XReg) (rs1 : XReg) : Carried.Statement (.srd k rd rs1) :=
  carried_some rfl (carried_enc3 rd rs1 0 (by decide) (by decide) (by decide))
theorem Carried.tbind (k : LCore) (e : Endp) (rs1 : XReg) : Carried.Statement (.tbind k e rs1) :=
  carried_some rfl (carried_enc3 0 rs1 0 (by decide) (by omega) (by decide))
theorem Carried.tunbind (k : LCore) (e : Endp) : Carried.Statement (.tunbind k e) :=
  carried_some rfl (carried_enc3 0 0 0 (by decide) (by omega) (by decide))
theorem Carried.tsend (k : LCore) (e : Endp) (rs1 : XReg) : Carried.Statement (.tsend k e rs1) :=
  carried_some rfl (carried_enc3 0 rs1 0 (by decide) (by omega) (by decide))
theorem Carried.trecv (k : LCore) (rd : XReg) (e : Endp) : Carried.Statement (.trecv k rd e) :=
  carried_some rfl (carried_enc3 rd 0 0 (by decide) (by omega) (by decide))
theorem Carried.tstat (k : LCore) (rd : XReg) (e : Endp) : Carried.Statement (.tstat k rd e) :=
  carried_some rfl (carried_enc3 rd 0 0 (by decide) (by omega) (by decide))
theorem Carried.clnch (k : LCore) (rs1 : XReg) (rs2 : XReg) (obs_ : List StoreLine) : Carried.Statement (.clnch k rs1 rs2 obs_) :=
  carried_some rfl (carried_enc3 0 rs1 rs2 (by decide) (by decide) (by decide))
theorem Carried.tend (k : LCore) (kind : Bool) : Carried.Statement (.tend k kind) :=
  carried_some rfl (carried_enc3 0 0 0 (by decide) (by cases kind <;> decide) (by decide))
theorem Carried.stall (k : LCore) : Carried.Statement (.stall k) := carried_none rfl
theorem Carried.hangProbe (silent : List LCore) : Carried.Statement (.hangProbe silent) := carried_none rfl
theorem Carried.coreHang (k : LCore) (e : Option (Fin 4)) : Carried.Statement (.coreHang k e) := carried_none rfl
theorem Carried.resetDeadline (u : RUnit) : Carried.Statement (.resetDeadline u) := carried_none rfl
theorem Carried.tastingStart (n : Cluster) : Carried.Statement (.tastingStart n) := carried_none rfl
theorem Carried.tastingResult (n : Cluster) (pass : Bool) (item : Byte) : Carried.Statement (.tastingResult n pass item) := carried_none rfl
theorem Carried.tasteOverdue (n : Cluster) : Carried.Statement (.tasteOverdue n) := carried_none rfl
theorem Carried.moveBegin (n : Cluster) : Carried.Statement (.moveBegin n) := carried_none rfl
theorem Carried.moveCompleteMap (o : MoveCopy) : Carried.Statement (.moveCompleteMap o) := carried_none rfl
theorem Carried.read (q : Req) (obs : List LineObs) : Carried.Statement (.read q obs) := carried_none rfl
theorem Carried.write (q : Req) : Carried.Statement (.write q) := carried_none rfl
theorem Carried.atomic (q : Req) (obs : List LineObs) : Carried.Statement (.atomic q obs) := carried_none rfl
theorem Carried.data (r : Reply) : Carried.Statement (.data r) := carried_none rfl
theorem Carried.ack (r : Reply) : Carried.Statement (.ack r) := carried_none rfl
theorem Carried.old (r : Reply) : Carried.Statement (.old r) := carried_none rfl
theorem Carried.refused (r : Reply) : Carried.Statement (.refused r) := carried_none rfl
theorem Carried.rowRemap (r : RowRef) (ok : Bool) : Carried.Statement (.rowRemap r ok) := carried_none rfl
theorem Carried.bankRemap (r : RowRef) : Carried.Statement (.bankRemap r) := carried_none rfl
theorem Carried.stackDead (st : Stack) : Carried.Statement (.stackDead st) := carried_none rfl
theorem Carried.patrolScrub (st : Stack) (line : Nat) (obs : LineObs) : Carried.Statement (.patrolScrub st line obs) := carried_none rfl
theorem Carried.refresh (st : Stack) : Carried.Statement (.refresh st) := carried_none rfl
theorem Carried.stackTemperatureRead (st : Stack) (t : Int) : Carried.Statement (.stackTemperatureRead st t) := carried_none rfl
theorem Carried.wordReplay (path : PathRef) (clean : Bool) (line : Nat) : Carried.Statement (.wordReplay path clean line) := carried_none rfl
theorem Carried.map (v : Word) : Carried.Statement (.map v) := carried_none rfl
theorem Carried.unmap (v : Word) : Carried.Statement (.unmap v) := carried_none rfl
theorem Carried.protect (v : Word) : Carried.Statement (.protect v) := carried_none rfl
theorem Carried.lookup (v : Word) : Carried.Statement (.lookup v) := carried_none rfl
theorem Carried.cacheDropComplete : Carried.Statement .cacheDropComplete := carried_none rfl
theorem Carried.copyStart (c : Ctx) (q : Fin 4) : Carried.Statement (.copyStart c q) := carried_none rfl
theorem Carried.copyPartEnd (c : Ctx) (q : Fin 4) (i : Nat) (part : Fin 32) (obs : PartObs) : Carried.Statement (.copyPartEnd c q i part obs) := carried_none rfl
theorem Carried.partTimeout (c : Ctx) (q : Fin 4) (i : Nat) (part : Fin 32) : Carried.Statement (.partTimeout c q i part) := carried_none rfl
theorem Carried.requestTimeout (id : BitVec 32) : Carried.Statement (.requestTimeout id) := carried_none rfl
theorem Carried.routerForward (p : Pkt) (fromPort : Option Port) : Carried.Statement (.routerForward p fromPort) := carried_none rfl
theorem Carried.holdRelease : Carried.Statement .holdRelease := carried_none rfl
theorem Carried.routeUpdate (m : RouteMsg) : Carried.Statement (.routeUpdate m) := carried_none rfl
theorem Carried.groupCreate (v : Word) (rankMap : FarReply) (views : List RouterObs) : Carried.Statement (.groupCreate v rankMap views) := carried_none rfl
theorem Carried.groupJoin (v : Word) : Carried.Statement (.groupJoin v) := carried_none rfl
theorem Carried.groupDestroy (v : Word) : Carried.Statement (.groupDestroy v) := carried_none rfl
theorem Carried.groupSetup (m : SetupMsg) : Carried.Statement (.groupSetup m) := carried_none rfl
theorem Carried.formTimeout (g : Grp) : Carried.Statement (.formTimeout g) := carried_none rfl
theorem Carried.commQueueEnable (g : Grp) (v : Word) : Carried.Statement (.commQueueEnable g v) := carried_none rfl
theorem Carried.commQueueDisable (g : Grp) (v : Word) : Carried.Statement (.commQueueDisable g v) := carried_none rfl
theorem Carried.commDoorbell (c : Ctx) (acc : HostAcc) : Carried.Statement (.commDoorbell c acc) := carried_none rfl
theorem Carried.collectiveStart (g : Grp) (far : FarReply) (hop end_ : DigestObs) : Carried.Statement (.collectiveStart g far hop end_) := carried_none rfl
theorem Carried.collUp (u : CollIn) (hop end_ : DigestObs) : Carried.Statement (.collUp u hop end_) := carried_none rfl
theorem Carried.collDown (u : CollIn) (hop end_ : DigestObs) : Carried.Statement (.collDown u hop end_) := carried_none rfl
theorem Carried.collCtrl (u : CollIn) : Carried.Statement (.collCtrl u) := carried_none rfl
theorem Carried.collectiveTimeout (r : CollRef) : Carried.Statement (.collectiveTimeout r) := carried_none rfl
theorem Carried.expressFlit (p : Port) (cw : BitVec 5440) : Carried.Statement (.expressFlit p cw) := carried_none rfl
theorem Carried.blockReceive (p : Port) (cws : List (BitVec 5440)) : Carried.Statement (.blockReceive p cws) := carried_none rfl
theorem Carried.comma (p : Port) (obs : CommaObs) : Carried.Statement (.comma p obs) := carried_none rfl
theorem Carried.swapApply (p : Port) : Carried.Statement (.swapApply p) := carried_none rfl
theorem Carried.swap (p : Port) (lane : Fin 16) (sub : Fin 34) (seq : BitVec 14) : Carried.Statement (.swap p lane sub seq) := carried_none rfl
theorem Carried.swapAck (p : Port) (lane : Fin 16) (sub : Fin 34) (seq : BitVec 14) : Carried.Statement (.swapAck p lane sub seq) := carried_none rfl
theorem Carried.narrow (p : Port) (w : BitVec 5) (seq : BitVec 14) : Carried.Statement (.narrow p w seq) := carried_none rfl
theorem Carried.narrowAck (p : Port) (w : BitVec 5) (seq : BitVec 14) : Carried.Statement (.narrowAck p w seq) := carried_none rfl
theorem Carried.disable (p : Port) (reason : Fin 16) : Carried.Statement (.disable p reason) := carried_none rfl
theorem Carried.trainingSuperframe (p : Port) (lane : Fin 34) (msg : Word) (crc : BitVec 32) (rtt : BitVec 16) : Carried.Statement (.trainingSuperframe p lane msg crc rtt) := carried_none rfl
theorem Carried.tapReq (p : Port) (lane : Fin 34) (r : TapReq) (crc : BitVec 32) : Carried.Statement (.tapReq p lane r crc) := carried_none rfl
theorem Carried.tapStat (p : Port) (lane : Fin 34) (num : Byte) (t : Taps) (res : BitVec 8) (crc : BitVec 32) : Carried.Statement (.tapStat p lane num t res crc) := carried_none rfl
theorem Carried.laneDone (p : Port) (lanes : BitVec 34) (crc : BitVec 32) : Carried.Statement (.laneDone p lanes crc) := carried_none rfl
theorem Carried.ident (p : Port) (node : Node) (port : Port) (token echo : BitVec 12) (rtt : BitVec 16) (crc : BitVec 32) : Carried.Statement (.ident p node port token echo rtt crc) := carried_none rfl
theorem Carried.width (p : Port) (w wmin : BitVec 5) (bad : BitVec 34) (crc : BitVec 32) : Carried.Statement (.width p w wmin bad crc) := carried_none rfl
theorem Carried.abort (p : Port) (reason : Byte) (crc : BitVec 32) : Carried.Statement (.abort p reason crc) := carried_none rfl
theorem Carried.prbsCount (p : Port) (lane : Fin 34) (errors : Nat) : Carried.Statement (.prbsCount p lane errors) := carried_none rfl
theorem Carried.trainingTimeout (p : Port) : Carried.Statement (.trainingTimeout p) := carried_none rfl
theorem Carried.retrainTimer (p : Port) : Carried.Statement (.retrainTimer p) := carried_none rfl
theorem Carried.eyeMarginSweep (oe : Fin 16) (w0 h0 w1 h1 : Byte) : Carried.Statement (.eyeMarginSweep oe w0 h0 w1 h1) := carried_none rfl
theorem Carried.portRetrain (v : Word) : Carried.Statement (.portRetrain v) := carried_none rfl
theorem Carried.deferredRetrainStart : Carried.Statement .deferredRetrainStart := carried_none rfl
theorem Carried.hello (p : Port) (nonce : List Byte) (node : Node) (port : Port) : Carried.Statement (.hello p nonce node port) := carried_none rfl
theorem Carried.cert (p : Port) (off : BitVec 16) (frag : List Byte) : Carried.Statement (.cert p off frag) := carried_none rfl
theorem Carried.share (p : Port) (half : Fin 2) (bytes : List Byte) : Carried.Statement (.share p half bytes) := carried_none rfl
theorem Carried.proof (p : Port) (half : Fin 2) (bytes : List Byte) : Carried.Statement (.proof p half bytes) := carried_none rfl
theorem Carried.finish (p : Port) (mac : List Byte) : Carried.Statement (.finish p mac) := carried_none rfl
theorem Carried.refuse (p : Port) (reason : Fin 8) : Carried.Statement (.refuse p reason) := carried_none rfl
theorem Carried.attestTimeout (p : Port) : Carried.Statement (.attestTimeout p) := carried_none rfl
theorem Carried.keySwitch (p : Port) (seq : BitVec 14) (rekey : Bool) : Carried.Statement (.keySwitch p seq rekey) := carried_none rfl
theorem Carried.keySwitchAck (p : Port) (seq : BitVec 14) (rekey : Bool) : Carried.Statement (.keySwitchAck p seq rekey) := carried_none rfl
theorem Carried.keySwitchBlock (p : Port) (tx : Bool) : Carried.Statement (.keySwitchBlock p tx) := carried_none rfl
theorem Carried.rekey (p : Port) (half : Fin 2) (bytes : List Byte) : Carried.Statement (.rekey p half bytes) := carried_none rfl
theorem Carried.rekeyDue (p : Port) : Carried.Statement (.rekeyDue p) := carried_none rfl
theorem Carried.rekeyRetry (p : Port) : Carried.Statement (.rekeyRetry p) := carried_none rfl
theorem Carried.timeSyncTick : Carried.Statement .timeSyncTick := carried_none rfl
theorem Carried.timeReq (p : Port) (t1 : Word) : Carried.Statement (.timeReq p t1) := carried_none rfl
theorem Carried.timeRsp (p : Port) (t2 t3 : Word) (distance : BitVec 16) (root : Node) : Carried.Statement (.timeRsp p t2 t3 distance root) := carried_none rfl
theorem Carried.upstreamTimeout (joined : List Node) (peers : List TimePeer) : Carried.Statement (.upstreamTimeout joined peers) := carried_none rfl
theorem Carried.pactBind (p : Part) (v : Word) : Carried.Statement (.pactBind p v) := carried_none rfl
theorem Carried.pactEpoch (k : Word) : Carried.Statement (.pactEpoch k) := carried_none rfl
theorem Carried.pactResult (u : CollIn) : Carried.Statement (.pactResult u) := carried_none rfl
theorem Carried.pactSwitch (k : Word) : Carried.Statement (.pactSwitch k) := carried_none rfl
theorem Carried.freqCompute (obs : List FreqObs) : Carried.Statement (.freqCompute obs) := carried_none rfl
theorem Carried.capCheck (watts : BitVec 16) (draws : List (BitVec 16)) (ampsA ampsB : Byte) : Carried.Statement (.capCheck watts draws ampsA ampsB) := carried_none rfl
theorem Carried.earlyBreakDeassert (f : Feed) : Carried.Statement (.earlyBreakDeassert f) := carried_none rfl
theorem Carried.earlyBreakAssert (f : Feed) : Carried.Statement (.earlyBreakAssert f) := carried_none rfl
theorem Carried.feedVoltageFault (f : Feed) (tenths : BitVec 10) : Carried.Statement (.feedVoltageFault f tenths) := carried_none rfl
theorem Carried.feedValid (f : Feed) (tenths : BitVec 10) : Carried.Statement (.feedValid f tenths) := carried_none rfl
theorem Carried.stageFault (f : Feed) : Carried.Statement (.stageFault f) := carried_none rfl
theorem Carried.prechargeDone (f : Feed) : Carried.Statement (.prechargeDone f) := carried_none rfl
theorem Carried.revertTimer : Carried.Statement .revertTimer := carried_none rfl
theorem Carried.shareReturn (f : Feed) : Carried.Statement (.shareReturn f) := carried_none rfl
theorem Carried.powerLoss : Carried.Statement .powerLoss := carried_none rfl
theorem Carried.railSample (o : RailObs) : Carried.Statement (.railSample o) := carried_none rfl
theorem Carried.railFault (r : Fin 13) : Carried.Statement (.railFault r) := carried_none rfl
theorem Carried.phaseLoss (r : Fin 13) : Carried.Statement (.phaseLoss r) := carried_none rfl
theorem Carried.droop (n : Cluster) : Carried.Statement (.droop n) := carried_none rfl
theorem Carried.droopRelease (n : Cluster) : Carried.Statement (.droopRelease n) := carried_none rfl
theorem Carried.thermalForecast (n : Cluster) (forecast : BitVec 12) (sites : List Int) : Carried.Statement (.thermalForecast n forecast sites) := carried_none rfl
theorem Carried.diodeCheck (obs : List DiodeObs) : Carried.Statement (.diodeCheck obs) := carried_none rfl
theorem Carried.flowInference (p : Nat) (tin tout : Int) : Carried.Statement (.flowInference p tin tout) := carried_none rfl
theorem Carried.coolantSensorCheck (obs : CoolObs) : Carried.Statement (.coolantSensorCheck obs) := carried_none rfl
theorem Carried.coolingWarning (w : CoolWarn) : Carried.Statement (.coolingWarning w) := carried_none rfl
theorem Carried.warningRepeat (code : Fin 16) : Carried.Statement (.warningRepeat code) := carried_none rfl
theorem Carried.leakSample (loop : BitVec 16) (earth : List Nat) : Carried.Statement (.leakSample loop earth) := carried_none rfl
theorem Carried.leakShutdown : Carried.Statement .leakShutdown := carried_none rfl
theorem Carried.hostOrder (v : Word) : Carried.Statement (.hostOrder v) := carried_none rfl
theorem Carried.hostCap (v : Word) : Carried.Statement (.hostCap v) := carried_none rfl
theorem Carried.ackOff (v : Word) : Carried.Statement (.ackOff v) := carried_none rfl
theorem Carried.noticeEnd : Carried.Statement .noticeEnd := carried_none rfl
theorem Carried.budgetWrite (p : Part) (v : Word) : Carried.Statement (.budgetWrite p v) := carried_none rfl
theorem Carried.summaryTimer (code : BitVec 16) (kind : Byte) (unit : BitVec 16) : Carried.Statement (.summaryTimer code kind unit) := carried_none rfl
theorem Carried.errRingEnable (v : Word) : Carried.Statement (.errRingEnable v) := carried_none rfl
theorem Carried.errRingDisable (v : Word) : Carried.Statement (.errRingDisable v) := carried_none rfl
theorem Carried.errRingHeadWrite (v : Word) : Carried.Statement (.errRingHeadWrite v) := carried_none rfl
theorem Carried.recordResend : Carried.Statement .recordResend := carried_none rfl
theorem Carried.errCtlWrite (v : Word) : Carried.Statement (.errCtlWrite v) := carried_none rfl
theorem Carried.wave (v : Word) : Carried.Statement (.wave v) := carried_none rfl
theorem Carried.waveArrival (p : Port) (origin : Node) (gen : BitVec 32) (dom code : BitVec 16) (hops : Byte) : Carried.Statement (.waveArrival p origin gen dom code hops) := carried_none rfl
theorem Carried.leesCopy (o : LeesGo) : Carried.Statement (.leesCopy o) := carried_none rfl
theorem Carried.heartbeatTimeout (i : Fin 3) : Carried.Statement (.heartbeatTimeout i) := carried_none rfl
theorem Carried.supDissent (i : Fin 3) : Carried.Statement (.supDissent i) := carried_none rfl
theorem Carried.resyncDone (i : Fin 3) : Carried.Statement (.resyncDone i) := carried_none rfl
theorem Carried.duplexDisagree (fails : List (Fin 3)) : Carried.Statement (.duplexDisagree fails) := carried_none rfl
theorem Carried.coldReset (sealClosed : Bool) : Carried.Statement (.coldReset sealClosed) := carried_none rfl
theorem Carried.perstAssert : Carried.Statement .perstAssert := carried_none rfl
theorem Carried.perstDeassert : Carried.Statement .perstDeassert := carried_none rfl
theorem Carried.hotReset : Carried.Statement .hotReset := carried_none rfl
theorem Carried.flr : Carried.Statement .flr := carried_none rfl
theorem Carried.auxDone (activeOk otherOk imagesOk : Bool) (badSectors : List (BitVec 32)) : Carried.Statement (.auxDone activeOk otherOk imagesOk badSectors) := carried_none rfl
theorem Carried.domain (v : Word) (silent : List LCore) : Carried.Statement (.domain v silent) := carried_none rfl
theorem Carried.release (v : Word) (failed : List TasteFail) : Carried.Statement (.release v failed) := carried_none rfl
theorem Carried.module (v : Word) : Carried.Statement (.module v) := carried_none rfl
theorem Carried.coreTest (v : Word) : Carried.Statement (.coreTest v) := carried_none rfl
theorem Carried.eyeMargin (v : Word) (w0 h0 w1 h1 : Byte) : Carried.Statement (.eyeMargin v w0 h0 w1 h1) := carried_none rfl
theorem Carried.sensorCheck (v : Word) (obs : List DiodeObs) (cool : CoolObs) : Carried.Statement (.sensorCheck v obs cool) := carried_none rfl
theorem Carried.memScreen (v : Word) (obs : ScreenObs) : Carried.Statement (.memScreen v obs) := carried_none rfl
theorem Carried.memTrain (v : Word) (obs : List TrainObs) (screen : ScreenObs) : Carried.Statement (.memTrain v obs screen) := carried_none rfl
theorem Carried.sensorCal (v : Word) : Carried.Statement (.sensorCal v) := carried_none rfl
theorem Carried.tstCancel : Carried.Statement .tstCancel := carried_none rfl
theorem Carried.deferredTestStart (obs : List TrainObs) (screen : ScreenObs) : Carried.Statement (.deferredTestStart obs screen) := carried_none rfl
theorem Carried.getVersion (t : SpdmPath) : Carried.Statement (.getVersion t) := carried_none rfl
theorem Carried.getCapabilities (t : SpdmPath) : Carried.Statement (.getCapabilities t) := carried_none rfl
theorem Carried.negotiateAlgorithms (t : SpdmPath) (ok : Bool) : Carried.Statement (.negotiateAlgorithms t ok) := carried_none rfl
theorem Carried.getDigests (t : SpdmPath) : Carried.Statement (.getDigests t) := carried_none rfl
theorem Carried.getCertificate (t : SpdmPath) (slot : Byte) (off len : BitVec 16) : Carried.Statement (.getCertificate t slot off len) := carried_none rfl
theorem Carried.challenge (t : SpdmPath) (slot : Byte) (nonce : List Byte) : Carried.Statement (.challenge t slot nonce) := carried_none rfl
theorem Carried.getMeasurements (t : SpdmPath) (idx : Byte) (sign : Bool) (nonce : List Byte) : Carried.Statement (.getMeasurements t idx sign nonce) := carried_none rfl
theorem Carried.keyExchange (t : SpdmPath) (slot : Byte) (share : List Byte) : Carried.Statement (.keyExchange t slot share) := carried_none rfl
theorem Carried.spdmFinish (t : SpdmPath) (session : Nat) (good : Bool) : Carried.Statement (.spdmFinish t session good) := carried_none rfl
theorem Carried.heartbeat (t : SpdmPath) (session : Nat) : Carried.Statement (.heartbeat t session) := carried_none rfl
theorem Carried.keyUpdate (t : SpdmPath) (session : Nat) : Carried.Statement (.keyUpdate t session) := carried_none rfl
theorem Carried.endSession (t : SpdmPath) (session : Nat) : Carried.Statement (.endSession t session) := carried_none rfl
theorem Carried.ideKmKeyProg (session : Nat) : Carried.Statement (.ideKmKeyProg session) := carried_none rfl
theorem Carried.ideStreamLoss : Carried.Statement .ideStreamLoss := carried_none rfl
theorem Carried.rngHealth : Carried.Statement .rngHealth := carried_none rfl
theorem Carried.enroll (blob : List Byte) (viaPort : Bool) : Carried.Statement (.enroll blob viaPort) := carried_none rfl
theorem Carried.debugUnlock (blob : List Byte) (viaPort : Bool) : Carried.Statement (.debugUnlock blob viaPort) := carried_none rfl
theorem Carried.debugLock (blob : List Byte) (viaPort : Bool) : Carried.Statement (.debugLock blob viaPort) := carried_none rfl
theorem Carried.rollback (blob : List Byte) (viaPort : Bool) : Carried.Statement (.rollback blob viaPort) := carried_none rfl
theorem Carried.recover (blob : List Byte) (viaPort : Bool) : Carried.Statement (.recover blob viaPort) := carried_none rfl
theorem Carried.policy (blob : List Byte) (viaPort : Bool) : Carried.Statement (.policy blob viaPort) := carried_none rfl
theorem Carried.presencePress : Carried.Statement .presencePress := carried_none rfl
theorem Carried.presenceExpire : Carried.Statement .presenceExpire := carried_none rfl
theorem Carried.sealSample (isOpen : Bool) : Carried.Statement (.sealSample isOpen) := carried_none rfl
theorem Carried.svcHello (f : SFrame) : Carried.Statement (.svcHello f) := carried_none rfl
theorem Carried.svcBegin (f : SFrame) : Carried.Statement (.svcBegin f) := carried_none rfl
theorem Carried.svcData (f : SFrame) : Carried.Statement (.svcData f) := carried_none rfl
theorem Carried.svcEnd (f : SFrame) : Carried.Statement (.svcEnd f) := carried_none rfl
theorem Carried.bundleStaged (ok : Bool) : Carried.Statement (.bundleStaged ok) := carried_none rfl
theorem Carried.svcAbandon (f : SFrame) : Carried.Statement (.svcAbandon f) := carried_none rfl
theorem Carried.svcRun (f : SFrame) : Carried.Statement (.svcRun f) := carried_none rfl
theorem Carried.svcDebug (f : SFrame) (obs : HostObs) : Carried.Statement (.svcDebug f obs) := carried_none rfl
theorem Carried.svcBadFrame (f : SFrame) : Carried.Statement (.svcBadFrame f) := carried_none rfl
theorem Carried.svcEnDeassert : Carried.Statement .svcEnDeassert := carried_none rfl
theorem Carried.powerOrder (m : MRec) : Carried.Statement (.powerOrder m) := carried_none rfl
theorem Carried.resetOrder (m : MRec) : Carried.Statement (.resetOrder m) := carried_none rfl
theorem Carried.config (m : MRec) : Carried.Statement (.config m) := carried_none rfl
theorem Carried.query (m : MRec) : Carried.Statement (.query m) := carried_none rfl
theorem Carried.mgmtSpdm (m : MRec) : Carried.Statement (.mgmtSpdm m) := carried_none rfl
theorem Carried.mgmtOwnerCmd (m : MRec) : Carried.Statement (.mgmtOwnerCmd m) := carried_none rfl
theorem Carried.nonce (m : MRec) : Carried.Statement (.nonce m) := carried_none rfl
theorem Carried.reply (m : MRec) : Carried.Statement (.reply m) := carried_none rfl
theorem Carried.badRecord (m : MRec) : Carried.Statement (.badRecord m) := carried_none rfl
theorem Carried.telemetryTimer : Carried.Statement .telemetryTimer := carried_none rfl
theorem Carried.mgmtLinkDown : Carried.Statement .mgmtLinkDown := carried_none rfl
theorem Carried.mgmtDownTimer : Carried.Statement .mgmtDownTimer := carried_none rfl
theorem Carried.mgmtLinkUp (fec : Bool) (addr : Option (BitVec 128)) : Carried.Statement (.mgmtLinkUp fec addr) := carried_none rfl
theorem Carried.entdaa (addr : BitVec 7) : Carried.Statement (.entdaa addr) := carried_none rfl
theorem Carried.setEndpointId (eid : Byte) : Carried.Statement (.setEndpointId eid) := carried_none rfl
theorem Carried.getSensorReading (x : Sensor) : Carried.Statement (.getSensorReading x) := carried_none rfl
theorem Carried.getStateSensorReadings (x : StateSensor) : Carried.Statement (.getStateSensorReadings x) := carried_none rfl
theorem Carried.setStateEffecterStates (on : Bool) : Carried.Statement (.setStateEffecterStates on) := carried_none rfl
theorem Carried.pollForPlatformEventMessage : Carried.Statement .pollForPlatformEventMessage := carried_none rfl
theorem Carried.setManagementKey (key : List Byte) : Carried.Statement (.setManagementKey key) := carried_none rfl
theorem Carried.locateHostWrite (v : Word) : Carried.Statement (.locateHostWrite v) := carried_none rfl
theorem Carried.swaitTimeout (k : LCore) : Carried.Statement (.swaitTimeout k) := carried_none rfl
theorem Carried.resetReported (u : RUnit) (failed : List TasteFail) : Carried.Statement (.resetReported u failed) := carried_none rfl
theorem Carried.vauxLoss : Carried.Statement .vauxLoss := carried_none rfl
theorem Carried.svcEnAssert : Carried.Statement .svcEnAssert := carried_none rfl
theorem Carried.presenceRelease : Carried.Statement .presenceRelease := carried_none rfl
theorem Carried.blockSend (p : Port) (credits : List (BitVec 22 × Fin 17)) : Carried.Statement (.blockSend p credits) := carried_none rfl
theorem Carried.supHeartbeat (i : Fin 3) : Carried.Statement (.supHeartbeat i) := carried_none rfl
theorem Carried.restoreDone (i : Fin 3) : Carried.Statement (.restoreDone i) := carried_none rfl
theorem Carried.linksRecordDue : Carried.Statement .linksRecordDue := carried_none rfl

end Sys2Proof.Laws
end

