-- ==== Sys2Proof/WellFormed.lean ====
section
/-! DEFINITION. Commands that can arrive as they stand: accesses of the size and alignment that their row names, frames, records and
blobs of the lengths that the manual gives. The meanings do not rest on it: each takes every command. -/

namespace Sys2Proof

/-- Is an offset of BAR0 on the compatibility page (R4)? -/
def compatOffset (off : Nat) : Bool := off / 0x1000 == 0xF00

/-- Is a service frame's payload within its length field (R461)? -/
def SFrame.fits (f : SFrame) : Bool := decide (f.payload.length ≤ 4096)

/-- Does a management record have the lengths of R474? -/
def MRec.fits (m : MRec) : Bool := decide (m.body.length ≤ 1024) && decide (m.hmac.length = 16)

/-- Does a request carry an operation and operands of R288? -/
def Req.fits (q : Req) : Bool := decide (q.op.toNat ≤ 4) && decide (q.data.length = 16)

/-- Can the command arrive as it stands? -/
def Instr.wf : Instr → Bool
  | .registerWrite off _ _ => if compatOffset off.toNat then decide (off.toNat % 4 = 0) else decide (off.toNat % 8 = 0)
  | .bar0BadAccess bar2 off size _ =>
    (bar2 || !compatOffset off.toNat) && decide (0 < size) && !(decide (size = 8) && decide (off.toNat % 8 = 0))
  | .bar4Read _ len _ _ => decide (0 < len)
  | .bar4Write _ d _ _ => decide (0 < d.length)
  | .decantBadAccess off size _ => decide (0 < size) && !(decide (size = 4) && decide (off.toNat % 4 = 0))
  | .decantWrite off _ => decide (off.toNat % 4 = 0)
  | .atomic q _ => q.fits
  | .enroll b _ | .debugUnlock b _ | .debugLock b _ | .rollback b _ | .recover b _ | .policy b _ => decide (b.length = 240)
  | .svcHello f | .svcBegin f | .svcData f | .svcEnd f | .svcAbandon f | .svcRun f | .svcDebug f _ => f.fits
  | .powerOrder m | .resetOrder m | .config m | .query m | .mgmtSpdm m | .mgmtOwnerCmd m | .nonce m | .reply m => m.fits
  | .setManagementKey key => decide (key.length = 32)
  | _ => true

end Sys2Proof
end

