-- ==== Sys2Proof/Tests/Slice0.lean ====
section
/-! SUPPORT. Tests: ill-formed commands, the manual's worked examples, single steps, and states that meet the hypotheses of the statements. -/

namespace Sys2Proof.Tests

open Sys2Proof Sys2Proof.Machine

/-! ### Ill-formed commands: each check of WellFormed refuses one -/

theorem test_wf_register_aligned : Instr.wf (.registerWrite 4#26 .rd HostObs.plain) = false := by decide
theorem test_wf_register_compat : Instr.wf (.registerWrite 0xF00002#26 .rd HostObs.plain) = false := by decide
theorem test_wf_bad_access_is_bad : Instr.wf (.bar0BadAccess false 8#26 8 .rd) = false := by decide
theorem test_wf_bad_access_compat : Instr.wf (.bar0BadAccess false 0xF00001#26 1 .rd) = false := by decide
theorem test_wf_bar4_read_empty : Instr.wf (.bar4Read 0#36 0 none FarReply.ok) = false := by decide
theorem test_wf_bar4_write_empty : Instr.wf (.bar4Write 0#36 [] none FarReply.ok) = false := by decide
theorem test_wf_decant_access_is_bad : Instr.wf (.decantBadAccess 4#12 4 .rd) = false := by decide
theorem test_wf_decant_write_aligned : Instr.wf (.decantWrite 2#12 0#32) = false := by decide
theorem test_wf_atomic_operation : Instr.wf (.atomic ⟨0#12, 0, 0#16, 0#52, 0#32, 5#8, 8, List.replicate 16 0#8⟩ []) = false := by decide
theorem test_wf_owner_blob : Instr.wf (.enroll [] false) = false := by decide
theorem test_wf_frame_length (l : List Byte) (h : l.length = 4097) : Instr.wf (.svcData ⟨0#8, 0#8, l, 0#32⟩) = false := by
  show SFrame.fits _ = false
  simp [SFrame.fits, h]
theorem test_wf_key_length : Instr.wf (.setManagementKey []) = false := by decide
theorem test_wf_good : Instr.wf (.registerWrite 8#26 .rd HostObs.plain) = true := by decide

/-! ### Words, and the queue -/

/-- The TMMA of the manual's example (R145): 0x8_5985_0000 in slot I. -/
theorem test_tmma_word : slotOf (.tmma 0 0 1 6 6 false false 10 0 []) = some (0, .I, 0x859850000) := by decide

/-- No row of the table gives bits, so no word spells a command. -/
theorem test_no_word (n w : Nat) : decodeTableWord n w = none := rfl
theorem test_with_no_word (s : State) (n w : Nat) : s.withFetchWord n w = s := rfl

/-! ### The manual's worked examples -/

/-- Operands of the dot product of 03: A at 0, B at 8. -/
def dotBytes (a : Nat) : Byte :=
  [0xC0#8, 0x3F#8, 0x30#8, 0xC0#8, 0x81#8, 0x2B#8, 0xA0#8, 0x40#8, 0x40#8, 0x40#8, 0x00#8, 0x3F#8, 0x01#8, 0x2B#8, 0xA0#8, 0xBE#8].getD a 0#8

/-- Its chain: 1 × 1, depth 4, AUTO anchor, BF16. -/
def dotChain : Chain := ⟨1, 1, 2, 4, none, [], [⟨6, 6, false, false, 4, 0#64, 8#64, 8#64, 8#64, 0, 0, 0⟩]⟩

/-- Its finish in an output format. -/
def dotFinish (ofmt : Nat) : Finish := ⟨dotChain, 0x100#64, 16#64, ofmt, false, false, false, 0#64, false, 0⟩

theorem test_dot_anchor : dotChain.anchorOf dotBytes = -24 := by decide
theorem test_dot_total : (dotChain.element dotBytes (-24) 0 0).total = 0x19000000000000000000082 := by decide
theorem test_dot_bf16 : ((dotFinish 6).run dotBytes 0#64 0).rows = [(0x100#64, [0xC8#8, 0x3F#8])] := by decide
theorem test_dot_fp32 : ((dotFinish 8).run dotBytes 0#64 0).rows = [(0x100#64, [0x00#8, 0x00#8, 0xC8#8, 0x3F#8])] := by decide
theorem test_dot_raw : ((dotFinish 10).run dotBytes 0#64 0).rows = [(0x100#64, [0x82#8, 0#8, 0#8, 0#8, 0#8, 0#8, 0#8, 0#8, 0#8, 0#8, 0x90#8, 0x01#8,
  0xE8#8, 0xFF#8, 0#8, 0#8])] := by decide

/-- A free value too far from e = 2.7182818 gives the rounded value, one within two last places of ln 10 = 2.3025851 stands (R126). -/
theorem test_exp_bound : withinPlaces 2 (expRef (2 ^ 256)) 0#32 = ⟨0x402DF854, false, false⟩ := by decide
theorem test_log_bound : withinPlaces 2 (logRef 10 0) 0x40135D8C#32 = ⟨0x40135D8C, false, false⟩ := by decide

/-- The module once its auxiliary stage has ended. -/
def up : State := State.reset.setFld fBringStateAux 2

/-- Two results wait in the decant queue (the example of R193). -/
def decanted : State := { up with que := { up.que with decant := [0x123456789ABCDEF0#64, 7#64] } }

/-- What a command's next state answered the host with. -/
def answered (o : Host.Outcome State Fault Refusal) : List Out := match o with
  | .next s => s.out
  | _ => []

/-- The state after a command. -/
def after (i : Instr) (s : State) : State := nextOr s (exec i s)

theorem test_decant_first : answered (exec .decantLoRead decanted) = [.hostRead 4 0x1ABCDEF0#64] := by decide
theorem test_decant_latch : (after .decantLoRead decanted).que.latch = some 0x2468ACF1#32 := by decide
theorem test_decant_lost : (after .decantLoRead (after .decantLoRead decanted)).fld fDecantLostLost = 1 := by decide
theorem test_decant_empty : answered (exec .decantLoRead up) = [.hostRead 4 0xFFFFFFFE#64] := by decide

/-! ### One task instruction at work -/

/-- A plain task of context 0. -/
def aTask : Task := ⟨0, 0, 0xA11, 0, false, false, false, none, none, [], 0, true, 0⟩

/-- It runs, with nothing open. -/
def aRun : Run := Run.start aTask 0#64 none true

/-- What a bundle of one slot instruction read. -/
def readOf (sl : Slot) (xs : List Word) (vs : List (BitVec 4096)) : Issue := ⟨xs, vs, aRun.ags, 0#64, 0, [slotNum sl], 1, 0⟩

/-- The bundle that holds a word in one slot, NOP in the others (R134). -/
def bundleOf (sl : Slot) (w : Nat) : Bundle :=
  match sl with
  | .C => BitVec.ofNat 128 (w * 2 ^ 2 + 1)
  | .A => BitVec.ofNat 128 (w * 2 ^ 44 + 1)
  | .I => BitVec.ofNat 128 (w * 2 ^ 86 + 1)

/-- Partition 0 is OPEN and holds every cluster. -/
def opened : List (Nat × Word) := (up.setFlds [(fCtxPartState 0, 1), (fCtxPartClusters 0, 2 ^ 32 - 1)]).regs

/-- Core 0 runs `r` at a bundle, in a state that is otherwise `s`. -/
def atBundle (s : State) (r : Run) (b : Bundle) : State :=
  { s with regs := opened, cores := { s.cores with runs := [(0, r)], resetting := [], bindings := [⟨0, 0, [b, 1#128], [], []⟩] } }

/-- The same with a word in one slot. -/
abbrev atSlot (s : State) (r : Run) (sl : Slot) (w : Nat) : State := atBundle s r (bundleOf sl w)

/-- The word stands in its slot. -/
theorem slotWord_bundleOf (sl : Slot) (w : Nat) (h : w < 2 ^ 42) : slotWord (bundleOf sl w) sl = w := by
  cases sl <;> simp only [slotWord, bundleOf, BitVec.toNat_ofNat] <;> omega

theorem openedPart (s : State) (r : Run) (sl : Slot) (w : Nat) : (atSlot s r sl w).partOfCluster (clusterOf ((0 : LCore) : Nat)) = some 0 := by
  have e : (atSlot s r sl w).fld (fCtxPartClusters 0) = 2 ^ 32 - 1 := by
    rw [fld_congr (s := atSlot s r sl w) (t := up.setFlds [(fCtxPartState 0, 1), (fCtxPartClusters 0, 2 ^ 32 - 1)]) rfl]
    decide
  have l : List.range 4 = [0, 1, 2, 3] := rfl
  simp only [State.partOfCluster, l, List.find?_cons, e]
  rfl

theorem openedState (s : State) (r : Run) (sl : Slot) (w : Nat) : (atSlot s r sl w).isOpen 0 = true := by
  have e : (atSlot s r sl w).fld (fCtxPartState 0) = 1 := by
    rw [fld_congr (s := atSlot s r sl w) (t := up.setFlds [(fCtxPartState 0, 1), (fCtxPartClusters 0, 2 ^ 32 - 1)]) rfl]
    decide
  simp only [State.isOpen, e]
  rfl

/-- Every task instruction is about to act somewhere: in the state that `atSlot` builds. -/
theorem acts_at (s : State) (r : Run) (is : Issue) {i : Instr} {sl : Slot} {w : Nat} (h : slotOf i = some (0, sl, w)) (hw : w < 2 ^ 42)
    (ht : r.task = aTask) (hp : r.pc = 0) (hi : r.issue = some is) (hd : is.todo.contains (slotNum sl) = true) :
    Acts (atSlot s r sl w) i 0 sl w r is (bundleOf sl w) where
  slot := h
  run := rfl
  free := by
    have h1 : (atSlot s r sl w).coreResetting ((0 : LCore) : Nat) = false := rfl
    have h2 : (atSlot s r sl w).partOfCluster (clusterOf ((0 : LCore) : Nat)) = some 0 := openedPart s r sl w
    have h3 : (atSlot s r sl w).isOpen 0 = true := openedState s r sl w
    simp only [State.canIssue, h1, h2, h3, Bool.not_false, Bool.and_self]
  bundle := by simp only [State.bundleAt, ht, hp]; rfl
  word := slotWord_bundleOf sl w hw
  opened := hi
  todo := hd

/-- A run whose open bundle read x registers and v registers. -/
def opened1 (sl : Slot) (xs : List Word) (vs : List (BitVec 4096)) : Run := { aRun with xs := xs, vs := vs, issue := some (readOf sl xs vs) }

/-- A register of core 0's task after a command. -/
def xAfter (i : Instr) (s : State) (n : Nat) : Option Word := ((after i s).runOf 0).map (fun r => r.xs.getD n 0#64)

/-- Registers 0, 1, 2 and so on. -/
def regsOf (l : List Word) : List Word := l ++ List.replicate (32 - l.length) 0#64

/-- A slot C instruction on core 0 with x registers given. -/
def runC (i : Instr) (w : Nat) (l : List Word) (n : Nat) : Option Word := xAfter i (atSlot up (opened1 .C (regsOf l) []) .C w) n

theorem test_add_wraps : runC (.add 0 1 2 3) (enc3 0x01 1 2 3 0) [0#64, 9#64, 0xFFFFFFFFFFFFFFFF#64, 2#64] 1 = some 1#64 := by decide
theorem test_sub_source_is_destination : runC (.sub 0 2 2 3) (enc3 0x02 2 2 3 0) [0#64, 0#64, 5#64, 7#64] 2 = some 0xFFFFFFFFFFFFFFFE#64 := by decide
theorem test_sra_sign : runC (.sra 0 1 2 3) (enc3 0x08 1 2 3 0) [0#64, 0#64, 0x8000000000000000#64, 65#64] 1 = some 0xC000000000000000#64 := by decide
theorem test_mulhu : runC (.mulhu 0 1 2 2) (enc3 0x0A 1 2 2 0) [0#64, 0#64, 0xFFFFFFFFFFFFFFFF#64] 1 = some 0xFFFFFFFFFFFFFFFE#64 := by decide
theorem test_divu_by_zero : runC (.divu 0 1 2 0) (enc3 0x0B 1 2 0 0) [0#64, 0#64, 5#64] 1 = some 0xFFFFFFFFFFFFFFFF#64 := by decide
theorem test_remu_by_zero : runC (.remu 0 1 2 0) (enc3 0x0C 1 2 0 0) [0#64, 0#64, 5#64] 1 = some 5#64 := by decide
theorem test_slt_signed : runC (.slt 0 1 2 3) (enc3 0x0D 1 2 3 0) [0#64, 0#64, 0xFFFFFFFFFFFFFFFF#64, 1#64] 1 = some 1#64 := by decide
theorem test_addi_sign_extends : runC (.addi 0 1 2 0xFFFFFF#24) (encI 0x11 1 2 0xFFFFFF) [0#64, 0#64, 5#64] 1 = some 4#64 := by decide
theorem test_x0_discards : runC (.lui 0 0 1#24) (encI 0x15 0 0 1) [] 0 = some 0#64 := by decide
theorem test_lhi : runC (.lhi 0 1 2 0xBEEF#24) (encI 0x16 1 2 0xBEEF) [0#64, 0#64, 0xFFFF000000000001#64] 1 = some 0xBEEF000000000001#64 := by decide
theorem test_beq_taken : ((after (.beq 0 0 0 1#24) (atSlot up (opened1 .C [] []) .C (encI 0x20 0 0 1))).runOf 0).map (·.pc) = some 1 := by decide
theorem test_beq_back : ((after (.beq 0 0 0 0xFFFFFF#24) { atSlot up { (opened1 .C [] []) with pc := 1, issue := some ⟨[], [], [], 0#64, 0, [0], 2, 0⟩ } .C 0 with
  cores := { (atSlot up { (opened1 .C [] []) with pc := 1, issue := some ⟨[], [], [], 0#64, 0, [0], 2, 0⟩ } .C 0).cores with
    bindings := [⟨0, 0, [1#128, bundleOf .C (encI 0x20 0 0 0xFFFFFF)], [], []⟩] } }).runOf 0).map (·.pc) = some 0 := by decide
theorem test_sst_little_endian : (((after (.sst 0 1 0 8#24) (atSlot up (opened1 .A (regsOf [0#64, 0x0102030405060708#64]) []) .A
  (encI 0x0B 1 0 8))).mem.read (coreStoreAt 0 8)), ((after (.sst 0 1 0 8#24) (atSlot up (opened1 .A (regsOf [0#64, 0x0102030405060708#64]) []) .A
  (encI 0x0B 1 0 8))).mem.read (coreStoreAt 0 15))) = (0x08#8, 0x01#8) := by decide
theorem test_tend_ends : ((after (.tend 0 false) (atSlot up (opened1 .C [] []) .C (enc3 0x7F 0 0 0 0))).runOf 0).map (·.ending) = some (some false) := by decide
theorem test_fadd_rounds_once : fadd (fFP32.decode 0x3F800000) (fFP32.decode 0x33800000) = ⟨0x3F800000, false, false⟩ := by decide
theorem test_fsub_inf_inf : (fadd (fFP32.decode 0x7F800000) (fFP32.decode 0xFF800000)).invalid = true := by decide

/-! ### States that meet the hypotheses of the statements -/

/-- Every task instruction acts somewhere: a plain task, outside a pair, reads zeros; nothing in memory is marked; a branch would fall through. -/
theorem acts_somewhere {i : Instr} {sl : Slot} {w : Nat} (h : slotOf i = some (0, sl, w)) (hw : w < 2 ^ 42) :
    ∃ s r is b, Acts s i 0 sl w r is b ∧ r.partner = none ∧ is.next = r.pc + 1 ∧ r.fault = none ∧ r.waiting = none
      ∧ (∀ a n, s.mem.poisoned a n = false) ∧ (∀ n, is.x n = 0#64) := by
  refine ⟨atSlot up (opened1 sl [] []) sl w, _, _, _, acts_at up (opened1 sl [] []) (readOf sl [] []) h hw rfl rfl rfl ?_, rfl, rfl, rfl, rfl, ?_, ?_⟩
  · cases sl <;> rfl
  · intro a n; show (decide _ && List.any [] _) = false; simp
  · intro n; cases sl <;> simp [Issue.x, readOf]

theorem witness_FrontCommandRuns : (∃ (s : State) (c : Instr) (rest : List Instr), s.pending = c :: rest) ∧ ∃ s : State, s.pending = [] :=
  ⟨⟨{ up with pending := [.holdRelease] }, _, _, rfl⟩, State.reset, rfl⟩

/-- ADD in a bundle of its own, about to open. -/
def addFirst : State := atSlot up aRun .C (enc3 0x01 1 2 3 0)

theorem witness_BundleOpens : slotOf (.add 0 1 2 3) = some (0, .C, enc3 0x01 1 2 3 0) ∧ addFirst.runOf 0 = some aRun ∧ addFirst.canIssue 0 = true
    ∧ addFirst.bundleAt aRun = some (bundleOf .C (enc3 0x01 1 2 3 0)) ∧ slotWord (bundleOf .C (enc3 0x01 1 2 3 0)) .C = enc3 0x01 1 2 3 0
    ∧ aRun.issue = none ∧ aRun.fault = none ∧ aRun.ending = none ∧ aRun.partner = none ∧ bundleFault (bundleOf .C (enc3 0x01 1 2 3 0)) = false
    ∧ (∀ sl, badEncoding sl (slotWord (bundleOf .C (enc3 0x01 1 2 3 0)) sl) = false)
    ∧ addFirst.stalls 0 aRun (aRun.snapshot (bundleOf .C (enc3 0x01 1 2 3 0))) (bundleOf .C (enc3 0x01 1 2 3 0)) = false
    ∧ addFirst.slotsFault 0 aRun (aRun.snapshot (bundleOf .C (enc3 0x01 1 2 3 0))) (bundleOf .C (enc3 0x01 1 2 3 0)) = none
    ∧ opOf (enc3 0x01 1 2 3 0) ≠ 0 := by
  refine ⟨by decide, rfl, by decide, rfl, by decide, rfl, rfl, rfl, rfl, by decide, ?_, by decide, by decide, by decide⟩
  intro sl; cases sl <;> decide

/-- What the premises of FaultsAndStalls share. -/
def Opens (s : State) (i : Instr) (sl : Slot) (w : Nat) (r : Run) (b : Bundle) : Prop :=
  slotOf i = some (0, sl, w) ∧ s.runOf 0 = some r ∧ s.canIssue 0 = true ∧ s.bundleAt r = some b ∧ slotWord b sl = w
    ∧ r.issue = none ∧ r.fault = none ∧ r.ending = none ∧ r.partner = none

/-- A task with a fabric operation under way. -/
def fabRun : Run := { aRun with fab := [⟨.get, 0, 0, 0#64, true, 0, 64, 0, 0, 0#64, 0#64, 0, none, [], none⟩] }

/-- A state in which context 0 holds sync object 5, its counter at 1, firing at 1. -/
def synced : State := { up with sync := [(5, ⟨0, 1, 1, true, true⟩)] }

/-- SWAIT on object 5 for counter 2. -/
def waitRun : Run := { aRun with xs := regsOf [0#64, 5#64, 2#64] }

theorem witness_FaultsAndStalls : Opens (atBundle up aRun 0#128) (.nop 0 .C) .C 0 aRun 0#128 ∧ bundleFault 0#128 = true :=
  ⟨⟨by decide, rfl, by decide, rfl, by decide, rfl, rfl, rfl, rfl⟩, by decide⟩
theorem witness_bad_opcode : Opens (atSlot up aRun .C (0x17 * 2 ^ 34)) (.nop 0 .A) .A 0 aRun (bundleOf .C (0x17 * 2 ^ 34))
    ∧ bundleFault (bundleOf .C (0x17 * 2 ^ 34)) = false ∧ badEncoding .C (slotWord (bundleOf .C (0x17 * 2 ^ 34)) .C) = true
    ∧ (atSlot up aRun .C (0x17 * 2 ^ 34)).slotsFault 0 aRun (aRun.snapshot (bundleOf .C (0x17 * 2 ^ 34))) (bundleOf .C (0x17 * 2 ^ 34)) = some 1 :=
  ⟨⟨by decide, rfl, by decide, rfl, by decide, rfl, rfl, rfl, rfl⟩, by decide, by decide, by decide⟩
theorem witness_stalled : Opens (atSlot up fabRun .A (enc3 0x28 0 0 0 0)) (.fwait 0 0#5) .A (enc3 0x28 0 0 0 0) fabRun (bundleOf .A (enc3 0x28 0 0 0 0))
    ∧ (atSlot up fabRun .A (enc3 0x28 0 0 0 0)).stalls 0 fabRun (fabRun.snapshot (bundleOf .A (enc3 0x28 0 0 0 0))) (bundleOf .A (enc3 0x28 0 0 0 0)) = true
    ∧ opOf (slotWord (bundleOf .A (enc3 0x28 0 0 0 0)) .C) ≠ 0x41 :=
  ⟨⟨by decide, rfl, by decide, rfl, by decide, rfl, rfl, rfl, rfl⟩, by decide, by decide⟩
theorem witness_swait_stalled : Opens (atSlot synced waitRun .C (enc3 0x41 3 1 2 0)) (.swait 0 3 1 2 0#19) .C (enc3 0x41 3 1 2 0) waitRun
      (bundleOf .C (enc3 0x41 3 1 2 0))
    ∧ objOf ((waitRun.snapshot (bundleOf .C (enc3 0x41 3 1 2 0))).x 1) = some (0#12, 5) ∧ waitRun.waiting = none
    ∧ (atSlot synced waitRun .C (enc3 0x41 3 1 2 0)).stallC 0 waitRun (waitRun.snapshot (bundleOf .C (enc3 0x41 3 1 2 0))) (enc3 0x41 3 1 2 0) = true :=
  ⟨⟨by decide, rfl, by decide, rfl, by decide, rfl, rfl, rfl, rfl⟩, by decide, rfl, by decide⟩
theorem witness_slot_fault : Opens (atSlot up aRun .A (encI 0x0B 1 0 4)) (.sst 0 1 0 4#24) .A (encI 0x0B 1 0 4) aRun (bundleOf .A (encI 0x0B 1 0 4))
    ∧ (atSlot up aRun .A (encI 0x0B 1 0 4)).stalls 0 aRun (aRun.snapshot (bundleOf .A (encI 0x0B 1 0 4))) (bundleOf .A (encI 0x0B 1 0 4)) = false
    ∧ (atSlot up aRun .A (encI 0x0B 1 0 4)).slotsFault 0 aRun (aRun.snapshot (bundleOf .A (encI 0x0B 1 0 4))) (bundleOf .A (encI 0x0B 1 0 4))
      = some 3 :=
  ⟨⟨by decide, rfl, by decide, rfl, by decide, rfl, rfl, rfl, rfl⟩, by decide, by decide⟩

theorem witness_BundleCloses : ([0, 1].filter (· != slotNum .C) ≠ []) ∧ ([0].filter (· != slotNum .C) = [])
    ∧ (atSlot up (opened1 .C [] []) .C 0).runOf 0 = some (opened1 .C [] []) ∧ (opened1 .C [] []).issue = some (readOf .C [] [])
    ∧ (readOf .C [] []).next < (atSlot up (opened1 .C [] []) .C 0).progLen 0 0
    ∧ (atSlot up (opened1 .C [] []) .C 0).progLen 0 0 ≤ ({ readOf .C [] [] with next := 2 } : Issue).next ∧ (opened1 .C [] []).fault = none
    ∧ (opened1 .C [] []).ending = none ∧ (opened1 .C [] []).partner = none :=
  ⟨by decide, by decide, rfl, rfl, by decide, by decide, rfl, rfl, rfl⟩

theorem witness_ScalarResults : (∃ s r is b, Acts s (.add 0 1 2 3) 0 .C (enc3 0x01 1 2 3 0) r is b) ∧ (1 : XReg) ≠ 0 ∧ aRun.xs.length = 32 :=
  ⟨let ⟨s, r, is, b, h, _⟩ := acts_somewhere (i := .add 0 1 2 3) rfl (by decide); ⟨s, r, is, b, h⟩, by decide, by decide⟩

theorem witness_BranchTargets : ∃ s r is b, Acts s (.jal 0 1 5#24) 0 .C (encI 0x26 1 0 5) r is b ∧ is.next = r.pc + 1 :=
  let ⟨s, r, is, b, h, _, h2, _⟩ := acts_somewhere (i := .jal 0 1 5#24) rfl (by decide); ⟨s, r, is, b, h, h2⟩

theorem witness_SpecialRegisters : ∃ s r is b, Acts s (.rdsr 0 1 7#24) 0 .C (encI 0x18 1 0 7) r is b ∧ r.partner = none :=
  let ⟨s, r, is, b, h, h2, _⟩ := acts_somewhere (i := .rdsr 0 1 7#24) rfl (by decide); ⟨s, r, is, b, h, h2⟩

theorem witness_AddressGenerators : (∃ s r is b, Acts s (.agstep 0 3 4) 0 .A (encAg 0x03 3 4 0 0) r is b)
    ∧ (⟨3#16, 64#32, 1#16⟩ : Dim).index.toNat + 1 < (⟨3#16, 64#32, 1#16⟩ : Dim).size
    ∧ (⟨3#16, 64#32, 2#16⟩ : Dim).size ≤ (⟨3#16, 64#32, 2#16⟩ : Dim).index.toNat + 1 :=
  ⟨let ⟨s, r, is, b, h, _⟩ := acts_somewhere (i := .agstep 0 3 4) rfl (by decide); ⟨s, r, is, b, h⟩, by decide, by decide⟩

theorem witness_LoadsAndStores : ∃ s r is b, Acts s (.sld 0 1 2 8#24 []) 0 .A (encI 0x0A 1 2 8) r is b ∧ ∀ a n, s.mem.poisoned a n = false :=
  let ⟨s, r, is, b, h, _, _, _, _, h2, _⟩ := acts_somewhere (i := .sld 0 1 2 8#24 []) rfl (by decide); ⟨s, r, is, b, h, h2⟩

theorem witness_StoreFrame : (0 : Nat) < [1#8].length ∧ ((7 : Nat) < 8 ∨ 8 + [1#8].length ≤ 7) ∧ State.reset.mem.wf = true := by decide

/-- A task with a MOVE of 16 bytes under way. -/
def moveRun : Run := { aRun with moves := [⟨0, 64, 16⟩] }

theorem witness_Moves : (atSlot up moveRun .C 0).runOf 0 = some moveRun ∧ moveRun.moves[0]? = some ⟨0, 64, 16⟩
    ∧ (atSlot up moveRun .C 0).mem.poisoned ((atSlot up moveRun .C 0).localAt 0 0) 16 = false :=
  ⟨rfl, rfl, by decide⟩

/-- Page 0 of context 0 maps to frame 0 of this module, with every permission. -/
def mapped : State := { up with fab := { up.fab with leaves := [(leafKey 0 0, ⟨31#64, false⟩)], frames := [(0, ⟨0, 1, 0, 0⟩)], keyOf := [(0, 0)] } }

/-- A GET of 64 bytes from address 0 of that context, about to act. -/
def getRun : Run := opened1 .A (regsOf [0#64, 0#64, 64#64]) []

theorem witness_FabricIssue : Acts (atSlot mapped getRun .A (enc3 0x20 3 1 2 0)) (.get 0 3 1 2) 0 .A (enc3 0x20 3 1 2 0) getRun
      (readOf .A (regsOf [0#64, 0#64, 64#64]) []) (bundleOf .A (enc3 0x20 3 1 2 0))
    ∧ (64 ≠ 0 ∧ 64 % 64 = 0 ∧ 64 ≤ 2 ^ 24)
    ∧ mapped.translateRun (some 0) 0 0 64 permRead = some [(0, 0, 64)] ∧ mapped.translateRun (some 0) 0 0 64 permWrite = some [(0, 0, 64)]
    ∧ mapped.translateRun (some 0) 0 0 8 permAtomic = some [(0, 0, 8)] ∧ gpaNode 0 = mapped.node.toNat
    ∧ ({ mapped with mem := ⟨[], [], [coreStoreAt 0 0 / 64]⟩ } : State).mem.poisoned (mapped.localAt 0 0) 64 = true :=
  ⟨acts_at mapped getRun (readOf .A (regsOf [0#64, 0#64, 64#64]) []) (by decide) (by decide) rfl rfl rfl (by decide), by decide, by decide, by decide,
    by decide, by decide, by decide⟩

/-- A line that is read well; one whose words fail once, or twice. -/
theorem witness_store_lines : ReadsWell up 0 [⟨5, 0#16, 0#16, false⟩] ∧ up.mem.wordFails (up.localAt 0 320 / 64) 1#16 ≠ 0
    ∧ up.mem.wordFails (up.localAt 0 320 / 64) 0#16 = 0 :=
  ⟨by unfold ReadsWell; decide, by decide, by decide⟩

/-- A GET from another node, answered. -/
def gotRun (ok : Bool) (kind : FabKind) : Run :=
  { aRun with fab := [⟨kind, 0, 0, 0#64, ok, 0, 8, 0, 0, 0#64, 0#64, 1, none, [⟨some 1, 2 ^ 40, 0, 8, some ⟨1#32, 0#8, leBytes 8 7, []⟩⟩], none⟩] }

theorem witness_FabricCompletion : (atSlot up (gotRun true .get) .C 0).runOf 0 = some (gotRun true .get)
    ∧ ((gotRun true .get).fab[0]?).map (fun o => (o.ok, o.kind, o.inward)) = some (true, .get, none)
    ∧ ((gotRun false .put).fab[0]?).map (·.ok) = some false ∧ (gotRun true .get).partner = none ∧ (gotRun true .get).fault = none :=
  ⟨rfl, rfl, rfl, rfl, rfl⟩

/-- A task with a chain open, which a TMMA extends. -/
def chainRun : Run := { (opened1 .I [] []) with chain := some ⟨1, 1, 0, 4, some 32, [], []⟩ }

theorem witness_TileChains : (∃ s r is b, Acts s (.tstart 0 127 127 3 1 2 []) 0 .I (0x01 * 2 ^ 34 + 127 * 2 ^ 27 + 127 * 2 ^ 20 + 3 * 2 ^ 18 + 2 ^ 13 + 2 * 2 ^ 8) r is b)
    ∧ Acts (atSlot up chainRun .I 0x859850000) (.tmma 0 0 1 6 6 false false 10 0 []) 0 .I 0x859850000 chainRun (readOf .I [] []) (bundleOf .I 0x859850000)
    ∧ chainRun.chain.isSome = true
    ∧ (atSlot up chainRun .I 0).markedAt 0 (0, 16) = false :=
  ⟨let ⟨s, r, is, b, h, _⟩ := acts_somewhere (i := .tstart 0 127 127 3 1 2 []) rfl (by decide); ⟨s, r, is, b, h⟩,
    acts_at up chainRun (readOf .I [] []) (by decide) (by decide) rfl rfl rfl (by decide), rfl, by decide⟩

theorem witness_FinishWrites : ∃ (s : State) (r : Run), s.runOf 0 = some r ∧ r.finishes = [dotFinish 6] :=
  ⟨atSlot up { aRun with finishes := [dotFinish 6] } .C 0, _, rfl, rfl⟩

theorem witness_VectorLanes : (∃ s r is b, Acts s (.vfma 0 1 2 3 4) 0 .I (encV 0x43 1 2 3 4 0 0) r is b) ∧ (List.replicate 128 0).length = 128 :=
  ⟨let ⟨s, r, is, b, h, _⟩ := acts_somewhere (i := .vfma 0 1 2 3 4) rfl (by decide); ⟨s, r, is, b, h⟩, List.length_replicate⟩

theorem witness_VectorMoves : ∃ s r is b, Acts s (.vcvt 0 1 2 3 8 3 true true) 0 .I (encV 0x52 1 2 0 0 3 (8 * 2 ^ 9 + 3 * 2 ^ 5 + 2 ^ 4 + 2 ^ 3)) r is b
    ∧ (is.x 3).toNat + 128 ≤ 2 ^ 64 :=
  let ⟨s, r, is, b, h, _, _, _, _, _, h2⟩ := acts_somewhere (i := .vcvt 0 1 2 3 8 3 true true) rfl (by decide)
  ⟨s, r, is, b, h, by rw [h2]; decide⟩

theorem witness_WindowReductions : (windowReduce (-8) [0x7F000000]).window = true ∧ (windowReduce 0 [0x3F800000]).window = false
    ∧ Rec96.add ⟨2 ^ 95 - 1, 0, 0⟩ ⟨1, 0, 0⟩ = none ∧ Rec96.add ⟨2 ^ 95 - 2, 0, 0⟩ ⟨1, 0, 0⟩ = some ⟨2 ^ 95 - 1, 0, 0⟩ :=
  ⟨by decide, by decide, by decide, by decide⟩

theorem witness_SyncInstructions : objOf 5#64 = some (0#12, 5) ∧ objOf 0x0000010000003FFF#64 = some (1#12, 16383) ∧ synced.node = 0#12
    ∧ lookupKey synced.sync 5 = some ⟨0, 1, 1, true, true⟩
    ∧ (atSlot up { aRun with waiting := some (.swait 5 2#64 9) } .C 0).runOf 0 = some { aRun with waiting := some (.swait 5 2#64 9) } :=
  ⟨by decide, by decide, by decide, by decide, rfl⟩

/-- Core 0's endpoint 0 is bound to its endpoint 1 by context 0; endpoint 1 holds a token, another is on its way. -/
def tokens : State := { up with cores := { up.cores with endpoints := [(0, ⟨some (1, 0), 15, [], none⟩), (1, ⟨none, 16, [7#64], some 0⟩)], tokens := [(1, 0, 9#64)] } }

theorem witness_TokenChannels : (tokens.endpoint 0).peer = some (1, 0) ∧ (tokens.endpoint 1).queue = [7#64]
    ∧ takeFirst 1 tokens.cores.tokens = some ((0, 9#64), []) ∧ tokens.moveBegun 0 = false ∧ tokens.coreResetting 0 = false := by decide

theorem witness_token_order : (∀ t ∈ tokens.cores.tokens.takeWhile (fun t => t.1 != 1), t.2.1 = 0 → clusterOf (t.1 / 8) ≠ clusterOf 0)
    ∧ ({ tokens with cores := { tokens.cores with moves := [(0, ⟨0, 0, some 16, true, true⟩)] } } : State).moveBegun 0 = true := by decide

/-- A task that ended, with nothing left in the background; one that faulted. -/
def endedRun : Run := { aRun with ending := some false }
def faultedRun : Run := { aRun with fault := some (0x18, 3) }

theorem witness_LaunchAndEnd : (atSlot up endedRun .C 0).runOf 0 = some endedRun ∧ endedRun.primary = true ∧ endedRun.issue = none
    ∧ endedRun.finishes = [] ∧ endedRun.moves = [] ∧ endedRun.fab = [] ∧ endedRun.disagreed = false ∧ endedRun.timedOut = false
    ∧ endedRun.fault = none ∧ (atSlot up faultedRun .C 0).runOf 0 = some faultedRun ∧ faultedRun.primary = true :=
  ⟨rfl, rfl, rfl, rfl, rfl, rfl, rfl, rfl, rfl, rfl, rfl⟩

/-! ### Host accesses, the image, bring-up -/

/-- The module up, with some register fields set. -/
abbrev withFlds (l : List (Fld × Nat)) : State := up.setFlds l

/-- While the auxiliary stage runs, and while the supervisor restores. -/
def auxRuns : State := State.reset.setFld fBringStateAux 1
def restoring : State := { up with sup := { up.sup with restoring := some (0, 1) } }

theorem witness_ReservedOffsets : up.holding = false ∧ regLayout 0x3FFFF8 = none ∧ up.answers 0x3FFFF8 = true
    ∧ bar2Reserved 0x0A0 = true ∧ bar2Reserved 0x80000 = true ∧ bar2Reserved 0x7F408 = true ∧ up.answers 0x200000 = true
    ∧ restoring.answers 0x3FFFF8 = true ∧ restoring.holding = true ∧ auxRuns.answers 0x3FFFF8 = false ∧ auxRuns.answers 0x200000 = false := by decide
theorem witness_reserved_sizes : onCompat 0x3FFFF8 = false ∧ 0x3FFFF8 % 8 = 0 ∧ onCompat 0xF00014 = true ∧ regLayout 0xF00014 = none ∧ 0xF00014 % 4 = 0
    ∧ auxRuns.takesWrites 0x3FFFF8 = false ∧ up.takesWrites 0x3FFFF8 = true ∧ restoring.takesWrites 0xF00014 = true := by decide

theorem witness_HostAccessBar0 : (regLayout rErrCtl).isSome = true ∧ onCompat rErrCtl = false ∧ rErrCtl % 8 = 0 ∧ up.answers rErrCtl = true
    ∧ up.holding = false ∧ auxRuns.answers rErrCtl = false ∧ auxRuns.takesWrites rErrCtl = false
    ∧ restoring.takesWrites rErrCtl = true ∧ restoring.holding = true ∧ Taken up 0x500400 ∧ Taken up (0x500400 + 4095 * 8)
    ∧ ¬(4 = 8 ∧ rErrCtl % 8 = 0) ∧ ¬(8 = 8 ∧ (rErrCtl + 4) % 8 = 0) := by
  (repeat' apply And.intro) <;> decide
theorem witness_bad_accesses : up.logsAccess = true ∧ restoring.logsAccess = true ∧ restoring.holding = true ∧ auxRuns.logsAccess = false := by decide

/-- The host window is bound to context 0, whose first page maps to this module; its first line may be poisoned. -/
def windowed (bad : Bool) : State :=
  { (withFlds [(fZfHostwinOn, 1), (fCtxCtlState 0, 1), (fCtxCtlInRange 0, 1), (fCtxPartState 0, 1)]) with
    fab := mapped.fab, flash := { up.flash with win0 := 1#64, requireIde := false }, mem := ⟨[], [], if bad then [0] else []⟩ }

theorem witness_HostWindow : (windowed false).bar4Up = true ∧ (windowed false).fld fZfHostwinOn = 1
    ∧ ((windowed false).readRunVia (some unitHost) 0 0 8 FarReply.ok).2.1 = 0
    ∧ ((windowed false).readRunVia (some unitHost) 0 (2 ^ 21) 8 FarReply.ok).2.1 = 4
    ∧ ((windowed false).writeRunVia (some unitHost) 0 0 [1#8] FarReply.ok).2 = 0
    ∧ ((windowed false).writeRunVia (some unitHost) 0 (2 ^ 21) [1#8] FarReply.ok).2 = 4 ∧ auxRuns.bar4Up = false
    ∧ up.fld fZfHostwinOn = 0 ∧ up.bar4Up = true ∧ Taken up rZfHostwin ∧ getBits (putBits 0#64 fZfHostwinOn 1) fZfHostwinOn = 1
    ∧ (windowed false).active 0 = true ∧ (windowed false).admitsWindow 0 = true ∧ up.active 0 = false := by
  (repeat' apply And.intro) <;> decide
theorem witness_window_poison : ((windowed true).readRunVia (some unitHost) 0 0 8 FarReply.ok).2.1 = 8 := by decide

theorem witness_DecantPair : up.pins.vaux = true ∧ 2 ≤ up.fld fBringStateAux ∧ up.holding = false ∧ up.answers rDecantLo = true ∧ up.takesWrites rDecantLo = true ∧ up.que.decant = []
    ∧ decanted.que.latch = none ∧ (after .decantLoRead decanted).que.latch = some 0x2468ACF1#32 := by decide

theorem witness_DecantPairHeld : ¬(auxRuns.pins.vaux = true ∧ 2 ≤ auxRuns.fld fBringStateAux) ∧ ¬(8 = 4 ∧ 0 % 4 = 0)
    ∧ (restoring.pins.vaux = true ∧ 2 ≤ restoring.fld fBringStateAux) ∧ restoring.holding = true := by decide

theorem witness_ImageStaging : up.bit fCuveeResultBusy = false ∧ Taken up rCuveeData ∧ up.img.staged.length + 8 ≤ 16384 ∧ Taken up rCuveeCtl
    ∧ up.auxDone = true ∧ (after (.verify 0#64) up).img.verify = some []
    ∧ getBits 0#64 fCuveeCtlClear = 0 ∧ getBits 0#64 fCuveeCtlVerify = 0 ∧ (withFlds [(fCuveeResultBusy, 1)]).bit fCuveeResultBusy = true
    ∧ Taken (withFlds [(fCuveeResultBusy, 1)]) rCuveeData ∧ Taken (withFlds [(fCuveeResultBusy, 1)]) rCuveeCtl := by
  (repeat' apply And.intro) <;> decide

/-- An image of one partition that screens every stack in full. -/
def aCfg : Cuvee := ⟨1, [], 0#12, 1, [], [⟨BitVec.allOnes 32, 0, 0, 128, 100, 0, 0, 0⟩], 0, 0, 0, [], [], [], 0, 0, 3600, 1600, 0, 0, 0, 0, 0,
  ⟨1, 1, 1, 100⟩, [], 1, 0⟩

/-- Every step before step n is done; the image is in force. -/
def ready (n : Nat) : State :=
  let s := withFlds [(fBringStateDone, 2 ^ (n - 1) - 1)]
  { s with img := { s.img with cfg := some aCfg } }

theorem bringReady (n : Nat) (h : n ∈ [1, 2, 3, 4, 5, 6, 7, 8, 9, 10, 11]) : BringReady (ready n) n := by
  simp only [List.mem_cons, List.not_mem_nil, or_false] at h
  rcases h with rfl | rfl | rfl | rfl | rfl | rfl | rfl | rfl | rfl | rfl | rfl <;> (repeat' apply And.intro) <;> decide

/-- Step n runs, and will report. -/
def running (n res : Nat) : State :=
  let s := withFlds [(fBringStateBusy, 1), (fBringStateStep, n)]
  { s with img := { s.img with stepRes := res } }

/-- What the world shows at JOIN: of the nodes that have joined one is lower; port 2 leads to it and is sealed. -/
def joining : State := { (withFlds [(fBringStateDone, 2 ^ 9 - 1), (fLnkPortStateState 2, stSealed)]) with img := (ready 10).img }
def aJoin : JoinObs := ⟨[], [0#12], [⟨2, 0#12, 1#16, 1#8, 1000#64⟩]⟩

theorem witness_BringUpSteps (h : ∀ n ∈ [1, 2, 3, 4, 5, 6, 7, 8, 9, 10, 11], BringReady (ready n) n := bringReady) :
    (∀ n ∈ [1, 2, 3, 4, 5, 6, 7, 8, 9, 10, 11], BringReady (ready n) n)
    ∧ (checkImage ⟨none, 0, 0#64⟩ false none).1 ≠ rsnAccepted ∧ (ready 2).offSources = [] ∧ (ready 2).pwr.validA = none
    ∧ (ready 2).pwr.validB = none ∧ (ready 2).fld fPwrFeedAState ≠ fsFault ∧ (ready 2).fld fPwrFeedBState ≠ fsFault
    ∧ aCfg.screensFull 255 = true ∧ ({ aCfg with depth := 0, fullEvery := 8 } : Cuvee).screensFull 0 = false ∧ (ready 5).img.startC = 255 ∧ (ready 5).img.cfg = some aCfg
    ∧ Taken (running 3 0) rBringCtl ∧ (running 3 0).fld fBringStateBusy = 1 ∧ Taken (ready 3) rBringCtl ∧ (ready 3).stepDone 10 = false := by
  refine ⟨h, ?_⟩
  (repeat' apply And.intro) <;> decide
theorem witness_feed_valid : ({ (ready 2) with pwr := { (ready 2).pwr with validA := some 0 } } : State).pwr.validA.isSome = true
    ∧ ({ (ready 2) with pwr := { (ready 2).pwr with holdLeak := true } } : State).offSources ≠ [] := by decide
theorem witness_join : BringReady joining 10 ∧ (∀ n ∈ aJoin.joined, joining.node.toNat ≤ n.toNat)
    ∧ (∃ n ∈ aJoin.joined, n.toNat < ({ joining with img := { joining.img with cfg := some { aCfg with node := 5#12 } } } : State).node.toNat)
    ∧ (∀ q ∈ aJoin.peers, joining.portState q.port = stSealed ∧ q.port.val < 28) := by
  refine ⟨?_, by decide, by decide, by decide⟩
  (repeat' apply And.intro) <;> decide
theorem witness_step_ends : (running 6 9).bit fBringStateBusy = true ∧ (running 6 9).img.result = none ∧ (running 6 9).img.stepRes = 9
    ∧ (running 11 0).fld fBringStateStep = 11 ∧ (running 2 0).img.stepRes = 0 ∧ (running 3 7).img.stepRes ≠ 0 ∧ (running 5 8).fld fBringStateStep = 5
    ∧ (running 10 0).fld fBringStateStep = 10 := by decide

/-- SECURE runs since the last reset while port 0 still attests. -/
def securing : State := { (withFlds [(fBringStateBusy, 1), (fBringStateStep, 9), (fSecPortsPorts, 3)]) with time := 5 }
theorem witness_secure_waits : securing.bit fBringStateBusy = true ∧ securing.img.result = none ∧ securing.fld fBringStateStep = 9
    ∧ securing.img.stepRes = 0 ∧ securing.time < securing.img.stepAt + 12 * 10 ^ 9 ∧ (∃ p < 32, bitsOf (securing.fld fSecPortsPorts) (2 * p + 1) (2 * p) = 3)
    ∧ ¬∃ p < 32, bitsOf ((running 9 0).fld fSecPortsPorts) (2 * p + 1) (2 * p) = 3 :=
  ⟨by decide, by decide, by decide, by decide, by decide, ⟨0, by decide, by decide⟩, by decide⟩

/-! ### Contexts, queues, records -/

/-- Context 0 lies in partition 0, which is OPEN and holds clusters 0–31; with further fields. -/
def home (l : List (Fld × Nat)) : State :=
  withFlds ([(fCtxCtlInRange 0, 1), (fCtxPartState 0, 1), (fCtxPartClusters 0, 2 ^ 32 - 1)] ++ l)

/-- The same context, ACTIVE. -/
abbrev act (l : List (Fld × Nat)) : State := home ((fCtxCtlState 0, 1) :: l)

theorem witness_ContextsAndPrograms : Taken (home []) (rCtxCtl 0) ∧ (home []).fld (fCtxCtlState 0) = 0 ∧ (home []).partOf 0 = some 0
    ∧ (home []).isOpen 0 = true ∧ (act []).fld (fCtxCtlState 0) = 1 ∧ (act []).ctxBusy 0 = false ∧ (act []).fld fZfHostwinOn = 0
    ∧ up.partOf 0 = none ∧ (home [(fCtxPartState 0, 2)]).isOpen 0 = false
    ∧ (act [(fQueCqStateState 0 0, 1), (fQueCqStateTail 0 0, 1)]).ctxBusy 0 = true
    ∧ (home [(fCtxCtlState 0, 2)]).que.recs.any (fun w => w.record.ctx == 0) = false ∧ getBits 0#64 (fCtxCtlDestroy 0) = 0
    ∧ (home [(fCtxCtlState 0, 2)]).fld (fCtxCtlState 0) = 2 ∧ (home []).fab.dropping = none ∧ (act []).active 0 = true
    ∧ Taken (act []) (rCtxQsync 0) ∧ Taken (act []) (rCtxQpages 0) ∧ Taken (act []) (rCtxQgroups 0) ∧ Taken (act []) (rCtxQbw 0) := by
  (repeat' apply And.intro) <;> decide

/-- BIND of program 0 of context 0 on cluster 0: one bundle, with `n` regions. -/
def binding (n : Nat) (more : State → State) : State :=
  (more { (act [(fTaskBindctlClusters, 1), (fTaskBindctlRegions, n)]) with fab := mapped.fab }).writeUnder takesAll rTaskBindcmd
    (putBits 0#64 fTaskBindcmdBind 1)

theorem witness_bind : Taken (act []) rTaskBindcmd ∧ up.mayBind 0 = false ∧ (binding 1 id).mayBind 0 = true ∧ (act []).maskOk 0 0 = false
    ∧ (binding 1 id).maskOk 0 1 = true ∧ ((binding 1 id).bundleRun 0 1).isSome = true ∧ 1 ≤ ((binding 1 id).freeRegions 0).length
    ∧ ¬ 31 ≤ ((binding 31 id).freeRegions 0).length ∧ (binding 1 id).isBound 0 0 = false
    ∧ ((binding 1 id).readRun 0 0 16 FarReply.ok).2.1 = 0 := by
  (repeat' apply And.intro) <;> decide

/-- Program 0 of context 0 is bound on cluster 0. -/
def boundState (t : List (Nat × Run)) : State :=
  { (act []) with cores := { up.cores with bindings := [⟨0, 0, [1#128], [(0, 0)], []⟩], runs := t } }

theorem witness_unbind : (boundState []).mayBind 0 = true ∧ (boundState []).isBound 0 0 = true ∧ (boundState []).progUsed 0 0 [] = false
    ∧ (boundState [(0, aRun)]).progUsed 0 0 [] = true
    ∧ ({ (boundState []) with regs := (act [(fQueCqStateState 0 0, 1), (fQueCqStateTail 0 0, 1), (fQueCqCfgLoc 0 0, 1)]).regs } : State).progUsed 0 0 [0] = true := by decide

/-- Queues 0 of context 0 are OFF; the record ring 0 runs; bases are 0. -/
abbrev ringed (l : List (Fld × Nat)) : State := act ((fQueRingStateState 0 0, 1) :: (fQueRingCfgLog2size 0 0, 4) :: l)

set_option maxRecDepth 4000 in
theorem witness_QueuesAndDoorbells : Taken (ringed []) (rQueCqCfg 0 0) ∧ (ringed []).active 0 = true ∧ (ringed []).fld (fQueCqStateState 0 0) = 0
    ∧ (ringed []).maskOk 0 1 = true ∧ (ringed []).ringOn (ringKey 0 0) = true ∧ up.active 0 = false
    ∧ (ringed [(fQueCqStateState 0 0, 1)]).unfetched (cqRegs 0 0) = false ∧ (ringed [(fQueCqStateState 0 0, 1)]).queueTasks 0 0 = false
    ∧ (ringed [(fQueCqStateState 0 0, 1), (fQueCqStateTail 0 0, 1)]).unfetched (cqRegs 0 0) = true
    ∧ (ringed []).fld (fQueXqStateState 0 0) = 0 ∧ (ringed [(fQueXqStateState 0 0, 1)]).unfetched (xqRegs 0 0) = false
    ∧ (act []).fld (fQueRingStateState 0 0) = 0 ∧ (ringed []).ringUsed 0 0 = false
    ∧ (ringed [(fQueCqStateState 0 0, 1)]).ringUsed 0 0 = true
    ∧ (ringed [(fGrpGStateState 0, 2)]).fld (fGrpGStateState 0) = 2 ∧ (ringed [(fGrpGStateState 0, 2)]).fld (commRegs 0).state = 0
    ∧ (ringed []).commOf 0 = [] ∧ lookupKey (ringed []).grp.inflight 0 = none := by
  (repeat' apply And.intro) <;> decide

/-- A compute queue of sixteen entries that is RUNNING; its tail may pass to the sixteenth, not to the seventeenth. -/
def queued (l : List (Fld × Nat)) : State := ringed ([(fQueCqStateState 0 0, 1), (fQueCqCfgLog2size 0 0, 4), (fQueCqCfgLoc 0 0, 1)] ++ l)

theorem witness_doorbells : (queued []).fld fBringStateAux ≥ 2 ∧ (queued []).inUse 0 = true ∧ up.inUse 0 = false
    ∧ (queued []).fld (cqRegs 0 0).state = 1 ∧ tailOk 16 0 0 4 = true ∧ tailOk 17 0 0 4 = false ∧ tailOk 1 (2 ^ 24 - 15) 0 4 = true
    ∧ (queued []).isDown 0 = false ∧ (queued []).pins.vaux = true := by decide

theorem witness_TasksReachCores : (queued [(fQueCqStateTail 0 0, 1)]).fld (fQueCqStateHead 0 0) ≠ (queued [(fQueCqStateTail 0 0, 1)]).fld (fQueCqStateTail 0 0)
    ∧ (queued []).ringBlocks (ringKey 0 0) = false ∧ (queued []).que.fed = []
    ∧ ((queued [(fQueCqCfgClusters 0 0, 1)]).boundClusters 0 0).all (fun m => (queued []).poolFree m == 0) = false
    ∧ (List.replicate 64 (0 : Byte)).length = 64 ∧ ((queued []).commOf 0).length < 16 := by decide

/-- A task of the queue that was fetched, its program bound on cluster 0. -/
def fetched (b : List Binding) : State :=
  { (queued [(fQueCqCfgClusters 0 0, 1)]) with que := { up.que with fed := [aTask] }, cores := { up.cores with bindings := b } }

theorem witness_pool_entry : (fetched []).que.fed.find? (fun t => t.ctx == 0 && t.queue == 0) = some aTask
    ∧ (fetched [⟨0, aTask.prog, [1#128], [(0, 0)], []⟩]).placeFor 0 0 = some 0 ∧ (fetched []).objsHeld aTask = true
    ∧ (fetched [⟨0, aTask.prog, [1#128], [(0, 0)], []⟩]).boundIn 0 aTask.prog 0 = true
    ∧ (fetched [⟨0, aTask.prog, [1#128], [(0, 0)], []⟩]).creditNext 0 = some 0 := by decide

set_option maxRecDepth 8000 in
/-- The pool of cluster 0 credited queue 15 of context 7 last; the turn comes round to the first again. -/
theorem witness_credit_turn : let s := fetched [⟨0, aTask.prog, [1#128], [(0, 0)], []⟩]
    let t : State := { s with cores := { s.cores with credPtr := [(0, 127)] } }
    lookupKey t.cores.credPtr 0 = some 127 ∧ t.creditNext 0 = some 0 := by decide

/-- The task waits in the pool of cluster 0, whose first core is active. -/
def pooled : State := { (fetched [⟨0, aTask.prog, [1#128], [(0, 0)], []⟩]) with
  que := up.que, cores := { up.cores with pool := [aTask], bindings := [⟨0, aTask.prog, [1#128], [(0, 0)], []⟩] } }

set_option maxRecDepth 8000 in
theorem witness_task_pull : pooled.serve (clusterOf ((0 : LCore) : Nat)) pooled.cores.pool = some ((0 : LCore).val, aTask, true) ∧ pooled.inWaves 0 = false := by decide

/-- A record of context 0 for ring 0, which lies in host memory. -/
def aWait (quiet : Bool) : RecWait := ⟨0, ⟨0xA11, 0, 0, 0, 0, 0, 0, 0, 0#64, 0, 0, 100⟩, none, false, quiet, false, none⟩
def recorded (quiet : Bool) (l : List (Fld × Nat)) : State :=
  { (ringed ((fQueRingCfgLoc 0 0, 1) :: l)) with que := { up.que with recs := [aWait quiet], ringIrq := [(0, 3)] } }

/-- The error ring holds an entry that its holdoff has not yet announced. -/
def errRinged : State :=
  { (recorded false [(fErrRingCfgIrq, 1), (fErrRingCfgHoldoff, 1)]) with err := { up.err with ringCount := 1, ringFirst := true } }

theorem witness_RecordsWritten : (recorded false []).que.recs = [aWait false] ∧ ringKey (aWait false).record.ctx (aWait false).ring = ringKey 0 0
    ∧ (recorded false []).ringOn (ringKey 0 0) = true ∧ (recorded false []).ringSpace (ringKey 0 0) = 16
    ∧ (recorded false [(fQueRingStateTail 0 0, 15)]).ringSpace (ringKey 0 0) = 1 ∧ (aWait true).quiet = true ∧ (aWait true).decant = false
    ∧ (recorded false []).fld (fQueRingCfgLoc 0 0) = 1 ∧ lookupKey (recorded false []).que.ringIrq (ringKey 0 0) = some 3
    ∧ (recorded false [(fQueRingCfgIrq 0 0, 1), (fQueRingCfgHoldoff 0 0, 1)]).fld (fQueRingCfgHoldoff 0 0) ≠ 0
    ∧ errRinged.fld fErrRingCfgIrq = 1 ∧ errRinged.fld fErrRingCfgHoldoff ≠ 0 ∧ errRinged.err.ringFirst = true := by decide

/-- The primary of a pair at a STW whose value its shadow has not matched. -/
def pairRun : Run := { aRun with partner := some 2 }

theorem witness_pair_stops : (atSlot up pairRun .C 0).runOf 0 = some pairRun ∧ (atSlot up pairRun .C 0).bundleAt pairRun = some (bundleOf .C 0)
    ∧ pairRun.issue = none ∧ pairRun.fault = none ∧ pairRun.ending = none
    ∧ (atSlot up { pairRun with released := 1 } .C 0).stallPair { pairRun with released := 1 } (bundleOf .C 0) = true :=
  ⟨rfl, rfl, rfl, rfl, rfl, by decide⟩

/-! ### The sync block, cores -/

/-- Context 0 holds object 5, which other nodes may signal; a signal of its own and one due. -/
def syncing (limit : Nat) : State :=
  let s := act [(fCtxQsyncLimit 0, limit), (fCtxQsyncUse 0, 1)]
  let sigs : List (Nat × SigMsg) := [(0, ⟨some 0, 5#14, 1#64⟩), (2, ⟨some 1, 5#14, 1#64⟩)]
  { s with sync := [(5, ⟨0, 1, 1, true, true⟩)], cores := { s.cores with signals := sigs, wavesDue := [(0, [1, 2])], raised := [0] } }

/-- A core waits for the object. -/
def syncWaited : State :=
  let s := syncing 2
  { s with cores := { s.cores with runs := [(0, { aRun with waiting := some (.swait 5 2#64 9) })] } }

theorem freeObj_first (s : State) (h : lookupKey s.sync 0 = none) : s.freeObj 0 = some 0 := by
  have e (n : Nat) : List.find? (fun i => (lookupKey s.sync i).isNone) ((List.range (n + 1)).map (0 * 4096 + ·)) = some 0 := by
    simp only [List.range_succ_eq_map, List.map_cons, List.find?_cons, Nat.zero_mul, h]
    rfl
  exact e 4095

theorem witness_SyncBlock : Taken (syncing 2) rSyncCmd ∧ (syncing 2).active 0 = true ∧ (syncing 2).fld (fCtxQsyncUse 0) + 1 ≤ (syncing 2).fld (fCtxQsyncLimit 0)
    ∧ (syncing 2).freeObj 0 = some 0 ∧ (syncing 0).fld (fCtxQsyncUse 0) + 1 > (syncing 0).fld (fCtxQsyncLimit 0) ∧ (syncing 2).holds 0 5 = true
    ∧ (syncing 2).waiters 5 = 0 ∧ syncWaited.waiters 5 ≠ 0 ∧ syncWaited.holds 0 5 = true ∧ (syncing 2).holds 1 5 = false ∧ up.active 0 = false := by
  refine ⟨?_, by decide, by decide, freeObj_first _ (by decide), ?_⟩ <;> (repeat' apply And.intro) <;> decide

theorem lookupKey_filled (l : List Nat) (o : SyncObj) {i : Nat} (h : i ∈ l) : (lookupKey (l.map (fun j => (j, o))) i).isSome = true := by
  induction l with
  | nil => cases h
  | cons a t ih =>
    simp only [List.map_cons, lookupKey]
    split
    · rfl
    · rename_i n
      rcases List.mem_cons.1 h with rfl | h
      · exact absurd rfl n
      · exact ih h

/-- Every object of die 0 is held. -/
theorem witness_sync_full : ({ up with sync := (List.range 4096).map (fun j => (j, ⟨0, 0, 1, false, false⟩)) } : State).freeObj 0 = none := by
  simp only [State.freeObj, List.find?_eq_none, List.mem_map, forall_exists_index, and_imp]
  rintro _ i h rfl
  have := lookupKey_filled (List.range 4096) ⟨0, 0, 1, false, false⟩ (i := 0 * 4096 + i) (by simpa using h)
  cases e : lookupKey ((List.range 4096).map (fun j => (j, (⟨0, 0, 1, false, false⟩ : SyncObj)))) (0 * 4096 + i) <;> simp_all

theorem witness_signals : lookupKey (syncing 2).sync 5 = some ⟨0, 1, 1, true, true⟩ ∧ lookupKey (syncing 2).sync 6 = none
    ∧ (syncing 2).signalAt ⟨some 0, 5#14, 1#64⟩ = some 0
    ∧ (syncing 2).signalAt ⟨some 1, 5#14, 1#64⟩ = some 1 ∧ (syncing 2).signalAt ⟨some 1, 6#14, 1#64⟩ = none
    ∧ (syncing 2).holds 0 5 = true ∧ (syncing 2).holds 1 5 = false ∧ (syncing 2).cores.signals.head?.map Prod.snd = some ⟨some 0, 5#14, 1#64⟩
    ∧ lookupKey (syncing 2).cores.wavesDue 0 = some [1, 2] ∧ (syncing 2).cores.raised.contains 0 = true := by decide

/-- Core 0 runs a task under stall monitoring; the core may have hung before, and units are in their resets. -/
def watched (hangs : List Nat) (r : Run) : State :=
  let s := act [(fErrPmonLimit, 100), (fErrPmonAction, 1)]
  let resets : List RUnit := [.engine 17 2, .cluster 3, .domain 1]
  { s with cores := { s.cores with runs := [(0, r)], logs := [(0, ⟨0, 0, [], hangs, []⟩)], resetting := resets } }

theorem witness_CoresWatched : (watched [] aRun).runOf 0 = some aRun ∧ aRun.stallLogged = false ∧ aRun.issue = none ∧ aRun.partner = none
    ∧ pairRun.partner = some 2 ∧ (watched [] aRun).fld fErrPmonLimit ≠ 0 ∧ (watched [] aRun).fld fErrPmonAction = 1
    ∧ (withFlds [(fErrPmonLimit, 1)]).fld fErrPmonAction = 0 ∧ (watched [] aRun).coreResetting 0 = false
    ∧ (watched [] aRun).cores.resetting.contains (.cluster 3) = true ∧ (watched [] aRun).partOfCluster 3 = some 0
    ∧ (watched [] aRun).fld (fRstPartHeld 1) = 0 ∧ (withFlds [(fRstPartHeld 1, 1)]).fld (fRstPartHeld 1) = 1 := by
  (repeat' apply And.intro) <;> first | rfl | decide
theorem witness_hangs : ((watched [] aRun).recent ((watched [] aRun).coreLog 0).hangs).length < 2
    ∧ 2 ≤ ((watched [1, 2] aRun).recent ((watched [1, 2] aRun).coreLog 0).hangs).length := by decide

/-- Cluster 0 tastes core 4, for the first time or again; it has had transients; a core of it moves. -/
def tasted (again : Bool) (tr : List Nat) : State :=
  { (act []) with cores := { up.cores with tasting := [(0, ⟨4, again⟩)], logs := [(4, ⟨0, 0, tr, [], []⟩)] } }
def moving (retire begun : Bool) : State :=
  { (act []) with cores := { up.cores with moves := [(0, ⟨2, 2, if begun then some 16 else none, retire, begun⟩)] } }

/-- The same while core 16, the cluster's one spare, is tasted; a core whose store met a hard fault. -/
def movingTested (retire : Bool) : State :=
  let s := (moving retire false).setCoreState 16 1
  { s with cores := { s.cores with tasting := [(0, ⟨16, false⟩)] } }
def faulty : State := { (act []) with cores := { up.cores with hardFaults := [(3, 9)] } }

theorem witness_tasting : lookupKey (act []).cores.tasting 0 = none ∧ ((act []).setCoreState 0 1).tastePick 0 = some 0
    ∧ lookupKey (tasted false []).cores.tasting 0 = some ⟨4, false⟩ ∧ lookupKey (tasted true []).cores.tasting 0 = some ⟨4, true⟩
    ∧ ((tasted true []).recent ((tasted true []).coreLog 4).transients).length < 2
    ∧ 2 ≤ ((tasted true [1, 2]).recent ((tasted true [1, 2]).coreLog 4).transients).length := by decide
theorem witness_moves : faulty.cores.hardFaults.find? (fun q => q.1 / 18 == 0) = some (3, 9)
    ∧ lookupKey (moving true false).cores.moves 0 = some ⟨2, 2, none, true, false⟩ ∧ ((moving true false).setCoreState 16 1).moveTarget 0 = some 16
    ∧ (moving true false).cores.hardFaults = [] ∧ (moving true false).runOf 2 = none ∧ (moving true false).coreResetting 2 = false
    ∧ lookupKey (moving true false).cores.tasting 0 = none ∧ (movingTested true).moveTarget 0 = some 16 ∧ (movingTested false).moveTarget 0 = some 16
    ∧ lookupKey (movingTested true).cores.tasting 0 = some ⟨16, false⟩ ∧ (movingTested true).runOf 2 = none
    ∧ (({ (movingTested false) with cores := { (movingTested false).cores with moves := [(0, ⟨2, 2, some 16, false, false⟩)] } } : State).coreState 16 = 1)
    ∧ lookupKey (moving true true).cores.moves 0 = some ⟨2, 2, some 16, true, true⟩ := by decide

/-- A retirement that waits where the cluster has no spare. -/
theorem witness_no_spare : (moving true false).cores.hardFaults.find? (fun q => q.1 / 18 == 0) = none ∧ (moving true false).moveTarget 0 = none
    ∧ (moving true false).sparesOf 0 = [] := by decide

/-! ### Fabric memory, copies, stacks -/

/-- Context 0 may map a page; page 0 is mapped, page 1 is not. -/
def mapping (l : List (Fld × Nat)) : State :=
  let s := act ([(fCtxQpagesLimit 0, 2), (fCtxUpagesUse 0, 1)] ++ l)
  { s with fab := mapped.fab, img := { s.img with cfg := some aCfg } }

set_option maxRecDepth 8000 in
theorem witness_MapCommands : Taken (mapping []) rZfMapcmd ∧ (mapping []).fld fZfMapcmdBusy = 0 ∧ (mapping [(fZfMapcmdBusy, 1)]).fld fZfMapcmdBusy = 1
    ∧ (mapping [(fZfMapvaVa, 1), (fZfMappaGpa, 1)]).zfCheck .map ((mapping [(fZfMapvaVa, 1), (fZfMappaGpa, 1)]).zfRun 0#64) = 0
    ∧ (mapping []).zfCheck .map ((mapping []).zfRun 0#64) ≠ 0 ∧ (mapping []).zfCheck .unmap ((mapping []).zfRun 0#64) = 0
    ∧ (mapping []).removesPerm ((mapping []).zfRun 0#64) = true
    ∧ (mapping []).removesPerm ((mapping []).zfRun (BitVec.allOnes 64)) = false
    ∧ (lookupKey (mapping []).fab.leaves (leafKey 0 0)).isSome = true := by
  (repeat' apply And.intro) <;> decide

/-- An UNMAP waits for the caches; the first copy engine has cached page 0. -/
theorem witness_drop : ∀ b, ({ up with fab := { up.fab with dropping := some ⟨0, b, []⟩ } } : State).dropPending ⟨0, b, []⟩ = false := by decide
def cached : State := { up with fab := { mapped.fab with caches := [(unitCopy 0, [(leafKey 0 0, ⟨31#64, false⟩)])] } }
theorem witness_caches : leafIn (cached.cacheOf (unitCopy 0)) 0 5#64 = some (leafKey 0 0, ⟨31#64, false⟩)
    ∧ leafIn (cached.cacheOf (unitCopy 0)) 0 0x200000#64 = none ∧ leafIn (cached.cacheOf unitHost) 0 5#64 = none ∧ (5#64 : Word).toNat < 2 ^ 52
    ∧ [leafKey 0 0].contains (leafKey 0 0) = true := by decide

/-- Frame 0 belongs to context 0, whose exports allow another node `n`. -/
def borrowed (n : Nat) (bad : List Nat) : State :=
  { (act []) with fab := { up.fab with frames := [(0, ⟨0, 1, n, 0⟩)] }, mem := ⟨[], [], bad⟩ }
def aReq (d : List Byte) : Req := ⟨1#12, 0, 0#16, 0#52, 0#32, 0#8, 64, d⟩

theorem witness_HomeRequests : (borrowed 3 []).isHome (aReq []) = true ∧ (borrowed 1 []).admits 1#12 0 0 1 0 = true ∧ (borrowed 1 []).admits 1#12 0 0 2 0 = false
    ∧ (borrowed 0 []).admits 1#12 0 0 1 0 = false ∧ up.isHome { (aReq []) with gpa := 0x50000000000#52 } = false
    ∧ (borrowed 2 []).admits 1#12 0 0 2 0 = true ∧ (borrowed 3 []).admits 1#12 0 0 3 0 = true ∧ (borrowed 3 []).mem.poisonedOffsets 0 64 = []
    ∧ (borrowed 3 []).mem.poisonedOffsets 0 8 = [] ∧ (7#8 : Byte) ≠ 0#8 := by decide

/-- A line that fails and is read anew in vain; it then comes marked. -/
def badLine : LineObs := ⟨0, false, [⟨true, 0#16⟩, ⟨true, 0#16⟩, ⟨true, 0#16⟩, ⟨true, 0#16⟩, ⟨true, 0#16⟩]⟩

theorem witness_lines : lineOffsets 0 64 (((borrowed 3 []).activate 0 64).lineReads 0 64 [badLine]).2 ≠ []
    ∧ (((borrowed 3 []).activate 0 8).lineReads 0 8 [badLine]).2 ≠ [] := by decide

/-- A copy of 64 bytes, started or not. -/
def aCopy (started : Bool) (dst : Nat) : Copy := ⟨0, 0, 0xC0, 0, false, none, none, 0#64, BitVec.ofNat 64 dst, 64, 0#64, 0#64, 0#64, started, [⟨none, 0#64, false⟩]⟩
def copying (started : Bool) (dst : Nat) : State := { (mapping []) with que := { up.que with copies := [aCopy started dst] } }

theorem witness_CopiesRun : (copying false 0).copyIdx 0 0 (fun x => !x.started) = some 0 ∧ (copying false 0).que.copies[0]? = some (aCopy false 0)
    ∧ (aCopy false 0).wait = none ∧ ((copying false 0).que.copies.filter (fun x => x.ctx == 0 && x.queue == 0 && x.started)).length < 4
    ∧ (copying true 0).runningPart 0 0 0 0 = some (0, aCopy true 0) ∧ (aCopy true 0).op = 0
    ∧ ((copying true 0).readRunVia (some (unitCopy 0)) 0 0 64 FarReply.ok).2.1 = 0
    ∧ ((copying true 0).readRunVia (some (unitCopy 0)) 0 (2 ^ 21) 64 FarReply.ok).2.1 = 4
    ∧ ((copying true 0).writeRunVia (some (unitCopy 0)) 0 0 (List.replicate 64 0#8) FarReply.ok).2 = 0
    ∧ (modifyAt (aCopy true 0).parts 0 (fun _ => ⟨some 0, 0#64, false⟩)).all (·.status == some 0) = true ∧ (aCopy true 0).op ≠ 1 := by decide

/-- The copy's destination lies at another node. -/
def farCopy : State := { (copying true 0) with fab := { mapped.fab with leaves := [(leafKey 0 0, ⟨31#64 ||| 0x10000000000#64, false⟩)] } }

theorem witness_part_timeout : farCopy.runIsFar (some (unitCopy 0)) 0 0 64 permWrite = true
    ∧ (copying true 0).runIsFar (some (unitCopy 0)) 0 0 64 permWrite = false ∧ farCopy.runningPart 0 0 0 0 = some (0, aCopy true 0) := by decide

/-- A row of stack 0 is due, its stack's spare rows used up or not; its bank likewise. -/
def aRow : RowRef := ⟨0, 0, 0, 5⟩
def rowDue (rows banks : List RowKey) : State :=
  { up with dram := { up.dram with rowDue := [keyOfRow aRow], bankDue := [(keyOfRow aRow).bankKey], rows := rows, banks := banks } }

theorem length_filter_replicate (n : Nat) {k : RowKey} (hk : k.stack = 0) : ((List.replicate n k).filter (fun x => x.stack == 0)).length = n := by
  simp [hk]

theorem witness_StacksAndPaths (k : RowKey) (hk : k.stack = 0) : (rowDue [] []).dram.rowDue.contains (keyOfRow aRow) = true
    ∧ 1024 ≤ ((rowDue (List.replicate 1024 k) []).dram.rows.filter (fun x => x.stack == 0)).length
    ∧ ((rowDue (List.replicate 1023 k) []).dram.rows.filter (fun x => x.stack == 0)).length < 1024
    ∧ (([keyOfRow aRow]).filter (fun x => x.bankKey == (keyOfRow aRow).bankKey)).length < 8
    ∧ (rowDue [] []).dram.bankDue.contains (keyOfRow aRow).bankKey = true
    ∧ 111 ≤ ((rowDue [] (List.replicate 111 k)).dram.banks.filter (fun x => x.stack == 0)).length
    ∧ ((rowDue [] (List.replicate 110 k)).dram.banks.filter (fun x => x.stack == 0)).length < 111 := by
  exact ⟨by decide, Nat.le_of_eq (length_filter_replicate 1024 hk).symm, Nat.lt_of_le_of_lt (Nat.le_of_eq (length_filter_replicate 1023 hk)) (by decide),
    by decide, by decide, Nat.le_of_eq (length_filter_replicate 111 hk).symm, Nat.lt_of_le_of_lt (Nat.le_of_eq (length_filter_replicate 110 hk)) (by decide)⟩

/-- A good line, and one that fails four times; a path that lost a word before. -/
theorem witness_scrub : (withFlds [(fMemcStkStateState 0, 3)]).fld (fMemcStkStateState 0) = 3 ∧ up.fld fMemcScrubPaused = 0
    ∧ (withFlds [(fMemcScrubPaused, 1)]).fld fMemcScrubPaused = 1
    ∧ (up.rowOf 0).stack = 0 ∧ up.dram.scrubSkip.contains 0 = false ∧ up.mem.poison.contains 0 = false ∧ 64 * 0 < memoryEnd
    ∧ (up.lineRead ⟨0, false, []⟩).mem.poison.contains 0 = false := by decide
set_option maxRecDepth 4000 in
theorem witness_bad_line : (up.lineRead badLine).mem.poison.contains 0 = true := by decide

/-- The hub link has lost a word a moment ago. -/
def lostBefore : State := { up with err := { up.err with paths := [(.hubLink, 0)] } }

theorem witness_word_replay : (∃ x, PathRef.storePort 3 = .storePort x) ∧ (∃ x, PathRef.clusterPort 3 = .clusterPort x)
    ∧ (∃ x, PathRef.cipher 3 = .cipher x) ∧ (∃ x, PathRef.trellis 3 = .trellis x)
    ∧ lostBefore.err.paths.any (fun p => p.1 == .hubLink && decide (lostBefore.time < p.2 + 10 ^ 6)) = true
    ∧ up.err.paths.any (fun p => p.1 == .hubLink && decide (up.time < p.2 + 10 ^ 6)) = false :=
  ⟨⟨3, rfl⟩, ⟨3, rfl⟩, ⟨3, rfl⟩, ⟨3, rfl⟩, by decide, by decide⟩

/-! ### Routing, time, groups, collectives -/

/-- A request packet for this node, of a known kind or not, with a stamp in µs. -/
def aPkt (kind stamp : Byte) (dst : Node) : Pkt := ⟨1#12, dst, kind, false, 0, 0, 7, 0#7, false, stamp, 1, 0#32, List.replicate 16 0#8⟩

/-- Route changes: none, or one fresh; the module joined, its upstream is port 3, which is up. -/
def routed (changed : Bool) (valid : Nat) : State :=
  let s := withFlds [(fRteStateJoined, 1), (fRteStateUpValid, valid), (fRteStateUpstream, 3), (fRtePortsRouted, 8), (fLnkPortStateState 3, stSealed)]
  { s with rte := { s.rte with changes := if changed then [(0, 1, [])] else [], updates := [(5, 7)], asked := some 100 } }
def anUpdate (pos : BitVec 6) (gen : BitVec 16) : RouteMsg := ⟨pos, gen, List.replicate 7 true, 2⟩

theorem witness_RoutingAndTime : knownKind 0xFF = false ∧ knownKind 0x10 = true
    ∧ decide (((routed false 1).usNow + 256 - (192#8 : Byte).toNat) % 256 < 64) = false
    ∧ decide (((routed false 1).usNow + 256 - (193#8 : Byte).toNat) % 256 < 64) = true ∧ (routed false 1).rte.changes = []
    ∧ (routed true 1).rte.changes.any (fun c => (((routed true 1).routeView.before c).nextHop (aPkt 0x10 0 1#12)).portOf
        != ((routed true 1).routeView.nextHop (aPkt 0x10 0 1#12)).portOf) = true
    ∧ (anUpdate 5#6 8#16).pos.toNat ≠ posOf (routed false 1).node ∧ lookupKey (routed false 1).rte.updates 5 = some 7
    ∧ newer16 8 7 = true ∧ newer16 7 7 = false ∧ newer16 (7 + 2 ^ 15) 7 = false ∧ (routed false 1).fld fRteStateJoined = 1
    ∧ (routed false 1).fld fRteStateUpValid = 1 ∧ (routed false 1).portUp 3 = true ∧ (routed false 0).fld fRteStateUpValid = 0
    ∧ (routed false 1).fld fRteStateUpstream = (3 : Port).val ∧ (routed false 1).rte.asked = some 100 := by decide

/-- This module, node 5 with port 2 sealed, among nodes that joined; a neighbour over that port; the root of a TIME_RSP. -/
def timed : State := { (withFlds [(fRteStateJoined, 1), (fLnkPortStateState 2, stSealed)]) with img := { up.img with cfg := some { aCfg with node := 5#12 } } }
def aPeer : TimePeer := ⟨2, 4#12, 3#16, 1#8, 1000#64⟩

theorem witness_time_source : timed.isRoot [7#12] = true ∧ timed.isRoot [1#12] = false ∧ timed.pickUpstream false [aPeer] = some aPeer
    ∧ timed.pickUpstream true [] = none ∧ (0#12 : Node).toNat < timed.node.toNat ∧ timed.node.toNat ≤ (5#12 : Node).toNat := by decide

/-- Context 0 leads or joins a group of its partition, which has two numbers; its rank map stands at address 0. -/
def grouping (limit : Nat) (l : List (Fld × Nat)) : State :=
  let s := act ([(fCtxQgroupsLimit 0, limit), (fGrpArg1Members, 2), (fGrpArg1FormMs, 1)] ++ l)
  let parts : List PartCfg := [⟨BitVec.allOnes 32, 0, 0, 128, 100, 2, 1, 1⟩]
  { s with fab := mapped.fab, mem := ⟨[(4, 1)], [], []⟩, img := { s.img with cfg := some { aCfg with parts := parts } } }
def aRankMap : List Byte := [0#8, 0#8, 0#8, 0#8, 1#8, 0#8, 0#8, 0#8]

theorem witness_GroupsForm : Taken (grouping 1 []) rGrpCmd ∧ (grouping 1 []).active 0 = true ∧ (grouping 1 []).partOf 0 = some 0
    ∧ (grouping 1 []).isOpen 0 = true ∧ (grouping 1 []).groupRange 0 = (0, 2)
    ∧ (List.range 2).find? (fun i => (grouping 1 [(fGrpGStateState 0, 2)]).fld (fGrpGStateState i) == 0) = some 1
    ∧ (List.range 2).find? (fun i => (grouping 1 [(fGrpGStateState 0, 2), (fGrpGStateState 1, 2)]).fld (fGrpGStateState i) == 0) = none
    ∧ (grouping 1 []).fld (fCtxQgroupsUse 0) + 1 ≤ (grouping 1 []).fld (fCtxQgroupsLimit 0)
    ∧ ¬ (grouping 0 []).fld (fCtxQgroupsUse 0) + 1 ≤ (grouping 0 []).fld (fCtxQgroupsLimit 0)
    ∧ ((grouping 1 []).gpaPieces 0 0 8 permRead).isSome = true ∧ ((grouping 1 []).readRun 0 0 8 FarReply.ok).2 = (0, aRankMap)
    ∧ ((mapEntries aRankMap 2).map Prod.fst).eraseDups.length = 2 ∧ (mapEntries aRankMap 2).head? = some ((grouping 1 []).node.toNat, 0)
    ∧ (∀ e ∈ (mapEntries aRankMap 2).drop 1, e.1 ∈ [1]) ∧ (∀ e ∈ (mapEntries aRankMap 2).drop 1, e.1 ∉ ([] : List Nat))
    ∧ ((grouping 1 []).readRun 0 (2 ^ 21) 8 FarReply.ok).2.1 ≠ 0
    ∧ (grouping 1 [(fGrpGStateState 0, 2)]).fld (fGrpGStateState 0) ≠ 0 ∧ (grouping 1 [(fGrpGStateState 0, 2)]).fld (fGrpGStatContext 0) = 0
    ∧ (grouping 1 []).commOf 0 = [] ∧ lookupKey (grouping 1 []).grp.inflight 0 = none
    ∧ (grouping 1 [(fGrpGStateState 0, 2), (fGrpGStateLeader 0, 1)]).fld (fGrpGStateLeader 0) = 1 := by
  (repeat' apply And.intro) <;> decide

/-- Number 0 forms, under key 0, with its place in the tree or before it. -/
def formingWith (t : List Tree) (f : Forming) : State :=
  let s := act [(fGrpGStateState 0, 1), (fGrpGStateLeader 0, ofBool f.leader), (fCtxQgroupsLimit 0, 1), (fCtxQgroupsUse 0, 1)]
  { s with grp := { s.grp with forming := [(0, f)], trees := t } }
def forming (t : List Tree) : State := formingWith t ⟨0, false, [], 10, [], [], []⟩
def aPlace : Tree := ⟨0, some 3, [], 0, some 0, some 0, false, 0⟩
def aSetup (step : SetupStep) (tag : BitVec 16) (reason : Fin 16) : SetupMsg := ⟨step, 0#22, 1#12, some 0, 2#13, 1#12, tag, some 3, [], 1, reason⟩

/-- At the leader: node 1 has joined, or its answer is awaited. -/
def leading (asked : List Nat) : Forming := ⟨2, true, [(0, 0), (1, 0)], 10, [⟨1#12, BitVec.allOnes 32, [], [], []⟩], [1], asked⟩

set_option maxRecDepth 20000 in
theorem witness_setup : (forming [aPlace]).treeOf 0 = some aPlace
    ∧ lookupKey (forming []).grp.forming 0 = some ⟨0, false, [], 10, [], [], []⟩ ∧ (forming []).memberFor 0 = some 0 ∧ (forming []).fld (fGrpGStateState 0) = 1
    ∧ (forming []).formingFor 0 0 = some 0 ∧ (forming []).fld (fCtxQgroupsUse 0) ≤ (forming []).fld (fCtxQgroupsLimit 0)
    ∧ (forming []).jobTag 0 = (aSetup .check 0 0).tag.toNat ∧ (forming []).jobTag 0 ≠ (aSetup .check 1 0).tag.toNat ∧ (forming []).formingFor 1 0 = none
    ∧ (forming []).tableRoom aPlace = true ∧ (forming []).fld (fGrpGStateLeader 0) = 0 ∧ (formingWith [] (leading [])).fld (fGrpGStateLeader 0) = 1
    ∧ (leading [1]).asked.contains (aSetup .answer 0 0).sender.toNat = true ∧ (leading [1]).asked.filter (· != 1) = []
    ∧ (leading [1, 2]).asked.filter (· != 1) ≠ [] ∧ (leading []).ready = true
    ∧ (formingWith [] (leading [])).treeEdges (leading []).views 0 (leading []).map = some [(1, 1)] := by
  (repeat' apply And.intro) <;> decide

/-- A tree table that is full. -/
theorem witness_table_full : (forming (List.replicate tableSize aPlace)).tableRoom aPlace = false := by
  have h : aPlace.onHub 1 = true := by decide
  show [1, 2].all _ = false
  simp only [List.all_cons, h, Bool.not_true, Bool.false_or, Bool.and_eq_false_iff]
  left
  show decide (((List.replicate tableSize aPlace).filter (fun u => u.onHub 1)).length < tableSize) = false
  simp [h]

/-- A leaf of a group, READY or BROKEN, with a descriptor; the same with a collective in flight. -/
def aLeaf : Tree := ⟨0, some 3, [], 0, some 0, some 0, true, 0⟩
def leaf (st : Nat) (e : List (Nat × Coll)) : State :=
  let s := act [(fGrpGStateState 0, st)]
  { s with grp := { s.grp with trees := [aLeaf], inflight := e }, que := { s.que with comm := [(0, [List.replicate 64 0#8])] } }
def aColl : Coll := ⟨1, false, 0#64, 1, 0#64, none, 0, [], some 0⟩

/-- A reduction context with a parent and two children, or at the root with three; the first input has come. -/
def reducer : Tree := ⟨0, some 3, [4, 5], 1, some 0, none, true, 0⟩
def theRoot : Tree := ⟨0, none, [4, 5, 6], 1, some 0, none, true, 0⟩
def sumWord : Word := 0x000000000800#64
def minWord : Word := 0x000000010800#64
def aSum (g : Word) : CollMsg := ⟨0, 0, none, 1#64, false, sumWord, 1, 0, 1, [], [], [], g, [], 0, false⟩
def treeAt (t : Tree) : State := { up with grp := { up.grp with trees := [t], gathers := [⟨0, 0, [aSum 0#64], []⟩] } }

/-- A whole input in one check flit, with seal `d` and digest `g`; one of a message's data flits; a control flit; words of a SUM, of a MIN. -/
def checkUnit (port : Port) (w : Word) (g d : Word) (void : Bool) : CollIn :=
  ⟨port, true, xContent 0 0 32 0 1 0 0 (checkBytes g d 0 1 void false), w, 1#32, 0#8, false⟩
def dataUnit : CollIn := ⟨4, true, xContent 0 0 0 0 1 1 0 [], 0#64, 1#32, 0#8, false⟩
def ctrlUnit (port : Port) (w : Word) (status : Nat) : CollIn := ⟨port, true, xContent 0 2 0 0 1 0 status [], w, 1#32, 0#8, false⟩

theorem witness_CollectivesRun : (leaf 2 []).commOf 0 = [List.replicate 64 0#8] ∧ lookupKey (leaf 2 []).grp.inflight 0 = none
    ∧ (leaf 2 []).fld (fGrpGStateState 0) = 2 ∧ (leaf 3 []).fld (fGrpGStateState 0) = 3 ∧ (CDesc.read (List.replicate 64 0#8)).wait = none
    ∧ (leaf 2 []).treeOf ((leaf 2 []).fld (fGrpGStateKey 0)) = some aLeaf ∧ lookupKey (leaf 2 [(0, aColl)]).grp.inflight 0 = some aColl
    ∧ aColl.verdict.isSome = true ∧ lookupKey (leaf 2 []).grp.early 0 = none ∧ (treeAt reducer).treeOf (unitKey dataUnit) = some reducer
    ∧ reducer.forwards = false ∧ aLeaf.forwards = false ∧ (treeAt reducer).lateColl reducer (unitSeq dataUnit) = false ∧ (treeAt reducer).lateColl { reducer with next := 1 } (unitSeq dataUnit) = true := by decide

/-- Units that complete no message, and some that do: the first of two inputs, inputs whose seal is void or agrees; one whose digest does not hold. -/
theorem witness_units : ((treeAt reducer).unitIn true dataUnit).2 = none ∧ ((treeAt reducer).unitIn false dataUnit).2 = none
    ∧ (∀ v, (((treeAt reducer).unitIn true (checkUnit 4 0#64 0#64 1#64 v)).2.map (fun m => offender [aSum 0#64, m])) = some (if v then some 1 else none))
    ∧ ((treeAt reducer).gathered 0 0).inputs.length + 1 = reducer.expects ∧ ((treeAt theRoot).gathered 0 0).inputs.length + 1 < theRoot.expects
    ∧ (((treeAt reducer).unitIn false (checkUnit 3 0#64 0#64 1#64 false)).2.map (fun m => ((treeAt reducer).hopCheck reducer m DigestObs.clean).2.2)) = some true
    ∧ (((treeAt reducer).unitIn false (checkUnit 3 sumWord 1#64 1#64 false)).2.map (fun m => ((treeAt reducer).hopCheck reducer m DigestObs.clean).2.2))
      = some false
    ∧ hasDigest sumWord = true ∧ hasVerdict minWord = true ∧ hasVerdict sumWord = false ∧ unitMark (ctrlUnit 4 minWord 0) ≠ pactMark
    ∧ (readCtrl true (ctrlUnit 4 minWord 6)).status = 6 ∧ (readCtrl true (ctrlUnit 4 minWord 0)).status ≠ 6
    ∧ reducer.children.contains 4 = true ∧ reducer.children.contains 3 = false ∧ (readCtrl false (ctrlUnit 3 minWord 0)).seq = aColl.seq := by
  (repeat' apply And.intro) <;> decide

/-- Digests that hold at once, at the second try, or not: the data or its digest was at fault. -/
theorem witness_digests : digestHolds (aSum 0#64) 0#64 [] 0#64 = true ∧ digestHolds (aSum 0#64) 0#64 [] 1#64 = false
    ∧ BitVec.ofNat 64 ((aSum 0#64).damage []).dataDigest = (aSum 0#64).digest ∧ BitVec.ofNat 64 ((aSum 1#64).damage []).dataDigest ≠ (aSum 1#64).digest
    ∧ digestHolds (aSum 1#64) 1#64 [] 0#64 = false ∧ hasDigest (aSum 0#64).w = true := by decide

/-- A module of no member that forwards a tree from port 4 to port 3. -/
def passer : Tree := ⟨0, some 3, [4], 1, some 0, none, true, 0⟩

theorem witness_CollectiveControl : (treeAt reducer).treeOf (unitKey dataUnit) = some reducer ∧ reducer.forwards = false ∧ unitMark dataUnit ≠ 0xB0
    ∧ (treeAt reducer).lateColl reducer (unitSeq dataUnit) = false ∧ (treeAt reducer).lateColl { reducer with next := 1 } (unitSeq dataUnit) = true
    ∧ (readCtrl true (ctrlUnit 4 sumWord 10)).status = 0x0A ∧ hasVerdict (readCtrl true (ctrlUnit 4 sumWord 10)).w = false
    ∧ (leaf 2 [(0, aColl)]).treeOf 0 = some aLeaf ∧ aLeaf.member = some 0 ∧ lookupKey (leaf 2 [(0, aColl)]).grp.inflight 0 = some aColl
    ∧ lookupKey (leaf 2 []).grp.inflight 0 = none ∧ (aSum 0#64).seq = (leaf 2 []).fld (fGrpGStatSeq 0) := by
  (repeat' apply And.intro) <;> decide

theorem witness_ForwardersPass : (treeAt passer).treeOf (unitKey dataUnit) = some passer ∧ passer.forwards = true
    ∧ passer.across (passer.edgeOn 4) = some 3 ∧ passer.across (passer.edgeOn 3) = some 4 ∧ (treeAt passer).lateColl passer (unitSeq dataUnit) = false
    ∧ ((treeAt passer).unitIn true dataUnit).2 = none ∧ ((treeAt passer).unitIn true (checkUnit 4 0#64 0#64 1#64 false)).2.isSome = true
    ∧ ((treeAt passer).unitIn false (checkUnit 3 0#64 0#64 1#64 false)).2.isSome = true := by
  (repeat' apply And.intro) <;> decide

/-- Lane 0 of hub 1 is suspect; the checker of lane 1 is retired. -/
def laneState : State := { up with grp := { up.grp with suspect := [2], checkers := [3] } }
theorem witness_lanes : laneState.grp.suspect.contains (2 + 4 * (1 - 1) + 0 % 4) = true ∧ laneState.grp.checkers.contains (2 + 4 * (1 - 1) + 1 % 4) = true
    ∧ laneState.grp.suspect.contains (2 + 4 * (1 - 1) + 2 % 4) = false ∧ laneState.grp.checkers.contains (2 + 4 * (1 - 1) + 2 % 4) = false := by decide

/-! ### Optical links -/

/-- Port 0 in a state and a phase, the rest of it `f`'s; every port is cabled; further fields. -/
def linked (st ph : Nat) (f : PortSt → PortSt) (l : List (Fld × Nat)) : State :=
  let s := withFlds ([(fLnkPortStateState 0, st), (fLnkPortStatePhase 0, ph)] ++ l)
  { s.modPort 0 f with img := { s.img with cfg := some { aCfg with cabling := List.replicate 32 (some (1#12, 0)) } } }

/-- Codewords of empty flits whose nibbles spell a check, and as they come on the lanes. -/
def spelling : Nat → Nat → List Codeword
  | 0, _ => []
  | n + 1, c => ⟨0#16, BitVec.ofNat 4 c, List.replicate 10 idleFlit⟩ :: spelling n (c / 16)

theorem spelled (n c : Nat) : nibbleCheck (spelling n c) = c % 16 ^ n := by
  induction n generalizing c with
  | zero => show 0 = c % 1; omega
  | succ n ih =>
    have e : nibbleCheck (spelling (n + 1) c) = nibbleCheck (spelling n (c / 16)) * 16 + c % 16 := by simp [nibbleCheck, spelling, List.foldl_append]
    rw [e, ih, Nat.pow_succ, Nat.mul_comm (16 ^ n), Nat.mod_mul]
    omega

/-- Their check does not depend on the nibbles. -/
theorem spelling_check (n c ctr : Nat) : blockCheck [] ctr (spelling n c) = blockCheck [] ctr (spelling n 0) := by
  have e (f : BitVec 16 → List (List Byte) → List Byte) (n c d : Nat) : (spelling n c).flatMap (fun x => f x.hdr x.slots) = (spelling n d).flatMap (fun x => f x.hdr x.slots) := by
    induction n generalizing c d with
    | zero => rfl
    | succ n ih => simp only [spelling, List.flatMap_cons, ih (c / 16) (d / 16)]
  simp only [blockCheck, if_true]
  rw [e (fun h _ => leBytes 2 h.toNat) n c 0, e (fun _ l => l.flatten) n c 0]

theorem spelling_decodes (n c : Nat) : ((spelling n c).map sendCodeword).map decodeCodeword = ((spelling n c).map (·, 0)).map some := by
  induction n generalizing c with
  | zero => rfl
  | succ n ih =>
    simp only [spelling, List.map_cons, ih]
    rw [decode_send _ (by simp) (by simp +contextual [idleFlit])]

theorem spelling_headers (c : Nat) (odd : Nat) (h : odd < 2) :
    agreed (headersAt ((((spelling 16 c).map (·, 0)).zipIdx.map (fun x : (Codeword × Nat) × Nat => (x.2, x.1.1)))) odd) = some (false, 0) := by
  have : odd = 0 ∨ odd = 1 := by omega
  rcases this with rfl | rfl <;> simp [spelling, headersAt, agreed, List.zipIdx]

theorem crc64_lt (l : List Byte) : crc64 l < 2 ^ 64 := by rw [crc64]; exact Nat.mod_lt _ (Nat.two_pow_pos 64)
theorem plainCheck_lt (ctr : Nat) (cws : List Codeword) : blockCheck [] ctr cws < 2 ^ 64 := by
  simp only [blockCheck, if_true]; exact crc64_lt _

theorem plain_ctr : ((linked 2 0 id []).portSt 0).rxCtr % 2 ^ 14 = 0 := by decide
theorem plain_key : ((linked 2 0 id []).portSt 0).rxKeyAt 0 = [] := by decide

theorem spelling_lt : blockCheck [] 0 (spelling 16 0) < 16 ^ 16 := by
  rw [show (16 : Nat) ^ 16 = 2 ^ 64 from by decide]; exact plainCheck_lt _ _
theorem spelling_firsts (c : Nat) : ((spelling 16 c).map (fun x : Codeword => (x, 0))).map (·.1) = spelling 16 c := by simp [Function.comp_def]

def arrived (c : Nat) : List (Codeword × Nat) := (spelling 16 c).map (·, 0)

/-- Blocks that arrive whole, and check or do not. -/
theorem witness_blocks :
    ((linked 2 0 id []).portSt 0).rxKeyAt 0 = [] ∧ (∀ c, (arrived c).length = 16 ∧ ((spelling 16 c).map sendCodeword).map decodeCodeword = (arrived c).map some
      ∧ agreed (headersAt ((arrived c).zipIdx.map (fun x : (Codeword × Nat) × Nat => (x.2, x.1.1))) 0) = some (false, ((linked 2 0 id []).portSt 0).rxCtr % 2 ^ 14)
      ∧ agreed (headersAt ((arrived c).zipIdx.map (fun x : (Codeword × Nat) × Nat => (x.2, x.1.1))) 1) = some (false, 0))
    ∧ (∃ c, nibbleCheck ((arrived c).map (·.1)) = blockCheck [] 0 ((arrived c).map (·.1))) ∧ ∃ c, nibbleCheck ((arrived c).map (·.1)) ≠ blockCheck [] 0 ((arrived c).map (·.1)) := by
  refine ⟨plain_key, fun c => ⟨by simp [arrived, spelling], spelling_decodes _ _, by rw [plain_ctr]; exact spelling_headers _ 0 (by decide),
    spelling_headers _ 1 (by decide)⟩, ?_⟩
  simp only [arrived, spelling_firsts, spelled, spelling_check]
  have b := spelling_lt
  generalize blockCheck [] 0 (spelling 16 0) = k at b
  refine ⟨⟨k, Nat.mod_eq_of_lt b⟩, ?_⟩
  by_cases h : k = 0
  · exact ⟨1, by rw [h]; decide⟩
  · exact ⟨0, by rw [Nat.zero_mod]; exact fun x => h x.symm⟩

/-- Symbols whose only syndrome is the last: a codeword that cannot be corrected. -/
def hopeless : List Nat := List.replicate 514 0 ++ [455, 969, 53, 965, 406, 564, 746, 215, 649, 322, 283, 500, 812, 317, 72, 200, 150, 687, 106, 163,
  67, 666, 130, 910, 904, 874, 203, 566, 796, 1010]

set_option maxRecDepth 4000 in
theorem hopeless_syndromes : syndromes hopeless = List.replicate 29 0 ++ [1] := by
  have e : ∀ j, hopeless.foldl (fun acc c => gfMul acc (gfExp j) ^^^ c) 0 = horner (gfExp j) 0 (hopeless.drop 514) := by
    intro j
    show horner (gfExp j) 0 (List.replicate 514 0 ++ hopeless.drop 514) = _
    rw [horner_append, horner_zeros]
  simp only [syndromes, e]
  decide +kernel

theorem one_inverse : gfInv 1 = 1 := by
  have h : ∀ n, gfPow 1 n = 1 := by
    intro n
    induction n with
    | zero => rfl
    | succ n ih => rw [gfPow, ih]; rfl
  exact h 1022

theorem hopeless_locator : (locator (List.replicate 29 0 ++ [1])).len = 30 := by
  have e : locator (List.replicate 29 0 ++ [1]) = bmStep (List.replicate 29 0 ++ [1]) ⟨[1], [1], 0, 30, 1⟩ 29 := by
    rw [locator, List.range_succ, List.foldl_append]
    have : (List.range 29).foldl (bmStep (List.replicate 29 0 ++ [1])) ⟨[1], [1], 0, 1, 1⟩ = ⟨[1], [1], 0, 30, 1⟩ := by decide +kernel
    rw [this]; rfl
  have d : (List.range (0 + 1)).foldl (fun acc i => acc ^^^ gfMul (([1] : List Nat).getD i 0) ((List.replicate 29 0 ++ [1]).getD (29 - i) 0)) 0 = 1 := by decide +kernel
  rw [e, bmStep]
  simp only [d]
  rfl

theorem hopeless_fails : decodeCodeword (BitVec.ofNat 5440 (packLevels (hopeless.flatMap symbolLevels))) = none := by
  have l : hopeless.length = 544 := by decide +kernel
  have b : ∀ c ∈ hopeless, c < 1024 := by decide +kernel
  rw [decodeCodeword, receivedSymbols_pack l b, rsDecode, hopeless_syndromes]
  have n : (List.replicate 29 0 ++ [1]).all (· == 0) = false := by decide
  simp only [n, hopeless_locator, Bool.false_eq_true, if_false]
  rfl

/-- One codeword of a block is lost. -/
theorem witness_lost : ∃ cws : List (BitVec 5440), cws.length = 16 ∧ ((cws.map decodeCodeword).filter Option.isNone).length = 1 := by
  refine ⟨BitVec.ofNat 5440 (packLevels (hopeless.flatMap symbolLevels)) :: (spelling 15 0).map sendCodeword, rfl, ?_⟩
  rw [List.map_cons, hopeless_fails, spelling_decodes]
  rfl

/-- Port 0 is up, its sixteen lanes in service; it resends block 3; a lane is failing; changes of lanes are under way. -/
def inService (n : Nat) (x : PortSt) : PortSt :=
  { x with lanes := List.range 16, rxLanes := List.range 16, txWidth := 16, rxWidth := 16, locked := List.range 16, resend := [3]
           retained := [⟨3, [], [], [], []⟩], misses := if n = 16 then (List.range 16).map (·, 2) else [(0, n)] }
def aSwitch (tx : Nat) (rx : Option Nat) : LaneSwitch := ⟨none, 4, 32, tx, rx, false, false⟩

theorem witness_LinkBlocks : (linked 2 0 id []).portUp 0 = true ∧ (linked 2 0 id []).keySpent 0 = false
    ∧ ((linked 2 0 id []).portSt 0).resend = [] ∧ ((linked 2 0 (inService 2) []).portSt 0).resend = [3]
    ∧ ((linked 2 0 (inService 2) []).portSt 0).retained.find? (fun b => b.ctr == 3) = some ⟨3, [], [], [], []⟩
    ∧ ((linked 2 0 id []).portSt 0).retained.length < 256 ∧ ((linked 2 0 id []).portSt 0).keyDue = false ∧ ((linked 2 0 id []).portSt 0).nakDue = false
    ∧ ((linked 2 0 id []).portSt 0).nakWait = false ∧ ((linked 2 0 id []).portSt 0).uncorr = []
    ∧ ((linked 2 0 (fun x => { x with nakDue := true, nakRun := 7 }) []).portSt 0).laneMet = false
    ∧ (linked 3 0 id []).portState 0 = 3 ∧ (linked 1 0 id []).portState 0 = 1 ∧ portHasLane 0 0 = true
    ∧ ((linked 2 0 (inService 2) []).portSt 0).hasLane 5 = true ∧ (12#5 : BitVec 5).toNat < ((linked 2 0 (inService 2) []).portSt 0).txWidth
    ∧ ((linked 2 0 (inService 2) []).portSt 0).txWidth ≤ (16#5 : BitVec 5).toNat
    ∧ ({ up with mgmt := { up.mgmt with linksDue := true } } : State).mgmt.linksDue = true := by decide
theorem witness_all_resent : 256 ≤ ((linked 2 0 (fun x => { x with retained := List.replicate 256 ⟨0, [], [], [], []⟩ }) []).portSt 0).retained.length := by
  show 256 ≤ (List.replicate 256 _).length; rw [List.length_replicate]
theorem witness_key_spent : (linked 3 0 (fun x => { x with keyBlocks := keyLimit }) []).keySpent 0 = true := by decide

/-- Each direction of a swap waits, or has its block behind it. -/
theorem witness_swaps : (∀ tx rx, (aSwitch (if tx then 0 else 9) (if rx then some 0 else none)).txReady { PortSt.fresh with txCtr := 1, rxCtr := 1 } = tx
      ∧ (aSwitch (if tx then 0 else 9) (if rx then some 0 else none)).rxReady { PortSt.fresh with txCtr := 1, rxCtr := 1 } = rx)
    ∧ (aSwitch 0 none).narrow = none ∧ (aSwitch 0 none).lane < 32 := by decide

/-- A missed comma: the lane's third, with others good or with every lane at its second; of a lane that no direction uses. -/
def aMiss (lane : Fin 34) : CommaObs := ⟨lane, 0#80, 0⟩
def missed (n : Nat) : State := (linked 2 0 (inService n) []).modPort 0 (fun y => y.comma (aMiss 0))
theorem witness_comma : ((missed 2).portSt 0).locked.contains 0 = false ∧ ((missed 1).portSt 0).locked.contains 0 = true
    ∧ ((linked 2 0 (inService 2) []).portSt 0).locked.contains 0 = true ∧ ((missed 2).lanesInUse 0).contains 0 = true
    ∧ ((missed 2).lanesInUse 0).all (fun l => decide (2 ≤ (lookupKey ((missed 2).portSt 0).misses l).getD 0)) = false
    ∧ ((missed 16).lanesInUse 0).all (fun l => decide (2 ≤ (lookupKey ((missed 16).portSt 0).misses l).getD 0)) = true
    ∧ ((linked 2 0 (inService 2) []).lanesInUse 0).contains 32 = false ∧ commaHit (aMiss 0).levels = false := by decide

/-- An express flit that holds on its raw bits; a codeword that carries none; one that is lost. -/
def expressCw : Codeword := ⟨0x8000#16, 0#4, expressFlit [] 0 (List.replicate 44 0#8) :: List.replicate 9 idleFlit⟩
theorem witness_express : (linked 3 0 id []).portState 0 = 3 ∧ ((linked 3 0 id []).portSt 0).rxKeyAt 0 = []
    ∧ rawCodeword (sendCodeword expressCw) = expressCw ∧ expressCw.ex = true ∧ nearCtr 16 0 (field (expressCw.slots.headD []) 44 2) = 0
    ∧ expressOk [] 0 (expressCw.slots.headD []) = true
    ∧ (∀ c : Codeword, (c = rawCodeword (sendCodeword ⟨0#16, 0#4, List.replicate 10 idleFlit⟩) ∨
        decodeCodeword (sendCodeword ⟨0#16, 0#4, List.replicate 10 idleFlit⟩) = some (c, 0)) → c.ex = false) := by
  have h := express_holds 0 (List.replicate 44 0#8) rfl
  have hl : ∀ b ∈ expressCw.slots, b.length = 64 := by
    intro b hb
    rcases List.mem_cons.1 hb with rfl | hb
    · exact h.2.1
    · rw [List.eq_of_mem_replicate hb]; rfl
  have z : ∀ b ∈ (⟨0#16, 0#4, List.replicate 10 idleFlit⟩ : Codeword).slots, b.length = 64 := by
    intro b hb; rw [List.eq_of_mem_replicate hb]; rfl
  refine ⟨by decide, rfl, raw_send _ rfl hl, by decide, ?_, h.1, ?_⟩
  · show nearCtr 16 0 (field (expressFlit [] 0 (List.replicate 44 0#8)) 44 2) = 0
    rw [h.2.2]; rfl
  · rintro c (rfl | e)
    · rw [raw_send _ rfl z]; rfl
    · rw [decode_send _ rfl z] at e
      cases e; rfl

/-- Port 0 trains: requests and answers are numbered; its lanes are in, or all but the last. -/
def training (ph n : Nat) : State :=
  linked 1 ph (fun x => { x with tapNum := [(0, 4)], reqNum := [(0, 5)], accepted := (List.range n) ++ [32, 33], locked := List.range n }) []

set_option maxRecDepth 8000 in
theorem witness_LinkTraining : (training 2 16).portState 0 = 1 ∧ lookupKey ((training 2 16).portSt 0).tapNum 0 = some 4
    ∧ lookupKey ((training 2 16).portSt 0).tapNum 1 ≠ some 4 ∧ lookupKey ((training 2 16).portSt 0).reqNum 0 = some 5
    ∧ (training 2 16).fld (fLnkPortStatePhase 0) = 2 ∧ (training 2 16).laneBad 0 3 = false ∧ ((training 2 16).portSt 0).done = false
    ∧ (training 2 16).allLanesIn 0 (·.accepted) = true ∧ (training 2 15).allLanesIn 0 (·.accepted) = false
    ∧ (training 3 0).fld (fLnkPortStatePhase 0) = 3 ∧ ((training 3 0).portSt 0).token = 0 ∧ (5600#16 : BitVec 16).toNat ≤ 5600
    ∧ (training 4 0).pastEqualize (siblingOf 0) = true ∧ widthOf ((training 4 0).workingList 0).length = 16 ∧ (16#5 : BitVec 5).toNat = 16
    ∧ (0#34 : BitVec 34).toNat = (training 4 0).badMap (engineOf 0) ∧ (training 4 0).fld (fLnkPortStateWidthMin 0) ≤ 16 ∧ 16 < (17#5 : BitVec 5).toNat
    ∧ (linked 1 4 id [(fLnkPortStateWidthMin 0, 17)]).fld (fLnkPortStateWidthMin 0) = 17
    ∧ (((training 1 3).portSt 0).locked.filter (dataLanes 0).contains).length < 4 ∧ 4 ≤ (((training 1 4).portSt 0).locked.filter (dataLanes 0).contains).length
    ∧ (linked 5 0 id []).portState 0 = 5 ∧ (linked 5 0 id []).mayTrain 0 = true ∧ (linked 2 0 id []).spareIdle 0 32 = true
    ∧ (linked 2 0 id []).spareIdle 0 33 = true ∧ (linked 2 0 id []).quiesced = true ∧ (linked 2 0 id [(fCtxPartState 0, 1)]).quiesced = false
    ∧ (linked 0 0 id []).portState 0 = 0 ∧ (linked 2 0 id [(fLnkCtlBusy, 1)]).fld fLnkCtlBusy = 1 := by
  (repeat' apply And.intro) <;> decide
theorem witness_retrain : Taken (linked 2 0 id []) rLnkCtl ∧ (linked 2 0 id []).fld fLnkCtlBusy = 0 ∧ (linked 2 0 id []).mayTrain 0 = true
    ∧ ({ (linked 2 0 id []) with lnk := { (linked 2 0 id []).lnk with waiting := some 0 } } : State).lnk.waiting = some 0
    ∧ bitsOf (0x6000000000000000#64 : Word).toNat 63 60 = 6 := by
  (repeat' apply And.intro) <;> decide

/-- Port 0 attests, with the exchange where `f` puts it. -/
def attesting (st : Nat) (f : Attest → Attest) (l : List (Fld × Nat)) : State :=
  linked st 0 (fun x => { x with att := f { x.att with begun := true } }) ([(fLnkPortCableSeenNode 0, 1), (fSecOwnerKeyId, 9)] ++ l)

/-- Two certificates of two bytes; the first of them. -/
def twoCerts : List Byte := [0x30#8, 0#8, 0x30#8, 0#8]

theorem witness_LinksAttest : (attesting 2 id []).portState 0 = 2 ∧ ((attesting 2 id []).portSt 0).att.helloIn = false
    ∧ (1#12 : Node).toNat = (attesting 2 id []).fld (fLnkPortCableSeenNode 0) ∧ (0 : Port).val = (attesting 2 id []).fld (fLnkPortCableSeenPort 0)
    ∧ ((attesting 2 id []).portSt 0).att.begun = true ∧ ((linked 2 0 id []).portSt 0).att.begun = false ∧ (linked 2 0 id []).stepDone 9 = false
    ∧ (attesting 2 id []).attesting 0 = true ∧ certWhole twoCerts = true ∧ certWhole (twoCerts.take 2) = false
    ∧ ((attesting 2 (fun a => { a with helloIn := true }) []).portSt 0).att.certOk = false
    ∧ ((attesting 2 (fun a => { a with certOk := true, shares := 1 }) []).portSt 0).att.shares ||| 2 ^ 1 = 3
    ∧ ((attesting 2 (fun a => { a with certOk := true, shares := 1 }) []).portSt 0).att.shares ||| 2 ^ 0 ≠ 3
    ∧ ((attesting 2 (fun a => { a with shares := 3, proofs := 2 }) []).portSt 0).att.proofs ||| 2 ^ 0 = 3
    ∧ ((attesting 2 (fun a => { a with finishOut := true }) []).portSt 0).att.finishOut = true
    ∧ ((attesting 2 (fun a => { a with finishOut := true }) []).portSt 0).att.finishIn = false
    ∧ ((attesting 2 (fun a => { a with txNamed := some 7, rxNamed := some 8 }) []).portSt 0).att.txNamed = some 7 ∧ 7 % 2 ^ 14 = (7#14 : BitVec 14).toNat
    ∧ ((attesting 2 (fun a => { a with txNamed := some 7, rxNamed := some 8 }) []).portSt 0).att.rxNamed.isSome = true
    ∧ ((attesting 2 (fun a => { a with txNamed := some 7, rxNamed := some 8 }) []).portSt 0).txCtr < 7
    ∧ ((attesting 2 (fun a => { a with txNamed := some 0, rxSealed := true }) []).portSt 0).att.rxNamed = none
    ∧ 0 ≤ ((attesting 2 (fun a => { a with txNamed := some 0, rxSealed := true }) []).portSt 0).txCtr
    ∧ (attesting 3 id []).portState 0 = 3 ∧ (attesting 3 id []).keySpent 0 = false ∧ (attesting 3 id []).lowerNode 0 = true
    ∧ (attesting 3 id [(fLnkPortCableSeenNode 0, 0)]).lowerNode 0 = false
    ∧ ((attesting 3 (fun a => { a with rekey := true, rekeyShares := 1 }) []).portSt 0).att.rekeyShares ||| 2 ^ 1 = 3 := by
  (repeat' apply And.intro) <;> decide

/-- A NAK goes with a block though it is the eighth: a lane waits for its change. A key change is due. A credit is this port's, or of a tree that
passes through a module of no members. An express flit that is older than the last. -/
theorem witness_block_cases : ((linked 2 0 (fun x => { x with nakDue := true, nakRun := 7, switches := [aSwitch 0 none] }) []).portSt 0).laneWaits = true
    ∧ ((linked 2 0 (fun x => { x with nakDue := true, nakRun := 7 }) []).portSt 0).laneWaits = false
    ∧ ((linked 2 0 (fun x => { x with att := { x.att with txNamed := some 0 } }) []).portSt 0).keyDue = true
    ∧ (linked 2 0 id []).grp.trees.find? (fun g => g.key == (5#22 : BitVec 22).toNat) = none
    ∧ (treeAt passer).grp.trees.find? (fun g => g.key == (0#22 : BitVec 22).toNat) = some passer ∧ passer.across (passer.edgeOn (4 : Port)) = some 3
    ∧ 2 ^ 15 ≤ (field (expressFlit [] 0 (List.replicate 44 0#8)) 44 2 + 2 ^ 16 - 1 % 2 ^ 16) % 2 ^ 16
    ∧ ¬ 2 ^ 15 ≤ (field (expressFlit [] 0 (List.replicate 44 0#8)) 44 2 + 2 ^ 16 - 0 % 2 ^ 16) % 2 ^ 16 := by
  have h : field (expressFlit [] 0 (List.replicate 44 0#8)) 44 2 = 0 := by
    have := (express_holds 0 (List.replicate 44 0#8) rfl).2.2
    rw [this]; rfl
  rw [h]
  refine ⟨by decide, by decide, by decide, by decide, by decide, by decide, by decide, by decide⟩

/-- WIDTH at a port that is compared with the plan anew, and fits it or not. -/
def retrained (node : Nat) : State :=
  linked 1 4 (fun x => { x with identIn := true }) [(fLnkPortStateWidthMin 0, 17), (fBringStateDone, 2 ^ 8 - 1), (fLnkPortCableSeenNode 0, node)]
theorem witness_width_after_cabling : (retrained 1).stepDone 8 = true ∧ (linked 1 4 id []).stepDone 8 = false
    ∧ (retrained 1).fld (fLnkPortStateWidthMin 0) = 17 ∧ ((retrained 1).checkCable 0).portState 0 = 1 ∧ ((retrained 9).checkCable 0).portState 0 ≠ 1 := by
  (repeat' apply And.intro) <;> decide

theorem witness_attest_turns : ((attesting 2 (fun a => { a with refused := true }) []).portSt 0).att.refused = true
    ∧ ((attesting 2 id []).portSt 0).att.refused = false
    ∧ ((attesting 2 (fun a => { a with helloIn := true }) []).portSt 0).att.helloIn = true
    ∧ (attesting 2 (fun a => { a with helloIn := true }) []).attesting 0 = true
    ∧ (attesting 2 id []).awaitsSwitch 0 false = false ∧ (attesting 2 id []).awaitsSwitch 0 true = false
    ∧ (attesting 2 (fun a => { a with finishOut := true, finishIn := true }) []).awaitsSwitch 0 false = true
    ∧ (linked 3 0 (fun x => { x with rxNext := [1#8] }) []).awaitsSwitch 0 true = true := by decide

/-! ### Power, cooling, errors, resets -/

/-- Feed A (and B) in a stage's state, valid or not; the rails are up where `n` says that POWER is done. -/
def fed (mode a b n : Nat) (va vb : Option Nat) : State :=
  let s := withFlds [(fPwrFeedMode, mode), (fPwrFeedAState, a), (fPwrFeedBState, b), (fPwrFeedAMate, 1), (fBringStateDone, n)]
  { s with pwr := { s.pwr with validA := va, validB := vb } }

theorem witness_FeedsAndRails : (384#10 : BitVec 10).toNat < 385 ∧ 615 < (616#10 : BitVec 10).toNat ∧ 385 ≤ (385#10 : BitVec 10).toNat ∧ (600#10 : BitVec 10).toNat ≤ 600
    ∧ (fed 1 0 0 0 none none).fld (feedMateF .A) = 1 ∧ (fed 1 0 0 0 none none).feedValidAt .A = none ∧ (fed 1 0 0 0 none none).fld (feedStateF .A) ≠ fsFault
    ∧ (fed 1 fsActive fsCold 3 (some 0) (some 0)).fld (feedStateF .A) = fsActive ∧ (fed 1 fsActive fsCold 3 (some 0) (some 0)).railsUp = true
    ∧ (fed 1 fsActive fsCold 3 (some 0) (some 0)).fld (feedStateF .B) = fsCold ∧ ((fed 1 fsActive fsCold 3 (some 0) (some 0)).feedValidAt .B).isSome = true
    ∧ (fed 1 fsActive fsCold 3 (some 0) (some 0)).drawing = true ∧ (fed 1 0 0 0 (some 0) none).drawing = false
    ∧ ((fed 1 fsActive fsOff 3 (some 0) none).feedValidAt .B).isSome = false
    ∧ (fed 1 fsPrecharge fsPrecharge 3 (some 0) (some 0)).fld (feedStateF .A) ≠ fsActive
    ∧ (fed 0 fsActive fsActive 3 (some 0) (some 0)).fld fPwrFeedMode = 0 ∧ (fed 0 fsPrecharge fsActive 3 (some 0) (some 0)).fld (feedStateF .A) = fsPrecharge
    ∧ (fed 1 fsPrecharge fsOff 3 (some 0) none).fld fPwrFeedPrimary = feedNum .A ∧ (fed 0 fsPrecharge fsOff 0 (some 0) none).railsUp = false
    ∧ ((fed 1 fsCold fsActive 3 (some 0) (some 0)).setFld fPwrFeedPrimary 1).fld fPwrFeedPrimary = feedNum .B
    ∧ ({ (fed 0 fsPrecharge fsActive 3 (some 0) (some 0)) with pwr := { (fed 0 0 0 3 (some 0) (some 0)).pwr with charged := [0] } } : State).pwr.charged.contains (feedNum .A) = true
    ∧ (withFlds [(fPwrRailPhasesOk 0, 1)]).fld (fPwrRailPhasesOk 0) ≠ 0 ∧ up.pwr.droops.contains 0 = false := by
  (repeat' apply And.intro) <;> decide
theorem witness_rail_samples : 120 * 100 ≤ 120 * 100 ∧ (withFlds [(fPwrRailLimit 0, 100)]).fld (fPwrRailLimit 0) = 100
    ∧ (lookupKey up.pwr.rails 0).getD 0 = 0 ∧ 119 * 100 < 120 * 100 ∧ 89 * 100 < 90 * 100 ∧ up.lnk.off.contains 0 = false
    ∧ (∃ n ∈ ({ up with pwr := { up.pwr with droops := [8] } } : State).pwr.droops, n / 8 = 1) := by decide

/-- Partition 0 is bound to the pact of group 5, which this module sends up its tree; CLOCKS is done. -/
def pacting (enable : Nat) (t : List Tree) : State :=
  let s := act [(fPwrPartEnable 0, enable), (fPwrPartPactState 0, paActive), (fPwrPartGroup 0, 5), (fGrpGStateKey 5, 77), (fBringStateDone, 7), (fPwrPartDraw 0, 1900), (fPwrPartBudget 0, 1900), (fPwrPartCeiling 0, 2000)]
  { s with grp := { s.grp with trees := t } }

/-- The group's tree, in which this module is a leaf; a pact's flit of epoch 0 on port 3. -/
def pactLeaf : Tree := ⟨77, some 3, [], 0, none, some 5, true, 0⟩
def pactUnit (code : Nat) : CollIn := ⟨3, true, pactFlit 77 0#64 1 code, 0#64, 0#32, 0#8, false⟩

set_option maxRecDepth 8000 in
theorem witness_PowerControl : (pacting 1 []).stepDone 3 = true ∧ (pacting 1 []).pwr.urgent.contains 0 = false
    ∧ (10#16 : BitVec 16).toNat ≤ (withFlds [(fPwrInputCap, 10)]).fld fPwrInputCap ∧ (withFlds [(fPwrInputCap, 10)]).fld fPwrInputCap < (11#16 : BitVec 16).toNat
    ∧ (pacting 1 []).railsUp = true ∧ up.pwr.capThrottle = [] ∧ (pacting 0 []).pactBound 0 = false ∧ (pacting 1 []).pactBound 0 = true
    ∧ (pacting 1 []).pactGroups = [5] ∧ (pacting 0 []).pactGroups = [] ∧ (pacting 1 [pactLeaf]).treeOf 77 = some pactLeaf
    ∧ (pacting 1 []).treeOf ((pacting 1 []).fld (fGrpGStateKey 5)) = none ∧ (pacting 1 [pactLeaf]).pwr.offers.find? (fun y => y.key == 77 && y.epoch == 0#64) = none
    ∧ pactCode (pactUnit 45) = 45 ∧ pactCode (pactUnit 44) = 44 ∧ unitKey (pactUnit 44) = 77 ∧ pactEpoch (pactUnit 44) = 0#64
    ∧ pactLeaf.children.contains (pactUnit 44).port.val = false ∧ ({ pactLeaf with children := [3] } : Tree).children.contains (pactUnit 44).port.val = true
    ∧ (pacting 1 []).fabTime ≤ 0 * 1000000 + 120000
    ∧ 0 * 1000000 + 120000 < ({ up with time := 120001 } : State).fabTime ∧ (withFlds [(fPwrRackNotice, 1)]).fld fPwrRackNotice = 1
    ∧ up.heldOff = false ∧ ({ up with pwr := { up.pwr with holdLeak := true } } : State).heldOff = true ∧ 0 ∈ (pacting 1 []).diesOf 0 := by
  (repeat' apply And.intro) <;> decide
set_option maxRecDepth 8000 in
theorem witness_power_writes : Taken (pacting 0 []) (rPwrPart 0) ∧ Taken (withFlds [(fPwrRackNotice, 1)]) rPwrHost
    ∧ (pacting 0 []).clampBudget 0 0 < (pacting 0 []).fld (fPwrPartBudget 0) ∧ (pacting 0 []).clampBudget 0 0 < (pacting 0 []).fld (fPwrPartDraw 0)
    ∧ (pacting 0 []).fld (fPwrPartBudget 0) ≤ (pacting 0 []).clampBudget 0 1900 :=
  ⟨⟨by decide, by decide⟩, ⟨by decide, by decide⟩, by decide, by decide, by decide⟩

/-- Cluster 0 has an active core and a spare core, 0 and 16. -/
def spared : State := (up.setCoreState 0 0).setCoreState 16 1
def hot (n : Nat) : DiodeObs := ⟨0, 16 * 115, 16 * 115 - n⟩
def leaking (l : List Nat) (due : Bool) : State := { up with pwr := { up.pwr with leak := l, leakDue := due } }

/-- An inlet, a flow and a die's limit that warn; coolant sensors that agree with the model, or fail. -/
def warned (l : List (Fld × Nat)) : State := { (withFlds l) with img := { up.img with cfg := some aCfg } }

set_option maxRecDepth 8000 in
theorem witness_CoolingRules : ((List.replicate 17 (0 : Int)).length < 18) ∧ 18 ≤ (List.replicate 18 (0 : Int)).length
    ∧ up.riddlePair 0 (List.replicate 18 0) = none
    ∧ (spared.riddlePair 0 (16 * 50 :: List.replicate 17 0)).isSome = true
    ∧ (([hot 0].foldl State.diodeOne up).plausible [hot 0]).find? (fun y => decide (16 * 115 ≤ y.reading)) = some (hot 0)
    ∧ ([hot 0].foldl State.diodeOne up).pwr.holdThermal = false ∧ up.plausible ([] : List DiodeObs) = [] ∧ (pacting 1 []).stepDone 3 = true
    ∧ up.implausible (hot (16 * 15)) = false ∧ up.implausible (hot (16 * 15 + 1)) = true ∧ up.diodeFailed 0 = false
    ∧ (lookupKey ({ up with pwr := { up.pwr with diodeRun := [(0, 9)] } } : State).pwr.diodeRun 0).getD 0 = 9
    ∧ up.fld fThmCoolInletFailed = 0 ∧ up.fld fThmCoolOutletFailed = 0
    ∧ coolBad (16 * 80) (16 * 80) = false ∧ coolBad (16 * 80 + 1) (16 * 80) = true ∧ coolBad (-1) 0 = true
    ∧ (warned [(fThmCoolInlet, 1), (fBringStateDone, 3)]).coolHolds .inlet = true ∧ (warned [(fThmCoolInlet, 1), (fBringStateDone, 3)]).stepDone 2 = true
    ∧ (warned [(fThmCoolInlet, 1)]).stepDone 2 = false ∧ (warned []).coolHolds .inlet = false
    ∧ ({ up with mgmt := { up.mgmt with active := [(7, 578)] } } : State).warned 7 = true ∧ repeats 7 = true ∧ up.warned 7 = false
    ∧ (leaking [0, lkWet, lkWet] false).pwr.leak = [0, leakLevel 59 false, leakLevel 59 false] ∧ lkDry ≠ leakLevel 59 false
    ∧ (leaking [] true).pwr.leakDue = true := by
  (repeat' apply And.intro) <;> decide

/-- A second of repeats, with so many more; the error ring enabled with a record; the lees of partition 0. -/
def anErr : ErrRec := ⟨0, 1, 0#64, false, 0x0302, 0, false, false, false, 2, 5, 0, 0#12, none, none, 0, []⟩
def erring (n enable : Nat) : State :=
  let s := act [(fErrRingCfgEnable, enable), (fErrRingStateProducer, 1), (fLnkPortStateState 0, 3), (fErrCtlMode, 1), (fErrCtlDomain, 7), (fMgtLinkUp, 1)]
  { s with fab := mapped.fab, err := { s.err with window := [⟨anErr, n⟩], lees := [⟨0, 0, 1, 0#64, [(0, 64, none)]⟩], waves := [(3#12, 9)] } }
def sameErr (w : Summary) : Bool := w.record.code == 0x0302 && w.record.kind == 5 && w.record.unit == 2

theorem witness_ErrorReports : (erring 0 1).err.window.find? sameErr = some ⟨anErr, 0⟩ ∧ (erring 3 1).err.window.find? sameErr = some ⟨anErr, 3⟩
    ∧ Taken (erring 0 0) rErrRingCfg ∧ (erring 0 0).fld fErrRingCfgEnable = 0 ∧ (erring 0 0).fld fErrRingBaseBase * 32 % (64 * 2 ^ 12) = 0
    ∧ (erring 0 1).fld fErrRingCfgEnable = 1 ∧ Taken (erring 0 1) rErrRingState
    ∧ (1 + 2 ^ 24 - (erring 0 1).fld fErrRingStateHead) % 2 ^ 24 ≤ ((erring 0 1).fld fErrRingStateProducer + 2 ^ 24 - (erring 0 1).fld fErrRingStateHead) % 2 ^ 24
    ∧ ¬ (2 + 2 ^ 24 - (erring 0 1).fld fErrRingStateHead) % 2 ^ 24 ≤ ((erring 0 1).fld fErrRingStateProducer + 2 ^ 24 - (erring 0 1).fld fErrRingStateHead) % 2 ^ 24
    ∧ (erring 0 1).fld fMgtLinkUp = 1 ∧ 2 ≤ (erring 0 1).fld fBringStateAux ∧ Taken (erring 0 1) rErrCtl ∧ (erring 0 1).portState 0 = 3
    ∧ (erring 0 1).err.waves.contains (3#12, 9) = true ∧ (erring 0 1).err.waves.contains (3#12, 8) = false
    ∧ (erring 0 1).fld fErrCtlMode ≠ 0 ∧ (erring 0 1).fld fErrCtlDomain = (7#16 : BitVec 16).toNat ∧ Taken (erring 0 1) rErrLeescmd
    ∧ (erring 0 1).active 0 = true ∧ ((erring 0 1).err.lees.find? (fun l => l.part == 0)).isSome = true ∧ (erring 0 1).err.lees.find? (fun l => l.part == 1) = none
    ∧ ((erring 0 1).gpaPieces 0 0 64 permWrite).isSome = true ∧ up.active 0 = false := by
  (repeat' apply And.intro) <;> decide

/-- PERST_N low; a staged bundle. -/
def perst : State := { State.reset with pins := { State.reset.pins with perst := true } }
def stagedFw : State := { State.reset with flash := { State.reset.flash with staged := some ⟨⟨2, 1, []⟩, 3, false, false⟩ } }

theorem witness_ResetsStart : State.reset.pins.vaux = true ∧ perst.pins.perst = true ∧ perst.fld fBringStateAux = 0 ∧ State.reset.fld fBringStateAux < 2
    ∧ State.reset.pins.perst = false ∧ State.reset.activates = none ∧ stagedFw.activates = some ⟨⟨2, 1, []⟩, 3, false, false⟩
    ∧ State.reset.pwr.validA = none ∧ State.reset.pwr.validB = none ∧ State.reset.railsUp = false
    ∧ (maskParts 1).any (fun p => up.fld (fCtxPartState p) == 0 || up.fld (fCtxPartState p) == 3) = true
    ∧ (maskParts 1).any (fun p => (act []).fld (fCtxPartState p) == 0 || (act []).fld (fCtxPartState p) == 3) = false
    ∧ (maskParts 1).all (fun p => up.bit (fRstPartHeld p)) = false ∧ (maskParts 1).all (fun p => (withFlds [(fRstPartHeld 0, 1)]).bit (fRstPartHeld p)) = true := by decide
theorem witness_reset_command : Taken up rRstCtl ∧ Taken auxRuns rRstCtl := ⟨⟨by decide, by decide⟩, ⟨by decide, by decide⟩⟩

theorem witness_TestRequests : Taken up rTstReq ∧ up.fld fTstReqBusy = 0 ∧ up.fld fTstReqWaiting = 0
    ∧ ((List.range 18).map (0 * 18 + ·)).filter (fun p => decide (spared.coreState p ≤ 1)) ≠ [] ∧ up.quiesced = true
    ∧ (act []).tstNeeds 8 = false ∧ (withFlds [(fTstReqWaiting, 1), (fTstReqBusy, 1), (fTstReqOp, 8)]).fld fTstReqOp = 8
    ∧ (withFlds [(fTstReqWaiting, 1), (fTstReqBusy, 1), (fTstReqOp, 10)]).tstNeeds 10 = true
    ∧ Taken (withFlds [(fTstReqWaiting, 1)]) rTstReq ∧ (up.setInterleave.train []).2 = true ∧ (up.setInterleave.train [⟨0, 1#8, 1⟩]).2 = false := by
  (repeat' apply And.intro) <;> decide
set_option maxRecDepth 8000 in
theorem witness_test_needs : up.tstNeeds 8 = true ∧ up.tstNeeds 9 = true := by decide

/-- The supervisor's cores in their states; one resynchronises, one restores. -/
def supervised (a b c : Nat) : State :=
  let s := withFlds [(fSupStateCore0, a), (fSupStateCore1, b), (fSupStateCore2, c)]
  { s with sup := { s.sup with resync := [1], restoring := some (2, 0) } }

theorem witness_SupervisorCores : (supervised 0 0 0).supUp = true ∧ (supervised 0 0 0).fld (supF 0) = 0 ∧ ((supervised 0 0 0).supLose 0).supIn 0 = [1, 2]
    ∧ ((supervised 0 1 1).supLose 0).supIn 0 = [] ∧ ((supervised 0 1 1).supLose 0).supIn 1 = [1, 2] ∧ ((supervised 0 3 3).supLose 0).supIn 1 = []
    ∧ (supervised 0 0 0).fld fSupStateMode = 0 ∧ ((supervised 0 0 0).supIn 0).length = 3 ∧ (supervised 0 0 1).supIn 0 = [0, 1]
    ∧ (supervised 0 2 1).sup.resync.contains 1 = true ∧ (supervised 0 2 1).sup.restoring = some (2, 0) := by decide

/-- VAUX is lost; a feed's COLD stage takes over before its sibling was ACTIVE; engines that draw more than 20 A. -/
def dark : State := { up with pins := { up.pins with vaux := false } }
theorem witness_feed_cases : dark.pins.vaux = false ∧ (fed 1 fsPrecharge fsCold 3 (some 0) (some 0)).fld (feedStateF .A) ≠ fsActive
    ∧ (fed 1 fsPrecharge fsCold 3 (some 0) (some 0)).fld (feedStateF .B) = fsCold ∧ (fed 1 fsPrecharge fsCold 3 (some 0) (some 0)).fld fPwrFeedPrimary = feedNum .A
    ∧ (fed 1 fsPrecharge fsCold 3 (some 0) (some 0)).drawing = true ∧ (∀ e < 16, 20 < ([] : List Nat).getD e 0 → e ∈ up.lnk.off)
    ∧ 20 < [0, 21].getD 1 0 ∧ (∀ g < 16, g ≠ 1 → [0, 21].getD g 0 ≤ 20) := by
  (repeat' apply And.intro) <;> decide

set_option maxRecDepth 8000 in
/-- A die that a pact holds below the 800 MHz that any can sustain, or not; partition 0's dies are bound already, to another group. -/
theorem witness_pact_cases : ({ up with pwr := { up.pwr with pactHeld := [0] } } : State).pwr.pactHeld.contains 0 = true ∧ up.pwr.pactHeld.contains 0 = false
    ∧ ({ up with pwr := { up.pwr with pactHeld := [0] } } : State).fld (fPwrDieFjob 0) < 800
    ∧ (pacting 1 []).fld (fPwrPartGroup 0) ≠ 6 ∧ (pacting 1 []).pactBound 0 = true ∧ 0 ∈ (pacting 1 []).diesOf 0
    ∧ pactLeaf.forwards = false ∧ ({ pactLeaf with children := [4], member := none } : Tree).forwards = true
    ∧ ({ pactLeaf with children := [4], member := none } : Tree).across (({ pactLeaf with children := [4], member := none } : Tree).edgeOn 4) = some 3
    ∧ pactLeaf.ports.contains (pactUnit 44).port.val = true := by
  (repeat' apply And.intro) <;> decide

/-- RST.CTL runs a reset; banks that hold firmware or none; a bundle that waits for no power cycle. -/
def banked (a b : FwBank) : State := { State.reset with flash := { State.reset.flash with banks := [a, b] } }
theorem witness_banks : (banked ⟨1, 1, []⟩ ⟨1, 1, []⟩).flash.bank 0 ≠ FwBank.blank ∧ (banked FwBank.blank ⟨1, 1, []⟩).flash.bank 0 = FwBank.blank
    ∧ (banked ⟨1, 1, []⟩ FwBank.blank).flash.bank 1 = FwBank.blank ∧ (banked ⟨1, 1, []⟩ ⟨1, 1, []⟩).loadFlash.activates = none
    ∧ stagedFw.loadFlash.activates = some ⟨⟨2, 1, []⟩, 3, false, false⟩ ∧ (withFlds [(fRstCtlBusy, 1)]).fld fRstCtlBusy = 1 ∧ up.fld fRstCtlBusy = 0 := by decide

/-- A lees copy to a page that the context does not map. -/
theorem witness_lees_unmapped : ((erring 0 1).gpaPieces 0 (2 ^ 21) 64 permWrite).isSome = false := by decide

/-- A checkpoint that holds an owner command; a command that a beat has begun, or not. -/
def checkpointed (c : Option OwnerRun) : State :=
  { up with sup := { up.sup with checkpoint := some ⟨0, c, 5⟩ }, sec := { up.sec with cmd := c } }
theorem witness_checkpoint : (checkpointed (some ⟨[], false⟩)).sup.checkpoint = some ⟨0, some ⟨[], false⟩, 5⟩ ∧ (checkpointed none).sec.cmd = none
    ∧ (checkpointed (some ⟨[], false⟩)).sec.cmd = some ⟨[], false⟩ ∧ (checkpointed (some ⟨[], true⟩)).sec.cmd = some ⟨[], true⟩
    ∧ (supervised 0 0 1).supIn 0 = [0, 1] ∧ (0 : Nat) ≠ 1 := by decide

/-! ### Security and management -/

/-- The SPDM responder over DOE at a stage, with sessions. -/
def spdmAt (st : Nat) (l : List (Nat × Bool)) : State :=
  { up with sec := { up.sec with doe := ⟨st, l.map (fun p => ⟨p.1, p.2, 0⟩), 5, none⟩ } }

theorem witness_SpdmAndHostLink : (spdmAt 1 []).supUp = true ∧ ((spdmAt 1 []).spdm .doe).stage = 1 ∧ ((spdmAt 2 []).spdm .doe).stage = 2
    ∧ ((spdmAt 3 []).spdm .doe).stage = 3 ∧ 0 < (11#8 : Byte).toNat ∧ (11#8 : Byte).toNat ≤ 11 ∧ 11 < (12#8 : Byte).toNat ∧ (12#8 : Byte) ≠ 0xFF#8
    ∧ ((spdmAt 3 [(1, true), (2, true), (3, true)]).spdm .doe).sessions.length < 4
    ∧ 4 ≤ ((spdmAt 3 [(1, true), (2, true), (3, true), (4, false)]).spdm .doe).sessions.length
    ∧ ((spdmAt 3 [(4, false)]).spdm .doe).sessions.any (fun p => p.id == 4 && !p.up) = true ∧ ((spdmAt 3 [(4, true)]).spdm .doe).up 4 = true
    ∧ (spdmAt 3 [(4, true)]).sec.doe.up 4 = true ∧ (spdmAt 3 [(4, false)]).sec.doe.up 4 = false
    ∧ (withFlds [(fSecIdeState, 2)]).fld fSecIdeState = 2 ∧ ({ up with flash := { up.flash with requireIde := true } } : State).flash.requireIde = true
    ∧ ({ up with flash := { up.flash with requireIde := false } } : State).flash.requireIde = false := by decide

/-- A zeroised module under a closed seal loop, its presence window open. -/
def zeroised : State :=
  let s := withFlds [(fSecStateSealClosed, 1)]
  { s with flash := { s.flash with zeroised := true }, sec := { s.sec with window := some 1 } }

/-- RECOVER, with the tag of this module; it needs no signature. -/
def recoverBlob : List Byte :=
  [0x47#8, 0x4F#8, 0x57#8, 0x4E#8, 5#8, 0#8, 0#8, 0#8] ++ leBytes 8 (zeroised.fld fSecNonceNonce) ++ (sha384 deviceKey).take 8 ++ List.replicate 216 0#8

theorem field_tag : field recoverBlob 16 8 = fromLe ((sha384 deviceKey).take 8) := by
  have l : ((sha384 deviceKey).take 8).length = 8 := by simp [sha384_length]
  unfold recoverBlob
  generalize (sha384 deviceKey).take 8 = x at l
  match x, l with
  | [_, _, _, _, _, _, _, _], _ => rfl

theorem witness_owner_accepts : zeroised.ownerCheck recoverBlob = 0 ∧ field recoverBlob 4 1 = 5 := by
  have n : recoverBlob.length = 240 := by
    simp only [recoverBlob, List.length_append, List.length_replicate, List.length_take, sha384_length]
    rfl
  refine ⟨?_, rfl⟩
  have a : zeroised.opAccepted (field recoverBlob 4 1) = true := by show zeroised.opAccepted 5 = true; decide
  have b : zeroised.ownerNeeds (field recoverBlob 4 1) recoverBlob = true := by show zeroised.ownerNeeds 5 _ = true; decide
  have c : field recoverBlob 8 8 = zeroised.fld fSecNonceNonce := rfl
  have h : recoverBlob.take 4 = [0x47#8, 0x4F#8, 0x57#8, 0x4E#8] := rfl
  have o : field recoverBlob 4 1 = 5 := rfl
  have d : zeroised.ownerSigOk 5 recoverBlob = true := rfl
  have e : (needsPresence 5 && !zeroised.sec.window.any (fun t => decide (zeroised.time < t))) = false := rfl
  rw [o] at a b
  rw [State.ownerCheck]
  simp only [n, h, c, field_tag, keyTag, o, a, b, d]
  rw [if_neg (by simp), if_neg (by decide), if_neg (by simp), if_neg (by simp), if_neg (by decide), if_neg (by rw [e]; decide), if_neg (by decide), if_neg (by decide)]
  rfl

theorem witness_OwnerCommands : Taken up rSecCmd ∧ up.supUp = true ∧ up.ownerCheck [] ≠ 0 ∧ up.pins.vaux = true ∧ up.sec.pressed = false
    ∧ ({ up with sec := { up.sec with pressed := true } } : State).sec.pressed = true
    ∧ ({ up with sec := { up.sec with openRun := 9 } } : State).sec.openRun = 9 ∧ up.sec.openRun ≠ 9 := by
  unfold Taken
  (repeat' apply And.intro) <;> decide

/-- The service port is on; a bundle of 4 bytes is being received, or one is checked, or being written. -/
def serving (aux : Nat) (r : Option Receiving) : State :=
  let s := State.reset.setFld fBringStateAux aux
  { s with pins := { s.pins with svcEn := true }, sec := { s.sec with
    svcStale := false, receiving := r, rescue := some ⟨2, 1, []⟩, writing := some ⟨⟨2, 1, []⟩, 3, false, false⟩ } }
def frameOf (seq : Byte) (l : List Byte) : SFrame := ⟨0#8, seq, l, BitVec.ofNat 32 (crc32 ([0#8, seq] ++ leBytes 2 l.length ++ l))⟩
def aFrame (l : List Byte) : SFrame := frameOf 0#8 l

theorem frame_crc (seq : Byte) {l : List Byte} (h : l.length ≤ 4096) : svcCrcOk (frameOf seq l) = true := by
  have e : (BitVec.ofNat 32 (crc32 ([0#8, seq] ++ leBytes 2 l.length ++ l))).toNat = crc32 ([0#8, seq] ++ leBytes 2 l.length ++ l) :=
    (BitVec.toNat_ofNat _ _).trans (Nat.mod_eq_of_lt (crc32_lt _))
  show (decide (l.length ≤ 4096) && _ == _) = true
  rw [Bool.and_eq_true]
  exact ⟨decide_eq_true h, beq_iff_eq.mpr e⟩
theorem crc_false : svcCrcOk ⟨0#8, 0#8, [], 0#32⟩ = false := by decide

theorem witness_ServicePort : FrameTaken (serving 2 none) (aFrame []) ∧ FrameTaken (serving 2 none) (aFrame [4#8, 0#8, 0#8, 0#8, 0#8])
    ∧ (aFrame [4#8, 0#8, 0#8, 0#8, 0#8]).payload.length = 5
    ∧ (serving 2 none).sec.receiving = none ∧ (serving 2 (some ⟨4, false, []⟩)).sec.receiving = some ⟨4, false, []⟩
    ∧ FrameTaken (serving 2 (some ⟨4, false, []⟩)) (aFrame [1#8, 2#8, 3#8, 4#8]) ∧ 0 + (aFrame [1#8, 2#8, 3#8, 4#8]).payload.length ≤ 4
    ∧ FrameTaken (serving 2 (some ⟨4, false, [1#8, 2#8, 3#8, 4#8]⟩)) (aFrame []) ∧ (serving 2 none).bundleCheck 4 [1#8, 2#8, 3#8, 4#8] ≠ 0
    ∧ FrameTaken (serving 3 none) (aFrame []) ∧ (serving 3 none).sec.rescue = some ⟨2, 1, []⟩ ∧ (serving 3 none).fld fBringStateAux = 3
    ∧ (serving 2 none).flash.debug = false ∧ (aFrame (2#8 :: List.replicate 16 0#8)).payload.length = 17
    ∧ FrameTaken { (serving 2 none) with flash := { up.flash with debug := true } } (aFrame (2#8 :: List.replicate 16 0#8))
    ∧ field (aFrame (2#8 :: List.replicate 16 0#8)).payload 0 1 = 2 ∧ field (aFrame (1#8 :: List.replicate 16 0#8)).payload 0 1 = 1
    ∧ (serving 2 none).svcUp = true ∧ (serving 2 none).sec.svcStale = false ∧ ({ serving 2 none with sec := { (serving 2 none).sec with svcStale := true } } : State).svcUp = true
    ∧ svcCrcOk (frameOf 1#8 []) = true ∧ (frameOf 1#8 []).seq.toNat ≠ (serving 2 none).sec.svcSeq
    ∧ (serving 2 none).pins.vaux = true ∧ (serving 2 none).sec.writing = some ⟨⟨2, 1, []⟩, 3, false, false⟩ ∧ (serving 1 none).svcUp = false := by
  have taken (s : State) (l : List Byte) (h : l.length ≤ 4096) (u : s.svcUp = true) (v : s.sec.svcStale = false) (w : 0 = s.sec.svcSeq) :
      FrameTaken s (aFrame l) := ⟨u, v, w, frame_crc _ h⟩
  refine ⟨taken _ _ (by decide) (by decide) (by decide) (by decide), taken _ _ (by decide) (by decide) (by decide) (by decide), rfl, rfl, rfl,
    taken _ _ (by decide) (by decide) (by decide) (by decide), by decide, taken _ _ (by decide) (by decide) (by decide) (by decide), by decide,
    taken _ _ (by decide) (by decide) (by decide) (by decide), rfl, by decide, rfl, rfl,
    taken _ _ (by decide) (by decide) (by decide) (by decide), rfl, rfl, by decide, rfl, by decide, frame_crc _ (by decide), by decide, rfl, rfl, by decide⟩

/-- A module whose management key is known, its management link up; a record from sender 1, signed under that key. -/
def managed : State :=
  let s := withFlds [(fMgtLinkUp, 1)]
  { s with mgmt := { s.mgmt with key := some [] } }
def unsignedRec (kind flags : Byte) (body : List Byte) : MRec := ⟨0x54474D47#32, 1#8, kind, flags, 0#8, 0#16, 1#32, keyTag deviceKey, 1#64, body, List.replicate 16 0#8, 0#128⟩
def signedRec (kind : Byte) (body : List Byte) : MRec := { unsignedRec kind 1#8 body with hmac := (hmac384 [] (recBytes (unsignedRec kind 1#8 body))).take 16 }

theorem signed_authentic (kind : Byte) (body : List Byte) : managed.authResult (signedRec kind body) = 0 := by
  have e : recBytes (signedRec kind body) = recBytes (unsignedRec kind 1#8 body) := rfl
  have h : managed.hmacOk (signedRec kind body) = true := by
    have k : managed.mgmt.key = some [] := rfl
    have f : recSigned (signedRec kind body) = true := by simp [recSigned, signedRec, unsignedRec]
    simp only [State.hmacOk, k, e, f, Bool.true_and]
    exact beq_self_eq_true _
  have t : (signedRec kind body).tag = keyTag deviceKey := rfl
  have n : managed.mgmt.key.isNone = false := rfl
  have f : managed.floorOf (signedRec kind body) = none := by simp [State.floorOf, managed]; rfl
  have q : managed.mgmt.floors = [] := rfl
  have x : (signedRec kind body).sender = 1#32 := by simp [signedRec, unsignedRec]
  have y : (signedRec kind body).counter = 1#64 := by simp [signedRec, unsignedRec]
  simp [State.authResult, h, t, n, f, q, x, y, rpDone]

theorem signed_arrives {kind : Byte} {body : List Byte} (hk : takenKinds.contains kind.toNat = true) (hb : body.length ≤ 1024)
    (hf : bodyFits (signedRec kind body) = true) :
    Arrives managed (signedRec kind body) kind.toNat := by
  have l : (signedRec kind body).hmac.length = 16 := by simp [signedRec, hmac384, sha384_length]
  refine ⟨by decide, by decide, ?_, by simp [signedRec, unsignedRec], by decide⟩
  have g : recSigned (signedRec kind body) = true := by simp [recSigned, signedRec, unsignedRec]
  simp only [recFormed, l, g, hf]
  have hk' : kind.toNat ∈ takenKinds := by simpa using hk
  simp [signedRec, unsignedRec, hb, hk']

theorem witness_ManagementPlane :
    (Arrives managed (signedRec 0x10 (List.replicate 8 0#8)) 0x10 ∧ managed.authResult (signedRec 0x10 (List.replicate 8 0#8)) = 0
      ∧ powerBodyOk (List.replicate 8 0#8) = true)
    ∧ powerBodyOk (4#8 :: List.replicate 7 0#8) = false
    ∧ (Arrives managed (signedRec 0x11 (1#8 :: List.replicate 7 0#8)) 0x11 ∧ resetBodyOk (1#8 :: List.replicate 7 0#8) = true)
    ∧ (Arrives managed (signedRec 0x12 (List.replicate 40 0#8)) 0x12 ∧ configBodyOk (List.replicate 40 0#8) = true)
    ∧ Arrives managed (signedRec 0x13 [1#8]) 0x13 ∧ Arrives managed (signedRec 0x7F (List.replicate 16 0#8)) 0x7F :=
  ⟨⟨signed_arrives (by decide) (by decide) rfl, signed_authentic _ _, by decide⟩, by decide, ⟨signed_arrives (by decide) (by decide) rfl, by decide⟩,
    ⟨signed_arrives (by decide) (by decide) rfl, by decide⟩, signed_arrives (by decide) (by decide) rfl, signed_arrives (by decide) (by decide) rfl⟩
theorem unsigned_arrives {k : Byte} {body : List Byte} (n : BitVec 32) (hk : takenKinds.contains k.toNat = true) (hb : body.length ≤ 1024)
    (hf : bodyFits (unsignedRec k 0#8 body) = true) : Arrives managed { unsignedRec k 0#8 body with sender := n } k.toNat := by
  have hk' : k.toNat ∈ takenKinds := by simpa using hk
  have hf' : bodyFits { unsignedRec k 0#8 body with sender := n } = true := hf
  refine ⟨by decide, by decide, ?_, by simp [unsignedRec], by decide⟩
  simp only [recFormed, hf']
  simp [unsignedRec, hb, hk']

/-- Bodies of unsigned records of SPDM, an owner command and NONCE. -/
def blank240 : List Byte := List.replicate 240 0#8
theorem blank240_length : blank240.length = 240 := List.length_replicate
theorem blank240_fits : bodyFits (unsignedRec 0x21 0#8 blank240) = true := by show (blank240.length == 240) = true; rw [blank240_length]; rfl

theorem open_arrive (n : BitVec 32) : Arrives managed { unsignedRec 0x20 0#8 [] with sender := n } 0x20
    ∧ Arrives managed { unsignedRec 0x21 0#8 blank240 with sender := n } 0x21 ∧ Arrives managed { unsignedRec 0x22 0#8 [] with sender := n } 0x22 :=
  ⟨unsigned_arrives n (by decide) (by decide) rfl, unsigned_arrives n (by decide) (by rw [blank240_length]; decide) blank240_fits,
    unsigned_arrives n (by decide) (by decide) rfl⟩

/-- From a sender with a number, and from sender 0. -/
theorem witness_unsigned_records : (∀ n, Arrives managed { unsignedRec 0x20 0#8 [] with sender := n } 0x20
      ∧ Arrives managed { unsignedRec 0x21 0#8 blank240 with sender := n } 0x21 ∧ Arrives managed { unsignedRec 0x22 0#8 [] with sender := n } 0x22)
    ∧ (∀ k b n, ({ unsignedRec k 0#8 b with sender := n } : MRec).tag = keyTag deviceKey ∧ recSigned { unsignedRec k 0#8 b with sender := n } = false)
    ∧ (managed.authResult (unsignedRec 0x10 0#8 []) ≠ 0 ∧ Arrives managed (unsignedRec 0x10 0#8 []) 0x10)
    ∧ managed.supUp = true ∧ managed.fld fMgtLinkUp = 1 ∧ up.fld fMgtLinkUp = 0 ∧ recFormed (unsignedRec 0x30 0#8 []) = false := by
  refine ⟨open_arrive, fun _ _ _ => ⟨rfl, by simp [recSigned, unsignedRec]⟩,
    ⟨?_, unsigned_arrives 1#32 (by decide) (by decide) rfl⟩, by decide, by decide, by decide, rfl⟩
  have t : (unsignedRec 0x10 0#8 []).tag = keyTag deviceKey := rfl
  have h : managed.hmacOk (unsignedRec 0x10 0#8 []) = false := rfl
  have n : managed.mgmt.key.isNone = false := rfl
  simp only [State.authResult, h, t, n]
  simp [rpAuth]
theorem witness_events : ({ up with mgmt := { up.mgmt with events := [(1, 2)] } } : State).mgmt.events = [(1, 2)] ∧ up.mgmt.events = []
    ∧ ({ up with mgmt := { up.mgmt with events := [(1, 2)] } } : State).mgmt.events ≠ [] ∧ (8#7 : BitVec 7) ≠ 0#7
    ∧ (List.replicate 32 (0 : Byte)).length = 32 ∧ up.pins.vaux = true := by decide
theorem witness_locate : Taken up rMgtCtl := ⟨by decide, by decide⟩

/-! ### Rules of the whole machine -/

theorem witness_CanonicalFormKept : { up with pending := [.bar4Read 0 8 none FarReply.ok] }.pending = [.bar4Read 0 8 none FarReply.ok]
    ∧ ({ up with pending := [.bar4Read 0 8 none FarReply.ok] } : State).canonicalForm = true
    ∧ ∃ t, step { up with pending := [.bar4Read 0 8 none FarReply.ok] } = .next t := ⟨rfl, by decide, _, rfl⟩

theorem witness_TaskIsolation : slotOf (.add 0 1 2 3) = some (0, .C, enc3 0x01 1 2 3 0) ∧ (∃ t, exec (.add 0 1 2 3) addFirst = .next t)
    ∧ ∀ r, addFirst.runOf 0 = some r → r.partner ≠ some 1 :=
  ⟨by decide, ⟨_, rfl⟩, fun r h => by
    have e : addFirst.runOf 0 = some aRun := rfl
    rw [e] at h
    cases h
    decide⟩

set_option maxRecDepth 8000 in
theorem witness_QuotaAdmission : (syncing 2).fld (fCtxQsyncUse 0) + 1 = (syncing 2).fld (fCtxQsyncLimit 0) ∧ (grouping 1 []).fld (fCtxQgroupsUse 0) + 1 = (grouping 1 []).fld (fCtxQgroupsLimit 0)
    ∧  (mapping [(fZfMapvaVa, 1), (fZfMappaGpa, 1)]).fld (fCtxUpagesUse 0) + 1 ≤ (mapping [(fZfMapvaVa, 1), (fZfMappaGpa, 1)]).fld (fCtxQpagesLimit 0)
    ∧ (mapping [(fCtxUpagesUse 0, 2)]).fld (fCtxUpagesUse 0) + 1 > (mapping [(fCtxUpagesUse 0, 2)]).fld (fCtxQpagesLimit 0)
    ∧ (grouping 0 []).fld (fCtxQgroupsUse 0) + 1 > (grouping 0 []).fld (fCtxQgroupsLimit 0) ∧ (grouping 0 []).fld (fGrpGStateState 0) = 0
    ∧ (grouping 0 []).active 0 = true ∧ (grouping 0 []).partOf 0 = some 0 ∧ (grouping 0 []).isOpen 0 = true
    ∧ (syncing 1).fld (fCtxQsyncUse 0) + 1 > (syncing 1).fld (fCtxQsyncLimit 0) := by
  (repeat' apply And.intro) <;> decide
theorem witness_quota_full : (mapping [(fZfMapvaVa, 1), (fZfMappaGpa, 1), (fCtxUpagesUse 0, 2)]).zfCheck .map
    ((mapping [(fZfMapvaVa, 1), (fZfMappaGpa, 1), (fCtxUpagesUse 0, 2)]).zfRun 0#64) = 8 := by decide

theorem witness_DecantAtResets : (∃ t, exec (.coldReset true) decanted = .next t) ∧ Taken decanted rRstCtl ∧ decanted.pins.vaux = true
    ∧ (∃ t, exec (.module 0#64) decanted = .next t) ∧ ∃ t, exec (.domain 0#64 []) decanted = .next t :=
  ⟨⟨_, rfl⟩, ⟨by decide, by decide⟩, by decide, ⟨_, rfl⟩, _, rfl⟩

/-- An owner command runs; a cut ends it. -/
theorem witness_owner_runs : (checkpointed (some ⟨[], true⟩)).sec.cmd.isSome = true ∧ Taken (checkpointed (some ⟨[], true⟩)) rSecCmd ∧ up.sec.cmd = none
    ∧ dark.pins.vaux = false :=
  ⟨by decide, ⟨by decide, by decide⟩, by decide, by decide⟩

/-- A session within which messages come over management. -/
theorem witness_secured : ((⟨3, [⟨4, true, 0⟩], 5, some 4⟩ : Spdm).within.bind (⟨3, [⟨4, true, 0⟩], 5, some 4⟩ : Spdm).session) = some ⟨4, true, 0⟩
    ∧ ((⟨3, [], 5, none⟩ : Spdm).within.bind (⟨3, [], 5, none⟩ : Spdm).session) = none := by decide

theorem witness_decant_no_reset_runs : decanted.fld fRstCtlBusy = 0 := by decide

end Sys2Proof.Tests
end

section
/-! SUPPORT. Laws of the host's accesses: what the gates of R415 and R472 let through, what an aligned access of BAR0 does at a register and at
a reserved offset, and the statements on BAR0 and on reserved offsets. -/

namespace Sys2Proof.Proofs

open Sys2Proof Sys2Proof.Machine

/-! ### The gates -/

section Accesses

variable {s : State} {off size : Nat}

theorem hostRead_mute (f : State → State) (h : s.answers off = false) :
    s.hostRead off size f = s.emit (.hostRead size (BitVec.ofNat 64 (2 ^ (8 * size) - 1))) := by
  simp [State.hostRead, h]

theorem hostRead_held (f : State → State) (h : s.answers off = true) (hh : s.holding = true) :
    s.hostRead off size f = s.hold ⟨off, size, .rd, HostObs.plain⟩ := by
  simp [State.hostRead, h, hh]

theorem hostRead_now (f : State → State) (h : s.answers off = true) (hh : s.holding = false) : s.hostRead off size f = f s := by
  simp [State.hostRead, h, hh]

theorem hostWrite_deaf (v : Word) (obs : HostObs) (f : State → State) (h : s.takesWrites off = false) :
    s.hostWrite off v obs f = s := by
  simp [State.hostWrite, h]

theorem hostWrite_held (v : Word) (obs : HostObs) (f : State → State) (h : s.takesWrites off = true) (hh : s.holding = true) :
    s.hostWrite off v obs f = s.hold ⟨off, accessSize off, .wr v, obs⟩ := by
  simp [State.hostWrite, h, hh]

theorem hostWrite_taken (v : Word) (obs : HostObs) (f : State → State) (h : Taken s off) : s.hostWrite off v obs f = f s := by
  simp [State.hostWrite, h.1, h.2]

theorem badAccess_unlogged (a : HostAcc) (f : State → State) (h : s.logsAccess = false) :
    s.badAccess off size a f = if a = .rd then s.readOnes size else s := by
  simp [State.badAccess, h]

theorem badAccess_held (a : HostAcc) (f : State → State) (h : s.logsAccess = true) (hh : s.holding = true) :
    s.badAccess off size a f = s.hold ⟨off, size, a, HostObs.plain⟩ := by
  simp [State.badAccess, h, hh]

theorem badAccess_now (a : HostAcc) (f : State → State) (h : s.logsAccess = true) (hh : s.holding = false) :
    s.badAccess off size a f = f s := by
  simp [State.badAccess, h, hh]

/-! ### Sizes and alignment -/

@[simp] theorem accessSize_compat (h : onCompat off = true) : accessSize off = 4 := by simp [accessSize, h]

@[simp] theorem accessSize_plain (h : onCompat off = false) : accessSize off = 8 := by simp [accessSize, h]

/-- An access of its page's size is well formed just where it is aligned (R5, R192). -/
theorem accessOk_accessSize (off : Nat) : accessOk off (accessSize off) = decide (off % accessSize off = 0) := by
  cases h : onCompat off <;> simp [accessOk, accessSize, h, beq_eq_decide]

/-- Outside the compatibility page an access that is not 8 bytes at a multiple of 8 is badly formed (R5). -/
theorem accessOk_bad (h : onCompat off = false) (hb : ¬(size = 8 ∧ off % 8 = 0)) : accessOk off size = false := by
  simpa [accessOk, h] using hb

theorem bar0Access_rd (obs : HostObs) (h : off % accessSize off = 0) :
    s.bar0Access off (accessSize off) .rd obs = s.hostRead off (accessSize off) (fun t => t.bar0Read off) := by
  simp [State.bar0Access, accessOk_accessSize, h]

theorem bar0Access_wr (v : Word) (obs : HostObs) (h : off % accessSize off = 0) :
    s.bar0Access off (accessSize off) (.wr v) obs = s.hostWrite off v obs (fun t => t.bar0Write off v obs) := by
  simp [State.bar0Access, accessOk_accessSize, h]

theorem bar0Access_bad (a : HostAcc) (obs : HostObs) (h : accessOk off size = false) :
    s.bar0Access off size a obs = s.badAccess off size a (fun t => t.bar0Bad off size a) := by
  simp [State.bar0Access, h]

/-- A badly formed access outside the compatibility page is logged; a read of it returns all bits set (R5). -/
theorem bar0Bad_plain (a : HostAcc) (h : onCompat off = false) :
    s.bar0Bad off size a = if a = .rd then (s.regAccessLog off).readOnes size else s.regAccessLog off := by
  simp [State.bar0Bad, h]

/-! ### Reserved offsets -/

/-- None of the registers whose reads have rules of their own (R191, R194) stands at a reserved offset. -/
theorem ne_decant_of_reserved (h : regLayout off = none) : off ≠ rDecantLo ∧ off ≠ rDecantHi ∧ off ≠ rDecantLost ∧ off ≠ rDecantSpill := by
  refine ⟨?_, ?_, ?_, ?_⟩ <;> rintro rfl <;> exact absurd h (by decide)

/-- None of them stands outside the compatibility page (R192). -/
theorem ne_decant_of_plain (h : onCompat off = false) : off ≠ rDecantLo ∧ off ≠ rDecantHi ∧ off ≠ rDecantLost ∧ off ≠ rDecantSpill := by
  refine ⟨?_, ?_, ?_, ?_⟩ <;> rintro rfl <;> exact absurd h (by decide)

/-- A reserved offset reads zero (R6). -/
theorem bar0Read_reserved (h : regLayout off = none) (ha : off % accessSize off = 0) :
    s.bar0Read off = s.emit (.hostRead (accessSize off) 0#64) := by
  obtain ⟨hlo, hhi, hlost, hspill⟩ := ne_decant_of_reserved h
  simp only [State.bar0Read, hlo, hhi, hlost, hspill, if_false]
  cases hc : onCompat off with
  | true => simp [h, hc]
  | false =>
    rw [accessSize_plain hc] at ha
    simp [h, hc, ha]

/-- A register outside the compatibility page reads as it stands, and the read clears its RC fields (R12, R47). -/
theorem bar0Read_register {l : List RegField} (hc : onCompat off = false) (ha : off % 8 = 0) (h : regLayout off = some l) :
    s.bar0Read off = (s.setReg off (readClear (s.reg off) l)).emit (.hostRead 8 (s.verifyView off (readView (s.regNow off) l))) := by
  obtain ⟨hlo, hhi, hlost, hspill⟩ := ne_decant_of_plain hc
  simp [State.bar0Read, hlo, hhi, hlost, hspill, hc, ha, h]

/-- A write to a reserved offset is discarded (R6). -/
theorem bar0Write_reserved (v : Word) (obs : HostObs) (h : regLayout off = none) (ha : off % accessSize off = 0) :
    s.bar0Write off v obs = s := by
  cases hc : onCompat off with
  | true => simp [State.bar0Write, hc]
  | false =>
    rw [accessSize_plain hc] at ha
    simp [State.bar0Write, hc, ha, h]

/-- What BAR2 has beside its doorbells (R7, R171, R309): a reserved offset in the terms of the manual's table. -/
theorem bar2Reserved_iff (off : Nat) : bar2Reserved off = true ↔ 128 ≤ off / 4096 ∨ (0xA0 ≤ off % 4096 ∧ off % 4096 < 0xC0)
    ∨ (0x100 ≤ off % 4096 ∧ ¬(0x400 ≤ off % 4096 ∧ off % 4096 < 0x408)) := by
  have doorbell : off % 4096 / 8 = 0x80 ↔ 0x400 ≤ off % 4096 ∧ off % 4096 < 0x408 := by omega
  simp only [bar2Reserved, Bool.or_eq_true, Bool.and_eq_true, decide_eq_true_eq, bne_iff_ne, ne_eq, doorbell, ge_iff_le]
  tauto

theorem exec_reservedOffsetAccess (bar2 : Bool) (off : BitVec 26) (a : HostAcc) :
    exec (.reservedOffsetAccess bar2 off a) s = execReservedOffsetAccess bar2 off a s := rfl

theorem exec_bar0BadAccess (bar2 : Bool) (off : BitVec 26) (size : Nat) (a : HostAcc) :
    exec (.bar0BadAccess bar2 off size a) s = execBar0BadAccess bar2 off size a s := rfl

/-- RESERVED_OFFSET_ACCESS at a reserved, aligned offset of BAR0 is an access of its page's size. -/
theorem exec_reserved_bar0 {off : BitVec 26} (a : HostAcc) (h : regLayout off.toNat = none)
    (ha : off.toNat % accessSize off.toNat = 0) :
    exec (.reservedOffsetAccess false off a) s = .next (s.bar0Access off.toNat (accessSize off.toNat) a HostObs.plain) := by
  simp [exec_reservedOffsetAccess, execReservedOffsetAccess, accessOk_accessSize, ha, h]

theorem exec_reserved_bar2_rd {off : BitVec 26} (h : bar2Reserved off.toNat = true) (ha : off.toNat % 8 = 0) :
    exec (.reservedOffsetAccess true off .rd) s
      = .next (s.emit (.hostRead 8 (if s.answers 0x200000 then 0#64 else BitVec.allOnes 64))) := by
  simp [exec_reservedOffsetAccess, execReservedOffsetAccess, h, ha]

theorem exec_reserved_bar2_wr {off : BitVec 26} (v : Word) : exec (.reservedOffsetAccess true off (.wr v)) s = .next s := by
  simp [exec_reservedOffsetAccess, execReservedOffsetAccess]

/-! ### Registers of BAR0 -/

/-- Replacing all 64 bits leaves nothing of the old word. -/
theorem putBits_whole (w v : Word) : putBits w ⟨0, 63, 0⟩ (getBits v ⟨0, 63, 0⟩) = v := by
  refine BitVec.eq_of_getLsbD_eq fun i hi => ?_
  rw [putBits_bit _ _ _ _ hi, if_pos ⟨Nat.zero_le i, Nat.le_of_lt_succ hi⟩, getBits_testBit]
  simp [hi]

/-- A register that is one RW field takes the word as written (R12). -/
theorem applyWrite_whole (w v : Word) (rst : Nat) : applyWrite takesPlain w v [⟨63, 0, .rw, rst⟩] = v := putBits_whole w v

/-- The seeds of the contexts stand side by side in the TASK block (R158). -/
theorem regLayout_taskSeed (c : Ctx) : regLayout (0x500400 + c.val * 8) = some layTaskSeed := by
  have hc := c.isLt
  have hblock : (0x500400 + c.val * 8) / 0x100000 = 0x05 := by omega
  have hcopy : isCopy (0x500400 + c.val * 8) 0x500400 8 128 = true := by
    simp only [isCopy, Bool.and_eq_true, decide_eq_true_eq, beq_iff_eq]
    omega
  have hlow : ∀ base, base + 31 * 0x20 < 0x500400 → isCopy (0x500400 + c.val * 8) base 0x20 32 = false := by
    intro base hb
    simp only [isCopy, Bool.and_eq_false_iff, decide_eq_false_iff_not, beq_eq_false_iff_ne]
    omega
  unfold regLayout
  rw [hblock]
  simp only [layBlock05, hcopy, hlow 0x500000 (by decide), hlow 0x500008 (by decide), hlow 0x500010 (by decide),
    hlow 0x500018 (by decide), if_true, Bool.false_eq_true, if_false]

/-- A write to a context's seed stores it, outside every other register's rule (R158). -/
theorem bar0Write_taskSeed (c : Ctx) (v : Word) (obs : HostObs) :
    s.bar0Write (0x500400 + c.val * 8) v obs = s.setReg (0x500400 + c.val * 8) v := by
  have hc := c.isLt
  have hplain : onCompat (0x500400 + c.val * 8) = false := by
    simp only [onCompat, beq_eq_false_iff_ne]
    omega
  have haligned : (0x500400 + c.val * 8) % 8 = 0 := by omega
  have hblock : (0x500400 + c.val * 8) / 0x100000 = 0x05 := by omega
  have hcmd : 0x500400 + c.val * 8 ≠ rTaskBindcmd := by
    simp only [rTaskBindcmd]
    omega
  simp only [State.bar0Write, hplain, haligned, regLayout_taskSeed, hblock, hcmd, Bool.false_eq_true, if_false, ne_eq, not_true_eq_false,
    Option.isNone_some, State.writeUnder, layTaskSeed, applyWrite_whole]

/-- At a doorbell of BAR2 a badly formed access meets the gate of R415 alone, and behind it the log of R5 (R171). -/
theorem exec_bad_bar2 {off : BitVec 26} (a : HostAcc) (hb : ¬(size = 8 ∧ off.toNat % 8 = 0)) :
    exec (.bar0BadAccess true off size a) s = .next (
      if s.logsAccess then (if a = .rd then (s.regAccessLog off.toNat).readOnes size else s.regAccessLog off.toNat)
      else if a = .rd then s.readOnes size else s) := by
  cases hl : s.logsAccess <;> simp [exec_bar0BadAccess, execBar0BadAccess, hb, hl]

/-- In BAR0 it passes the gates of R415 and R472. -/
theorem exec_bad_bar0 {off : BitVec 26} (a : HostAcc) (hc : onCompat off.toNat = false) (hb : ¬(size = 8 ∧ off.toNat % 8 = 0)) :
    exec (.bar0BadAccess false off size a) s = .next (s.badAccess off.toNat size a (fun t => t.bar0Bad off.toNat size a)) := by
  have hx : exec (.bar0BadAccess false off size a) s = .next (s.bar0Access off.toNat size a HostObs.plain) := by
    simp [exec_bar0BadAccess, execBar0BadAccess, hb, hc]
  rw [hx, bar0Access_bad _ _ (accessOk_bad hc hb)]

theorem exec_registerWrite (off : BitVec 26) (a : HostAcc) (obs : HostObs) :
    exec (.registerWrite off a obs) s = .next (s.bar0Access off.toNat (accessSize off.toNat) a obs) := rfl

end Accesses

/-! ### The statements -/

/-- Settles O24: the access passes the gates of R415 and R472, and behind them the offset has no register. -/
theorem reservedOffsets : Obligations.ReservedOffsets := by
  unfold Obligations.ReservedOffsets
  refine ⟨bar2Reserved_iff, fun off v s => ⟨fun size hs hl ha => ?_, fun hr ha => ⟨exec_reserved_bar2_wr v, fun h => ?_, fun h => ?_⟩⟩⟩
  · have hsize : size = accessSize off.toNat := by
      rw [accessSize]
      split at hs <;> simp_all
    subst hsize
    simp only [exec_reserved_bar0 _ hl ha, bar0Access_wr _ _ ha, bar0Access_rd _ ha]
    refine ⟨fun h => ?_, fun h hh => ?_, fun h hh => ?_, fun h hh => ?_, fun h => ?_⟩
    · congr 1
      cases hd : s.takesWrites off.toNat with
      | false => exact hostWrite_deaf _ _ _ hd
      | true => exact (hostWrite_taken _ _ _ ⟨hd, h.resolve_left (by simp [hd])⟩).trans (bar0Write_reserved _ _ hl ha)
    · rw [hostWrite_held _ _ _ h hh]; rfl
    · rw [hostRead_now _ h hh, bar0Read_reserved hl ha]; rfl
    · rw [hostRead_held _ h hh]; rfl
    · rw [hostRead_mute _ h]; rfl
  · rw [exec_reserved_bar2_rd hr ha, h]; rfl
  · rw [exec_reserved_bar2_rd hr ha, h]; rfl

/-- Settles O25: an aligned access passes the gates to its register, any other to the log of R5. -/
theorem hostAccessBar0 : Obligations.HostAccessBar0 := by
  unfold Obligations.HostAccessBar0
  refine fun off v obs s => ⟨fun hc ha => ?_, fun c h => ?_, fun bar2 size a hc hb => ?_⟩
  · have ha' : off.toNat % accessSize off.toNat = 0 := by rwa [accessSize_plain hc]
    simp only [exec_registerWrite, bar0Access_rd _ ha', bar0Access_wr _ _ ha']
    refine ⟨fun l hl h hh => ?_, fun h hh => ?_, fun h => ?_, fun h => ?_, fun h hh => ?_⟩
    · rw [hostRead_now _ h hh, bar0Read_register hc ha hl]; rfl
    · rw [hostRead_held _ h hh, accessSize_plain hc]; rfl
    · rw [hostRead_mute _ h, accessSize_plain hc]; rfl
    · rw [hostWrite_deaf _ _ _ h]
    · rw [hostWrite_held _ _ _ h hh, accessSize_plain hc]; rfl
  · have hc := c.isLt
    have hoff : (BitVec.ofNat 26 (0x500400 + c.val * 8)).toNat = 0x500400 + c.val * 8 := by
      rw [BitVec.toNat_ofNat]
      omega
    have ha : (0x500400 + c.val * 8) % accessSize (0x500400 + c.val * 8) = 0 := by
      rw [accessSize]
      split <;> omega
    rw [exec_registerWrite, hoff, bar0Access_wr _ _ ha, hostWrite_taken _ _ _ h, bar0Write_taskSeed]
  · cases bar2 with
    | true =>
      refine ⟨fun h _ => ?_, fun _ h => absurd h (by decide), fun h => ?_, fun h => absurd h (by decide)⟩
      · rw [exec_bad_bar2 a hb, h]; rfl
      · rw [exec_bad_bar2 a hb, h]; rfl
    | false =>
      have hc' : onCompat off.toNat = false := hc.resolve_left (by decide)
      simp only [exec_bad_bar0 a hc' hb]
      refine ⟨fun h hh => ?_, fun h _ hh => ?_, fun h => ?_, fun _ hs => ?_⟩
      · rw [badAccess_now _ _ h (hh.resolve_left (by decide)), bar0Bad_plain _ hc']; rfl
      · rw [badAccess_held _ _ h hh]; rfl
      · rw [badAccess_unlogged _ _ h]; rfl
      · subst hs
        rw [exec_registerWrite, accessSize_plain hc', bar0Access_bad _ _ (accessOk_bad hc' hb), exec_bad_bar0 a hc' hb]

end Sys2Proof.Proofs
end

section
/-! SUPPORT. The state after reset, and BAR4 with its binding. -/

namespace Sys2Proof.Proofs

open Sys2Proof Sys2Proof.Machine

/-! ### The state after reset (R10) -/

/-- After reset the two registers that a factory flash sets differ from their Reset columns, and no other does. -/
theorem reset_reg (off : Nat) : State.reset.reg off =
    if off = 0x600408 then 0xFF00#64 else if off = 0x1100030 then 0x100000000#64 else regReset off := by
  have hlist : State.reset.reg off = (lookupKey [(0x600408, 0xFF00#64), (0x1100030, 0x100000000#64)] off).getD (regReset off) := rfl
  rw [hlist, lookupKey, lookupKey, lookupKey]
  by_cases hscreen : off = 0x600408
  · simp [hscreen]
  · by_cases hfw : off = 0x1100030
    · simp [hfw]
    · simp [hscreen, hfw, Ne.symm hscreen, Ne.symm hfw]

/-- Settles O3: the register file lists two registers, and memory nothing. -/
theorem resetIsCanonical : Obligations.ResetIsCanonical := by
  unfold Obligations.ResetIsCanonical
  exact ⟨by decide, reset_reg, fun _ => rfl, rfl, rfl⟩

/-! ### BAR4 (R8) -/

section Window

/-- The size that BAR4 has at an access (R3): the one that the capability has set before it, else the old one. -/
def bar4Size (s : State) : Option (Fin 7) → Nat
  | some k => 30 + k.val
  | none => s.fab.bar4Log2

theorem resized_eq (s : State) (z : Option (Fin 7)) : s.resized z = { s with fab := { s.fab with bar4Log2 := bar4Size s z } } := by
  cases z <;> rfl

@[simp] theorem bar4Up_resized (s : State) (z : Option (Fin 7)) : (s.resized z).bar4Up = s.bar4Up := by cases z <;> rfl

variable {s : State} {off : BitVec 36} {len : Nat} {data : List Byte} {z : Option (Fin 7)} {far : FarReply}

/-- Where a window is bound, an offset lies that far beyond its base, aligned down to the size of BAR4. -/
theorem windowVa_bound (a : Nat) (h : s.fld fZfHostwinOn = 1) :
    s.windowVa a = some (s.fld fZfHostwinCtx, s.fld fZfHostwinBase * 2 ^ 30 / 2 ^ s.fab.bar4Log2 * 2 ^ s.fab.bar4Log2 + a) := by
  simp [State.windowVa, State.bit, h]

theorem windowVa_unbound (a : Nat) (h : s.fld fZfHostwinOn = 0) : s.windowVa a = none := by simp [State.windowVa, State.bit, h]

/-- An access within BAR4 does not overrun the size that it sets. -/
theorem not_beyond (h : off.toNat + len ≤ 2 ^ bar4Size s z) : ¬(off.toNat + len > 2 ^ (s.resized z).fab.bar4Log2) := by
  rw [resized_eq]
  exact Nat.not_lt.mpr h

theorem exec_bar4Read : exec (.bar4Read off len z far) s = execBar4Read off len z far s := rfl

theorem exec_bar4Write : exec (.bar4Write off data z far) s = execBar4Write off data z far s := rfl

/-- Before the auxiliary stage has ended BAR4 reads all bits set (R415). -/
theorem exec_bar4Read_down (hl : off.toNat + len ≤ 2 ^ bar4Size s z) (h : s.bar4Up = false) :
    exec (.bar4Read off len z far) s = .next ((s.resized z).readOnes len) := by
  simp only [exec_bar4Read, execBar4Read, not_beyond hl, bar4Up_resized, h, if_false, Bool.not_false, if_true]

/-- Through an unbound window nothing is read (R8). -/
theorem exec_bar4Read_unbound (hl : off.toNat + len ≤ 2 ^ bar4Size s z) (h : s.bar4Up = true)
    (hw : (s.resized z).windowVa off.toNat = none) :
    exec (.bar4Read off len z far) s = .next (((s.resized z).hostwinLog off.toNat).readOnes len) := by
  simp only [exec_bar4Read, execBar4Read, not_beyond hl, bar4Up_resized, h, hw, if_false, Bool.not_true, Bool.false_eq_true]

/-- Through a bound window the context's space is read; the status of the run decides what the host gets (R208, R231). -/
theorem exec_bar4Read_bound {c va n : Nat} {t : State} {b : List Byte} (hl : off.toNat + len ≤ 2 ^ bar4Size s z)
    (h : s.bar4Up = true) (hw : (s.resized z).windowVa off.toNat = some (c, va))
    (hr : (s.resized z).readRunVia (some unitHost) c va len far = (t, n, b)) :
    exec (.bar4Read off len z far) s = .next (
      if n = 0 then t.emit (.hostBytes b)
      else if n = 8 then (t.log { code := 0x0105, cls := 1, kind := 13, detail := leBytes 8 off.toNat }).emit .poisonedTlp
      else (t.hostwinLog off.toNat).readOnes len) := by
  simp only [exec_bar4Read, execBar4Read, not_beyond hl, bar4Up_resized, h, hw, hr, if_false, Bool.not_true, Bool.false_eq_true]

theorem exec_bar4Write_unbound (hl : off.toNat + data.length ≤ 2 ^ bar4Size s z) (h : s.bar4Up = true)
    (hw : (s.resized z).windowVa off.toNat = none) :
    exec (.bar4Write off data z far) s = .next ((s.resized z).hostwinLog off.toNat) := by
  simp only [exec_bar4Write, execBar4Write, not_beyond hl, bar4Up_resized, h, hw, if_false, Bool.not_true, Bool.false_eq_true, or_self]

theorem exec_bar4Write_bound {c va n : Nat} {t : State} (hl : off.toNat + data.length ≤ 2 ^ bar4Size s z)
    (h : s.bar4Up = true) (hw : (s.resized z).windowVa off.toNat = some (c, va))
    (hr : (s.resized z).writeRunVia (some unitHost) c va data far = (t, n)) :
    exec (.bar4Write off data z far) s = .next (if n = 0 then t else t.hostwinLog off.toNat) := by
  simp only [exec_bar4Write, execBar4Write, not_beyond hl, bar4Up_resized, h, hw, hr, if_false, Bool.not_true, Bool.false_eq_true, or_self]

/-- A write that binds nothing stores base and context as they are written. -/
theorem hostwinWrite_stores (v : Word) (h : getBits v fZfHostwinOn = 1 →
    s.active (getBits v fZfHostwinCtx) = true ∧ s.admitsWindow (getBits v fZfHostwinCtx) = true) :
    s.hostwinWrite v = s.writeUnder takesAll rZfHostwin v := by
  unfold State.hostwinWrite
  refine if_neg fun ⟨hon, hno⟩ => ?_
  simp [h hon] at hno

/-- A binding that is not allowed leaves the window unbound (R450). -/
theorem hostwinWrite_refused (v : Word) (hon : getBits v fZfHostwinOn = 1)
    (h : s.active (getBits v fZfHostwinCtx) = false ∨ s.admitsWindow (getBits v fZfHostwinCtx) = false) :
    s.hostwinWrite v = (s.writeUnder takesAll rZfHostwin v).setFld fZfHostwinOn 0 := by
  unfold State.hostwinWrite
  refine if_pos ⟨hon, ?_⟩
  rcases h with h | h <;> simp [h]

theorem exec_zfHostwinWrite (v : Word) (h : Taken s rZfHostwin) : exec (.zfHostwinWrite v) s = .next (s.hostwinWrite v) :=
  congrArg Host.Outcome.next (hostWrite_taken v HostObs.plain _ h)

end Window

/-- Settles O26: a BAR4 access goes by the binding, then by the status of its run; a write of ZF.HOSTWIN binds where R450 lets it. -/
theorem hostWindow : Obligations.HostWindow := by
  unfold Obligations.HostWindow
  intro off len data far v z s size u va c logged ones
  have hu : u = s.resized z := (resized_eq s z).symm
  have hbound (hon : s.fld fZfHostwinOn = 1) : u.windowVa off.toNat = some (c, va) := windowVa_bound off.toNat hon
  have hunbound (hoff : s.fld fZfHostwinOn = 0) : u.windowVa off.toNat = none := windowVa_unbound off.toNat hoff
  rw [hu] at hbound hunbound ⊢
  refine ⟨fun hup hl => ⟨fun hon => ⟨fun t b hr => ?_, fun t n b hr h0 h8 => ?_, fun t b hr => ⟨_, ?_, rfl⟩⟩, fun hoff => ?_⟩,
    fun hdown hl => ?_,
    fun hup hl => ⟨fun hon => ⟨fun t hr => ?_, fun t n hr hn => ?_⟩, fun hoff => ?_⟩,
    fun ht => ⟨fun hon ha hw => ?_, fun hoff => ?_, fun hon hno => ?_⟩⟩
  · rw [exec_bar4Read_bound hl hup (hbound hon) hr]; rfl
  · rw [exec_bar4Read_bound hl hup (hbound hon) hr, if_neg h0, if_neg h8]; rfl
  · rw [exec_bar4Read_bound hl hup (hbound hon) hr]; rfl
  · rw [exec_bar4Read_unbound hl hup (hunbound hoff)]; rfl
  · rw [exec_bar4Read_down hl hdown, ← hu]; rfl
  · rw [exec_bar4Write_bound hl hup (hbound hon) hr]; rfl
  · rw [exec_bar4Write_bound hl hup (hbound hon) hr, if_neg hn]; rfl
  · rw [exec_bar4Write_unbound hl hup (hunbound hoff)]; rfl
  · rw [exec_zfHostwinWrite v ht, hostwinWrite_stores v fun _ => ⟨ha, hw⟩]
  · rw [exec_zfHostwinWrite v ht, hostwinWrite_stores v fun hon => absurd (hoff.symm.trans hon) (by decide)]
  · rw [exec_zfHostwinWrite v ht, hostwinWrite_refused v hon hno]

end Sys2Proof.Proofs
end

section
/-! SUPPORT. The canonical form of the register file and of memory under the shared operations: each operation keeps it, since it writes registers
only through `State.setReg` and memory only through `Mem.store`, `Mem.mark` and their like. -/

namespace Sys2Proof.Proofs

open Sys2Proof Sys2Proof.Machine

variable {s : State}

/-! ### Registers, memory, and what is neither -/

theorem canonicalForm_iff : s.canonicalForm = true ↔ canonical regReset s.regs = true ∧ s.mem.wf = true := by
  simp [State.canonicalForm]

/-- The form is one of the register file and of memory alone: what leaves both as they are keeps it. -/
theorem canonicalForm_of_same {t : State} (h : s.canonicalForm = true) (hr : t.regs = s.regs) (hm : t.mem = s.mem) :
    t.canonicalForm = true := by
  simpa only [State.canonicalForm, hr, hm] using h

/-- A memory in canonical form can take the place of the old one. -/
theorem canonicalForm_withMem {m : Mem} (h : s.canonicalForm = true) (hm : m.wf = true) : ({ s with mem := m } : State).canonicalForm = true :=
  canonicalForm_iff.mpr ⟨(canonicalForm_iff.mp h).1, hm⟩

theorem mem_wf (h : s.canonicalForm = true) : s.mem.wf = true := (canonicalForm_iff.mp h).2

theorem canonicalForm_setReg (off : Nat) (w : Word) (h : s.canonicalForm = true) : (s.setReg off w).canonicalForm = true :=
  canonicalForm_iff.mpr ⟨canonical_setReg s off w (canonicalForm_iff.mp h).1, by simpa using mem_wf h⟩

theorem canonicalForm_setFld (f : Fld) (v : Nat) (h : s.canonicalForm = true) : (s.setFld f v).canonicalForm = true :=
  canonicalForm_setReg _ _ h

theorem canonicalForm_bump (f : Fld) (n : Nat) (h : s.canonicalForm = true) : (s.bump f n).canonicalForm = true :=
  canonicalForm_setFld _ _ h

theorem canonicalForm_setFlds (l : List (Fld × Nat)) (h : s.canonicalForm = true) : (s.setFlds l).canonicalForm = true :=
  canonicalForm_iff.mpr ⟨canonical_setFlds l s (canonicalForm_iff.mp h).1, by simpa using mem_wf h⟩

theorem canonicalForm_emit (o : Out) (h : s.canonicalForm = true) : (s.emit o).canonicalForm = true := canonicalForm_of_same h rfl rfl

theorem canonicalForm_store (a : Nat) (d : List Byte) (h : s.canonicalForm = true) :
    ({ s with mem := s.mem.store a d } : State).canonicalForm = true := canonicalForm_withMem h (wf_store _ _ _ (mem_wf h))

/-- A fold of steps that keep the form keeps it. -/
theorem canonicalForm_foldl {α : Type} {f : State → α → State} (hf : ∀ t a, t.canonicalForm = true → (f t a).canonicalForm = true)
    (l : List α) (h : s.canonicalForm = true) : (l.foldl f s).canonicalForm = true :=
  List.foldlRecOn (motive := fun t : State => t.canonicalForm = true) l f h fun t ht a _ => hf t a ht

/-- The same of a fold that carries something beside the state. -/
theorem canonicalForm_foldl_fst {α β : Type} {f : State × β → α → State × β} {p : State × β}
    (hf : ∀ q a, q.1.canonicalForm = true → (f q a).1.canonicalForm = true) (l : List α) (h : p.1.canonicalForm = true) :
    (l.foldl f p).1.canonicalForm = true :=
  List.foldlRecOn (motive := fun q : State × β => q.1.canonicalForm = true) l f h fun q hq a _ => hf q a hq

/-! ### Management records (R380, R480) -/

theorem canonicalForm_mgmtShow (h : s.canonicalForm = true) : s.mgmtShow.canonicalForm = true := canonicalForm_setFld _ _ h

theorem canonicalForm_mgmtFlush (h : s.canonicalForm = true) : s.mgmtFlush.canonicalForm = true := by
  unfold State.mgmtFlush
  split
  · exact h
  · refine canonicalForm_mgmtShow (canonicalForm_of_same (canonicalForm_foldl_fst (fun q it hq => ?_) s.mgmt.queue (p := (s, [])) h) rfl rfl)
    have hsent := canonicalForm_of_same (t := q.1.mgmtSend (s.mgmtDest it.kind it.body) it.kind false it.body) hq rfl rfl
    split
    · exact hq
    · dsimp only
      split <;> exact hsent

theorem canonicalForm_mgmtQueue (it : MgmtItem) (h : s.canonicalForm = true) : (s.mgmtQueue it).canonicalForm = true := by
  unfold State.mgmtQueue
  refine canonicalForm_mgmtFlush (canonicalForm_mgmtShow ?_)
  split
  · exact canonicalForm_of_same h rfl rfl
  · split
    · exact canonicalForm_bump _ _ (canonicalForm_of_same h rfl rfl)
    · split
      · exact canonicalForm_of_same h rfl rfl
      · exact h

/-! ### Error records and warnings (R373–R389, R482) -/

theorem canonicalForm_event (code v : Nat) (h : s.canonicalForm = true) : (s.event code v).canonicalForm = true := by
  unfold State.event
  dsimp only
  split <;> exact canonicalForm_of_same h rfl rfl

theorem canonicalForm_faultSince (before : State) (h : s.canonicalForm = true) : (s.faultSince before).canonicalForm = true := by
  unfold State.faultSince
  split
  · exact h
  · exact canonicalForm_event _ _ h

theorem canonicalForm_errCount (cls n : Nat) (h : s.canonicalForm = true) : (s.errCount cls n).canonicalForm = true := by
  unfold State.errCount
  split
  · exact canonicalForm_bump _ _ h
  · exact canonicalForm_bump _ _ h
  · exact canonicalForm_bump _ _ h
  · exact canonicalForm_setFld _ _ (canonicalForm_of_same h rfl rfl)

theorem canonicalForm_errFlash (r : ErrRec) (h : s.canonicalForm = true) : (s.errFlash r).canonicalForm = true := by
  unfold State.errFlash
  split
  · exact h
  · exact canonicalForm_faultSince _ (canonicalForm_of_same h rfl rfl)

theorem canonicalForm_msix (vector : Nat) (h : s.canonicalForm = true) : (s.msix vector).canonicalForm = true := by
  unfold State.msix
  split
  · exact canonicalForm_emit _ h
  · exact h

theorem canonicalForm_errIrq (h : s.canonicalForm = true) : s.errIrq.canonicalForm = true := by
  unfold State.errIrq
  dsimp only
  split
  · exact canonicalForm_of_same (canonicalForm_msix _ h) rfl rfl
  · exact canonicalForm_of_same h rfl rfl

theorem canonicalForm_errRing (r : ErrRec) (h : s.canonicalForm = true) : (s.errRing r).canonicalForm = true := by
  unfold State.errRing
  split
  · exact h
  · dsimp only
    split
    · exact canonicalForm_errIrq (canonicalForm_setFld _ _ (canonicalForm_emit _ (canonicalForm_emit _ h)))
    · exact canonicalForm_bump _ _ h

theorem canonicalForm_report (r : ErrRec) (h : s.canonicalForm = true) : (s.report r).canonicalForm = true :=
  canonicalForm_mgmtQueue _ (canonicalForm_errRing _ (canonicalForm_emit _ (canonicalForm_errFlash r (canonicalForm_of_same h rfl rfl))))

theorem canonicalForm_log (e : ErrArg) (h : s.canonicalForm = true) : (s.log e).canonicalForm = true := by
  have hcount := canonicalForm_errCount e.cls 1 h
  have hreport := canonicalForm_report ((s.errCount e.cls 1).mkRec e) hcount
  unfold State.log
  dsimp only
  split
  · exact canonicalForm_of_same hcount rfl rfl
  · split
    · exact canonicalForm_of_same hreport rfl rfl
    · exact hreport

theorem canonicalForm_sendWarning (code st kind unit : Nat) (detail : List Byte) (h : s.canonicalForm = true) :
    (s.sendWarning code st kind unit detail).canonicalForm = true := canonicalForm_mgmtQueue _ (canonicalForm_event _ _ h)

theorem canonicalForm_raise (code kind unit : Nat) (detail : List Byte) (h : s.canonicalForm = true) :
    (s.raise code kind unit detail).canonicalForm = true := by
  have hsent := canonicalForm_sendWarning code 0 kind unit detail h
  unfold State.raise
  dsimp only
  split
  · exact h
  · split
    · exact hsent
    · exact canonicalForm_of_same hsent rfl rfl

theorem canonicalForm_defectAt (row : Bool) (kind source unit location code flags : Nat) (h : s.canonicalForm = true) :
    (s.defectAt row kind source unit location code flags).canonicalForm = true := by
  unfold State.defectAt
  split
  · exact canonicalForm_setFld _ _ (canonicalForm_of_same h rfl rfl)
  · exact canonicalForm_raise _ _ _ _ (canonicalForm_log _ h)

/-! ### Stacks: activations, reads, poison (R207–R213) -/

theorem canonicalForm_activateRow (r : RowKey) (h : s.canonicalForm = true) : (s.activateRow r).canonicalForm = true := by
  unfold State.activateRow
  dsimp only
  split <;> exact canonicalForm_of_same h rfl rfl

theorem canonicalForm_activate (a n : Nat) (h : s.canonicalForm = true) : (s.activate a n).canonicalForm = true := by
  unfold State.activate
  split
  · exact h
  · exact canonicalForm_foldl (fun _ => canonicalForm_activateRow) _ h

theorem canonicalForm_stackLast (kind : Nat) (r : RowKey) (h : s.canonicalForm = true) : (s.stackLast kind r).canonicalForm = true :=
  canonicalForm_setFlds _ h

theorem canonicalForm_dueRow (r : RowKey) (h : s.canonicalForm = true) : (s.dueRow r).canonicalForm = true := by
  unfold State.dueRow
  split
  · exact h
  · exact canonicalForm_of_same h rfl rfl

theorem canonicalForm_markLine (line : Nat) (h : s.canonicalForm = true) : (s.markLine line).canonicalForm = true := by
  have hmark := canonicalForm_withMem h (wf_mark s.mem line (mem_wf h))
  unfold State.markLine
  dsimp only
  split
  · exact h
  · split
    · exact canonicalForm_dueRow _ hmark
    · exact hmark

theorem canonicalForm_poisonLine (line : Nat) (h : s.canonicalForm = true) : (s.poisonLine line).canonicalForm = true := by
  unfold State.poisonLine
  dsimp only
  refine canonicalForm_log _ (canonicalForm_stackLast _ _ ?_)
  split
  · exact h
  · exact canonicalForm_bump _ _ (canonicalForm_markLine _ h)

theorem canonicalForm_reread (line : Nat) (h : s.canonicalForm = true) : (s.reread line).canonicalForm = true := by
  have hlogged (u : State) (f : Fld) (r : RowKey) (e : ErrArg) (hu : u.canonicalForm = true) :
      (((u.bump f 1).stackLast 1 r).log e).canonicalForm = true :=
    canonicalForm_log _ (canonicalForm_stackLast _ _ (canonicalForm_bump _ _ hu))
  unfold State.reread
  dsimp only
  split
  · exact canonicalForm_dueRow _ (hlogged _ _ _ _ (canonicalForm_of_same h rfl rfl))
  · exact hlogged _ _ _ _ (canonicalForm_of_same h rfl rfl)

theorem canonicalForm_lineRead (o : LineObs) (h : s.canonicalForm = true) : (s.lineRead o).canonicalForm = true := by
  have hrows (l : List RowKey) : (l.foldl State.activateRow s).canonicalForm = true :=
    canonicalForm_foldl (fun _ => canonicalForm_activateRow) l h
  have hecc (l : List RowKey) (f : Fld) :
      (if o.onDie then (l.foldl State.activateRow s).bump f 1 else l.foldl State.activateRow s).canonicalForm = true := by
    split
    · exact canonicalForm_bump _ _ (hrows l)
    · exact hrows l
  unfold State.lineRead
  dsimp only
  split
  · exact hecc _ _
  · exact canonicalForm_reread _ (hecc _ _)
  · exact canonicalForm_poisonLine _ (hecc _ _)

theorem canonicalForm_lineReads (a n : Nat) (obs : List LineObs) (h : s.canonicalForm = true) :
    (s.lineReads a n obs).1.canonicalForm = true :=
  canonicalForm_foldl_fst (fun _ o hq => canonicalForm_lineRead o hq) _ h

/-! ### A home and its answers (R229–R241) -/

theorem canonicalForm_homeRead (src : Node) (ctx tag a n : Nat) (obs : List LineObs) (h : s.canonicalForm = true) :
    (s.homeRead src ctx tag a n obs).1.canonicalForm = true := by
  unfold State.homeRead
  split
  · exact canonicalForm_lineReads _ _ _ (canonicalForm_activate _ _ h)
  · exact canonicalForm_log _ h

theorem canonicalForm_homeWrite (src : Node) (ctx tag a : Nat) (d : List Byte) (h : s.canonicalForm = true) :
    (s.homeWrite src ctx tag a d).1.canonicalForm = true := by
  unfold State.homeWrite
  split
  · exact canonicalForm_withMem (canonicalForm_activate _ _ h) (wf_store _ _ _ (mem_wf h))
  · exact canonicalForm_log _ h

theorem canonicalForm_homeAtomic (src : Node) (ctx tag a op : Nat) (arg cmp : Word) (obs : List LineObs) (h : s.canonicalForm = true) :
    (s.homeAtomic src ctx tag a op arg cmp obs).1.canonicalForm = true := by
  have hread := canonicalForm_lineReads a 8 obs (canonicalForm_activate a 8 h)
  unfold State.homeAtomic
  dsimp only
  split
  · exact canonicalForm_log _ h
  · split
    · exact hread
    · exact canonicalForm_store _ _ hread

theorem canonicalForm_answerTo (q : Req) (kind : Nat) (a : HomeAns) (h : s.canonicalForm = true) :
    (s.answerTo q kind a).canonicalForm = true := by
  unfold State.answerTo
  split <;> exact canonicalForm_of_same h rfl rfl

/-! ### Translation caches and requests to other nodes (R234, R287) -/

theorem canonicalForm_cacheNote (u ctx : Nat) (va : Word) (h : s.canonicalForm = true) : (s.cacheNote u ctx va).canonicalForm = true := by
  unfold State.cacheNote
  split
  · exact canonicalForm_of_same h rfl rfl
  · exact h

theorem canonicalForm_cacheRun (u : Option Nat) (ctx va n : Nat) (h : s.canonicalForm = true) :
    (s.cacheRun u ctx va n).canonicalForm = true := by
  unfold State.cacheRun
  split
  · exact h
  · exact canonicalForm_foldl (fun _ _ ht => canonicalForm_cacheNote _ _ _ ht) _ h

theorem canonicalForm_sendRequest (kind gpa ctx op : Nat) (data : List Byte) (h : s.canonicalForm = true) :
    (s.sendRequest kind gpa ctx op data).1.canonicalForm = true := canonicalForm_of_same h rfl rfl

theorem canonicalForm_sendShares (kind ctx op : Nat) (data : Nat → Nat → List Byte) (l : List (Nat × Nat × Nat))
    (h : s.canonicalForm = true) : (s.sendShares kind ctx op data l).1.canonicalForm = true := by
  refine canonicalForm_foldl_fst (fun q p hq => ?_) l h
  split
  · exact hq
  · exact canonicalForm_sendRequest _ _ _ _ _ hq

theorem canonicalForm_readRunVia (u : Option Nat) (ctx va n : Nat) (far : FarReply) (h : s.canonicalForm = true) :
    (s.readRunVia u ctx va n far).1.canonicalForm = true := by
  unfold State.readRunVia
  split
  · exact h
  · refine canonicalForm_foldl_fst (fun q p hq => ?_) _ (canonicalForm_cacheRun u ctx va n h)
    dsimp only
    split
    · exact canonicalForm_homeRead _ _ _ _ _ _ hq
    · exact canonicalForm_sendRequest _ _ _ _ _ hq

theorem canonicalForm_writeRunVia (u : Option Nat) (ctx va : Nat) (d : List Byte) (far : FarReply) (h : s.canonicalForm = true) :
    (s.writeRunVia u ctx va d far).1.canonicalForm = true := by
  unfold State.writeRunVia
  split
  · exact h
  · refine canonicalForm_foldl_fst (fun q p hq => ?_) _ (canonicalForm_cacheRun u ctx va d.length h)
    dsimp only
    split
    · exact canonicalForm_homeWrite _ _ _ _ _ hq
    · exact canonicalForm_sendRequest _ _ _ _ _ hq

end Sys2Proof.Proofs
end

section
/-! SUPPORT. The canonical form under the operations of tasks: changes of a core's run, faults, the reads of local stores, fabric operations as
they issue, sync objects and tokens; and under the issue of a slot. -/

namespace Sys2Proof.Proofs

open Sys2Proof Sys2Proof.Machine

variable {s : State}

/-! ### Runs and faults (R155) -/

theorem canonicalForm_setRun (k : Nat) (r : Run) (h : s.canonicalForm = true) : (s.setRun k r).canonicalForm = true :=
  canonicalForm_of_same h rfl rfl

theorem canonicalForm_modRun (k : Nat) (f : Run → Run) (h : s.canonicalForm = true) : (s.modRun k f).canonicalForm = true := by
  unfold State.modRun
  split
  · exact canonicalForm_setRun _ _ h
  · exact h

theorem canonicalForm_faultRun (k fault bundle slot n : Nat) (h : s.canonicalForm = true) :
    (s.faultRun k fault bundle slot n).canonicalForm = true := by
  unfold State.faultRun
  split
  · exact h
  · dsimp only
    split
    · split
      · split
        · exact canonicalForm_setRun _ _ (canonicalForm_setRun _ _ h)
        · exact canonicalForm_setRun _ _ h
      · exact canonicalForm_setRun _ _ h
    · exact canonicalForm_setRun _ _ h

theorem canonicalForm_faultNow (k fault slot : Nat) (h : s.canonicalForm = true) : (s.faultNow k fault slot).canonicalForm = true := by
  unfold State.faultNow
  split
  · exact canonicalForm_faultRun _ _ _ _ _ h
  · exact h

/-! ### The issue of a slot (R134, R151, R188) -/

theorem canonicalForm_pairStop (k : Nat) (h : s.canonicalForm = true) : (s.pairStop k).canonicalForm = true := by
  unfold State.pairStop
  split
  · exact h
  · refine canonicalForm_of_same (canonicalForm_raise _ _ _ _ (canonicalForm_log _ ?_)) rfl rfl
    split
    · exact canonicalForm_setRun _ _ (canonicalForm_setRun _ _ h)
    · exact canonicalForm_setRun _ _ h

theorem canonicalForm_noteWait (k : Nat) (r : Run) (is : Issue) (w : Nat) (h : s.canonicalForm = true) :
    (s.noteWait k r is w).canonicalForm = true := by
  unfold State.noteWait
  split
  · split
    · exact canonicalForm_setRun _ _ h
    · exact h
  · exact h

theorem canonicalForm_openBundle (k : Nat) (r : Run) (b : Bundle) (h : s.canonicalForm = true) :
    (s.openBundle k r b).1.canonicalForm = true := by
  unfold State.openBundle
  dsimp only
  split
  · exact canonicalForm_faultNow _ _ _ h
  · split
    · exact canonicalForm_faultNow _ _ _ h
    · split
      · exact canonicalForm_noteWait _ _ _ _ h
      · split
        · exact canonicalForm_faultNow _ _ _ h
        · generalize (if r.partner.isSome = true then s.bundleDigests k r (r.snapshot b) b else []) = ds
          cases s.pairAgrees r ds
          · exact canonicalForm_pairStop _ h
          · exact canonicalForm_setRun _ _ h

theorem canonicalForm_closeBundle (k : Nat) (sl : Slot) (h : s.canonicalForm = true) : (s.closeBundle k sl).canonicalForm = true := by
  unfold State.closeBundle
  split
  · exact h
  · split
    · exact h
    · dsimp only
      split
      · exact canonicalForm_setRun _ _ h
      · split
        · exact canonicalForm_faultRun _ _ _ _ _ (canonicalForm_setRun _ _ h)
        · exact canonicalForm_setRun _ _ h

/-- A slot's effect keeps the form, whatever it reads. -/
def EffectKeeps (f : Effect) : Prop := ∀ k is b (t : State), t.canonicalForm = true → (f k is b t).canonicalForm = true

theorem canonicalForm_actSlot (k : Nat) (sl : Slot) (w : Nat) (b : Bundle) {f : Effect} (hf : EffectKeeps f) (h : s.canonicalForm = true) :
    (s.actSlot k sl w b f).canonicalForm = true := by
  unfold State.actSlot
  split
  · exact h
  · split
    · exact h
    · split
      · exact canonicalForm_closeBundle _ _ (hf _ _ _ _ h)
      · exact h

/-- A slot that issues keeps the form where its effect does: faults, stalls and the boundary of the bundle touch neither registers nor memory
but by error records. -/
theorem canonicalForm_issue (i : Instr) {f : Effect} (hf : EffectKeeps f) (h : s.canonicalForm = true) : (s.issue i f).canonicalForm = true := by
  unfold State.issue
  split
  · exact h
  · split
    · exact h
    · split
      · exact h
      · split
        · exact h
        · split
          · exact h
          · split
            · exact canonicalForm_actSlot _ _ _ _ hf h
            · split
              · exact h
              · dsimp only
                split
                · exact canonicalForm_actSlot _ _ _ _ hf (canonicalForm_openBundle _ _ _ h)
                · exact canonicalForm_openBundle _ _ _ h

/-! ### Values that enter a task (R187) -/

theorem canonicalForm_passOn (k i : Nat) (v : List Byte) (marks : List Nat) (h : s.canonicalForm = true) :
    (s.passOn k i v marks).canonicalForm = true := by
  unfold State.passOn
  split
  · exact canonicalForm_modRun _ _ h
  · exact h

theorem canonicalForm_enterC (k : Nat) (is : Issue) (b : Bundle) {get : State → Word × State}
    (hget : (get s).2.canonicalForm = true) (h : s.canonicalForm = true) : (s.enterC k is b get).2.canonicalForm = true := by
  unfold State.enterC
  dsimp only
  split
  · exact h
  · split
    · exact h
    · exact canonicalForm_passOn _ _ _ _ hget

/-- Of the special registers CYCLE alone changes the state: it takes a free value (R137). -/
theorem canonicalForm_special (k : Nat) (r : Run) (is : Issue) (idx : Nat) (h : s.canonicalForm = true) :
    (s.special k r is idx).2.canonicalForm = true := by
  have hfree : s.takeFree.2.canonicalForm = true := canonicalForm_of_same h rfl rfl
  unfold State.special
  split
  case h_5 => exact hfree
  all_goals exact h

/-! ### Local stores (R133, R143, R220, R221) -/

theorem canonicalForm_hardFault (k a : Nat) (h : s.canonicalForm = true) : (s.hardFault k a).canonicalForm = true := by
  unfold State.hardFault
  dsimp only
  split
  · split
    · exact h
    · exact canonicalForm_of_same h rfl rfl
  · split
    · exact h
    · exact canonicalForm_defectAt _ _ _ _ _ _ _ h

theorem canonicalForm_storeLine (k : Nat) (o : StoreLine) (h : s.canonicalForm = true) : (s.storeLine k o).canonicalForm = true := by
  have hparity (first second : Prop) [Decidable first] [Decidable second] (e d : ErrArg) (ln : Nat) :
      (if first then s else if second then s.log e else { s.log d with mem := s.mem.mark ln }).canonicalForm = true := by
    split
    · exact h
    · split
      · exact canonicalForm_log _ h
      · exact canonicalForm_withMem (canonicalForm_log _ h) (wf_mark _ _ (mem_wf h))
  unfold State.storeLine
  dsimp only
  split
  · exact canonicalForm_hardFault _ _ (hparity _ _ _ _ _)
  · exact hparity _ _ _ _ _

theorem canonicalForm_storeReads (k : Nat) (l : List Range) (obs : List StoreLine) (h : s.canonicalForm = true) :
    (s.storeReads k l obs).canonicalForm = true := canonicalForm_foldl (fun _ o ht => canonicalForm_storeLine k o ht) _ h

theorem canonicalForm_useMarked (k slot : Nat) (l : List Range) (h : s.canonicalForm = true) :
    (s.useMarked k slot l).canonicalForm = true := by
  unfold State.useMarked
  split
  · split
    · exact canonicalForm_faultRun _ _ _ _ _ h
    · exact h
  · exact h

theorem canonicalForm_useLocal (k slot : Nat) (l : List Range) (obs : List StoreLine) (h : s.canonicalForm = true) :
    (s.useLocal k slot l obs).canonicalForm = true := canonicalForm_useMarked _ _ _ (canonicalForm_storeReads _ _ _ h)

/-! ### Fabric operations as they issue (R142, R143, R226) -/

theorem canonicalForm_addFab (k : Nat) (o : FabOp) (h : s.canonicalForm = true) : (s.addFab k o).canonicalForm = true :=
  canonicalForm_modRun _ _ h

theorem canonicalForm_goOut (k : Nat) (r : Run) (o : FabOp) (pk perm : Nat) (data : Nat → Nat → List Byte) (h : s.canonicalForm = true) :
    (s.goOut k r o pk perm data).canonicalForm = true := by
  unfold State.goOut
  dsimp only
  split
  · exact canonicalForm_addFab _ _ h
  · exact canonicalForm_addFab _ _ (canonicalForm_sendShares _ _ _ _ _ (canonicalForm_cacheRun _ _ _ _ h))

theorem canonicalForm_issueGet (k : Nat) (r : Run) (va : Word) (loc n : Nat) (inward : Option Nat) (h : s.canonicalForm = true) :
    (s.issueGet k r va loc n inward).canonicalForm = true := by
  unfold State.issueGet
  dsimp only
  split
  · exact canonicalForm_faultRun _ _ _ _ _ h
  · exact canonicalForm_goOut _ _ _ _ _ _ h

theorem canonicalForm_putEffect (k : Nat) (kind : FabKind) (va : Word) (loc n : Nat) (sig : Option (Node × Nat)) (obs : List StoreLine)
    (h : s.canonicalForm = true) : (s.putEffect k kind va loc n sig obs).canonicalForm = true := by
  have hread := canonicalForm_useLocal k 1 [(loc, n)] obs h
  unfold State.putEffect
  split
  · exact h
  · split
    · exact canonicalForm_faultRun _ _ _ _ _ h
    · dsimp only
      split
      · exact hread
      · exact canonicalForm_goOut _ _ _ _ _ _ hread

theorem canonicalForm_atomicEffect (k : Nat) (is : Issue) (b : Bundle) (op : Nat) (va arg cmp : Word) (rd : XReg)
    (h : s.canonicalForm = true) : (s.atomicEffect k is b op va arg cmp rd).canonicalForm = true := by
  unfold State.atomicEffect
  split
  · exact h
  · split
    · exact canonicalForm_addFab _ _ h
    · exact canonicalForm_goOut _ _ _ _ _ _ h

/-! ### Sync objects and tokens (R82, R147, R148) -/

theorem canonicalForm_sendSignal (stop ctx : Nat) (node : Node) (obj v : Nat) (h : s.canonicalForm = true) :
    (s.sendSignal stop ctx node obj v).canonicalForm = true := by
  unfold State.sendSignal
  split <;> exact canonicalForm_of_same h rfl rfl

theorem canonicalForm_setCounter (i n : Nat) (h : s.canonicalForm = true) : (s.setCounter i n).canonicalForm = true := by
  unfold State.setCounter
  split
  · exact canonicalForm_of_same h rfl rfl
  · exact h

theorem canonicalForm_setEndpoint (key : Nat) (e : EndpointSt) (h : s.canonicalForm = true) : (s.setEndpoint key e).canonicalForm = true :=
  canonicalForm_of_same h rfl rfl

theorem canonicalForm_unbindEnd (key : Nat) (h : s.canonicalForm = true) : (s.unbindEnd key).canonicalForm = true := by
  unfold State.unbindEnd
  split
  · exact canonicalForm_setEndpoint _ _ (canonicalForm_setEndpoint _ _ h)
  · exact h

theorem canonicalForm_returnCredit (key : Nat) (h : s.canonicalForm = true) : (s.returnCredit key).canonicalForm = true := by
  unfold State.returnCredit
  split
  · exact canonicalForm_setEndpoint _ _ h
  · exact h

end Sys2Proof.Proofs
end

section
/-! SUPPORT. The canonical form under every task instruction, every request at its home, every answer and every BAR4 access. -/

namespace Sys2Proof.Proofs

open Sys2Proof Sys2Proof.Machine

/-- Where a command goes on, its next state has the canonical form. -/
def NextCanonical (o : Host.Outcome State Fault Refusal) : Prop := ∀ t, o = .next t → t.canonicalForm = true

theorem nextCanonical_next {t : State} (h : t.canonicalForm = true) : NextCanonical (.next t) := by
  rintro _ ⟨⟩
  exact h

section Commands

variable {s : State}

/-- A slot instruction keeps the form where its effect does. -/
theorem nextCanonical_issue (i : Instr) {f : Effect} (h : s.canonicalForm = true) (hf : EffectKeeps f) : NextCanonical (.next (s.issue i f)) :=
  nextCanonical_next (canonicalForm_issue i hf h)

/-! ### The families of slot instructions (R140, R141, R146) -/

theorem nextCanonical_scalar (i : Instr) (rd : XReg) (f : Issue → Word) (h : s.canonicalForm = true) : NextCanonical (s.scalar i rd f) :=
  nextCanonical_issue i h fun _ _ _ _ => canonicalForm_modRun _ _

theorem nextCanonical_branch (i : Instr) (off : BitVec 24) (taken : Issue → Bool) (h : s.canonicalForm = true) :
    NextCanonical (s.branch i off taken) := by
  refine nextCanonical_issue i h fun k is b t ht => ?_
  split
  · exact canonicalForm_modRun _ _ ht
  · exact ht

theorem nextCanonical_vector (i : Instr) (vd : VReg) (f : Issue → List Res) (h : s.canonicalForm = true) : NextCanonical (s.vector i vd f) :=
  nextCanonical_issue i h fun _ _ _ _ => canonicalForm_modRun _ _

/-- An effect that only changes the core's run. -/
theorem effectKeeps_modRun (g : Nat → Issue → Bundle → State → Run → Run) : EffectKeeps (fun k is b t => t.modRun k (g k is b t)) :=
  fun _ _ _ _ => canonicalForm_modRun _ _

theorem effectKeeps_nothing : EffectKeeps (fun _ _ _ t => t) := fun _ _ _ _ ht => ht

/-- An effect that the shadow of a pair leaves out (R187). -/
theorem effectKeeps_unlessShadow {f : Effect} (hf : EffectKeeps f) : EffectKeeps (fun k is b t => if t.isShadow k then t else f k is b t) := by
  intro k is b t ht
  dsimp only
  split
  · exact ht
  · exact hf k is b t ht

/-- An instruction whose register takes a value that enters the task (R187). -/
theorem effectKeeps_enterC (rd : XReg) {get : Nat → Issue → State → Word × State}
    (hget : ∀ k is (t : State), t.canonicalForm = true → (get k is t).2.canonicalForm = true) :
    EffectKeeps (fun k is b t => (t.enterC k is b (get k is)).2.writeX k rd (t.enterC k is b (get k is)).1) :=
  fun _ _ _ _ ht => canonicalForm_modRun _ _ (canonicalForm_enterC _ _ _ (hget _ _ _ ht) ht)

/-! ### Slot C: special registers, sync objects, tokens, collectives (R137, R147–R149) -/

theorem nextCanonical_rdsr (k : LCore) (rd : XReg) (idx : BitVec 24) (h : s.canonicalForm = true) : NextCanonical (execRdsr k rd idx s) := by
  refine nextCanonical_issue _ h fun k is b t ht => ?_
  split
  · exact ht
  · refine canonicalForm_modRun _ _ ?_
    split
    · exact canonicalForm_enterC _ _ _ (canonicalForm_special _ _ _ _ ht) ht
    · exact canonicalForm_special _ _ _ _ ht

theorem nextCanonical_ssig (k : LCore) (rs1 rs2 : XReg) (h : s.canonicalForm = true) : NextCanonical (execSsig k rs1 rs2 s) := by
  refine nextCanonical_issue _ h (effectKeeps_unlessShadow fun k is b t ht => ?_)
  split
  · exact canonicalForm_sendSignal _ _ _ _ _ ht
  · exact ht

theorem nextCanonical_srst (k : LCore) (rs1 : XReg) (h : s.canonicalForm = true) : NextCanonical (execSrst k rs1 s) := by
  refine nextCanonical_issue _ h (effectKeeps_unlessShadow fun k is b t ht => ?_)
  split
  · exact canonicalForm_setCounter _ _ ht
  · exact ht

theorem nextCanonical_tbind (k : LCore) (e : Endp) (rs1 : XReg) (h : s.canonicalForm = true) : NextCanonical (execTbind k e rs1 s) :=
  nextCanonical_issue _ h (effectKeeps_unlessShadow fun _ _ _ _ ht => canonicalForm_setEndpoint _ _ (canonicalForm_setEndpoint _ _ ht))

theorem nextCanonical_tunbind (k : LCore) (e : Endp) (h : s.canonicalForm = true) : NextCanonical (execTunbind k e s) := by
  refine nextCanonical_issue _ h fun k is b t ht => ?_
  split
  · exact ht
  · exact canonicalForm_unbindEnd _ ht

theorem nextCanonical_tsend (k : LCore) (e : Endp) (rs1 : XReg) (h : s.canonicalForm = true) : NextCanonical (execTsend k e rs1 s) := by
  refine nextCanonical_issue _ h (effectKeeps_unlessShadow fun k is b t ht => ?_)
  dsimp only
  split
  · exact canonicalForm_of_same ht rfl rfl
  · exact ht

theorem nextCanonical_clnch (k : LCore) (rs1 rs2 : XReg) (obs : List StoreLine) (h : s.canonicalForm = true) :
    NextCanonical (execClnch k rs1 rs2 obs s) := by
  refine nextCanonical_issue _ h fun k is b t ht => ?_
  have hread := canonicalForm_storeReads k [((is.x rs2).toNat, 64)] obs ht
  dsimp only
  split
  · exact canonicalForm_useMarked _ _ _ hread
  · split
    · exact hread
    · exact canonicalForm_of_same hread rfl rfl

/-! ### Slot A: moves and fabric operations (R141, R142) -/

theorem nextCanonical_get (k : LCore) (rd rs1 rs2 : XReg) (h : s.canonicalForm = true) : NextCanonical (execGet k rd rs1 rs2 s) := by
  refine nextCanonical_issue _ h fun k is b t ht => ?_
  split
  · exact ht
  · dsimp only
    split
    · split
      · exact ht
      · exact canonicalForm_addFab _ _ ht
    · exact canonicalForm_issueGet _ _ _ _ _ _ ht

/-! ### Slot I: chains (R144) -/

theorem nextCanonical_tmma (k : LCore) (aga agb : AReg) (fa fb : Fin 16) (mx sparse : Bool) (rk rs : XReg) (obs : List StoreLine)
    (h : s.canonicalForm = true) : NextCanonical (execTmma k aga agb fa fb mx sparse rk rs obs s) := by
  refine nextCanonical_issue _ h fun k is b t ht => ?_
  dsimp only
  split
  · exact ht
  · split
    · exact ht
    · exact canonicalForm_useLocal _ _ _ _ (canonicalForm_setRun _ _ ht)

/-! ### Every task instruction -/

/-- A task instruction keeps the form: of what it can do, only its stores, the marks that its reads of a store leave, and error records reach
memory or registers. -/
theorem nextCanonical_task (c : Instr) (hc : (slotOf c).isSome = true) (h : s.canonicalForm = true) : NextCanonical (exec c s) := by
  cases c with
  | nop | twait | fwait => exact nextCanonical_issue _ h effectKeeps_nothing
  | add | sub | and | or | xor | sll | srl | sra | mul | mulhu | divu | remu | slt | sltu | min | max | addi | andi | ori | xori | lui | lhi =>
    exact nextCanonical_scalar _ _ _ h
  | beq | bne | blt | bge | bltu | bgeu => exact nextCanonical_branch _ _ _ h
  | vadd | vsub | vmul | vfma | vdiv | vsqrt | vmax | vmin | vexp | vlog | vrsqrt | vtanh | vsig | vrsum | vrmax | vrmin =>
    exact nextCanonical_vector _ _ _ h
  | agbase | agdim | agstep | agrd | tfin | tend | vbcast | vlane | vcvt | vwred | vwredr | vradd =>
    exact nextCanonical_issue _ h (effectKeeps_modRun _)
  | jal | jalr => exact nextCanonical_issue _ h fun _ _ _ _ ht => canonicalForm_modRun _ _ (canonicalForm_modRun _ _ ht)
  | rdsr => exact nextCanonical_rdsr _ _ _ h
  | ssig => exact nextCanonical_ssig _ _ _ h
  | srst => exact nextCanonical_srst _ _ h
  | swait | srd | tstat => exact nextCanonical_issue _ h (effectKeeps_enterC _ fun _ _ _ ht => ht)
  | trecv =>
    exact nextCanonical_issue _ h (effectKeeps_enterC _ fun _ _ _ ht => canonicalForm_returnCredit _ (canonicalForm_setEndpoint _ _ ht))
  | tbind => exact nextCanonical_tbind _ _ _ h
  | tunbind => exact nextCanonical_tunbind _ _ h
  | tsend => exact nextCanonical_tsend _ _ _ h
  | clnch => exact nextCanonical_clnch _ _ _ _ h
  | vld =>
    exact nextCanonical_issue _ h fun _ _ _ _ ht =>
      canonicalForm_modRun _ _ (canonicalForm_modRun _ _ (canonicalForm_useLocal _ _ _ _ ht))
  | vst => exact nextCanonical_issue _ h fun _ _ _ _ ht => canonicalForm_modRun _ _ (canonicalForm_store _ _ ht)
  | sld => exact nextCanonical_issue _ h fun _ _ _ _ ht => canonicalForm_modRun _ _ (canonicalForm_useLocal _ _ _ _ ht)
  | sst => exact nextCanonical_issue _ h fun _ _ _ _ ht => canonicalForm_store _ _ ht
  | move => exact nextCanonical_issue _ h fun _ _ _ _ ht => canonicalForm_useLocal _ _ _ _ (canonicalForm_modRun _ _ ht)
  | get => exact nextCanonical_get _ _ _ _ h
  | put | puts => exact nextCanonical_issue _ h fun _ _ _ _ ht => canonicalForm_putEffect _ _ _ _ _ _ _ ht
  | aadd | amin | amax | aswp | acas => exact nextCanonical_issue _ h fun _ _ _ _ ht => canonicalForm_atomicEffect _ _ _ _ _ _ _ _ ht
  | tstart => exact nextCanonical_issue _ h fun _ _ _ _ ht => canonicalForm_useLocal _ _ _ _ (canonicalForm_modRun _ _ ht)
  | tmma => exact nextCanonical_tmma _ _ _ _ _ _ _ _ _ _ h
  | _ => cases hc

/-! ### Requests at their homes, answers, BAR4 (R8, R208, R229–R241) -/

theorem nextCanonical_read (q : Req) (obs : List LineObs) (h : s.canonicalForm = true) : NextCanonical (exec (.read q obs) s) := by
  refine nextCanonical_next ?_
  split
  · exact h
  · exact canonicalForm_answerTo _ _ _ (canonicalForm_homeRead _ _ _ _ _ _ h)

theorem nextCanonical_write (q : Req) (h : s.canonicalForm = true) : NextCanonical (exec (.write q) s) := by
  refine nextCanonical_next ?_
  split
  · exact h
  · exact canonicalForm_answerTo _ _ _ (canonicalForm_homeWrite _ _ _ _ _ h)

theorem nextCanonical_atomic (q : Req) (obs : List LineObs) (h : s.canonicalForm = true) : NextCanonical (exec (.atomic q obs) s) := by
  refine nextCanonical_next ?_
  split
  · exact h
  · exact canonicalForm_answerTo _ _ _ (canonicalForm_homeAtomic _ _ _ _ _ _ _ _ h)

/-- An answer changes the tasks that wait for it, and neither registers nor memory. -/
theorem canonicalForm_answer (id : Nat) (a : Reply) (h : s.canonicalForm = true) : (s.answer id a).canonicalForm = true :=
  canonicalForm_of_same h rfl rfl

theorem canonicalForm_resized (z : Option (Fin 7)) (h : s.canonicalForm = true) : (s.resized z).canonicalForm = true := by
  cases z with
  | none => exact h
  | some _ => exact canonicalForm_of_same h rfl rfl

theorem canonicalForm_hostwinLog (off : Nat) (h : s.canonicalForm = true) : (s.hostwinLog off).canonicalForm = true :=
  canonicalForm_log _ h

theorem nextCanonical_bar4Read (off : BitVec 36) (len : Nat) (z : Option (Fin 7)) (far : FarReply) (h : s.canonicalForm = true) :
    NextCanonical (exec (.bar4Read off len z far) s) := by
  refine nextCanonical_next ?_
  have hsized := canonicalForm_resized z h
  dsimp only
  split
  · exact hsized
  · split
    · exact canonicalForm_emit _ hsized
    · split
      · exact canonicalForm_emit _ (canonicalForm_hostwinLog _ hsized)
      · next c va _ =>
        have hread := canonicalForm_readRunVia (some unitHost) c va len far hsized
        split
        · exact canonicalForm_emit _ hread
        · split
          · exact canonicalForm_emit _ (canonicalForm_log _ hread)
          · exact canonicalForm_emit _ (canonicalForm_hostwinLog _ hread)

theorem nextCanonical_bar4Write (off : BitVec 36) (data : List Byte) (z : Option (Fin 7)) (far : FarReply) (h : s.canonicalForm = true) :
    NextCanonical (exec (.bar4Write off data z far) s) := by
  refine nextCanonical_next ?_
  have hsized := canonicalForm_resized z h
  dsimp only
  split
  · exact hsized
  · split
    · exact canonicalForm_hostwinLog _ hsized
    · next c va _ =>
      have hwrite := canonicalForm_writeRunVia (some unitHost) c va data far hsized
      split
      · exact hwrite
      · exact canonicalForm_hostwinLog _ hwrite

end Commands

/-- Settles O57: a step runs the command at the front of the queue, and each of these commands keeps the form. -/
theorem canonicalFormKept : Obligations.CanonicalFormKept := by
  unfold Obligations.CanonicalFormKept
  intro c s t rest hq hc h hstep
  have hrest : ({ s with pending := rest } : State).canonicalForm = true := canonicalForm_of_same h rfl rfl
  have hexec : exec c { s with pending := rest } = .next t := by
    rw [← hstep, step, hq]
  refine (?_ : NextCanonical (exec c { s with pending := rest })) t hexec
  rcases hc with hslot | ⟨q, obs, rfl⟩ | ⟨q, rfl⟩ | ⟨q, obs, rfl⟩ | ⟨r, rfl⟩ | ⟨r, rfl⟩ | ⟨r, rfl⟩ | ⟨r, rfl⟩ | ⟨off, len, z, far, rfl⟩
    | ⟨off, d, z, far, rfl⟩
  · exact nextCanonical_task c hslot hrest
  · exact nextCanonical_read q obs hrest
  · exact nextCanonical_write q hrest
  · exact nextCanonical_atomic q obs hrest
  · exact nextCanonical_next (canonicalForm_answer _ _ hrest)
  · exact nextCanonical_next (canonicalForm_answer _ _ hrest)
  · exact nextCanonical_next (canonicalForm_answer _ _ hrest)
  · exact nextCanonical_next (canonicalForm_answer _ _ hrest)
  · exact nextCanonical_bar4Read off len z far hrest
  · exact nextCanonical_bar4Write off d z far hrest

end Sys2Proof.Proofs
end

section
/-! SUPPORT. Staging and verifying an image (R45–R48): what a host write of CUVEE.DATA and of CUVEE.CTL does while a check runs and while none
does, how a verify ends, and the statement on them. -/

namespace Sys2Proof.Proofs

open Sys2Proof Sys2Proof.Machine

section Staging

variable {s : State}

/-! ### The staging store -/

/-- A write under the access codes changes its register alone, and so leaves the staging store. -/
@[simp] theorem writeUnder_img (takes : Acc → Bool) (off : Nat) (v : Word) : (s.writeUnder takes off v).img = s.img := by
  unfold State.writeUnder
  split
  · exact setReg_img _ _ _
  · rfl

/-- What a check sees depends on the staging store alone. -/
theorem stagedBytes_congr {t : State} (h : t.img = s.img) : t.stagedBytes = s.stagedBytes := by
  simp only [State.stagedBytes, h]

/-! ### CUVEE.DATA (R46, R47) -/

/-- While a check runs a write of CUVEE.DATA is discarded and logged (R46). -/
theorem cuveeDataWrite_busy (v : Word) (h : s.bit fCuveeResultBusy = true) : s.cuveeDataWrite v =
    s.log { code := 0x0106, kind := 13, detail := leBytes 4 rCuveeData ++ leBytes 4 (s.fld fCuveeFillFill) } := by
  simp only [State.cuveeDataWrite, h, if_true]

/-- Else it appends its eight bytes, as far as they fit, and remembers whether any did not (R46, R47). -/
theorem cuveeDataWrite_idle (v : Word) (h : s.bit fCuveeResultBusy = false) : s.cuveeDataWrite v =
    ({ s with img := { s.img with
        staged := (s.img.staged ++ leBytes 8 v.toNat).take 16384
        excess := s.img.excess || decide (16384 < s.img.staged.length + 8) } }).setFld fCuveeFillFill
      (min 16384 (s.img.staged.length + 8)) := by
  have hlen : (s.img.staged ++ leBytes 8 v.toNat).length = s.img.staged.length + 8 := by simp
  simp only [State.cuveeDataWrite, h, hlen, Bool.false_eq_true, if_false, gt_iff_lt]

/-! ### CUVEE.CTL (R45–R47) -/

/-- While a check runs a write of CUVEE.CTL stores its source bit and nothing more: clear and verify are ignored (R46). -/
theorem cuveeCtlWrite_busy (v : Word) (h : s.bit fCuveeResultBusy = true) : s.cuveeCtlWrite v = s.writeUnder takesAll rCuveeCtl v := by
  simp only [State.cuveeCtlWrite, h, if_true]

/-- Clear without verify empties the staging store (R47). -/
theorem cuveeCtlWrite_clear {v : Word} (h : s.bit fCuveeResultBusy = false) (hc : getBits v fCuveeCtlClear = 1)
    (hv : getBits v fCuveeCtlVerify = 0) : s.cuveeCtlWrite v =
      ({ s.writeUnder takesAll rCuveeCtl v with img := { (s.writeUnder takesAll rCuveeCtl v).img with
          staged := [], excess := false } }).setFld fCuveeFillFill 0 := by
  have hno : ¬(getBits v fCuveeCtlVerify = 1 ∧ s.auxDone = true) := by simp [hv]
  simp only [State.cuveeCtlWrite, h, hc, if_neg hno, Bool.false_eq_true, if_false, if_true]

/-- Verify without clear takes a copy of what is staged (R45). -/
theorem cuveeCtlWrite_verify {v : Word} (h : s.bit fCuveeResultBusy = false) (hc : getBits v fCuveeCtlClear = 0)
    (hv : getBits v fCuveeCtlVerify = 1) (ha : s.auxDone = true) : s.cuveeCtlWrite v =
      ({ s.writeUnder takesAll rCuveeCtl v with img := { (s.writeUnder takesAll rCuveeCtl v).img with
          verify := some s.stagedBytes } }).setFld fCuveeResultBusy 1 := by
  have hno : ¬getBits v fCuveeCtlClear = 1 := by simp [hc]
  have hstaged : (s.writeUnder takesAll rCuveeCtl v).stagedBytes = s.stagedBytes := stagedBytes_congr (writeUnder_img _ _ _)
  simp only [State.cuveeCtlWrite, h, hv, ha, if_neg hno, hstaged, Bool.false_eq_true, if_false, and_self, if_true]

/-! ### The commands -/

theorem exec_cuveeDataWrite (v : Word) (h : Taken s rCuveeData) : exec (.cuveeDataWrite v) s = .next (s.cuveeDataWrite v) :=
  congrArg Host.Outcome.next (hostWrite_taken v HostObs.plain _ h)

theorem exec_cuveeClear (v : Word) (h : Taken s rCuveeCtl) :
    exec (.cuveeClear v) s = .next (s.cuveeCtlWrite (putBits v fCuveeCtlClear 1)) :=
  congrArg Host.Outcome.next (hostWrite_taken _ HostObs.plain _ h)

theorem exec_verify (v : Word) (h : Taken s rCuveeCtl) :
    exec (.verify v) s = .next (s.cuveeCtlWrite (putBits v fCuveeCtlVerify 1)) :=
  congrArg Host.Outcome.next (hostWrite_taken _ HostObs.plain _ h)

theorem exec_verifyResult : exec .verifyResult s = execVerifyResult s := rfl

/-- A verify that ends writes its outcome to CUVEE.RESULT and does nothing else (R45, R48). -/
theorem exec_verifyResult_some {b : List Byte} (h : s.img.verify = some b) : exec .verifyResult s =
    .next (({ s with img := { s.img with verify := none } }).setFlds
      [(fCuveeResultReason, (checkImage s.imageCtx true (sourceBytes b)).1),
       (fCuveeResultSection, (checkImage s.imageCtx true (sourceBytes b)).2), (fCuveeResultMode, 1), (fCuveeResultBusy, 0)]) := by
  simp only [exec_verifyResult, execVerifyResult, h]

/-- Where no verify runs none ends. -/
theorem exec_verifyResult_none (h : s.img.verify = none) : exec .verifyResult s = .next s := by
  simp only [exec_verifyResult, execVerifyResult, h]

end Staging

/-- Settles O28: each host write goes by CUVEE.RESULT.busy, and CUVEE.CTL by its bits clear and verify, of which writing one leaves the other. -/
theorem imageStaging : Obligations.ImageStaging := by
  unfold Obligations.ImageStaging
  intro s v full judged
  refine ⟨fun ht hidle => ?_, fun ht hbusy => ?_, fun ht hverify => ⟨fun hidle => ?_, fun hbusy => ?_⟩,
    fun ht hclear => ⟨fun hidle haux => ?_, fun hbusy => ?_⟩, fun b hb => exec_verifyResult_some hb, exec_verifyResult_none⟩
  · rw [exec_cuveeDataWrite v ht, cuveeDataWrite_idle v hidle]
  · rw [exec_cuveeDataWrite v ht, cuveeDataWrite_busy v hbusy]
  · have hset : getBits (putBits v fCuveeCtlClear 1) fCuveeCtlClear = 1 := getBits_putBits_same _ _ _ (by decide)
    have hkept : getBits (putBits v fCuveeCtlClear 1) fCuveeCtlVerify = 0 :=
      (getBits_putBits_other _ _ _ _ (by decide) (by decide)).trans hverify
    rw [exec_cuveeClear v ht, cuveeCtlWrite_clear hidle hset hkept]
  · rw [exec_cuveeClear v ht, cuveeCtlWrite_busy _ hbusy]
  · have hset : getBits (putBits v fCuveeCtlVerify 1) fCuveeCtlVerify = 1 := getBits_putBits_same _ _ _ (by decide)
    have hkept : getBits (putBits v fCuveeCtlVerify 1) fCuveeCtlClear = 0 :=
      (getBits_putBits_other _ _ _ _ (by decide) (by decide)).trans hclear
    rw [exec_verify v ht, cuveeCtlWrite_verify hidle hkept hset haux]
    rfl
  · rw [exec_verify v ht, cuveeCtlWrite_busy _ hbusy]

end Sys2Proof.Proofs
end

section
/-! SUPPORT. What a task cannot reach: the part of the state that no task instruction touches, kept by every operation that one can start, and
the runs of the other cores; the statement on the isolation of tasks. -/

namespace Sys2Proof.Proofs

open Sys2Proof Sys2Proof.Machine

/-! ### The part of the state beyond a task -/

/-- What stands beyond every task: the programs, the page tables and frames, the image, groups, links, routes, power, security, the supervisor,
the pins, the clock, the waiting commands and repairs; of flash, what owner, debug and firmware policy rest on. -/
def beyondTasks (s : State) :=
  (s.cores.bindings, s.fab.leaves, s.fab.frames, s.img, s.grp, s.lnk, s.rte, s.pwr, s.sec, s.sup, s.pins, s.time, s.pending, s.dram,
    s.flash.owner, s.flash.win0, s.flash.win1, s.flash.requireIde, s.flash.banks, s.flash.image, s.flash.floor, s.flash.svnFloor, s.flash.debug)

/-- The same with the runs of all cores: what no shared operation of reports, stores and packets changes. -/
def runsAndBeyond (s : State) := (s.cores.runs, beyondTasks s)

section Shared

variable {s : State}

/-- A fold of steps that keep a part of the state keeps it. -/
theorem foldl_keeps {α β : Type} (p : State → β) {f : State → α → State} (hf : ∀ t a, p (f t a) = p t) (l : List α) (s : State) :
    p (l.foldl f s) = p s :=
  List.foldlRecOn (motive := fun t : State => p t = p s) l f rfl fun t ht a _ => (hf t a).trans ht

/-- The same of a fold that carries something beside the state. -/
theorem foldl_fst_keeps {α β γ : Type} (p : State → β) {f : State × γ → α → State × γ} (hf : ∀ q a, p (f q a).1 = p q.1) (l : List α)
    (q : State × γ) : p (l.foldl f q).1 = p q.1 :=
  List.foldlRecOn (motive := fun r : State × γ => p r.1 = p q.1) l f rfl fun r hr a _ => (hf r a).trans hr

/-! ### Reports, warnings and the defect log (R373–R389, R482) -/

theorem runsAndBeyond_mgmtFlush : runsAndBeyond s.mgmtFlush = runsAndBeyond s := by
  unfold State.mgmtFlush
  split
  · rfl
  · refine foldl_fst_keeps runsAndBeyond (fun q it => ?_) s.mgmt.queue (s, [])
    split
    · rfl
    · dsimp only
      split <;> rfl

theorem runsAndBeyond_mgmtQueue (it : MgmtItem) : runsAndBeyond (s.mgmtQueue it) = runsAndBeyond s := by
  unfold State.mgmtQueue
  refine runsAndBeyond_mgmtFlush.trans ?_
  dsimp only
  split
  · rfl
  · split
    · rfl
    · split <;> rfl

theorem runsAndBeyond_event (code v : Nat) : runsAndBeyond (s.event code v) = runsAndBeyond s := by
  unfold State.event
  dsimp only
  split <;> rfl

theorem runsAndBeyond_errCount (cls n : Nat) : runsAndBeyond (s.errCount cls n) = runsAndBeyond s := by
  unfold State.errCount
  split <;> rfl

theorem runsAndBeyond_faultSince (before : State) : runsAndBeyond (s.faultSince before) = runsAndBeyond s := by
  unfold State.faultSince
  split
  · rfl
  · exact runsAndBeyond_event _ _

theorem runsAndBeyond_errFlash (r : ErrRec) : runsAndBeyond (s.errFlash r) = runsAndBeyond s := by
  unfold State.errFlash
  split
  · rfl
  · refine (runsAndBeyond_faultSince s).trans ?_
    dsimp only
    split <;> rfl

theorem runsAndBeyond_errIrq : runsAndBeyond s.errIrq = runsAndBeyond s := by
  unfold State.errIrq State.msix
  dsimp only
  split
  · split <;> rfl
  · rfl

theorem runsAndBeyond_errRing (r : ErrRec) : runsAndBeyond (s.errRing r) = runsAndBeyond s := by
  unfold State.errRing
  split
  · rfl
  · dsimp only
    split
    · exact runsAndBeyond_errIrq
    · rfl

theorem runsAndBeyond_report (r : ErrRec) : runsAndBeyond (s.report r) = runsAndBeyond s :=
  (runsAndBeyond_mgmtQueue _).trans ((runsAndBeyond_errRing _).trans (runsAndBeyond_errFlash _))

theorem runsAndBeyond_log (e : ErrArg) : runsAndBeyond (s.log e) = runsAndBeyond s := by
  have hcount : runsAndBeyond (s.errCount e.cls 1) = runsAndBeyond s := runsAndBeyond_errCount _ _
  have hreport := (runsAndBeyond_report (s := s.errCount e.cls 1) ((s.errCount e.cls 1).mkRec e)).trans hcount
  unfold State.log
  dsimp only
  split
  · exact hcount
  · split <;> exact hreport

theorem runsAndBeyond_raise (code kind unit : Nat) (detail : List Byte) : runsAndBeyond (s.raise code kind unit detail) = runsAndBeyond s := by
  have hsent : runsAndBeyond (s.sendWarning code 0 kind unit detail) = runsAndBeyond s :=
    (runsAndBeyond_mgmtQueue _).trans (runsAndBeyond_event _ _)
  unfold State.raise
  dsimp only
  split
  · rfl
  · split <;> exact hsent

theorem runsAndBeyond_defectAt (row : Bool) (kind source unit location code flags : Nat) :
    runsAndBeyond (s.defectAt row kind source unit location code flags) = runsAndBeyond s := by
  unfold State.defectAt
  split
  · rfl
  · exact (runsAndBeyond_raise _ _ _ _).trans (runsAndBeyond_log _)

/-! ### Local stores and packets (R205, R220, R234, R287) -/

theorem runsAndBeyond_hardFault (k a : Nat) : runsAndBeyond (s.hardFault k a) = runsAndBeyond s := by
  unfold State.hardFault
  dsimp only
  split
  · split <;> rfl
  · split
    · rfl
    · exact runsAndBeyond_defectAt _ _ _ _ _ _ _

theorem runsAndBeyond_storeLine (k : Nat) (o : StoreLine) : runsAndBeyond (s.storeLine k o) = runsAndBeyond s := by
  have hparity (first second : Prop) [Decidable first] [Decidable second] (e d : ErrArg) (m : Mem) :
      runsAndBeyond (if first then s else if second then s.log e else { s.log d with mem := m }) = runsAndBeyond s := by
    split
    · rfl
    · split <;> exact runsAndBeyond_log _
  unfold State.storeLine
  dsimp only
  split
  · exact (runsAndBeyond_hardFault _ _).trans (hparity _ _ _ _ _)
  · exact hparity _ _ _ _ _

theorem runsAndBeyond_storeReads (k : Nat) (l : List Range) (obs : List StoreLine) : runsAndBeyond (s.storeReads k l obs) = runsAndBeyond s :=
  foldl_keeps runsAndBeyond (fun _ _ => runsAndBeyond_storeLine _ _) _ _

theorem runsAndBeyond_cacheRun (u : Option Nat) (ctx va n : Nat) : runsAndBeyond (s.cacheRun u ctx va n) = runsAndBeyond s := by
  unfold State.cacheRun
  split
  · rfl
  · refine foldl_keeps runsAndBeyond (fun t p => ?_) _ _
    unfold State.cacheNote
    split <;> rfl

theorem runsAndBeyond_sendShares (kind ctx op : Nat) (data : Nat → Nat → List Byte) (l : List (Nat × Nat × Nat)) :
    runsAndBeyond (s.sendShares kind ctx op data l).1 = runsAndBeyond s := by
  refine foldl_fst_keeps runsAndBeyond (fun q p => ?_) l (s, [])
  split <;> rfl

/-- A signal goes to an object of this module or leaves as a packet (R147). -/
theorem runsAndBeyond_sendSignal (stop ctx : Nat) (node : Node) (obj v : Nat) :
    runsAndBeyond (s.sendSignal stop ctx node obj v) = runsAndBeyond s := by
  unfold State.sendSignal
  split <;> rfl

theorem runsAndBeyond_setCounter (i n : Nat) : runsAndBeyond (s.setCounter i n) = runsAndBeyond s := by
  unfold State.setCounter
  split <;> rfl

theorem runsAndBeyond_unbindEnd (key : Nat) : runsAndBeyond (s.unbindEnd key) = runsAndBeyond s := by
  unfold State.unbindEnd
  split <;> rfl

theorem runsAndBeyond_returnCredit (key : Nat) : runsAndBeyond (s.returnCredit key) = runsAndBeyond s := by
  unfold State.returnCredit
  split <;> rfl

theorem runsAndBeyond_special (k : Nat) (r : Run) (is : Issue) (idx : Nat) : runsAndBeyond (s.special k r is idx).2 = runsAndBeyond s := by
  unfold State.special
  split <;> rfl

end Shared

/-! ### Confinement to a core and its partner -/

/-- The core that runs the other half of core k's pair (R187). -/
def pairOf (s : State) (k : Nat) : Option Nat := (s.runOf k).bind (·.partner)

/-- From s to t only core k's run and its partner's have changed, k keeps its partner, and nothing beyond the tasks has changed. -/
structure Confined (k : Nat) (s t : State) : Prop where
  runs : ∀ j, j ≠ k → pairOf s k ≠ some j → t.runOf j = s.runOf j
  pair : pairOf t k = pairOf s k
  beyond : beyondTasks t = beyondTasks s

section Confinement

variable {s t : State} {k : Nat}

theorem confined_refl (k : Nat) (s : State) : Confined k s s := ⟨fun _ _ _ => rfl, rfl, rfl⟩

theorem Confined.trans {u : State} (h : Confined k s t) (h' : Confined k t u) : Confined k s u where
  runs j hj hp := (h'.runs j hj (h.pair ▸ hp)).trans (h.runs j hj hp)
  pair := h'.pair.trans h.pair
  beyond := h'.beyond.trans h.beyond

theorem Confined.after {u : State} (h' : Confined k t u) (h : Confined k s t) : Confined k s u := h.trans h'

/-- What changes no run and nothing beyond the tasks is confined to every core. -/
theorem confined_of_same (h : runsAndBeyond t = runsAndBeyond s) : Confined k s t := by
  obtain ⟨hruns, hbeyond⟩ := Prod.mk.inj h
  have hrun (j : Nat) : t.runOf j = s.runOf j := by simp only [State.runOf, hruns]
  exact ⟨fun j _ _ => hrun j, by simp only [pairOf, hrun], hbeyond⟩

theorem pairOf_of_run {r : Run} (hr : s.runOf k = some r) : pairOf s k = r.partner := by simp [pairOf, hr]

/-- A change of the core's own run that keeps its partner. -/
theorem confined_setRun {r q : Run} (hr : s.runOf k = some r) (hq : q.partner = r.partner) : Confined k s (s.setRun k q) where
  runs j hj _ := runOf_setRun_other s q hj
  pair := by rw [pairOf_of_run (runOf_setRun_same s k q), pairOf_of_run hr, hq]
  beyond := rfl

/-- A change of the partner's run; a partner that is the core itself keeps its partner. -/
theorem confined_setRun_partner {j : Nat} {p q : Run} (hj : j = k ∨ pairOf s k = some j) (hp : s.runOf j = some p) (hq : q.partner = p.partner) :
    Confined k s (s.setRun j q) := by
  rcases eq_or_ne j k with rfl | hne
  · exact confined_setRun hp hq
  · refine ⟨fun i _ hi => runOf_setRun_other s q ?_, ?_, rfl⟩
    · rintro rfl
      exact hi (hj.resolve_left hne)
    · simp only [pairOf, runOf_setRun_other s q hne.symm]

theorem confined_modRun {f : Run → Run} (hf : ∀ r, (f r).partner = r.partner) : Confined k s (s.modRun k f) := by
  unfold State.modRun
  split
  · next r hr => exact confined_setRun hr (hf r)
  · exact confined_refl k s

/-! ### Runs and faults (R155) -/

theorem partner_wind (r : Run) : r.wind.partner = r.partner := by unfold Run.wind; split <;> rfl

theorem partner_stop (r : Run) (fault bundle slot n : Nat) : (r.stop fault bundle slot n).partner = r.partner := by
  unfold Run.stop
  refine (partner_wind _).trans ?_
  rw [apply_ite Run.partner]
  exact ite_self _

theorem partner_writeX (r : Run) (rd : Nat) (v : Word) : (r.writeX rd v).partner = r.partner := by unfold Run.writeX; split <;> rfl

theorem confined_writeX (rd : Nat) (v : Word) : Confined k s (s.writeX k rd v) := confined_modRun fun r => partner_writeX r rd v

theorem confined_faultRun (fault bundle slot n : Nat) : Confined k s (s.faultRun k fault bundle slot n) := by
  unfold State.faultRun
  split
  · exact confined_refl k s
  · next r hr =>
    have hown : Confined k s (s.setRun k (r.stop fault bundle slot n)) := confined_setRun hr (partner_stop _ _ _ _ _)
    dsimp only
    split
    · next j hj =>
      split
      · split
        · next q hq =>
          exact hown.trans (confined_setRun_partner (.inr (hown.pair.trans ((pairOf_of_run hr).trans hj))) hq (partner_stop _ _ _ _ _))
        · exact hown
      · exact hown
    · exact hown

theorem confined_faultNow (fault slot : Nat) : Confined k s (s.faultNow k fault slot) := by
  unfold State.faultNow
  split
  · exact confined_faultRun _ _ _ _
  · exact confined_refl k s

/-! ### The issue of a slot (R134, R151, R188) -/

theorem confined_pairStop : Confined k s (s.pairStop k) := by
  unfold State.pairStop
  split
  · exact confined_refl k s
  · next r hr =>
    have hhalt (q : Run) : (({ q with disagreed := true, ending := some false } : Run).wind).partner = q.partner := partner_wind _
    have hown : Confined k s (s.setRun k (({ r with disagreed := true, ending := some false } : Run).wind)) := confined_setRun hr (hhalt r)
    refine Confined.trans (Confined.trans hown ?_) (confined_of_same ((runsAndBeyond_raise _ _ _ _).trans (runsAndBeyond_log _)))
    split
    · next q hq =>
      refine confined_setRun_partner ?_ hq (hhalt q)
      rw [hown.pair, pairOf_of_run hr]
      cases r.partner with
      | none => exact .inl rfl
      | some j => exact .inr rfl
    · exact confined_refl _ _

theorem confined_noteWait {r : Run} (hr : s.runOf k = some r) (is : Issue) (w : Nat) : Confined k s (s.noteWait k r is w) := by
  unfold State.noteWait
  split
  · split
    · exact confined_setRun hr rfl
    · exact confined_refl k s
  · exact confined_refl k s

theorem confined_openBundle {r : Run} (hr : s.runOf k = some r) (b : Bundle) : Confined k s (s.openBundle k r b).1 := by
  unfold State.openBundle
  dsimp only
  split
  · exact confined_faultNow _ _
  · split
    · exact confined_faultNow _ _
    · split
      · exact confined_noteWait hr _ _
      · split
        · exact confined_faultNow _ _
        · generalize (if r.partner.isSome = true then s.bundleDigests k r (r.snapshot b) b else []) = ds
          cases s.pairAgrees r ds
          · exact confined_pairStop
          · exact confined_setRun hr rfl

theorem confined_closeBundle (sl : Slot) : Confined k s (s.closeBundle k sl) := by
  unfold State.closeBundle
  split
  · exact confined_refl k s
  · next r hr =>
    split
    · exact confined_refl k s
    · dsimp only
      split
      · exact confined_setRun hr rfl
      · split
        · exact (confined_faultRun _ _ _ _).after (confined_setRun hr rfl)
        · exact confined_setRun hr rfl

/-- A slot's effect is confined to the core that issues it, whatever it reads. -/
def Confines (f : Effect) : Prop := ∀ k is b t, Confined k t (f k is b t)

theorem confined_actSlot (sl : Slot) (w : Nat) (b : Bundle) {f : Effect} (hf : Confines f) : Confined k s (s.actSlot k sl w b f) := by
  unfold State.actSlot
  split
  · exact confined_refl k s
  · split
    · exact confined_refl k s
    · split
      · exact (hf _ _ _ _).trans (confined_closeBundle _)
      · exact confined_refl k s

/-- A slot that issues is confined to its core where its effect is. -/
theorem confined_issue {i : Instr} {c : LCore} {sl : Slot} {w : Nat} (hi : slotOf i = some (c, sl, w)) {f : Effect} (hf : Confines f) :
    Confined c s (s.issue i f) := by
  unfold State.issue
  rw [hi]
  dsimp only
  split
  · exact confined_refl _ s
  · next r hr =>
    split
    · exact confined_refl _ s
    · split
      · exact confined_refl _ s
      · split
        · exact confined_refl _ s
        · split
          · exact confined_actSlot _ _ _ hf
          · split
            · exact confined_refl _ s
            · have hopen := confined_openBundle (s := s) hr
              split
              · exact (hopen _).trans (confined_actSlot _ _ _ hf)
              · exact hopen _

/-! ### Values that enter a task, local stores, fabric operations (R142, R143, R187, R220) -/

theorem confined_passOn (i : Nat) (v : List Byte) (marks : List Nat) : Confined k s (s.passOn k i v marks) := by
  unfold State.passOn
  split
  · exact confined_modRun fun _ => rfl
  · exact confined_refl k s

theorem confined_enterC (is : Issue) (b : Bundle) {get : State → Word × State} (hget : Confined k s (get s).2) :
    Confined k s (s.enterC k is b get).2 := by
  unfold State.enterC
  dsimp only
  split
  · exact confined_refl k s
  · split
    · exact confined_refl k s
    · exact hget.trans (confined_passOn _ _ _)

theorem confined_useMarked (slot : Nat) (l : List Range) : Confined k s (s.useMarked k slot l) := by
  unfold State.useMarked
  split
  · split
    · exact confined_faultRun _ _ _ _
    · exact confined_refl k s
  · exact confined_refl k s

theorem confined_useLocal (slot : Nat) (l : List Range) (obs : List StoreLine) : Confined k s (s.useLocal k slot l obs) :=
  (confined_of_same (runsAndBeyond_storeReads _ _ _)).trans (confined_useMarked _ _)

theorem confined_addFab (o : FabOp) : Confined k s (s.addFab k o) := confined_modRun fun _ => rfl

theorem confined_goOut (r : Run) (o : FabOp) (pk perm : Nat) (data : Nat → Nat → List Byte) : Confined k s (s.goOut k r o pk perm data) := by
  unfold State.goOut
  dsimp only
  split
  · exact confined_addFab _
  · exact (confined_of_same ((runsAndBeyond_sendShares _ _ _ _ _).trans (runsAndBeyond_cacheRun _ _ _ _))).trans (confined_addFab _)

theorem confined_issueGet (r : Run) (va : Word) (loc n : Nat) (inward : Option Nat) : Confined k s (s.issueGet k r va loc n inward) := by
  unfold State.issueGet
  dsimp only
  split
  · exact confined_faultRun _ _ _ _
  · exact confined_goOut _ _ _ _ _

theorem confined_putEffect (kind : FabKind) (va : Word) (loc n : Nat) (sig : Option (Node × Nat)) (obs : List StoreLine) :
    Confined k s (s.putEffect k kind va loc n sig obs) := by
  unfold State.putEffect
  split
  · exact confined_refl k s
  · split
    · exact confined_faultRun _ _ _ _
    · dsimp only
      split
      · exact confined_useLocal _ _ _
      · exact (confined_useLocal _ _ _).trans (confined_goOut _ _ _ _ _)

theorem confined_atomicEffect (is : Issue) (b : Bundle) (op : Nat) (va arg cmp : Word) (rd : XReg) :
    Confined k s (s.atomicEffect k is b op va arg cmp rd) := by
  unfold State.atomicEffect
  split
  · exact confined_refl k s
  · split
    · exact confined_addFab _
    · exact confined_goOut _ _ _ _ _

end Confinement

/-! ### The effects of the task instructions (R137–R150) -/

theorem confines_nothing : Confines (fun _ _ _ t => t) := fun k _ _ t => confined_refl k t

theorem confines_modRun {g : Nat → Issue → Bundle → State → Run → Run} (hg : ∀ k is b t r, (g k is b t r).partner = r.partner) :
    Confines (fun k is b t => t.modRun k (g k is b t)) := fun k is b t => confined_modRun (hg k is b t)

/-- An effect that the shadow of a pair leaves out (R187). -/
theorem confines_unlessShadow {f : Effect} (hf : Confines f) : Confines (fun k is b t => if t.isShadow k then t else f k is b t) := by
  intro k is b t
  dsimp only
  split
  · exact confined_refl k t
  · exact hf k is b t

/-- An instruction whose register takes a value that enters the task (R187). -/
theorem confines_enterC (rd : XReg) {get : Nat → Issue → State → Word × State} (hget : ∀ k is t, Confined k t (get k is t).2) :
    Confines (fun k is b t => (t.enterC k is b (get k is)).2.writeX k rd (t.enterC k is b (get k is)).1) :=
  fun k is b t => (confined_enterC is b (hget k is t)).trans (confined_writeX _ _)

/-- Where a command goes on, its next state is confined to core k. -/
def NextConfined (k : Nat) (s : State) (o : Host.Outcome State Fault Refusal) : Prop := ∀ t, o = .next t → Confined k s t

section Commands

variable {s : State} {i : Instr} {c : LCore} {sl : Slot} {w : Nat}

theorem nextConfined_issue (hi : slotOf i = some (c, sl, w)) {f : Effect} (hf : Confines f) : NextConfined c s (.next (s.issue i f)) := by
  rintro _ ⟨⟩
  exact confined_issue hi hf

theorem nextConfined_scalar (hi : slotOf i = some (c, sl, w)) (rd : XReg) (f : Issue → Word) : NextConfined c s (s.scalar i rd f) :=
  nextConfined_issue hi fun _ _ _ _ => confined_writeX _ _

theorem nextConfined_branch (hi : slotOf i = some (c, sl, w)) (off : BitVec 24) (taken : Issue → Bool) :
    NextConfined c s (s.branch i off taken) := by
  refine nextConfined_issue hi fun k is b t => ?_
  split
  · exact confined_modRun fun _ => rfl
  · exact confined_refl k t

theorem nextConfined_vector (hi : slotOf i = some (c, sl, w)) (vd : VReg) (f : Issue → List Res) : NextConfined c s (s.vector i vd f) :=
  nextConfined_issue hi fun _ _ _ _ => confined_modRun fun _ => rfl

/-! ### Slot C: special registers, sync objects, tokens, collectives (R137, R147–R149) -/

theorem confines_rdsr (rd : XReg) (idx : Nat) : Confines (fun k is b t =>
    match t.runOf k with
    | none => t
    | some r =>
      let p := if rdsrInward idx then t.enterC k is b (fun t => t.special k r is idx) else t.special k r is idx
      p.2.writeX k rd p.1) := by
  intro k is b t
  dsimp only
  split
  · exact confined_refl k t
  · refine Confined.trans ?_ (confined_writeX _ _)
    split
    · exact confined_enterC _ _ (confined_of_same (runsAndBeyond_special _ _ _ _))
    · exact confined_of_same (runsAndBeyond_special _ _ _ _)

theorem nextConfined_ssig (k : LCore) (rs1 rs2 : XReg) : NextConfined k s (execSsig k rs1 rs2 s) := by
  refine nextConfined_issue rfl (confines_unlessShadow fun k is b t => ?_)
  split
  · exact confined_of_same (runsAndBeyond_sendSignal _ _ _ _ _)
  · exact confined_refl k t

theorem nextConfined_srst (k : LCore) (rs1 : XReg) : NextConfined k s (execSrst k rs1 s) := by
  refine nextConfined_issue rfl (confines_unlessShadow fun k is b t => ?_)
  split
  · exact confined_of_same (runsAndBeyond_setCounter _ _)
  · exact confined_refl k t

theorem nextConfined_tunbind (k : LCore) (e : Endp) : NextConfined k s (execTunbind k e s) := by
  refine nextConfined_issue rfl fun k is b t => ?_
  split
  · exact confined_refl k t
  · exact confined_of_same (runsAndBeyond_unbindEnd _)

theorem nextConfined_tsend (k : LCore) (e : Endp) (rs1 : XReg) : NextConfined k s (execTsend k e rs1 s) := by
  refine nextConfined_issue rfl (confines_unlessShadow fun k is b t => ?_)
  dsimp only
  split
  · exact confined_of_same rfl
  · exact confined_refl k t

theorem nextConfined_clnch (k : LCore) (rs1 rs2 : XReg) (obs : List StoreLine) : NextConfined k s (execClnch k rs1 rs2 obs s) := by
  refine nextConfined_issue rfl fun k is b t => ?_
  have hread := confined_of_same (k := k) (runsAndBeyond_storeReads (s := t) k [((is.x rs2).toNat, 64)] obs)
  dsimp only
  split
  · exact hread.trans (confined_useMarked _ _)
  · split
    · exact hread
    · exact hread.trans (confined_of_same rfl)

/-! ### Slots A and I: stores, fabric operations, chains (R141–R146) -/

theorem nextConfined_get (k : LCore) (rd rs1 rs2 : XReg) : NextConfined k s (execGet k rd rs1 rs2 s) := by
  refine nextConfined_issue rfl fun k is b t => ?_
  split
  · exact confined_refl k t
  · dsimp only
    split
    · split
      · exact confined_refl k t
      · exact confined_addFab _
    · exact confined_issueGet _ _ _ _ _

theorem nextConfined_vld (k : LCore) (v : VReg) (ag : AReg) (w : Fin 4) (obs : List StoreLine) : NextConfined k s (execVld k v ag w obs s) := by
  refine nextConfined_issue rfl fun k is b t => ?_
  have hwrite {u : State} (x : BitVec 4096) : Confined k u (u.writeV k v x) := confined_modRun fun _ => rfl
  have hstep {u : State} (g : AG) : Confined k u (u.modRun k (fun r => r.writeAg ag g)) := confined_modRun fun _ => rfl
  exact ((confined_useLocal _ _ _).trans (hwrite _)).trans (hstep _)

theorem nextConfined_vst (k : LCore) (v : VReg) (ag : AReg) (w : Fin 4) : NextConfined k s (execVst k v ag w s) := by
  refine nextConfined_issue rfl fun k is b t => ?_
  have hstep {u : State} (g : AG) : Confined k u (u.modRun k (fun r => r.writeAg ag g)) := confined_modRun fun _ => rfl
  exact (hstep _).after (confined_of_same rfl)

theorem nextConfined_tmma (k : LCore) (aga agb : AReg) (fa fb : Fin 16) (mx sparse : Bool) (rk rs : XReg) (obs : List StoreLine) :
    NextConfined k s (execTmma k aga agb fa fb mx sparse rk rs obs s) := by
  refine nextConfined_issue rfl fun k is b t => ?_
  dsimp only
  split
  · exact confined_refl k t
  · next r hr =>
    split
    · exact confined_refl k t
    · exact (confined_useLocal _ _ _).after (confined_setRun hr rfl)

theorem nextConfined_tfin (k : LCore) (ago : AReg) (ofmt : Fin 16) (sat sr ftz : Bool) (rx : XReg) :
    NextConfined k s (execTfin k ago ofmt sat sr ftz rx s) := by
  refine nextConfined_issue rfl fun k is b t => confined_modRun fun r => ?_
  split <;> rfl

theorem nextConfined_vwred (k : LCore) (vd vs1 : VReg) (rs : XReg) : NextConfined k s (execVwred k vd vs1 rs s) := by
  refine nextConfined_issue rfl fun k is b t => confined_modRun fun r => ?_
  dsimp only
  split <;> rfl

theorem nextConfined_vwredr (k : LCore) (vd vs1 : VReg) (rs : XReg) : NextConfined k s (execVwredr k vd vs1 rs s) := by
  refine nextConfined_issue rfl fun k is b t => confined_modRun fun r => ?_
  dsimp only
  split <;> rfl

theorem nextConfined_vradd (k : LCore) (vd vs1 vs2 : VReg) : NextConfined k s (execVradd k vd vs1 vs2 s) := by
  refine nextConfined_issue rfl fun k is b t => confined_modRun fun r => ?_
  dsimp only
  split <;> rfl

/-- A task instruction is confined to its core: it changes that core's run and, by a fault or a disagreement, its partner's. -/
theorem nextConfined_task (hi : slotOf i = some (c, sl, w)) : NextConfined c s (exec i s) := by
  cases i with
  | nop | twait | fwait => exact nextConfined_issue hi confines_nothing
  | add | sub | and | or | xor | sll | srl | sra | mul | mulhu | divu | remu | slt | sltu | min | max | addi | andi | ori | xori | lui | lhi =>
    exact nextConfined_scalar hi _ _
  | beq | bne | blt | bge | bltu | bgeu => exact nextConfined_branch hi _ _
  | vadd | vsub | vmul | vfma | vdiv | vsqrt | vmax | vmin | vexp | vlog | vrsqrt | vtanh | vsig | vrsum | vrmax | vrmin =>
    exact nextConfined_vector hi _ _
  | agbase | agdim | agstep | tend | vbcast | vcvt => exact nextConfined_issue hi (confines_modRun fun _ _ _ _ _ => rfl)
  | agrd | vlane => exact nextConfined_issue hi (confines_modRun fun _ _ _ _ r => partner_writeX r _ _)
  | tfin => cases hi; exact nextConfined_tfin _ _ _ _ _ _ _
  | vwred => cases hi; exact nextConfined_vwred _ _ _ _
  | vwredr => cases hi; exact nextConfined_vwredr _ _ _ _
  | vradd => cases hi; exact nextConfined_vradd _ _ _ _
  | jal | jalr => exact nextConfined_issue hi fun _ _ _ _ => (confined_writeX _ _).trans (confined_modRun fun _ => rfl)
  | rdsr => exact nextConfined_issue hi (confines_rdsr _ _)
  | ssig => cases hi; exact nextConfined_ssig _ _ _
  | srst => cases hi; exact nextConfined_srst _ _
  | swait | srd | tstat => exact nextConfined_issue hi (confines_enterC _ fun k _ t => confined_refl k t)
  | trecv =>
    exact nextConfined_issue hi (confines_enterC _ fun _ _ _ => confined_of_same (runsAndBeyond_returnCredit _))
  | tbind => exact nextConfined_issue hi (confines_unlessShadow fun _ _ _ _ => confined_of_same rfl)
  | tunbind => cases hi; exact nextConfined_tunbind _ _
  | tsend => cases hi; exact nextConfined_tsend _ _ _
  | clnch => cases hi; exact nextConfined_clnch _ _ _ _
  | vld => cases hi; exact nextConfined_vld _ _ _ _ _
  | vst => cases hi; exact nextConfined_vst _ _ _ _
  | sld => exact nextConfined_issue hi fun _ _ _ _ => (confined_useLocal _ _ _).trans (confined_writeX _ _)
  | sst => exact nextConfined_issue hi fun _ _ _ _ => confined_of_same rfl
  | move | tstart => exact nextConfined_issue hi fun _ _ _ _ => (confined_useLocal _ _ _).after (confined_modRun fun _ => rfl)
  | get => cases hi; exact nextConfined_get _ _ _ _
  | put | puts => exact nextConfined_issue hi fun _ _ _ _ => confined_putEffect _ _ _ _ _ _
  | aadd | amin | amax | aswp | acas => exact nextConfined_issue hi fun _ _ _ _ => confined_atomicEffect _ _ _ _ _ _ _
  | tmma => cases hi; exact nextConfined_tmma _ _ _ _ _ _ _ _ _ _
  | _ => cases hi

end Commands

/-- Settles O58: a task instruction is confined to its core and that core's partner. -/
theorem taskIsolation : Obligations.TaskIsolation := by
  unfold Obligations.TaskIsolation
  intro i k sl w s t hi ht
  obtain ⟨hruns, -, hbeyond⟩ := nextConfined_task hi t ht
  refine ⟨fun j hj hp => hruns j hj fun hk => ?_, ?_⟩
  · obtain ⟨r, hr, hrj⟩ := Option.bind_eq_some_iff.mp hk
    exact hp r hr hrj
  · simpa only [beyondTasks, Prod.mk.injEq] using hbeyond

end Sys2Proof.Proofs
end

section
/-! SUPPORT. Token channels (R82, R148): what the token instructions of a task outside a pair do, the order in which tokens in flight arrive, and
the statement on them. -/

namespace Sys2Proof.Proofs

open Sys2Proof Sys2Proof.Machine

section Unpaired

variable {s : State} {k : LCore} {sl : Slot} {w : Nat} {r : Run} {is : Issue} {b : Bundle} {i : Instr}

/-! ### A task outside a pair -/

theorem isShadow_unpaired {k : Nat} (hr : s.runOf k = some r) (hp : r.partner = none) : s.isShadow k = false := by
  simp [State.isShadow, hr, hp]

theorem taskCtx_run {k : Nat} (hr : s.runOf k = some r) : s.taskCtx k = r.task.ctx := by simp [State.taskCtx, hr]

/-- Outside a pair a value that enters the task is obtained, and passed on to nobody (R187). -/
theorem enterC_unpaired {k : Nat} (hr : s.runOf k = some r) (hp : r.partner = none) {get : State → Word × State}
    (hget : (get s).2.runOf k = some r) : s.enterC k is b get = get s := by
  have hpass (n : Nat) (v : List Byte) : (get s).2.passOn k n v [] = (get s).2 := by simp [State.passOn, State.isPrimary, hget, hp]
  simp [State.enterC, hr, hp, hpass]

/-- An instruction whose effect an unpaired task does not leave out. -/
theorem exec_unlessShadow (h : Acts s i k sl w r is b) (hp : r.partner = none) (f : Effect) :
    s.issue i (fun k is b t => if t.isShadow k then t else f k is b t) = (f k is b s).closeBundle k sl := by
  rw [issue_acts h, isShadow_unpaired h.run hp, if_neg Bool.false_ne_true]

/-- An instruction whose register takes a value that enters an unpaired task. -/
theorem exec_enterC (h : Acts s i k sl w r is b) (hp : r.partner = none) (rd : XReg) {get : Nat → Issue → State → Word × State}
    (hget : (get k is s).2.runOf k = some r) :
    s.issue i (fun k is b t => (t.enterC k is b (get k is)).2.writeX k rd (t.enterC k is b (get k is)).1)
      = ((get k is s).2.setRun k (r.writeX rd (get k is s).1)).closeBundle k sl := by
  rw [issue_acts h, enterC_unpaired h.run hp hget, State.writeX, modRun_run hget]

/-! ### The instructions (R148) -/

variable {e : Endp} {rd rs1 : XReg}

theorem exec_tbind (h : Acts s (.tbind k e rs1) k .C w r is b) (hp : r.partner = none) :
    let s1 := s.setEndpoint (endKey k e) { (s.endpoint (endKey k e)) with peer := some (peerKey (is.x rs1), r.task.ctx), credits := 16 }
    exec (.tbind k e rs1) s = .next ((s1.setEndpoint (peerKey (is.x rs1)) { (s1.endpoint (peerKey (is.x rs1))) with
      claim := some r.task.ctx }).closeBundle k .C) := by
  rw [← taskCtx_run h.run]
  exact congrArg _ (exec_unlessShadow h hp _)

theorem exec_tunbind (h : Acts s (.tunbind k e) k .C w r is b) (hp : r.partner = none) {p : Nat}
    (hpeer : (s.endpoint (endKey k e)).peer = some (p, r.task.ctx)) :
    let s1 := s.setEndpoint (endKey k e) { (s.endpoint (endKey k e)) with peer := none, credits := 16 }
    exec (.tunbind k e) s = .next ((s1.setEndpoint p { (s1.endpoint p) with claim := none }).closeBundle k .C) := by
  have hbound : (s.endpoint (endKey k e)).boundBy (s.taskCtx k) = true := by simp [EndpointSt.boundBy, hpeer, taskCtx_run h.run]
  refine congrArg _ ((issue_acts h _).trans ?_)
  simp only [isShadow_unpaired h.run hp, hbound, State.unbindEnd, hpeer, Bool.not_true, Bool.false_eq_true, or_self, if_false]

theorem exec_tsend (h : Acts s (.tsend k e rs1) k .C w r is b) (hp : r.partner = none) {p c : Nat}
    (hpeer : (s.endpoint (endKey k e)).peer = some (p, c)) :
    let s1 := s.setEndpoint (endKey k e) { (s.endpoint (endKey k e)) with credits := (s.endpoint (endKey k e)).credits - 1 }
    exec (.tsend k e rs1) s = .next ({ s1 with
      cores := { s1.cores with tokens := s.cores.tokens ++ [(p, clusterOf k, is.x rs1)] } }.closeBundle k .C) := by
  refine congrArg _ ((exec_unlessShadow h hp _).trans ?_)
  simp only [hpeer]
  rfl

theorem runOf_returnCredit (j key : Nat) : (s.returnCredit key).runOf j = s.runOf j := by
  unfold State.returnCredit
  split <;> rfl

theorem exec_trecv (h : Acts s (.trecv k rd e) k .C w r is b) (hp : r.partner = none) {v : Word} {t : List Word}
    (hq : (s.endpoint (endKey k e)).queue = v :: t) :
    exec (.trecv k rd e) s = .next ((((s.setEndpoint (endKey k e) { (s.endpoint (endKey k e)) with queue := t }).returnCredit
      (endKey k e)).setRun k (r.writeX rd v)).closeBundle k .C) := by
  have hrun (x : EndpointSt) : ((s.setEndpoint (endKey k e) x).returnCredit (endKey k e)).runOf k = some r :=
    (runOf_returnCredit _ _).trans h.run
  refine congrArg _ ((exec_enterC h hp rd (hrun _)).trans ?_)
  simp only [hq, List.headD_cons, List.tail_cons]

theorem exec_tstat (h : Acts s (.tstat k rd e) k .C w r is b) (hp : r.partner = none) :
    exec (.tstat k rd e) s = .next ((s.setRun k (r.writeX rd (BitVec.ofNat 64 ((s.endpoint (endKey k e)).queue.length
      + (s.endpoint (endKey k e)).credits * 2 ^ 8 + ofBool (s.endpoint (endKey k e)).peer.isSome * 2 ^ 16)))).closeBundle k .C) :=
  congrArg _ (exec_enterC h hp rd h.run)

/-! ### The arrival of tokens (R58, R65, R82) -/

theorem endKey_div (k : Nat) (e : Endp) : endKey k e / 8 = k := by
  have := e.isLt
  unfold endKey
  omega

/-- The oldest token to an endpoint is next where it comes from the endpoint's own cluster, or none sent before it takes the same way. -/
theorem tokenNext_inOrder {src : Nat} {v : Word} {rest : List (Nat × Nat × Word)}
    (ht : takeFirst (endKey k e) s.cores.tokens = some ((src, v), rest))
    (ho : src = clusterOf k ∨ ∀ t ∈ s.cores.tokens.takeWhile (fun t => t.1 != endKey k e), t.2.1 = src → clusterOf (t.1 / 8) ≠ clusterOf k) :
    s.tokenNext (endKey k e) = some (v, rest) := by
  simp only [State.tokenNext, ht, endKey_div]
  refine if_neg ?_
  rintro ⟨hsrc, hahead⟩
  obtain ⟨t, htm, hteq⟩ := List.any_eq_true.mp hahead
  simp only [Bool.and_eq_true, beq_iff_eq] at hteq
  exact ho.resolve_left hsrc t htm hteq.1 hteq.2

theorem exec_tokenArrival_queued {v : Word} {rest : List (Nat × Nat × Word)} (hn : s.tokenNext (endKey k e) = some (v, rest))
    (hm : s.moveBegun k = false) (hr : s.coreInReset k = false) :
    exec (.tokenArrival k e) s = .next (({ s with cores := { s.cores with tokens := rest } }).setEndpoint (endKey k e)
      { (s.endpoint (endKey k e)) with queue := (s.endpoint (endKey k e)).queue ++ [v] }) := by
  have hr' : ({ s with cores := { s.cores with tokens := rest } } : State).coreInReset (endKey k e / 8) = false := by
    rw [endKey_div]
    exact hr
  show execTokenArrival k e s = _
  simp only [execTokenArrival, hn, hm, State.tokenIn, hr', Bool.false_eq_true, if_false]
  rfl

theorem exec_tokenArrival_held {v : Word} {rest : List (Nat × Nat × Word)} (hn : s.tokenNext (endKey k e) = some (v, rest))
    (hm : s.moveBegun k = true) :
    exec (.tokenArrival k e) s = .next { s with cores := { s.cores with tokens := rest
                                                                        heldTokens := s.cores.heldTokens ++ [(endKey k e, v)] } } := by
  show execTokenArrival k e s = _
  simp only [execTokenArrival, hn, hm, if_true]

end Unpaired

/-- Settles O22: each instruction by its own rule, and the arrival of the token that is next. -/
theorem tokenChannels : Obligations.TokenChannels := by
  unfold Obligations.TokenChannels
  intro k e rd rs1 s w r is b hp
  exact ⟨fun h => exec_tbind h hp, fun p h hpeer => exec_tunbind h hp hpeer, fun p c h hpeer => exec_tsend h hp hpeer,
    fun v t h hq => exec_trecv h hp hq, fun h => exec_tstat h hp,
    fun src v rest ht ho => ⟨fun hm hr => exec_tokenArrival_queued (tokenNext_inOrder ht ho) hm hr,
      fun hm => exec_tokenArrival_held (tokenNext_inOrder ht ho) hm⟩⟩

end Sys2Proof.Proofs
end

section
/-! SUPPORT. Registers under a host's write (R12): which fields of the register a write leaves, and that it leaves every other register. -/

namespace Sys2Proof.Proofs

open Sys2Proof Sys2Proof.Machine

section HostWrites

variable {s : State}

/-- Two fields of one register share no bit. -/
abbrev Apart (f g : Fld) : Prop := g.hi < f.lo ∨ f.hi < g.lo

/-- A field of another register is left by a register's write. -/
theorem fld_setReg_off {off : Nat} {g : Fld} (w : Word) (h : g.off ≠ off) : (s.setReg off w).fld g = s.fld g := by
  simp only [State.fld, reg_setReg_other _ _ h]

/-- A host's write leaves every field that shares no bit with a field that it sets or clears. -/
theorem getBits_applyWrite_apart {takes : Acc → Bool} {g : Fld} (hg : g.hi < 64) (w v : Word) (l : List RegField)
    (h : ∀ f ∈ l, takes f.acc = true ∨ f.acc = .w1c → Apart ⟨0, f.hi, f.lo⟩ g) : getBits (applyWrite takes w v l) g = getBits w g := by
  unfold applyWrite
  induction l generalizing w with
  | nil => rfl
  | cons f t ih =>
    rw [List.foldl_cons, ih _ (fun f' hf' => h f' (List.mem_cons_of_mem f hf'))]
    have hf := h f List.mem_cons_self
    dsimp only
    split
    · next ht => exact getBits_putBits_other _ _ _ _ hg (hf (.inl ht))
    · split
      · next hc => exact getBits_putBits_other _ _ _ _ hg (hf (.inr hc))
      · rfl

/-- A host's write of a register is a write of that register, or of none. -/
theorem writeUnder_keeps {β : Type} (p : State → β) (h : ∀ s off w, p (State.setReg s off w) = p s) (takes : Acc → Bool) (off : Nat) (v : Word) :
    p (s.writeUnder takes off v) = p s := by
  unfold State.writeUnder
  split
  · exact h _ _ _
  · rfl

theorem fld_writeUnder_off (takes : Acc → Bool) {off : Nat} (v : Word) {g : Fld} (h : g.off ≠ off) :
    (s.writeUnder takes off v).fld g = s.fld g := by
  unfold State.writeUnder
  split
  · exact fld_setReg_off _ h
  · rfl

theorem reg_writeUnder_off (takes : Acc → Bool) {off off' : Nat} (v : Word) (h : off' ≠ off) :
    (s.writeUnder takes off v).reg off' = s.reg off' := by
  unfold State.writeUnder
  split
  · exact reg_setReg_other _ _ h
  · rfl

theorem fld_writeUnder_apart {takes : Acc → Bool} {off : Nat} {l : List RegField} (hl : regLayout off = some l) (v : Word) {g : Fld}
    (hoff : g.off = off) (hg : g.hi < 64) (h : ∀ f ∈ l, takes f.acc = true ∨ f.acc = .w1c → Apart ⟨0, f.hi, f.lo⟩ g) :
    (s.writeUnder takes off v).fld g = s.fld g := by
  simp only [State.writeUnder, hl, State.fld, hoff, reg_setReg_same]
  exact getBits_applyWrite_apart hg _ _ _ h

@[simp] theorem writeUnder_cores (takes : Acc → Bool) (off : Nat) (v : Word) : (s.writeUnder takes off v).cores = s.cores :=
  writeUnder_keeps _ (fun _ _ _ => rfl) _ _ _
@[simp] theorem writeUnder_fab (takes : Acc → Bool) (off : Nat) (v : Word) : (s.writeUnder takes off v).fab = s.fab :=
  writeUnder_keeps _ (fun _ _ _ => rfl) _ _ _
@[simp] theorem writeUnder_sync (takes : Acc → Bool) (off : Nat) (v : Word) : (s.writeUnder takes off v).sync = s.sync :=
  writeUnder_keeps _ (fun _ _ _ => rfl) _ _ _
@[simp] theorem writeUnder_pwr (takes : Acc → Bool) (off : Nat) (v : Word) : (s.writeUnder takes off v).pwr = s.pwr :=
  writeUnder_keeps _ (fun _ _ _ => rfl) _ _ _

/-- A value of a field fits the field. -/
theorem getBits_lt (w : Word) (f : Fld) : getBits w f < 2 ^ (f.hi + 1 - f.lo) := (w.extractLsb' f.lo (f.hi + 1 - f.lo)).isLt

theorem fld_lt (f : Fld) : s.fld f < 2 ^ (f.hi + 1 - f.lo) := getBits_lt _ _

/-- Reading a field after writing a value that fits it. -/
theorem fld_setFld_fits (f : Fld) {v : Nat} (h : f.hi < 64) (hv : v < 2 ^ (f.hi + 1 - f.lo)) : (s.setFld f v).fld f = v := by
  rw [fld_setFld_same _ _ _ h, Nat.mod_eq_of_lt hv]

/-- Putting a bit that is read back. -/
theorem getBits_putBits_one (w : Word) {f : Fld} (h : f.hi < 64) (hf : f.lo ≤ f.hi) : getBits (putBits w f 1) f = 1 := by
  rw [getBits_putBits_same _ _ _ h, Nat.mod_eq_of_lt]
  exact Nat.one_lt_two_pow (by omega)

end HostWrites

end Sys2Proof.Proofs
end

section
/-! SUPPORT. Contexts, quota limits and programs (R70–R73, R85, R86, R131, R132): what a write of CTX.CTL, of a limit and of TASK.BINDCMD does,
and the statement on them. -/

namespace Sys2Proof.Proofs

open Sys2Proof Sys2Proof.Machine

section Contexts

variable {s : State} {c : Ctx} {v : Word}

/-! ### CTX.CTL (R70–R73) -/

theorem exec_ctxCreate (h : Taken s (rCtxCtl c)) : exec (.ctxCreate c v) s = .next (s.ctxCtlWrite c (putBits v (fCtxCtlCreate 0) 1)) :=
  congrArg _ (hostWrite_taken _ _ _ h)

theorem exec_ctxDestroy (h : Taken s (rCtxCtl c)) : exec (.ctxDestroy c v) s = .next (s.ctxCtlWrite c (putBits v (fCtxCtlDestroy 0) 1)) :=
  congrArg _ (hostWrite_taken _ _ _ h)

/-- A create that is written without destroy ends with its result. -/
theorem ctxCtlWrite_create (hd : getBits v (fCtxCtlDestroy c) = 0) : s.ctxCtlWrite c (putBits v (fCtxCtlCreate 0) 1) =
    (if s.createResult c = cxDone then s.ctxOpen c else s).setFld (fCtxCtlResult c) (s.createResult c) := by
  have hcreate : getBits (putBits v (fCtxCtlCreate 0) 1) (fCtxCtlCreate c) = 1 := getBits_putBits_one v (f := fCtxCtlCreate 0) (by decide) (by decide)
  have hdestroy : getBits (putBits v (fCtxCtlCreate 0) 1) (fCtxCtlDestroy c) = 0 :=
    (getBits_putBits_other v (fCtxCtlCreate 0) (fCtxCtlDestroy 0) 1 (by decide) (by decide)).trans hd
  simp only [State.ctxCtlWrite, hcreate, hdestroy]
  rw [if_neg (by decide), if_neg (by decide), if_pos (by decide)]
  split <;> rfl

/-- A destroy that is written without create ends with its result; one that succeeds takes away a bound host window. -/
theorem ctxCtlWrite_destroy (hc : getBits v (fCtxCtlCreate c) = 0) : s.ctxCtlWrite c (putBits v (fCtxCtlDestroy 0) 1) =
    (if s.destroyResult c = cxDone then
      let s1 := s.setFld (fCtxCtlState c) cClosing
      if s1.bit fZfHostwinOn && s1.fld fZfHostwinCtx == c.val then s1.setFld fZfHostwinOn 0 else s1
    else s).setFld (fCtxCtlResult c) (s.destroyResult c) := by
  have hdestroy : getBits (putBits v (fCtxCtlDestroy 0) 1) (fCtxCtlDestroy c) = 1 :=
    getBits_putBits_one v (f := fCtxCtlDestroy 0) (by decide) (by decide)
  have hcreate : getBits (putBits v (fCtxCtlDestroy 0) 1) (fCtxCtlCreate c) = 0 :=
    (getBits_putBits_other v (fCtxCtlDestroy 0) (fCtxCtlCreate 0) 1 (by decide) (by decide)).trans hc
  simp only [State.ctxCtlWrite, hcreate, hdestroy]
  rw [if_neg (by decide), if_neg (by decide), if_neg (by decide)]
  split <;> rfl

/-- The host window is bound or not whatever the state of a context. -/
theorem hostwinOn_setState (n : Nat) : (s.setFld (fCtxCtlState c) n).fld fZfHostwinOn = s.fld fZfHostwinOn := by
  refine fld_setFld_off _ _ _ _ ?_
  have := c.isLt
  simp only [fZfHostwinOn, rZfHostwin, fCtxCtlState, rCtxCtl]
  omega

theorem createResult_wrongState (h : s.fld (fCtxCtlState c) ≠ 0) : s.createResult c = 3 := if_pos h

/-- A create of a FREE context depends on its partition. -/
theorem createResult_free (h : s.fld (fCtxCtlState c) = 0) : s.createResult c = match s.partOf c with
    | none => 1
    | some p => if s.isOpen p then 0 else 2 := (if_neg (not_not.mpr h)).trans rfl

theorem destroyResult_wrongState (h : s.fld (fCtxCtlState c) ≠ 1) : s.destroyResult c = 3 := if_pos h

theorem destroyResult_active (h : s.fld (fCtxCtlState c) = 1) : s.destroyResult c = if s.ctxBusy c then 4 else 0 := if_neg (not_not.mpr h)

/-- A context that is freed is FREE and has no keys. -/
theorem freed_context (u : State) (c : Ctx) :
    let t : State := { (u.setFld (fCtxCtlState c) 0) with fab := { u.fab with keyOf := eraseKey u.fab.keyOf c } }
    t.fld (fCtxCtlState c) = 0 ∧ lookupKey t.fab.keyOf c = none :=
  ⟨fld_setFld_fits (s := u) (fCtxCtlState c) (of_decide_eq_true rfl) (of_decide_eq_true rfl), lookupKey_eraseKey_same _ _⟩

/-- CONTEXT_FREE of a CLOSING context without map commands that wait and without records due (R72). -/
theorem exec_contextFree (hs : s.fld (fCtxCtlState c) = 2) (hd : s.fab.dropping = none)
    (hr : s.que.recs.any (fun w => w.record.ctx == c.val) = false) :
    let s1 := ((((s.releaseSync c).releasePages c).releaseGroups c).releaseStores c).releaseQueues c
    exec (.contextFree c) s = .next { (s1.setFld (fCtxCtlState c) 0) with fab := { s1.fab with keyOf := eraseKey s1.fab.keyOf c } } := by
  refine congrArg _ (if_neg ?_)
  simp [hs, hd, hr, cClosing]

/-! ### Limits (R85, R86) -/

theorem regLayout_qsync (c : Ctx) : regLayout (rCtxQsync c) = some layCtxQsync := by decide +revert

theorem regLayout_qgroups (c : Ctx) : regLayout (rCtxQgroups c) = some layCtxQgroups := by decide +revert

theorem regLayout_qbw (c : Ctx) : regLayout (rCtxQbw c) = some layCtxQbw := by decide +revert

/-- A limit write takes the value clamped to the ceiling and to the least value; its flag says whether that changed it. -/
theorem fld_limitWrite {limit ceiling clamped : Fld} {low n : Nat} (hl : limit.hi < 64) (hc : Apart clamped limit)
    (hfits : max low (min n (s.fld ceiling)) < 2 ^ (limit.hi + 1 - limit.lo)) :
    (s.limitWrite limit ceiling clamped low n).fld limit = max low (min n (s.fld ceiling)) := by
  unfold State.limitWrite
  dsimp only
  split
  · exact fld_setFld_fits _ hl hfits
  · rw [fld_setFld_bits _ _ _ _ hl hc, fld_setFld_fits _ hl hfits]

/-- A host's write of a limit's register sets nothing on its own, so that the ceiling stays. -/
theorem ceiling_writeUnder {off : Nat} {l : List RegField} (hl : regLayout off = some l) {g : Fld} (hoff : g.off = off) (hg : g.hi < 64)
    (h : ∀ f ∈ l, f.acc = .w1c → Apart ⟨0, f.hi, f.lo⟩ g) : (s.writeUnder (fun _ => false) off v).fld g = s.fld g :=
  fld_writeUnder_apart hl v hoff hg fun f hf ha => h f hf (ha.resolve_left Bool.false_ne_true)

theorem limit_qsyncWrite (h : s.active c = true) :
    (s.qsyncWrite c v).fld (fCtxQsyncLimit c) = min (getBits v (fCtxQsyncLimit c)) (s.fld (fCtxQsyncCeiling c)) := by
  have hceiling : (s.writeUnder (fun _ => false) (rCtxQsync c) v).fld (fCtxQsyncCeiling c) = s.fld (fCtxQsyncCeiling c) :=
    ceiling_writeUnder (regLayout_qsync c) rfl (of_decide_eq_true rfl) (of_decide_eq_true rfl)
  have hfits := Nat.lt_of_le_of_lt (Nat.min_le_left (getBits v (fCtxQsyncLimit c)) (s.fld (fCtxQsyncCeiling c))) (getBits_lt _ _)
  have hopen : s.limitsOpen c = true := h
  rw [State.qsyncWrite, hopen, if_neg (by decide), State.setSyncUse]
  simp (disch := exact of_decide_eq_true rfl) only [fld_setFld_bits]
  rw [fld_limitWrite (of_decide_eq_true rfl) (of_decide_eq_true rfl) (by rwa [hceiling, Nat.zero_max]), hceiling, Nat.zero_max]

theorem limit_qpagesWrite (h : s.active c = true) :
    (s.qpagesWrite c v).fld (fCtxQpagesLimit c) = min (getBits v (fCtxQpagesLimit c)) (s.fld (fCtxQpagesCeiling c)) := by
  have hfits := Nat.lt_of_le_of_lt (Nat.min_le_left (getBits v (fCtxQpagesLimit c)) (s.fld (fCtxQpagesCeiling c))) (getBits_lt _ _)
  have hopen : s.limitsOpen c = true := h
  rw [State.qpagesWrite, hopen, if_neg (by decide), State.setPageUse]
  have hoff : (fCtxQpagesLimit c).off ≠ (fCtxUpagesUse c).off := by simp [fCtxQpagesLimit, fCtxUpagesUse, rCtxQpages, rCtxUpages]
  rw [fld_setFld_bits _ _ _ _ (of_decide_eq_true rfl) (of_decide_eq_true rfl), fld_setFld_off _ _ _ _ hoff, fld_limitWrite (of_decide_eq_true rfl) (of_decide_eq_true rfl) (by rwa [Nat.zero_max]), Nat.zero_max]

theorem limit_qgroupsWrite (h : s.active c = true) :
    (s.qgroupsWrite c v).fld (fCtxQgroupsLimit c) = min (getBits v (fCtxQgroupsLimit c)) (s.fld (fCtxQgroupsCeiling c)) := by
  have hceiling : (s.writeUnder (fun _ => false) (rCtxQgroups c) v).fld (fCtxQgroupsCeiling c) = s.fld (fCtxQgroupsCeiling c) :=
    ceiling_writeUnder (regLayout_qgroups c) rfl (of_decide_eq_true rfl) (of_decide_eq_true rfl)
  have hfits := Nat.lt_of_le_of_lt (Nat.min_le_left (getBits v (fCtxQgroupsLimit c)) (s.fld (fCtxQgroupsCeiling c))) (getBits_lt _ _)
  have hopen : s.limitsOpen c = true := h
  rw [State.qgroupsWrite, hopen, if_neg (by decide), State.setGroupUse]
  simp (disch := exact of_decide_eq_true rfl) only [fld_setFld_bits]
  rw [fld_limitWrite (of_decide_eq_true rfl) (of_decide_eq_true rfl) (by rwa [hceiling, Nat.zero_max]), hceiling, Nat.zero_max]

theorem limit_qbwWrite (h : s.active c = true) :
    (s.qbwWrite c v).fld (fCtxQbwShare c) = max 1 (min (getBits v (fCtxQbwShare c)) (s.fld (fCtxQbwCeiling c))) := by
  have hceiling : (s.writeUnder (fun _ => false) (rCtxQbw c) v).fld (fCtxQbwCeiling c) = s.fld (fCtxQbwCeiling c) :=
    ceiling_writeUnder (regLayout_qbw c) rfl (of_decide_eq_true rfl) (of_decide_eq_true rfl)
  have hfits : max 1 (min (getBits v (fCtxQbwShare c)) (s.fld (fCtxQbwCeiling c))) < 2 ^ 10 :=
    Nat.max_lt.mpr ⟨by decide, Nat.lt_of_le_of_lt (Nat.min_le_left _ _) (getBits_lt v (fCtxQbwShare c))⟩
  have hopen : s.limitsOpen c = true := h
  rw [State.qbwWrite, hopen, if_neg (by decide),
    fld_limitWrite (of_decide_eq_true rfl) (of_decide_eq_true rfl) (by rwa [hceiling]), hceiling]

theorem exec_qsyncLimitWrite (h : Taken s (rCtxQsync c)) : exec (.qsyncLimitWrite c v) s = .next (s.qsyncWrite c v) :=
  congrArg Host.Outcome.next (hostWrite_taken _ _ _ h)

theorem exec_qpagesLimitWrite (h : Taken s (rCtxQpages c)) : exec (.qpagesLimitWrite c v) s = .next (s.qpagesWrite c v) :=
  congrArg Host.Outcome.next (hostWrite_taken _ _ _ h)

theorem exec_qgroupsLimitWrite (h : Taken s (rCtxQgroups c)) : exec (.qgroupsLimitWrite c v) s = .next (s.qgroupsWrite c v) :=
  congrArg Host.Outcome.next (hostWrite_taken _ _ _ h)

theorem exec_qbwShareWrite (h : Taken s (rCtxQbw c)) : exec (.qbwShareWrite c v) s = .next (s.qbwWrite c v) :=
  congrArg Host.Outcome.next (hostWrite_taken _ _ _ h)

/-! ### Programs (R131, R132) -/

/-- A bind written without unbind. -/
theorem exec_bind {far : FarReply} (h : Taken s rTaskBindcmd) (hu : getBits v fTaskBindcmdUnbind = 0) :
    let s1 := s.writeUnder takesAll rTaskBindcmd (putBits v fTaskBindcmdBind 1)
    let r := s1.bindProg (getBits v fTaskBindcmdContext) (getBits v fTaskBindcmdProg) far
    exec (.bind v far) s = .next (r.1.setFld fTaskBindcmdResult r.2) := by
  refine congrArg _ ((hostWrite_taken _ _ _ h).trans ?_)
  simp only [State.bindcmdWrite, getBits_putBits_one v (f := fTaskBindcmdBind) (by decide) (by decide),
    getBits_putBits_other v fTaskBindcmdBind fTaskBindcmdUnbind 1 (by decide) (by decide),
    getBits_putBits_other v fTaskBindcmdBind fTaskBindcmdContext 1 (by decide) (by decide),
    getBits_putBits_other v fTaskBindcmdBind fTaskBindcmdProg 1 (by decide) (by decide), hu, if_true]
  rfl

/-- An unbind written without bind. -/
theorem exec_unbind {queued : List (Fin 64)} (h : Taken s rTaskBindcmd) (hb : getBits v fTaskBindcmdBind = 0) :
    let s1 := s.writeUnder takesAll rTaskBindcmd (putBits v fTaskBindcmdUnbind 1)
    let r := s1.unbindProg (getBits v fTaskBindcmdContext) (getBits v fTaskBindcmdProg) queued
    exec (.unbind v queued) s = .next (r.1.setFld fTaskBindcmdResult r.2) := by
  refine congrArg _ ((hostWrite_taken _ _ _ h).trans ?_)
  simp only [State.bindcmdWrite, getBits_putBits_one v (f := fTaskBindcmdUnbind) (by decide) (by decide),
    getBits_putBits_other v fTaskBindcmdUnbind fTaskBindcmdBind 1 (by decide) (by decide),
    getBits_putBits_other v fTaskBindcmdUnbind fTaskBindcmdContext 1 (by decide) (by decide),
    getBits_putBits_other v fTaskBindcmdUnbind fTaskBindcmdProg 1 (by decide) (by decide), hb, if_true]
  rfl

/-- The clusters that TASK.BINDCTL names. -/
def bindClusters (s : State) : List Nat := (List.range 32).filter (bitOf (s.fld fTaskBindctlClusters))

/-- Every cluster has a run for the bundles; every cluster has the regions. -/
def bundlesFit (s : State) : Bool := (bindClusters s).all (fun n => (s.bundleRun n (s.fld fTaskBindctlLenM1 + 1)).isSome)
def regionsFit (s : State) : Bool := (bindClusters s).all (fun n => decide (s.fld fTaskBindctlRegions ≤ (s.freeRegions n).length))

/-- The checks of a bind in the order of their codes (R132). -/
theorem bindProg_eq {c prog : Nat} {far : FarReply} : s.bindProg c prog far =
    if s.mayBind c = false then (s, 1) else if s.maskOk c (s.fld fTaskBindctlClusters) = false then (s, 2)
    else if bundlesFit s = false then (s, 3) else if regionsFit s = false then (s, 4) else if s.isBound c prog = true then (s, 5)
    else
      let len := s.fld fTaskBindctlLenM1 + 1
      let r := s.readRun c (s.fld fTaskBindaddrAddr * 16) (16 * len) far
      if r.2.1 ≠ 0 then (r.1, 6)
      else
        let regs := (bindClusters s).map (fun n => (n, (s.freeRegions n).take (s.fld fTaskBindctlRegions)))
        let b : Binding := ⟨c, prog, bundlesOf r.2.2 len, (bindClusters s).map (fun n => (n, (s.bundleRun n len).getD 0)), regs⟩
        let s1 := regs.foldl (fun s x => x.2.foldl (fun s g => s.clearMem (clusterStoreAt x.1 (g * 2 ^ 20)) (2 ^ 20)) s) r.1
        ({ s1 with cores := { s1.cores with bindings := s1.cores.bindings ++ [b] } }, 0) := by
  have hbundles : (bindClusters s).any (fun n => (s.bundleRun n (s.fld fTaskBindctlLenM1 + 1)).isNone) = !bundlesFit s := by
    simp [bundlesFit, List.not_all_eq_any_not]
  have hregions : (bindClusters s).any (fun n => decide ((s.freeRegions n).length < s.fld fTaskBindctlRegions)) = !regionsFit s := by
    simp only [regionsFit, List.not_all_eq_any_not, ← decide_not, Nat.not_le]
  unfold bindClusters at hbundles hregions
  simp only [State.bindProg, hbundles, hregions, Bool.not_eq_true', bindClusters]

theorem unbindProg_eq {c prog : Nat} {queued : List (Fin 64)} : s.unbindProg c prog queued =
    if s.mayBind c = false then (s, 1) else if s.isBound c prog = false then (s, 0)
    else if s.progUsed c prog queued = true then (s, 5) else (s.dropBinding c prog, 0) := by
  simp only [State.unbindProg, Bool.not_eq_true']

/-- A program is used by a task fetched, in a pool, waiting for a core or on one, or by a descriptor that is not fetched (R132). -/
theorem progUsed_iff {c prog : Nat} : s.progUsed c prog [] = true ↔
    (∃ t ∈ s.que.fed ++ s.cores.pool ++ s.cores.next.map Prod.snd ++ s.cores.runs.map (fun p => p.2.task), t.ctx = c ∧ t.prog = prog)
      ∨ ∃ q < 16, some prog ∈ s.unfetchedProgs c q := by
  have hunfetched (l : List (Option Nat)) : l.any (fun x => match x with
      | some p => p == prog
      | none => ([] : List (Fin 64)).any (fun y => y.val == prog)) = true ↔ some prog ∈ l := by
    rw [List.any_eq_true]
    constructor
    · rintro ⟨_ | p, hp, he⟩
      · exact absurd he Bool.false_ne_true
      · rwa [beq_iff_eq.mp he] at hp
    · exact fun h => ⟨_, h, beq_self_eq_true prog⟩
  have htasks (mine : Task → Bool) : (s.que.fed.any mine || s.cores.pool.any mine || s.cores.next.any (fun p => mine p.2)
      || s.cores.runs.any (fun p => mine p.2.task))
      = (s.que.fed ++ s.cores.pool ++ s.cores.next.map Prod.snd ++ s.cores.runs.map (fun p => p.2.task)).any mine := by
    simp only [List.any_append, List.any_map, Function.comp_def]
  unfold State.progUsed
  dsimp only
  rw [htasks (fun t => t.ctx == c && t.prog == prog), Bool.or_eq_true]
  refine or_congr ?_ ?_
  · simp only [List.any_eq_true, Bool.and_eq_true, beq_iff_eq]
  · rw [List.any_eq_true]
    simp only [List.mem_range]
    exact exists_congr fun q => and_congr_right fun _ => hunfetched _

end Contexts

/-! ### The statement -/

/-- Settles O30: each write by its own rule. -/
theorem contextsAndPrograms : Obligations.ContextsAndPrograms := by
  unfold Obligations.ContextsAndPrograms
  refine ⟨fun c v s => ⟨fun h hd => ?_, fun h hc => ?_, fun hr => ?_, fun hs hdrop hr => ?_, fun ha => ?_⟩,
    fun v far queued s h => ⟨fun hu => ?_, fun hb => ?_, fun c prog => progUsed_iff⟩⟩
  · simp only [exec_ctxCreate h, ctxCtlWrite_create hd]
    refine ⟨fun p hfree hp ho => ?_, fun hs => ?_, fun hfree hp => ?_, fun p hfree hp ho => ?_⟩
    · simp [createResult_free hfree, hp, ho, cxDone]
    · simp [createResult_wrongState hs, cxDone]
    · simp [createResult_free hfree, hp, cxDone]
    · simp [createResult_free hfree, hp, ho, cxDone]
  · rw [exec_ctxDestroy h, ctxCtlWrite_destroy hc]
    refine ⟨fun hs hb hwin => ?_, fun hs hb => ?_, fun hs => ?_⟩
    · simp [destroyResult_active hs, hb, cxDone, cClosing, State.bit, hostwinOn_setState, hwin]
    · simp [destroyResult_active hs, hb, cxDone]
    · simp [destroyResult_wrongState hs, cxDone]
  · exact congrArg _ (if_pos (.inr (.inr hr)))
  · exact ⟨_, exec_contextFree hs hdrop hr, rfl, freed_context _ c⟩
  · exact ⟨fun h => ⟨_, exec_qsyncLimitWrite h, limit_qsyncWrite ha⟩, fun h => ⟨_, exec_qpagesLimitWrite h, limit_qpagesWrite ha⟩,
      fun h => ⟨_, exec_qgroupsLimitWrite h, limit_qgroupsWrite ha⟩, fun h => ⟨_, exec_qbwShareWrite h, limit_qbwWrite ha⟩⟩
  · simp only [exec_bind h hu, bindProg_eq, bundlesFit, regionsFit, bindClusters]
    refine ⟨fun hm => ?_, fun hm hk => ?_, fun hm hk hf => ?_, fun hm hk hf hr => ?_, fun hm hk hf hr hb => ?_, fun t b hm hk hf hr hb hread => ?_⟩
    · simp only [hm, if_true]
    · simp only [hm, hk, if_true, Bool.true_eq_false, if_false]
    · simp only [hm, hk, hf, if_true, Bool.true_eq_false, if_false]
    · simp only [hm, hk, hf, hr, if_true, Bool.true_eq_false, if_false]
    · simp only [hm, hk, hf, hr, hb, if_true, Bool.true_eq_false, if_false]
    · simp only [hm, hk, hf, hr, hb, hread, Bool.true_eq_false, Bool.false_eq_true, if_false, ne_eq, not_true]
  · simp only [exec_unbind h hb, unbindProg_eq]
    refine ⟨fun hm hb hp => ?_, fun hm hb hp => ?_, fun hm hb => ?_, fun hm => ?_⟩
    · simp only [hm, hb, hp, Bool.true_eq_false, Bool.false_eq_true, if_false]
      rfl
    · simp only [hm, hb, hp, Bool.true_eq_false, if_false, if_true]
    · simp only [hm, hb, Bool.true_eq_false, if_false, if_true]
    · simp only [hm, if_true]

end Sys2Proof.Proofs
end

section
/-! SUPPORT. Quotas (R84): what an allocation does to the use of a context below, at and above its limit, for sync objects, fabric pages and
groups; the statement on them. -/

namespace Sys2Proof.Proofs

open Sys2Proof Sys2Proof.Machine

section Quotas

variable {s : State} {v : Word} {c : Nat}

/-! ### Registers of contexts beside the command registers -/

/-- Writing several fields leaves a register that holds none of them. -/
theorem fld_setFlds_off (l : List (Fld × Nat)) {g : Fld} (h : ∀ p ∈ l, g.off ≠ p.1.off) : (s.setFlds l).fld g = s.fld g := by
  unfold State.setFlds
  induction l generalizing s with
  | nil => rfl
  | cons a t ih =>
    rw [List.foldl_cons, ih fun p hp => h p (List.mem_cons_of_mem a hp), fld_setFld_off _ _ _ _ (h a List.mem_cons_self)]

/-- The fields of a context's registers lie below the command registers (R4, R88). -/
theorem ctxFields_below (hc : c < 128) : (fCtxCtlState c).off < 0x400000 ∧ (fCtxCtlInRange c).off < 0x400000 ∧ (fCtxCtlPartition c).off < 0x400000
    ∧ (fCtxQsyncUse c).off < 0x400000 ∧ (fCtxQsyncLimit c).off < 0x400000 ∧ (fCtxUpagesUse c).off < 0x400000
    ∧ (fCtxQpagesLimit c).off < 0x400000 ∧ (fCtxQgroupsUse c).off < 0x400000 ∧ (fCtxQgroupsLimit c).off < 0x400000 := by
  simp only [fCtxCtlState, fCtxCtlInRange, fCtxCtlPartition, fCtxQsyncUse, fCtxQsyncLimit, fCtxUpagesUse, fCtxQpagesLimit, fCtxQgroupsUse,
    fCtxQgroupsLimit, rCtxCtl, rCtxQsync, rCtxUpages, rCtxQpages, rCtxQgroups]
  omega

/-- What a write of a command register leaves of the contexts. -/
theorem active_writeUnder {takes : Acc → Bool} {off : Nat} (hc : c < 128) (ho : 0x400000 ≤ off) :
    (s.writeUnder takes off v).active c = s.active c := by
  have := (ctxFields_below hc).1
  simp only [State.active, fld_writeUnder_off takes v (Nat.ne_of_lt (Nat.lt_of_lt_of_le this ho))]

theorem partOf_lt {p : Nat} (h : s.partOf c = some p) : p < 4 := by
  unfold State.partOf at h
  split at h
  · cases h
    exact fld_lt _
  · cases h

theorem partOf_writeUnder {takes : Acc → Bool} {off : Nat} (hc : c < 128) (ho : 0x400000 ≤ off) :
    (s.writeUnder takes off v).partOf c = s.partOf c := by
  obtain ⟨-, hrange, hpart, -⟩ := ctxFields_below hc
  have hbit : (s.writeUnder takes off v).bit (fCtxCtlInRange c) = s.bit (fCtxCtlInRange c) := by
    simp only [State.bit, fld_writeUnder_off takes v (Nat.ne_of_lt (Nat.lt_of_lt_of_le hrange ho))]
  simp only [State.partOf, hbit, fld_writeUnder_off takes v (Nat.ne_of_lt (Nat.lt_of_lt_of_le hpart ho))]

theorem isOpen_writeUnder {takes : Acc → Bool} {off p : Nat} (hp : p < 4) (ho : 0x400000 ≤ off) :
    (s.writeUnder takes off v).isOpen p = s.isOpen p := by
  have : (fCtxPartState p).off ≠ off := by
    simp only [fCtxPartState, rCtxPart]
    omega
  simp only [State.isOpen, fld_writeUnder_off takes v this]

/-- A command with its op set keeps the other fields of the command. -/
theorem getBits_withOp {go opf g : Fld} (op : Nat) (hg : g.hi < 64) (hgo : Apart go g) (hop : Apart opf g) :
    getBits (withOp v go opf op) g = getBits v g := by
  rw [withOp, getBits_putBits_other _ _ _ _ hg hop, getBits_putBits_other _ _ _ _ hg hgo]

theorem getBits_withOp_op {go opf : Fld} {op : Nat} (h : opf.hi < 64) (hop : op < 2 ^ (opf.hi + 1 - opf.lo)) :
    getBits (withOp v go opf op) opf = op := by
  rw [withOp, getBits_putBits_same _ _ _ h, Nat.mod_eq_of_lt hop]

theorem getBits_withOp_go {go opf : Fld} (op : Nat) (h : go.hi < 64) (hgo : go.lo ≤ go.hi) (hop : Apart opf go) :
    getBits (withOp v go opf op) go = 1 := by
  rw [withOp, getBits_putBits_other _ _ _ _ h hop, getBits_putBits_one _ h hgo]

/-! ### Sync objects (R166, R197) -/

/-- An ALLOC of an ACTIVE context. -/
theorem exec_syncAlloc (h : Taken s rSyncCmd) (ha : s.active (getBits v fSyncCmdContext) = true) :
    exec (.syncAlloc v) s = .next ((s.writeUnder takesAll rSyncCmd (withOp v fSyncCmdGo fSyncCmdOp 1)).syncAlloc (getBits v fSyncCmdContext)
      (getBits v fSyncCmdDie)) := by
  refine congrArg Host.Outcome.next ((hostWrite_taken _ _ _ h).trans ?_)
  simp only [State.syncCmdWrite, getBits_withOp (go := fSyncCmdGo) (opf := fSyncCmdOp) (g := fSyncCmdContext) 1 (by decide) (by decide) (by decide),
    getBits_withOp (go := fSyncCmdGo) (opf := fSyncCmdOp) (g := fSyncCmdDie) 1 (by decide) (by decide) (by decide),
    getBits_withOp_op (go := fSyncCmdGo) (opf := fSyncCmdOp) (op := 1) (by decide) (by decide),
    getBits_withOp_go (go := fSyncCmdGo) (opf := fSyncCmdOp) 1 (by decide) (by decide) (by decide), ha]
  rfl

theorem syncAlloc_above {die : Nat} (h : s.fld (fCtxQsyncUse c) + 1 > s.fld (fCtxQsyncLimit c)) : s.syncAlloc c die = s.setFld fSyncCmdResult 3 :=
  if_pos h

theorem syncAlloc_full {die : Nat} (h : s.fld (fCtxQsyncUse c) + 1 ≤ s.fld (fCtxQsyncLimit c)) (hf : s.freeObj die = none) :
    s.syncAlloc c die = s.setFld fSyncCmdResult 4 := by
  unfold State.syncAlloc
  rw [if_neg (Nat.not_lt.mpr h), hf]
  rfl

/-- Up to the limit an object is given, and the use rises by one. -/
theorem syncAlloc_within {die i : Nat} (hc : c < 128) (h : s.fld (fCtxQsyncUse c) + 1 ≤ s.fld (fCtxQsyncLimit c)) (hf : s.freeObj die = some i) :
    (s.syncAlloc c die).fld fSyncCmdResult = 0 ∧ (s.syncAlloc c die).fld (fCtxQsyncUse c) = s.fld (fCtxQsyncUse c) + 1
      ∧ (s.syncAlloc c die).fld (fCtxQsyncLimit c) = s.fld (fCtxQsyncLimit c) := by
  have hfits : s.fld (fCtxQsyncUse c) + 1 < 2 ^ 16 := Nat.lt_of_le_of_lt h (fld_lt (fCtxQsyncLimit c))
  obtain ⟨-, -, -, huse, hlimit, -⟩ := ctxFields_below hc
  have hother (t : State) (f : Fld) (n : Nat) {g : Fld} (hg : g.off < 0x400000) (hf : 0x400000 ≤ f.off) : (t.setFld f n).fld g = t.fld g :=
    fld_setFld_off _ _ _ _ (Nat.ne_of_lt (Nat.lt_of_lt_of_le hg hf))
  unfold State.syncAlloc
  rw [if_neg (Nat.not_lt.mpr h), hf]
  refine ⟨fld_setFld_fits _ (of_decide_eq_true rfl) (of_decide_eq_true rfl), ?_, ?_⟩
  · dsimp only
    rw [State.syncResult, hother _ fSyncCmdResult _ huse (by decide), hother _ fSyncCmdIndex _ huse (by decide), State.setSyncUse,
      fld_setFld_bits _ _ _ _ (of_decide_eq_true rfl) (of_decide_eq_true rfl), fld_setFld_fits _ (of_decide_eq_true rfl) hfits]
  · dsimp only
    rw [State.syncResult, hother _ fSyncCmdResult _ hlimit (by decide), hother _ fSyncCmdIndex _ hlimit (by decide), State.setSyncUse,
      fld_setFld_bits _ _ _ _ (of_decide_eq_true rfl) (of_decide_eq_true rfl),
      fld_setFld_bits _ _ _ _ (of_decide_eq_true rfl) (of_decide_eq_true rfl)]
    rfl

/-! ### Fabric pages (R231) -/

/-- A MAP while none waits. -/
theorem exec_map (h : Taken s rZfMapcmd) (hb : s.fld fZfMapcmdBusy = 0) :
    let t := s.writeUnder takesAll rZfMapcmd (withOp v fZfMapcmdGo fZfMapcmdOp 1)
    exec (.map v) s = .next (if t.zfCheck .map (s.zfRun v) = 0 then (t.zfMap (s.zfRun v)).zfResult 0
      else t.zfResult (t.zfCheck .map (s.zfRun v))) := by
  intro t
  have hrun : t.zfRun (withOp v fZfMapcmdGo fZfMapcmdOp 1) = s.zfRun v := by
    have hva : t.fld fZfMapvaVa = s.fld fZfMapvaVa := fld_writeUnder_off _ _ (by decide)
    have hpa : t.fld fZfMappaGpa = s.fld fZfMappaGpa := fld_writeUnder_off _ _ (by decide)
    have hfield (g : Fld) (hg : g.hi < 64) (hgo : Apart fZfMapcmdGo g) (hop : Apart fZfMapcmdOp g) :
        getBits (withOp v fZfMapcmdGo fZfMapcmdOp 1) g = getBits v g := getBits_withOp 1 hg hgo hop
    simp only [State.zfRun, hva, hpa, hfield fZfMapcmdContext (by decide) (by decide) (by decide),
      hfield fZfMapcmdCountM1 (by decide) (by decide) (by decide), hfield fZfMapcmdSize (by decide) (by decide) (by decide),
      hfield fZfMapcmdExport (by decide) (by decide) (by decide), hfield fZfMapcmdRead (by decide) (by decide) (by decide),
      hfield fZfMapcmdWrite (by decide) (by decide) (by decide), hfield fZfMapcmdAtomic (by decide) (by decide) (by decide)]
  refine congrArg Host.Outcome.next ((hostWrite_taken _ _ _ h).trans ?_)
  simp only [State.zfMapcmdWrite, getBits_withOp_op (go := fZfMapcmdGo) (opf := fZfMapcmdOp) (op := 1) (by decide) (by decide),
    getBits_withOp_go (go := fZfMapcmdGo) (opf := fZfMapcmdOp) 1 (by decide) (by decide) (by decide), hb]
  show (if t.zfCheck .map (t.zfRun (withOp v fZfMapcmdGo fZfMapcmdOp 1)) = 0 then _ else _) = _
  rw [hrun]
  rfl

/-- Pages in use after a run is mapped. -/
def pagesAfter (s : State) (r : PageRun) : Nat := s.fld (fCtxUpagesUse r.ctx) + r.count * (r.size / 2 ^ 21)

/-- Beyond the limit a MAP fails, with QUOTA or by an earlier check; up to it, not with QUOTA. -/
theorem zfCheck_quota (r : PageRun) :
    (s.fld (fCtxQpagesLimit r.ctx) < pagesAfter s r → s.zfCheck .map r ≠ 0 ∧ (s.zfCheck .map r ≤ 6 ∨ s.zfCheck .map r = 8))
      ∧ (pagesAfter s r ≤ s.fld (fCtxQpagesLimit r.ctx) → s.zfCheck .map r ≠ 8) := by
  have hmap : (ZfOp.map == ZfOp.map) = true := rfl
  simp only [State.zfCheck, pagesAfter, hmap, Bool.not_true, Bool.false_eq_true, false_and, true_and, if_false]
  split_ifs <;> omega

theorem fld_takeFrames (r : PageRun) (l : List Nat) (g : Fld) : (l.foldl (fun s f => s.takeFrame r.ctx r.exp f) s).fld g = s.fld g := by
  refine foldl_keeps (fun t : State => t.fld g) (fun t f => ?_) l s
  unfold State.takeFrame
  dsimp only
  split
  · rfl
  · split
    · split <;> rfl
    · split <;> rfl

/-- A MAP that passes leaves the use that it was checked for, and the limit. -/
theorem zfMap_use {r : PageRun} (hc : r.ctx < 128) (h : pagesAfter s r ≤ s.fld (fCtxQpagesLimit r.ctx)) :
    ((s.zfMap r).zfResult 0).fld fZfMapcmdResult = 0 ∧ ((s.zfMap r).zfResult 0).fld (fCtxUpagesUse r.ctx) = pagesAfter s r
      ∧ ((s.zfMap r).zfResult 0).fld (fCtxQpagesLimit r.ctx) = s.fld (fCtxQpagesLimit r.ctx) := by
  have hfits : pagesAfter s r < 2 ^ 32 := Nat.lt_of_le_of_lt h (fld_lt (fCtxQpagesLimit r.ctx))
  obtain ⟨-, -, -, -, -, huse, hlimit, -⟩ := ctxFields_below hc
  have hshown (t : State) {g : Fld} (hg : g.off < 0x400000) : (t.showTables.zfResult 0).fld g = t.fld g := by
    rw [State.zfResult, fld_setReg_off _ (Nat.ne_of_lt (Nat.lt_of_lt_of_le hg (by decide))),
      fld_setFld_off _ _ _ _ (Nat.ne_of_lt (Nat.lt_of_lt_of_le hg (by decide))), State.showTables]
    exact fld_setFld_off _ _ _ _ (Nat.ne_of_lt (Nat.lt_of_lt_of_le hg (by decide)))
  have hlim : (fCtxQpagesLimit r.ctx).off ≠ (fCtxUpagesUse r.ctx).off := by simp [fCtxQpagesLimit, fCtxUpagesUse, rCtxQpages, rCtxUpages]
  refine ⟨?_, ?_, ?_⟩
  · rw [State.zfResult, fld_setReg_off _ (by decide)]
    exact fld_setFld_fits _ (by decide) (by decide)
  · rw [State.zfMap, hshown _ huse, State.setPageUse, fld_setFld_bits _ _ _ _ (of_decide_eq_true rfl) (of_decide_eq_true rfl), fld_takeFrames]
    exact fld_setFld_fits _ (of_decide_eq_true rfl) hfits
  · rw [State.zfMap, hshown _ hlimit, State.setPageUse,
      fld_setFld_bits _ _ _ _ (of_decide_eq_true rfl) (of_decide_eq_true rfl), fld_setFld_off _ _ _ _ hlim, fld_takeFrames]
    rfl

/-! ### Groups (R301, R302, R334) -/

/-- The fields of a group's registers lie above the command registers. -/
theorem groupFields_above (n : Nat) : 0xA10000 ≤ (fGrpGStateState n).off := by
  simp only [fGrpGStateState, rGrpGState]
  omega

section GroupCommand

variable {op p : Nat}

theorem exec_groupJoin (h : Taken s rGrpCmd) :
    exec (.groupJoin v) s = .next ((s.writeUnder takesAll rGrpCmd (withOp v fGrpCmdGo fGrpCmdOp 2)).groupJoin
      (withOp v fGrpCmdGo fGrpCmdOp 2)) := by
  refine congrArg Host.Outcome.next ((hostWrite_taken _ _ _ h).trans ?_)
  simp only [State.grpCmdWrite, getBits_withOp_op (go := fGrpCmdGo) (opf := fGrpCmdOp) (op := 2) (by decide) (by decide),
    getBits_withOp_go (go := fGrpCmdGo) (opf := fGrpCmdOp) 2 (by decide) (by decide) (by decide)]
  rfl

theorem exec_groupCreate {far : FarReply} {views : List RouterObs} (h : Taken s rGrpCmd) :
    exec (.groupCreate v far views) s = .next ((s.writeUnder takesAll rGrpCmd (withOp v fGrpCmdGo fGrpCmdOp 1)).groupCreate
      (withOp v fGrpCmdGo fGrpCmdOp 1) far views) := by
  refine congrArg Host.Outcome.next ((hostWrite_taken _ _ _ h).trans ?_)
  simp only [State.grpCmdWrite, getBits_withOp_op (go := fGrpCmdGo) (opf := fGrpCmdOp) (op := 1) (by decide) (by decide),
    getBits_withOp_go (go := fGrpCmdGo) (opf := fGrpCmdOp) 1 (by decide) (by decide) (by decide)]
  rfl

theorem fld_sendSetup (node : Nat) (m : SetupMsg) (g : Fld) : (s.sendSetup node m).fld g = s.fld g := rfl

theorem fld_withGrp (x : Grps) (g : Fld) : ({ s with grp := x } : State).fld g = s.fld g := rfl

/-- The first free number of a partition's groups. -/
def freeGroup (s : State) (p : Nat) : Option Nat :=
  ((List.range (s.groupRange p).2).map ((s.groupRange p).1 + ·)).find? (fun i => s.fld (fGrpGStateState i) == 0)

/-- A JOIN that passes the checks before the quota's fails above the limit. -/
theorem groupJoin_above {c i : Nat} (hv : getBits v fGrpCmdContext = c) (ha : s.active c = true) (hp : s.partOf c = some p)
    (ho : s.isOpen p = true) (hi : freeGroup s p = some i) (habove : s.fld (fCtxQgroupsLimit c) < s.fld (fCtxQgroupsUse c) + 1) :
    s.groupJoin v = s.setFld fGrpCmdResult 4 := by
  subst hv
  unfold freeGroup at hi
  simp only [State.groupJoin, ha, hp, ho, if_true, Bool.not_true, Bool.false_eq_true, if_false, gFree, hi, if_pos habove]
  rfl

/-- Up to the limit it succeeds, and the use rises by one. -/
theorem groupJoin_within {c i : Nat} (hv : getBits v fGrpCmdContext = c) (ha : s.active c = true) (hp : s.partOf c = some p)
    (ho : s.isOpen p = true) (hi : freeGroup s p = some i) (hc : c < 128)
    (hwithin : s.fld (fCtxQgroupsUse c) + 1 ≤ s.fld (fCtxQgroupsLimit c)) :
    (s.groupJoin v).fld fGrpCmdResult = 0 ∧ (s.groupJoin v).fld (fCtxQgroupsUse c) = s.fld (fCtxQgroupsUse c) + 1
      ∧ (s.groupJoin v).fld (fCtxQgroupsLimit c) = s.fld (fCtxQgroupsLimit c) := by
  subst hv
  have hjoined {g : Fld} (hg : g.off < 0xA10000) : (s.groupJoin v).fld g
      = (((s.grpResult 0).setFld fGrpCmdNumber i).setGroupUse (getBits v fGrpCmdContext) (s.fld (fCtxQgroupsUse (getBits v fGrpCmdContext)) + 1)).fld g := by
    unfold freeGroup at hi
    simp only [State.groupJoin, ha, hp, ho, if_true, Bool.not_true, Bool.false_eq_true, if_false, gFree, hi, if_neg (Nat.not_lt.mpr hwithin)]
    rw [fld_sendSetup, fld_withGrp]
    refine fld_setFlds_off _ fun q hq => ?_
    have habove : 0xA10000 ≤ q.1.off := by
      simp only [List.mem_cons, List.not_mem_nil, or_false] at hq
      rcases hq with rfl | rfl | rfl | rfl | rfl | rfl | rfl | rfl | rfl <;> simp only [fGrpGStateReason, fGrpGStateTunnelled, fGrpGStateLeader,
        fGrpGStateState, fGrpGStateHub, fGrpGStateRank, fGrpGStateMembers, fGrpGStateKey, fGrpGStatContext, rGrpGState, rGrpGStat] <;> omega
    omega
  obtain ⟨-, -, -, -, -, -, -, huse, hlimit⟩ := ctxFields_below hc
  have hfits : s.fld (fCtxQgroupsUse (getBits v fGrpCmdContext)) + 1 < 2 ^ 16 := Nat.lt_of_le_of_lt hwithin (fld_lt (fCtxQgroupsLimit _))
  have hother (t : State) (f : Fld) (n : Nat) {g : Fld} (hg : g.off < 0x400000) (hf : 0x400000 ≤ f.off) : (t.setFld f n).fld g = t.fld g :=
    fld_setFld_off _ _ _ _ (Nat.ne_of_lt (Nat.lt_of_lt_of_le hg hf))
  refine ⟨?_, ?_, ?_⟩
  · have hcmd : (fGrpCmdResult).off ≠ (fCtxQgroupsUse (getBits v fGrpCmdContext)).off :=
      (Nat.ne_of_lt (Nat.lt_of_lt_of_le huse (by decide))).symm
    have hover : (fGrpCmdResult).off ≠ (fCtxQgroupsOver (getBits v fGrpCmdContext)).off := hcmd
    rw [hjoined (by decide), State.setGroupUse, fld_setFld_off _ _ _ _ hover, fld_setFld_off _ _ _ _ hcmd,
      fld_setFld_bits _ _ _ _ (by decide) (by decide), State.grpResult, fld_setFld_fits _ (by decide) (by decide)]
  · rw [hjoined (by omega), State.setGroupUse, fld_setFld_bits _ _ _ _ (of_decide_eq_true rfl) (of_decide_eq_true rfl),
      fld_setFld_fits _ (of_decide_eq_true rfl) hfits]
  · rw [hjoined (by omega), State.setGroupUse, fld_setFld_bits _ _ _ _ (of_decide_eq_true rfl) (of_decide_eq_true rfl),
      fld_setFld_bits _ _ _ _ (of_decide_eq_true rfl) (of_decide_eq_true rfl), hother _ fGrpCmdNumber _ hlimit (by decide), State.grpResult,
      hother _ fGrpCmdResult _ hlimit (by decide)]

/-- A CREATE that passes the checks before the quota's fails above the limit. -/
theorem groupCreate_above {c : Nat} {far : FarReply} {views : List RouterObs} (hv : getBits v fGrpCmdContext = c) (ha : s.active c = true)
    (hp : s.partOf c = some p) (ho : s.isOpen p = true) (hlo : (s.groupRange p).1 ≤ getBits v fGrpCmdNumber)
    (hhi : getBits v fGrpCmdNumber < (s.groupRange p).1 + (s.groupRange p).2) (hm : 2 ≤ s.fld fGrpArg1Members) (hm' : s.fld fGrpArg1Members ≤ 4096)
    (hf : 1 ≤ s.fld fGrpArg1FormMs) (hf' : s.fld fGrpArg1FormMs ≤ 10000) (hs : s.fld (fGrpGStateState (getBits v fGrpCmdNumber)) = 0)
    (habove : s.fld (fCtxQgroupsLimit c) < s.fld (fCtxQgroupsUse c) + 1) : s.groupCreate v far views = s.setFld fGrpCmdResult 4 := by
  have hargs : ¬(getBits v fGrpCmdNumber < (s.groupRange p).1 ∨ getBits v fGrpCmdNumber ≥ (s.groupRange p).1 + (s.groupRange p).2
      ∨ s.fld fGrpArg1Members < 2 ∨ s.fld fGrpArg1Members > 4096 ∨ s.fld fGrpArg1FormMs < 1 ∨ s.fld fGrpArg1FormMs > 10000) := by omega
  subst hv
  simp only [State.groupCreate, ha, hp, ho, if_true, Bool.not_true, Bool.false_eq_true, if_false, if_neg hargs, hs, gFree, ne_eq, not_true,
    if_pos habove]
  rfl

end GroupCommand

/-- What a write of GRP.CMD leaves of what CREATE and JOIN check. -/
theorem checks_writeUnder {takes : Acc → Bool} {w : Word} (hc : c < 128) {p : Nat} (hp : s.partOf c = some p) :
    (s.writeUnder takes rGrpCmd w).active c = s.active c ∧ (s.writeUnder takes rGrpCmd w).partOf c = some p
      ∧ (s.writeUnder takes rGrpCmd w).isOpen p = s.isOpen p ∧ (s.writeUnder takes rGrpCmd w).groupRange p = s.groupRange p
      ∧ (∀ n, (s.writeUnder takes rGrpCmd w).fld (fGrpGStateState n) = s.fld (fGrpGStateState n))
      ∧ (s.writeUnder takes rGrpCmd w).fld (fCtxQgroupsUse c) = s.fld (fCtxQgroupsUse c)
      ∧ (s.writeUnder takes rGrpCmd w).fld (fCtxQgroupsLimit c) = s.fld (fCtxQgroupsLimit c) := by
  obtain ⟨-, -, -, -, -, -, -, huse, hlimit⟩ := ctxFields_below hc
  refine ⟨active_writeUnder hc (by decide), (partOf_writeUnder hc (by decide)).trans hp, isOpen_writeUnder (partOf_lt hp) (by decide), ?_,
    fun n => fld_writeUnder_off _ _ ?_, fld_writeUnder_off _ _ (Nat.ne_of_lt (Nat.lt_of_lt_of_le huse (by decide))),
    fld_writeUnder_off _ _ (Nat.ne_of_lt (Nat.lt_of_lt_of_le hlimit (by decide)))⟩
  · simp only [State.groupRange, writeUnder_img]
  · exact (Nat.ne_of_lt (Nat.lt_of_lt_of_le (by decide) (groupFields_above n))).symm

end Quotas

/-- Settles O59: each allocation by its own rule at, below and above the limit. -/
theorem quotaAdmission : Obligations.QuotaAdmission := by
  unfold Obligations.QuotaAdmission
  refine fun v far views s => ⟨fun h => ?_, fun h hb => ?_, fun p i h => ?_⟩
  · intro t c ha
    have hc : c < 128 := getBits_lt v fSyncCmdContext
    have hfree : t.freeObj (getBits v fSyncCmdDie) = s.freeObj (getBits v fSyncCmdDie) := by simp only [State.freeObj, t, writeUnder_sync]
    rw [exec_syncAlloc h ha]
    refine ⟨fun habove => congrArg _ (syncAlloc_above habove), fun hwithin hf => ?_, fun u hu hr => ?_⟩
    · obtain ⟨n, hn⟩ := Option.isSome_iff_exists.mp (hfree ▸ hf)
      obtain ⟨hresult, huse, -⟩ := syncAlloc_within hc hwithin hn
      exact ⟨_, rfl, hresult, huse⟩
    · obtain rfl : t.syncAlloc c (getBits v fSyncCmdDie) = u := Host.Outcome.next.inj hu
      rcases Nat.lt_or_ge (t.fld (fCtxQsyncLimit c)) (t.fld (fCtxQsyncUse c) + 1) with habove | hwithin
      · rw [syncAlloc_above habove, fld_setFld_fits _ (by decide) (by decide)] at hr
        cases hr
      · cases hn : t.freeObj (getBits v fSyncCmdDie) with
        | none =>
          rw [syncAlloc_full hwithin hn, fld_setFld_fits _ (by decide) (by decide)] at hr
          cases hr
        | some n =>
          obtain ⟨-, huse, hlimit⟩ := syncAlloc_within hc hwithin hn
          rwa [huse, hlimit]
  · intro t r after
    have hc : r.ctx < 128 := getBits_lt v fZfMapcmdContext
    obtain ⟨habove, hwithin⟩ := zfCheck_quota (s := t) r
    rw [exec_map h hb]
    refine ⟨fun h8 => ?_, habove, hwithin, fun h0 => ?_⟩
    · rw [if_neg (by rw [h8]; decide), h8]
    · have hlimit : pagesAfter t r ≤ t.fld (fCtxQpagesLimit r.ctx) := Nat.le_of_not_lt fun hlt => (habove hlt).1 h0
      obtain ⟨hresult, huse, hkept⟩ := zfMap_use hc hlimit
      exact ⟨_, congrArg _ (if_pos h0), hresult, huse, by rwa [huse, hkept]⟩
  · intro t c n use above members ha hp ho
    have hc : c < 128 := getBits_lt v fGrpCmdContext
    refine ⟨fun hi => ?_, fun hlo hhi hm hm' hf hf' hs habove => ?_⟩
    · have hctx : getBits (withOp v fGrpCmdGo fGrpCmdOp 2) fGrpCmdContext = c := getBits_withOp 2 (by decide) (by decide) (by decide)
      obtain ⟨hact, hpart, hopen, hrange, hstate, huse, hlimit⟩ :=
        checks_writeUnder (takes := takesAll) (w := withOp v fGrpCmdGo fGrpCmdOp 2) hc hp
      have hfree : freeGroup (t 2) p = some i := by
        simp only [freeGroup, t, hrange, hstate]
        exact hi
      rw [exec_groupJoin h]
      refine ⟨fun habove => ?_, fun hwithin => ?_⟩
      · refine congrArg _ (groupJoin_above hctx (hact.trans ha) hpart (hopen.trans ho) hfree ?_)
        rw [huse, hlimit]
        exact of_decide_eq_true habove
      · have hle : (t 2).fld (fCtxQgroupsUse c) + 1 ≤ (t 2).fld (fCtxQgroupsLimit c) := by
          rw [huse, hlimit]
          exact Nat.le_of_not_lt (of_decide_eq_false hwithin)
        obtain ⟨hresult, hnew, hkept⟩ := groupJoin_within hctx (hact.trans ha) hpart (hopen.trans ho) hfree hc hle
        exact ⟨_, rfl, hresult, hnew.trans (congrArg (· + 1) huse), by rwa [hnew, hkept]⟩
    · have hctx : getBits (withOp v fGrpCmdGo fGrpCmdOp 1) fGrpCmdContext = c := getBits_withOp 1 (by decide) (by decide) (by decide)
      have hnum : getBits (withOp v fGrpCmdGo fGrpCmdOp 1) fGrpCmdNumber = n := getBits_withOp 1 (by decide) (by decide) (by decide)
      obtain ⟨hact, hpart, hopen, hrange, hstate, huse, hlimit⟩ :=
        checks_writeUnder (takes := takesAll) (w := withOp v fGrpCmdGo fGrpCmdOp 1) hc hp
      have hmembers : (t 1).fld fGrpArg1Members = members := fld_writeUnder_off _ _ (by decide)
      have hform : (t 1).fld fGrpArg1FormMs = s.fld fGrpArg1FormMs := fld_writeUnder_off _ _ (by decide)
      rw [exec_groupCreate h]
      refine congrArg _ (groupCreate_above hctx (hact.trans ha) hpart (hopen.trans ho) ?_ ?_ ?_ ?_ ?_ ?_ ?_ ?_)
      · rwa [hnum, hrange]
      · rwa [hnum, hrange]
      · rwa [hmembers]
      · rwa [hmembers]
      · rwa [hform]
      · rwa [hform]
      · rwa [hnum, hstate]
      · rw [huse, hlimit]
        exact of_decide_eq_true habove

end Sys2Proof.Proofs
end

section
/-! SUPPORT. Test requests (R427–R430): what a write of TST.REQ does while no request runs, by its op, and the statement on them. -/

namespace Sys2Proof.Proofs

open Sys2Proof Sys2Proof.Machine

section TestRequest

variable {s : State} {v : Word}

/-! ### A write of TST.REQ -/

/-- What a request of the op does to the state that names it. -/
def tstOp (t : State) (op n : Nat) (defer : Bool) (obs : HostObs) : State :=
  match op with
  | 1 => t.tstCores n
  | 2 => if n ≥ 16 then t.tstEnd 4 else (t.eyeSweep n obs.eye).tstEnd 0
  | 3 => (t.sensorsChecked obs).tstEnd 0
  | 8 | 9 | 10 =>
    if t.tstNeeds op then t.tstRun op n obs.train obs.screen
    else if defer then t.setFlds [(fTstReqBusy, 1), (fTstReqWaiting, 1)]
    else t.tstEnd 2
  | _ => t

/-- While none runs or waits, a row's request starts. -/
theorem tstRow_idle {op : Nat} {obs : HostObs} (h : Taken s rTstReq) (hb : s.fld fTstReqBusy = 0) (hw : s.fld fTstReqWaiting = 0) (hop : op < 16) :
    s.tstRow v op obs = tstOp (s.writeUnder takesAll rTstReq (withOp v fTstReqGo fTstReqOp op)) op (getBits v fTstReqTarget)
      (decide (getBits v fTstReqDefer = 1)) obs := by
  have hwait : s.bit fTstReqWaiting = false := by simp [State.bit, hw]
  have hbusy : s.bit fTstReqBusy = false := by simp [State.bit, hb]
  unfold State.tstRow
  rw [hostWrite_taken _ _ _ h]
  simp only [State.tstReqWrite, hwait, hbusy, Bool.false_eq_true, and_false, if_false,
    getBits_withOp_go (v := v) (go := fTstReqGo) (opf := fTstReqOp) op (by decide) (by decide) (by decide),
    getBits_withOp_op (v := v) (go := fTstReqGo) (opf := fTstReqOp) (op := op) (by decide) hop,
    getBits_withOp (v := v) (go := fTstReqGo) (opf := fTstReqOp) (g := fTstReqTarget) op (by decide) (by decide) (by decide),
    getBits_withOp (v := v) (go := fTstReqGo) (opf := fTstReqOp) (g := fTstReqDefer) op (by decide) (by decide) (by decide), tstOp,
    decide_eq_true_eq, Nat.one_ne_zero] <;> rfl

/-- The intrusive requests run where their needs hold (R428). -/
theorem tstOp_runs {t : State} {op n : Nat} {defer : Bool} {obs : HostObs} (hop : op = 8 ∨ op = 9 ∨ op = 10) (h : t.tstNeeds op = true) :
    tstOp t op n defer obs = t.tstRun op n obs.train obs.screen := by
  rcases hop with rfl | rfl | rfl <;> exact if_pos h

theorem tstOp_refused {t : State} {op n : Nat} {defer : Bool} {obs : HostObs} (hop : op = 8 ∨ op = 9 ∨ op = 10) (h : t.tstNeeds op = false) :
    tstOp t op n defer obs = if defer then t.setFlds [(fTstReqBusy, 1), (fTstReqWaiting, 1)] else t.tstEnd 2 := by
  have hneeds : ¬t.tstNeeds op = true := by simp [h]
  rcases hop with rfl | rfl | rfl <;> exact if_neg hneeds

/-- Of a calibration the partitions alone are asked. -/
theorem tstNeeds_calibration (t : State) : t.tstNeeds 10 = t.quiesced := by simp [State.tstNeeds]

/-- CORE_TEST of a cluster with cores to test (R81). -/
theorem tstCores_some {t : State} {n : Nat} (hn : n < 32)
    (hc : ((List.range 18).map (n * 18 + ·)).filter (fun p => decide (t.coreState p ≤ 1)) ≠ []) :
    t.tstCores n =
      let l := ((List.range 18).map (n * 18 + ·)).filter (fun p => decide (t.coreState p ≤ 1))
      { (t.setFld fTstReqBusy 1) with cores := { t.cores with
        asked := l, tasteHead := t.cores.tasteHead ++ l.filter (fun p => !t.cores.tasteHead.contains p) } } := by
  unfold State.tstCores
  rw [if_neg (Nat.not_le.mpr hn), if_neg (by rwa [List.isEmpty_iff])]

theorem tstCores_beyond {t : State} {n : Nat} (hn : 32 ≤ n) : t.tstCores n = t.tstEnd 4 := if_pos hn

/-- The sweep of an engine's spares, as its own command does it (R281). -/
theorem exec_eyeMarginSweep (e : Fin 16) (w0 h0 w1 h1 : Byte) : exec (.eyeMarginSweep e w0 h0 w1 h1) s = .next (s.eyeSweep e [w0, h0, w1, h1]) := by
  have he : (⟨e.val % 16, Nat.mod_lt _ (by decide)⟩ : Fin 16) = e := Fin.ext (Nat.mod_eq_of_lt e.isLt)
  rw [State.eyeSweep, he]
  rfl

theorem exec_tstCancel (h : Taken s rTstReq) (hw : s.fld fTstReqWaiting = 1) : exec .tstCancel s = .next (s.tstEnd 0x0A) := by
  have hwait : s.bit fTstReqWaiting = true := by simp [State.bit, hw]
  exact congrArg Host.Outcome.next ((hostWrite_taken _ _ _ h).trans (if_pos hwait))

/-- A waiting request starts once its needs hold (R429). -/
theorem exec_deferredTestStart {tr : List TrainObs} {sc : ScreenObs} (hw : s.fld fTstReqWaiting = 1) (hn : s.tstNeeds (s.fld fTstReqOp) = true) :
    exec (.deferredTestStart tr sc) s = .next (s.tstRun (s.fld fTstReqOp) (s.fld fTstReqTarget) tr sc) := by
  have hwait : s.bit fTstReqWaiting = true := by simp [State.bit, hw]
  exact congrArg Host.Outcome.next (if_pos ⟨hwait, hn⟩)

theorem exec_deferredTestStart_waits {tr : List TrainObs} {sc : ScreenObs} (hn : s.tstNeeds (s.fld fTstReqOp) = false) :
    exec (.deferredTestStart tr sc) s = .next s := by
  have hneeds : ¬s.tstNeeds (s.fld fTstReqOp) = true := by simp [hn]
  exact congrArg Host.Outcome.next (if_neg fun h => hneeds h.2)

end TestRequest

/-- Settles O51: each request by its op, once the write of TST.REQ has named it. -/
theorem testRequests : Obligations.TestRequests := by
  unfold Obligations.TestRequests
  intro v w0 h0 w1 h1 obs cool sc tr s w t n sense
  refine ⟨fun h hb hw => ?_, fun h hw => exec_tstCancel h hw, fun hw hop hn => ?_, fun hw hop hn => ?_, fun hn => exec_deferredTestStart_waits hn⟩
  · have hrow (op : Nat) (o : HostObs) (hop : op < 16) : s.tstRow v op o = tstOp (t op) op n (decide (getBits v fTstReqDefer = 1)) o :=
      tstRow_idle h hb hw hop
    refine ⟨fun hn hc => ?_, fun hn => ?_, fun e he => ⟨?_, exec_eyeMarginSweep _ _ _ _ _⟩, ?_, fun hq => ?_, fun hn => ?_, fun hn ht => ?_,
      fun hn ht => ?_, fun hn hd => ?_, fun hn hd => ?_⟩
    · refine congrArg Host.Outcome.next ((hrow 1 _ (by decide)).trans ((tstCores_some hn hc).trans ?_))
      simp only [t, writeUnder_cores]
    · exact congrArg Host.Outcome.next ((hrow 1 _ (by decide)).trans (tstCores_beyond hn))
    · refine congrArg Host.Outcome.next ((hrow 2 _ (by decide)).trans ?_)
      rw [he]
      exact if_neg (Nat.not_le.mpr e.isLt)
    · exact congrArg Host.Outcome.next (hrow 3 _ (by decide))
    · exact congrArg Host.Outcome.next ((hrow 10 _ (by decide)).trans (tstOp_runs (by decide) ((tstNeeds_calibration _).trans hq)))
    · exact congrArg Host.Outcome.next ((hrow 8 _ (by decide)).trans (tstOp_runs (by decide) hn))
    · exact congrArg Host.Outcome.next ((hrow 9 _ (by decide)).trans ((tstOp_runs (by decide) hn).trans (if_pos ht)))
    · exact congrArg Host.Outcome.next ((hrow 9 _ (by decide)).trans ((tstOp_runs (by decide) hn).trans (if_neg (by simp [ht]))))
    · exact congrArg Host.Outcome.next ((hrow 8 _ (by decide)).trans ((tstOp_refused (by decide) hn).trans (if_pos (decide_eq_true hd))))
    · refine congrArg Host.Outcome.next ((hrow 8 _ (by decide)).trans ((tstOp_refused (by decide) hn).trans (if_neg ?_)))
      simp [hd]
  · rw [exec_deferredTestStart hw (by rwa [hop]), hop]
    rfl
  · rw [exec_deferredTestStart hw (by rwa [hop]), hop]
    rfl

end Sys2Proof.Proofs
end

section
/-! SUPPORT. From a descriptor to a core (R77–R80, R174–R177): a descriptor's fetch, the queue that a pool credits next, and the statement on
them. -/

namespace Sys2Proof.Proofs

open Sys2Proof Sys2Proof.Machine

/-! ### Descriptor fetches (R174) -/

section Fetch

variable {s : State} {q : QRegs} {kind queue ctx ring base log2 : Nat}

/-- A RUNNING queue that is not empty, and whose ring has room for the records due to it. -/
abbrev More (s : State) (q : QRegs) (ctx ring : Nat) : Prop :=
  s.fld q.state = 1 ∧ s.fld q.head ≠ s.fld q.tail ∧ s.ringBlocks (ringKey ctx ring) = false

/-- The fetch of a descriptor that arrives: its 64 bytes, and the head moved past it. -/
theorem fetch_arrived (h : More s q ctx ring) {b : List Byte} (hb : b.length = 64) :
    s.fetch q kind queue ctx ring base log2 true (.bytes b) = (s.setFld q.head ((s.fld q.head + 1) % 2 ^ 24), some b) := by
  obtain ⟨hrun, hne, hroom⟩ := h
  simp [State.fetch, State.fetchBytes, hrun, hne, hroom, hb]

/-- The fetch that the host's side refuses (status 4). -/
theorem fetch_pcieError (h : More s q ctx ring) :
    s.fetch q kind queue ctx ring base log2 true .pcieError = (s.fetchFailed q kind queue ctx ring 4, none) := by
  obtain ⟨hrun, hne, hroom⟩ := h
  simp [State.fetch, State.fetchBytes, hrun, hne, hroom]

/-- The fetch of poisoned bytes (status 8). -/
theorem fetch_poisoned (h : More s q ctx ring) (b : List Byte) :
    s.fetch q kind queue ctx ring base log2 true (.poisoned b) = (s.fetchFailed q kind queue ctx ring 8, none) := by
  obtain ⟨hrun, hne, hroom⟩ := h
  simp [State.fetch, State.fetchBytes, hrun, hne, hroom]

end Fetch

theorem bit_of_fld {s : State} {f : Fld} (h : s.fld f = 1) : s.bit f = true := by simp [State.bit, h]

section Queues

variable {s : State} {c : Ctx} {n : Fin 16} {x : Fin 4} {g : Grp} {b : List Byte}

/-- A compute queue's fetch, where the queue's partition is up, no descriptor of it waits and a pool it is bound to has room: what the fetch
brings is queued for a pool. -/
theorem exec_fetch_compute (hl : s.fld (fQueCqCfgLoc c n) = 1) (hup : s.isDown c = false)
    (hfed : s.que.fed.any (fun t => t.ctx == c.val && t.queue == n.val) = false)
    (hfree : (s.boundClusters c n).all (fun m => s.poolFree m == 0) = false) (obs : FetchObs) :
    exec (.descriptorFetch (.compute c n) obs) s = .next (
      let r := s.fetch (cqRegs c n) 0 n c (s.fld (fQueCqCfgRing c n)) (s.fld (fQueCqBaseBase c n) * 32) (s.fld (fQueCqCfgLog2size c n))
        true obs
      match r.2 with
      | some b => { r.1 with que := { r.1.que with fed := r.1.que.fed ++ [taskOf c n r.1.que.place b], place := r.1.que.place + 1 } }
      | none => r.1) := by
  rw [← bit_of_fld hl]
  exact congrArg _ (if_neg (by simp [hup, hfed, hfree]))

theorem exec_fetch_copy (h : More s (xqRegs c x) c (s.fld (fQueXqCfgRing c x))) (hl : s.fld (fQueXqCfgLoc c x) = 1) (hb : b.length = 64) :
    exec (.descriptorFetch (.copy c x) (.bytes b)) s
      = .next ((s.setFld (xqRegs c x).head ((s.fld (xqRegs c x).head + 1) % 2 ^ 24)).copyAccept c x b) := by
  simp only [exec, execDescriptorFetch, bit_of_fld hl, fetch_arrived h hb]

theorem exec_fetch_comm (h : More s (commRegs g) (s.fld (fGrpGStatContext g)) (s.fld (fGrpGQcfgRing g)))
    (hl : s.fld (fGrpGQcfgLoc g) = 1) (hroom : (s.commOf g).length < 16) (hb : b.length = 64) :
    exec (.descriptorFetch (.comm g) (.bytes b)) s
      = .next { (s.setFld (commRegs g).head ((s.fld (commRegs g).head + 1) % 2 ^ 24)) with
          que := { s.que with comm := insertKey s.que.comm g (s.commOf g ++ [b]) } } := by
  simp only [exec, execDescriptorFetch, if_neg (Nat.not_le.2 hroom), bit_of_fld hl, fetch_arrived h hb]
  rfl

end Queues

/-! ### Pools (R79) -/

section Credit

variable {ptr x : Nat} {l : List Nat}

/-- Going round: the next after `ptr` is the least above it, and where none is above it the least of all. -/
theorem turnAfter_spec (h : turnAfter ptr l = some x) :
    x ∈ l ∧ (ptr < x → ∀ y ∈ l, ptr < y → x ≤ y) ∧ (x ≤ ptr → ∀ y ∈ l, y ≤ ptr ∧ x ≤ y) := by
  unfold turnAfter at h
  split at h
  case h_1 z habove =>
    obtain rfl : z = x := by simpa using h
    obtain ⟨hz, hleast⟩ := List.min?_eq_some_iff.1 habove
    simp only [List.mem_filter, decide_eq_true_eq] at hz hleast
    exact ⟨hz.1, fun _ y hy hlt => hleast y ⟨hy, hlt⟩, fun hle => absurd hz.2 (Nat.not_lt.2 hle)⟩
  case h_2 hnone =>
    have hbelow : ∀ y ∈ l, y ≤ ptr := by simpa using hnone
    obtain ⟨hx, hleast⟩ := List.min?_eq_some_iff.1 h
    exact ⟨hx, fun hlt => absurd (hbelow x hx) (Nat.not_le.2 hlt), fun _ y hy => ⟨hbelow y hy, hleast y hy⟩⟩

theorem creditNext_of_last {s : State} {m : Nat} (hptr : lookupKey s.cores.credPtr m = some ptr) :
    s.creditNext m = turnAfter ptr (s.waitingFor m) := by simp [State.creditNext, hptr]

end Credit

section PoolEntry

variable {s : State} {c : Ctx} {n : Fin 16} {t : Task} {m : Nat}

/-- The state once pool `m` has credited the queue: its descriptor waits no more. -/
abbrev credited (s : State) (c : Ctx) (n : Fin 16) (t : Task) (m : Nat) : State :=
  { s with que := { s.que with fed := s.que.fed.filter (fun u => u.place != t.place) }
           cores := { s.cores with credPtr := insertKey s.cores.credPtr m (c.val * 16 + n.val) } }

/-- A pool's entry where the pool's turn it is: the checks of R176, in their order, and the pool. -/
theorem exec_poolEntry (ht : s.que.fed.find? (fun t => t.ctx == c.val && t.queue == n.val) = some t) (hm : s.placeFor c n = some m)
    (hturn : s.creditNext m = some (c.val * 16 + n.val)) :
    exec (.poolEntry c n) s = .next (let s1 := credited s c n t m
      if !s.objsHeld t then s1.closeTask t 4 ftSyncOwner (some 0) (8 * ofBool t.shadow) none none false
      else if !s.boundIn c t.prog m then s1.closeTask t 4 ftNoProgram (some 0) (8 * ofBool t.shadow) none none false
      else ({ s1 with cores := { s1.cores with pool := s1.cores.pool ++ [{ t with cluster := m }] } }).settle) := by
  simp only [exec, execPoolEntry, ht, hm, hturn, ne_eq, not_true_eq_false, if_false]

end PoolEntry

theorem exec_taskPull {s : State} {k : LCore} {t : Task} {turn : Bool}
    (h : s.serve (clusterOf k) s.cores.pool = some (k.val, t, turn)) :
    exec (.taskPull k) s = .next ((s.takeTask k t turn).giveTask k t).settle := by
  simp only [exec, execTaskPull, h, if_true]

/-- Settles O32: the fetch by what it brings, the pool's entry by the checks of R176, and the turn by the least element above the last. -/
theorem tasksReachCores : Obligations.TasksReachCores := by
  intro c n x g k s
  refine ⟨?_, fun b hb h hl => exec_fetch_copy h hl hb, fun b hb h hl hroom => exec_fetch_comm h hl hroom hb, ?_, ?_,
    fun t turn h _ => exec_taskPull h⟩
  · intro h hl hup hfed hfree
    have hexec := exec_fetch_compute hl hup hfed hfree
    refine ⟨fun b hb => (hexec _).trans ?_, (hexec _).trans ?_, fun b => (hexec _).trans ?_⟩
    · rw [fetch_arrived h hb]
      rfl
    · rw [fetch_pcieError h]
    · rw [fetch_poisoned h]
  · intro t m ht hm hturn
    have hexec := exec_poolEntry ht hm hturn
    refine ⟨fun hobj hbound => hexec.trans ?_, fun hobj => hexec.trans ?_, fun hobj hbound => hexec.trans ?_⟩
    · simp only [hobj, hbound, Bool.not_true, Bool.false_eq_true, if_false]
    · simp only [hobj, Bool.not_false, if_true]
    · simp only [hobj, hbound, Bool.not_true, Bool.not_false, Bool.false_eq_true, if_false, if_true]
  · intro m ptr x hptr hx
    exact turnAfter_spec (creditNext_of_last hptr ▸ hx)

end Sys2Proof.Proofs
end

section
/-! SUPPORT. Frequencies, caps, pacts and orders (R352–R358, R368–R371): the sustainable frequency, the cap's check, the steps of a pact, the
host's writes, and the statement on them. -/

namespace Sys2Proof.Proofs

open Sys2Proof Sys2Proof.Machine

/-! ### Sustainable frequency (R352, R353) -/

section Frequency

variable {s : State} {o : FreqObs}

/-- The least term is one of the terms, and none is below it. -/
theorem leastTerm_spec {l : List (Nat × Nat)} (h : l ≠ []) : leastTerm l ∈ l ∧ ∀ a ∈ l, (leastTerm l).1 ≤ a.1 := by
  induction l with
  | nil => exact absurd rfl h
  | cons a t ih =>
    cases t with
    | nil => simp [leastTerm]
    | cons b t =>
      obtain ⟨hmem, hle⟩ := ih (List.cons_ne_nil b t)
      simp only [leastTerm, List.forall_mem_cons (a := a)]
      split
      · next hlt => exact ⟨List.mem_cons_of_mem a hmem, Nat.le_of_lt hlt, hle⟩
      · next hge => exact ⟨List.mem_cons_self, Nat.le_refl _, fun c hc => (Nat.not_lt.1 hge).trans (hle c hc)⟩

/-- The predictions cover 45 frequencies, the highest 1,900 MHz. -/
theorem highestFreq_le (ok : FreqPoint → Bool) : highestFreq o ok ≤ 1900 := by
  unfold highestFreq
  refine List.foldlRecOn _ _ (motive := fun m => m ≤ 1900) (by decide) fun m hm x hx => ?_
  have hlt := List.snd_lt_of_mem_zipIdx hx
  simp only [List.length_take] at hlt
  split <;> omega

/-- The terms of the sustainable frequency, each with its code (R353). -/
def sustainTerms (s : State) (o : FreqObs) : List (Nat × Nat) :=
  let m := match s.img.cfg with
    | some c => c.maxFreq
    | none => 1900
  [(m, 0), (highestFreq o s.capHolds, 1), (highestFreq o (s.budgetHolds o.die), 2), (highestFreq o s.railHolds, 3),
    (highestFreq o s.thermalHolds, 4), (m - 100 * s.derated, 5)]

theorem sustain_eq : s.sustain o = (max 800 ((leastTerm (sustainTerms s o)).1 / 25 * 25), (leastTerm (sustainTerms s o)).2) := rfl

theorem sustainTerms_spec : leastTerm (sustainTerms s o) ∈ sustainTerms s o
    ∧ ∀ a ∈ sustainTerms s o, (leastTerm (sustainTerms s o)).1 ≤ a.1 := leastTerm_spec (List.cons_ne_nil _ _)

/-- No sustainable frequency is above the highest predicted one. -/
theorem sustain_le : (s.sustain o).1 ≤ 1900 := by
  have hcap := (sustainTerms_spec (s := s) (o := o)).2 (highestFreq o s.capHolds, 1) (by simp [sustainTerms])
  have hle := highestFreq_le (o := o) s.capHolds
  simp only [sustain_eq]
  omega

theorem sustain_code : (s.sustain o).2 ≤ 5 := by
  have hmem := (sustainTerms_spec (s := s) (o := o)).1
  simp only [sustainTerms, List.mem_cons, List.not_mem_nil, or_false] at hmem
  rw [sustain_eq]
  rcases hmem with h | h | h | h | h | h <;> simp [sustainTerms, h]

/-- Each failed cluster takes its 100 MHz off the maximum (R365). -/
theorem sustain_derated {c : Cuvee} (hc : s.img.cfg = some c) : (s.sustain o).1 ≤ max 800 (c.maxFreq - 100 * s.derated) := by
  have hder := (sustainTerms_spec (s := s) (o := o)).2 (c.maxFreq - 100 * s.derated, 5) (by simp [sustainTerms, hc])
  simp only [sustain_eq]
  omega

/-- The state once a die's sustainable frequency and the term that decides it are noted. -/
abbrev sustained (s : State) (o : FreqObs) : State :=
  { (s.setFld (fPwrDieFsus o.die) (s.sustain o).1) with pwr := { s.pwr with terms := insertKey s.pwr.terms o.die.val (s.sustain o).2 } }

theorem fld_withPwr (x : Pwr) (g : Fld) : ({ s with pwr := x } : State).fld g = s.fld g := rfl

theorem showLimit_sustained : (sustained s o).showLimit o.die = (sustained s o).setFld (fPwrDieLimit o.die)
    (if s.pwr.pactHeld.contains o.die.val ∧ s.fld (fPwrDieFjob o.die) < (s.sustain o).1 then 6 else (s.sustain o).2) := by
  have hfsus : (sustained s o).fld (fPwrDieFsus o.die) = (s.sustain o).1 :=
    (fld_withPwr _ _).trans (fld_setFld_fits _ (of_decide_eq_true rfl) (sustain_le.trans_lt (of_decide_eq_true rfl)))
  have hfjob : (sustained s o).fld (fPwrDieFjob o.die) = s.fld (fPwrDieFjob o.die) :=
    (fld_withPwr _ _).trans (fld_setFld_bits _ _ _ _ (of_decide_eq_true rfl) (.inr (of_decide_eq_true rfl)))
  simp only [State.showLimit, hfsus, hfjob, lookupKey_insertKey_same, Option.getD_some]

theorem exec_freqCompute (h : s.stepDone 3 = true) (hu : s.pwr.urgent.contains o.die.val = false) :
    exec (.freqCompute [o]) s = .next ((sustained s o).showLimit o.die) := by
  simp only [exec, execFreqCompute, h, if_true, List.foldl_cons, List.foldl_nil, State.freqOne, hu, Bool.false_eq_true, if_false]

end Frequency

/-! ### The cap (R354) -/

section Cap

variable {s : State} {watts : BitVec 16} {draws : List (BitVec 16)} {aA aB : Byte}

/-- The state once the averages show. -/
abbrev averaged (s : State) (watts : BitVec 16) (draws : List (BitVec 16)) (aA aB : Byte) : State :=
  s.setFlds ([(fPwrInputPower, watts.toNat), (fPwrFeedAAmps, aA.toNat), (fPwrFeedBAmps, aB.toNat)]
    ++ (draws.take 4).zipIdx.map (fun x => (fPwrPartDraw x.2, x.1.toNat)))

theorem exec_capCheck_within (h : watts.toNat ≤ s.fld fPwrInputCap) :
    exec (.capCheck watts draws aA aB) s = .next (averaged s watts draws aA aB) :=
  congrArg _ (if_neg fun hc => Nat.not_lt.2 h hc.2)

theorem exec_capCheck_above (hup : s.railsUp = true) (h : s.fld fPwrInputCap < watts.toNat) :
    exec (.capCheck watts draws aA aB) s = .next
      (((List.range 4).filter (fun d => !s.pwr.capThrottle.contains d)).foldl (fun t d => t.bump (fPwrDieThrottles d) 1)
        { averaged s watts draws aA aB with pwr := { (averaged s watts draws aA aB).pwr with capThrottle := List.range 4 } }) :=
  congrArg _ (if_pos ⟨hup, h⟩)

end Cap

/-! ### Budgets and binding (R356, R371) -/

section Binding

variable {s : State} {p : Part} {v : Word}

theorem fld_setFlds_apart (l : List (Fld × Nat)) {g : Fld} (hg : g.hi < 64) (h : ∀ p ∈ l, Apart p.1 g) : (s.setFlds l).fld g = s.fld g := by
  unfold State.setFlds
  induction l generalizing s with
  | nil => rfl
  | cons a t ih =>
    rw [List.foldl_cons, ih fun p hp => h p (List.mem_cons_of_mem a hp), fld_setFld_bits _ _ _ _ hg (h a List.mem_cons_self)]

theorem fld_urgentDrop (l : List Nat) (g : Fld) : (s.urgentDrop l).fld g = s.fld g := rfl

theorem mem_urgentDrop {l : List Nat} {d : Nat} (h : d ∈ l) : d ∈ (s.urgentDrop l).pwr.urgent := by
  by_cases hd : d ∈ s.pwr.urgent <;> simp [State.urgentDrop, h, hd]

/-- The budget that a write of PWR.PART leaves. -/
abbrev newBudget (s : State) (p : Part) (v : Word) : Nat := s.clampBudget p (getBits v (fPwrPartBudget p))

/-- The state once the budget is written, clamped. -/
def budgetShown (s : State) (p : Part) (v : Word) : State :=
  (s.writeUnder takesPlain (rPwrPart p) v).setFlds ([(fPwrPartBudget p, newBudget s p v)]
    ++ (if newBudget s p v ≠ getBits v (fPwrPartBudget p) then [(fPwrPartClamped p, 1)] else []))

/-- Does a write cut the budget below the draw (R86)? -/
abbrev budgetCut (s : State) (p : Part) (v : Word) : Prop := newBudget s p v < s.fld (fPwrPartBudget p) ∧ newBudget s p v < s.fld (fPwrPartDraw p)

/-- The state once the budget and the group are written; what is left is the pact. -/
def partShown (s : State) (p : Part) (v : Word) : State :=
  (if budgetCut s p v then (budgetShown s p v).urgentDrop (s.diesOf p) else budgetShown s p v).setFld (fPwrPartGroup p)
    (getBits v (fPwrPartGroup p))

theorem pwrPartWrite_off (h : getBits v (fPwrPartEnable p) = 0) :
    s.pwrPartWrite p v = (partShown s p v).setFlds [(fPwrPartEnable p, 0), (fPwrPartPactState p, paOff)] := if_pos h

theorem pwrPartWrite_bind (h : getBits v (fPwrPartEnable p) = 1)
    (hb : s.pactBound p = true → s.fld (fPwrPartGroup p) ≠ getBits v (fPwrPartGroup p)) :
    s.pwrPartWrite p v = (partShown s p v).setFlds [(fPwrPartEnable p, ofBool (s.bindState p (getBits v (fPwrPartGroup p)) == paActive)),
      (fPwrPartPactState p, s.bindState p (getBits v (fPwrPartGroup p)))] :=
  (if_neg (h ▸ Nat.one_ne_zero)).trans (if_neg fun hc => hb hc.1 hc.2)

theorem newBudget_lt : newBudget s p v < 2 ^ 16 := (Nat.min_le_left _ _).trans_lt (fld_lt (fPwrPartCeiling p))

theorem budget_budgetShown : (budgetShown s p v).fld (fPwrPartBudget p) = newBudget s p v := by
  have hfits (t : State) : (t.setFld (fPwrPartBudget p) (newBudget s p v)).fld (fPwrPartBudget p) = newBudget s p v :=
    fld_setFld_fits _ (of_decide_eq_true rfl) newBudget_lt
  refine (fld_setFlds_apart (s := (s.writeUnder takesPlain (rPwrPart p) v).setFld (fPwrPartBudget p) (newBudget s p v)) _
    (of_decide_eq_true rfl) ?_).trans (hfits _)
  split
  · exact List.forall_mem_singleton.2 (.inl (of_decide_eq_true rfl))
  · exact fun _ h => absurd h List.not_mem_nil

theorem budget_partShown : (partShown s p v).fld (fPwrPartBudget p) = newBudget s p v := by
  unfold partShown
  rw [fld_setFld_bits _ _ _ _ (of_decide_eq_true rfl) (.inl (of_decide_eq_true rfl))]
  split
  · exact (fld_urgentDrop _ _).trans budget_budgetShown
  · exact budget_budgetShown

theorem group_partShown : (partShown s p v).fld (fPwrPartGroup p) = getBits v (fPwrPartGroup p) :=
  fld_setFld_fits _ (of_decide_eq_true rfl) (getBits_lt v (fPwrPartGroup p))

theorem urgent_partShown (h : budgetCut s p v) {d : Nat} (hd : d ∈ s.diesOf p) : d ∈ (partShown s p v).pwr.urgent := by
  unfold partShown
  rw [if_pos h]
  exact mem_urgentDrop hd

/-- Showing a pact leaves the register's other fields. -/
theorem fld_pactShown {t : State} (e n : Nat) {g : Fld} (hg : g.hi < 64) (h : Apart (fPwrPartEnable p) g ∧ Apart (fPwrPartPactState p) g) :
    (t.setFlds [(fPwrPartEnable p, e), (fPwrPartPactState p, n)]).fld g = t.fld g :=
  fld_setFlds_apart _ hg (by simpa using h)

theorem enable_pactShown {t : State} (n : Nat) {e : Nat} (he : e < 2) :
    (t.setFlds [(fPwrPartEnable p, e), (fPwrPartPactState p, n)]).fld (fPwrPartEnable p) = e :=
  (fld_setFld_bits _ _ _ _ (of_decide_eq_true rfl) (.inr (of_decide_eq_true rfl))).trans (fld_setFld_fits _ (of_decide_eq_true rfl) he)

theorem pactState_pactShown {t : State} (e : Nat) {n : Nat} (hn : n < 8) :
    (t.setFlds [(fPwrPartEnable p, e), (fPwrPartPactState p, n)]).fld (fPwrPartPactState p) = n :=
  fld_setFld_fits _ (of_decide_eq_true rfl) hn

theorem ofBool_lt_two (b : Bool) : ofBool b < 2 := by cases b <;> decide

theorem bindState_lt (p g : Nat) : s.bindState p g < 8 := by
  unfold State.bindState
  dsimp only
  split
  · decide
  · split <;> decide

/-- A die of the partition that is bound to another group. -/
theorem bindState_conflict {g : Nat} {q : Part} (hq : s.pactBound q = true) (hg : s.fld (fPwrPartGroup q) ≠ g)
    (hd : ∃ d ∈ s.diesOf q, d ∈ s.diesOf p) : s.bindState p g = paConflict := by
  obtain ⟨d, hdq, hdp⟩ := hd
  refine if_pos (List.any_eq_true.2 ⟨q.val, List.mem_range.2 q.isLt, ?_⟩)
  simp only [hq, Bool.true_and, Bool.and_eq_true, bne_iff_ne, ne_eq, hg, not_false_iff, true_and, List.any_eq_true, List.contains_iff_mem]
  exact ⟨d, hdq, hdp⟩

/-- What the register shows once a pact is bound, or is not for the reason shown (R356). -/
theorem pwrPartWrite_bound (h : getBits v (fPwrPartEnable p) = 1)
    (hb : s.pactBound p = true → s.fld (fPwrPartGroup p) ≠ getBits v (fPwrPartGroup p)) :
    (s.pwrPartWrite p v).fld (fPwrPartBudget p) = newBudget s p v ∧ (s.pwrPartWrite p v).fld (fPwrPartGroup p) = getBits v (fPwrPartGroup p)
      ∧ (s.pwrPartWrite p v).fld (fPwrPartPactState p) = s.bindState p (getBits v (fPwrPartGroup p))
      ∧ (s.pwrPartWrite p v).fld (fPwrPartEnable p) = ofBool (s.bindState p (getBits v (fPwrPartGroup p)) == paActive) := by
  rw [pwrPartWrite_bind h hb]
  refine ⟨?_, ?_, pactState_pactShown _ (bindState_lt _ _), enable_pactShown _ (ofBool_lt_two _)⟩
  · rw [fld_pactShown _ _ (of_decide_eq_true rfl) ⟨.inl (of_decide_eq_true rfl), .inl (of_decide_eq_true rfl)⟩, budget_partShown]
  · rw [fld_pactShown _ _ (of_decide_eq_true rfl) ⟨.inl (of_decide_eq_true rfl), .inl (of_decide_eq_true rfl)⟩, group_partShown]

/-- What the register shows without a pact; a cut below the draw drops the partition's dies (R86, R358). -/
theorem pwrPartWrite_unbound (h : getBits v (fPwrPartEnable p) = 0) :
    (s.pwrPartWrite p v).fld (fPwrPartBudget p) = newBudget s p v ∧ (s.pwrPartWrite p v).fld (fPwrPartPactState p) = paOff
      ∧ (newBudget s p v < s.fld (fPwrPartBudget p) → newBudget s p v < s.fld (fPwrPartDraw p) →
        ∀ d ∈ s.diesOf p, d ∈ (s.pwrPartWrite p v).pwr.urgent) := by
  rw [pwrPartWrite_off h]
  refine ⟨?_, pactState_pactShown _ (by decide), fun hb hd d hmem => ?_⟩
  · rw [fld_pactShown _ _ (of_decide_eq_true rfl) ⟨.inl (of_decide_eq_true rfl), .inl (of_decide_eq_true rfl)⟩, budget_partShown]
  · rw [setFlds_pwr]
    exact urgent_partShown ⟨hb, hd⟩ hmem

theorem exec_pactBind (h : Taken s (rPwrPart p)) : exec (.pactBind p v) s = .next (s.pwrPartWrite p v) :=
  congrArg Host.Outcome.next (hostWrite_taken _ _ _ h)

theorem exec_budgetWrite (h : Taken s (rPwrPart p)) : exec (.budgetWrite p v) s = .next (s.pwrPartWrite p v) :=
  congrArg Host.Outcome.next (hostWrite_taken _ _ _ h)

end Binding

/-! ### The pact (R356–R358) -/

section Pact

variable {s : State} {k : Word} {g : Grp} {u : CollIn}

theorem exec_pactEpoch (h : s.pactGroups = [g.val]) : exec (.pactEpoch k) s = .next (s.pactStart k g) := by
  simp only [exec, execPactEpoch, h, List.foldl_cons, List.foldl_nil]

/-- The state once the member's own offer is noted. -/
abbrev offered (s : State) (k : Word) (g : Grp) : State :=
  { s with pwr := { s.pwr with pacts := s.pwr.pacts.filter (fun (y : Pact) => y.group != g.val) ++ [(⟨g, k, s.pactOffer g, none⟩ : Pact)] } }

theorem pactStart_alone (h : s.treeOf (s.fld (fGrpGStateKey g)) = none) : s.pactStart k g = offered s k g := by
  simp only [State.pactStart, h]

theorem pactStart_tree {x : Tree} (h : s.treeOf (s.fld (fGrpGStateKey g)) = some x) :
    s.pactStart k g = (offered s k g).pactOfferIn x k 32 (s.pactOffer g) := by
  simp only [State.pactStart, h]

/-- The first offer at a leaf of the tree goes up as it is. -/
theorem pactOfferIn_leaf {x : Tree} {port code : Nat} (hc : x.children = []) (hp : x.parent = some port)
    (ho : s.pwr.offers.find? (fun y => y.key == x.key && y.epoch == k) = none) :
    s.pactOfferIn x k 32 code = ({ s with pwr := { s.pwr with offers := s.pwr.offers.filter (fun y => y.key != x.key) } }).sendPact x.key k
      (min 44 code) port := by
  have hall : ((if x.member.isSome then [32] else []) : List Nat).all (fun q => (lookupKey [(32, code)] q).isSome) = true := by
    split <;> rfl
  simp only [State.pactOfferIn, ho, hc, hp, insertKey, List.nil_append, hall, if_true, List.map_cons, List.map_nil, List.foldl_cons,
    List.foldl_nil]

/-- A flit of a tree that is not here is left. -/
theorem pactIn_alone (h : s.treeOf (unitKey u) = none) : s.pactIn u = s := by simp only [State.pactIn, h]

theorem pactIn_forwarder {x : Tree} {q : Nat} (ht : s.treeOf (unitKey u) = some x) (hf : x.forwards = true)
    (hq : x.across (x.edgeOn u.port) = some q) : s.pactIn u = s.passUnit q u := by
  simp only [State.pactIn, ht, hf, hq, if_true]

/-- A flit of a pact at a module that is no forwarder of its tree. -/
theorem pactIn_edge {x : Tree} (ht : s.treeOf (unitKey u) = some x) (hf : x.forwards = false) (hport : x.ports.contains u.port.val = true) :
    s.pactIn u = if pactCode u > 44 then s.emit (.credit u.port x.key 1)
      else if x.children.contains u.port.val then (s.emit (.credit u.port x.key 1)).pactOfferIn x (pactEpoch u) u.port (pactCode u)
      else (s.emit (.credit u.port x.key 1)).pactTake x (pactEpoch u) (pactCode u) := by
  have hedge : x.edgeOn u.port = u.port := if_pos hport
  simp only [State.pactIn, ht, hf, hedge, Bool.false_eq_true, if_false]

/-- The result at a leaf with a member. -/
theorem pactTake_leaf {x : Tree} {code : Nat} (hc : x.children = []) (hm : x.member = some g.val) :
    s.pactTake x k code = if s.fabTime ≤ k.toNat * 1000000 + 120000 then
      { s with pwr := { s.pwr with pacts := s.pwr.pacts.map (fun y =>
        if y.group = g.val ∧ y.epoch = k ∧ y.result.isNone then { y with result := some code } else y) } }
      else s := by
  simp only [State.pactTake, hc, hm, List.foldl_nil]

/-- A die that no pact holds runs at its own sustainable frequency. -/
theorem exec_pactSwitch_free (h : s.stepDone 3 = true) (hg : s.pactGroups = []) :
    let w := (List.range 4).foldl (fun u d => if s.fld (fPwrDieFsus d) = 0 then u
      else ((u.setJob d (s.fld (fPwrDieFsus d))).holdPact d false).showLimit d) s
    exec (.pactSwitch k) s = .next { w with pwr := { w.pwr with capThrottle := [], pacts := w.pwr.pacts.filter (fun y => y.epoch != k) } } := by
  simp only [exec, execPactSwitch, h, hg, Bool.not_true, Bool.false_eq_true, if_false, List.find?_nil, List.foldl_nil]

theorem pactDie_result (die : Nat) (d c : Nat) : s.pactDie die (some ⟨g, k, d, some c⟩) =
    if s.fld (fPwrDieFsus die) < 800 + 25 * c then (s.fld (fPwrDieFsus die), true) else (800 + 25 * c, false) := rfl

end Pact

/-! ### Orders of the host (R368–R370) -/

section Orders

variable {s : State} {v : Word}

/-- The host's cap as it counts. -/
abbrev hostCap (s : State) (v : Word) : Nat := clampCap (getBits v fPwrHostCap) s.inputCap

/-- The state once the interrupt's fields and the cap are written. -/
abbrev capShown (s : State) (w v : Word) : State :=
  (s.writeUnder takesPlain rPwrHost w).setFlds ([(fPwrHostCap, hostCap s v)]
    ++ (if hostCap s v ≠ getBits v fPwrHostCap then [(fPwrHostClamped, 1)] else []))

/-- The state once the order is written, or refused, or reserved. -/
def orderShown (s : State) (v : Word) : State :=
  if getBits v fPwrHostOrder = 0 ∧ s.heldOff then (capShown s v v).setFld fPwrHostResult 1
  else if getBits v fPwrHostOrder = 3 then (capShown s v v).setFld fPwrHostOrder (s.fld fPwrHostOrder)
  else (capShown s v v).setFlds [(fPwrHostOrder, getBits v fPwrHostOrder), (fPwrHostResult, 0)]

theorem pwrHostWrite_eq : s.pwrHostWrite v = s.capCut
    (if getBits v fPwrHostAckOff = 1 ∧ s.bit fPwrRackNotice then (orderShown s v).noticeStop else orderShown s v).pwrUpdate := rfl

theorem pwrHostWrite_order (h : getBits v fPwrHostAckOff = 0) : s.pwrHostWrite v = s.capCut (orderShown s v).pwrUpdate := by
  rw [pwrHostWrite_eq, if_neg fun hc => absurd (h ▸ hc.1) Nat.zero_ne_one]

theorem pwrHostWrite_ack (h : getBits v fPwrHostAckOff = 1) (hn : s.bit fPwrRackNotice = true) :
    s.pwrHostWrite v = s.capCut (orderShown s v).noticeStop.pwrUpdate := by
  rw [pwrHostWrite_eq, if_pos ⟨h, hn⟩]

theorem orderShown_ordered (h0 : getBits v fPwrHostOrder ≠ 0) (h3 : getBits v fPwrHostOrder ≠ 3) :
    orderShown s v = (capShown s v v).setFlds [(fPwrHostOrder, getBits v fPwrHostOrder), (fPwrHostResult, 0)] :=
  (if_neg fun hc => h0 hc.1).trans (if_neg h3)

theorem orderShown_held (h0 : getBits v fPwrHostOrder = 0) (hh : s.heldOff = true) :
    orderShown s v = (capShown s v v).setFld fPwrHostResult 1 := if_pos ⟨h0, hh⟩

theorem orderShown_on (h0 : getBits v fPwrHostOrder = 0) (hh : s.heldOff = false) :
    orderShown s v = (capShown s v v).setFlds [(fPwrHostOrder, 0), (fPwrHostResult, 0)] := by
  simp [orderShown, h0, hh]

theorem exec_hostOrder (h : Taken s rPwrHost) : exec (.hostOrder v) s = .next (s.pwrHostWrite v) :=
  congrArg Host.Outcome.next (hostWrite_taken _ _ _ h)

theorem exec_hostCap (h : Taken s rPwrHost) : exec (.hostCap v) s = .next (s.pwrHostWrite v) :=
  congrArg Host.Outcome.next (hostWrite_taken _ _ _ h)

theorem exec_ackOff (h : Taken s rPwrHost) : exec (.ackOff v) s = .next (s.pwrHostWrite (putBits v fPwrHostAckOff 1)) :=
  congrArg Host.Outcome.next (hostWrite_taken _ _ _ h)

/-- Acknowledging leaves the rest of the host's write. -/
theorem capShown_ack (w : Word) : capShown s w (putBits v fPwrHostAckOff 1) = capShown s w v := by
  have hcap : getBits (putBits v fPwrHostAckOff 1) fPwrHostCap = getBits v fPwrHostCap :=
    getBits_putBits_other _ _ _ _ (by decide) (by decide)
  simp only [capShown, hostCap, hcap]

theorem exec_noticeEnd (h : s.fld fPwrRackNotice = 1) : exec .noticeEnd s = .next s.noticeStop.pwrUpdate :=
  congrArg _ (if_pos (bit_of_fld h))

end Orders

/-- Settles O47: each clause by the lemma on its instruction. -/
theorem powerControl : Obligations.PowerControl := by
  intro p g k v u o watts draws aA aB s
  refine ⟨?_, ?_, ?_, ?_, ?_, ?_, ?_, ?_, ?_, ?_, ?_⟩
  · intro h hu
    have hexec := (exec_freqCompute h hu).trans (congrArg _ showLimit_sustained)
    refine ⟨fun hheld hlt => hexec.trans ?_, fun hfree => hexec.trans ?_⟩
    · rw [if_pos ⟨hheld, hlt⟩]
    · rw [if_neg]
      rintro ⟨hheld, hlt⟩
      rcases hfree with hfree | hle
      · exact absurd (hfree ▸ hheld) Bool.false_ne_true
      · exact Nat.not_lt.2 hle hlt
  · exact ⟨Nat.le_max_left _ _, by rw [sustain_eq]; omega, sustain_code, fun c hc => sustain_derated hc⟩
  · exact ⟨exec_capCheck_within, exec_capCheck_above⟩
  · intro ht
    refine ⟨fun he hb => ⟨⟨_, exec_pactBind ht, pwrPartWrite_bound he hb⟩, fun q hq hg hd => bindState_conflict hq hg hd⟩,
      fun he => ⟨_, exec_budgetWrite ht, pwrPartWrite_unbound he⟩⟩
  · intro hg
    have hexec := exec_pactEpoch (k := k) hg
    refine ⟨fun ht => hexec.trans (congrArg _ (pactStart_alone ht)), fun x port ht hc hp ho => hexec.trans (congrArg _ ?_)⟩
    exact (pactStart_tree ht).trans (pactOfferIn_leaf hc hp ho)
  · refine ⟨fun ht => ?_, fun x q ht hf hq => ?_, fun x ht hf hport hkey => ?_⟩
    · exact congrArg Host.Outcome.next (pactIn_alone ht)
    · exact congrArg Host.Outcome.next (pactIn_forwarder ht hf hq)
    · have hin := pactIn_edge ht hf hport
      rw [hkey] at hin
      refine ⟨fun hcode => congrArg Host.Outcome.next (hin.trans (if_pos hcode)), fun hcode hc hm => ?_, fun hcode hc => ?_⟩
      · have hleaf : ¬ x.children.contains u.port.val = true := by simp [hc]
        have htake := hin.trans ((if_neg (Nat.not_lt.2 hcode)).trans ((if_neg hleaf).trans (pactTake_leaf hc hm)))
        exact ⟨fun hintime => congrArg Host.Outcome.next (htake.trans (if_pos hintime)),
          fun hlate => congrArg Host.Outcome.next (htake.trans (if_neg (Nat.not_le.2 hlate)))⟩
      · exact congrArg Host.Outcome.next (hin.trans ((if_neg (Nat.not_lt.2 hcode)).trans (if_pos hc)))
  · exact fun h hg => exec_pactSwitch_free h hg
  · exact fun x d c hx die => hx ▸ pactDie_result die d c
  · exact exec_noticeEnd
  · intro ht
    refine ⟨fun ha h0 h3 => (exec_hostOrder ht).trans ?_, fun ha h0 hh => (exec_hostOrder ht).trans ?_,
      fun ha h0 hh => (exec_hostCap ht).trans ?_⟩
    · rw [pwrHostWrite_order ha, orderShown_ordered h0 h3]
    · rw [pwrHostWrite_order ha, orderShown_held h0 hh]
    · rw [pwrHostWrite_order ha, orderShown_on h0 hh]
  · intro ht hn h0 hh
    have hack : getBits (putBits v fPwrHostAckOff 1) fPwrHostAckOff = 1 := getBits_putBits_one _ (by decide) (by decide)
    have horder : getBits (putBits v fPwrHostAckOff 1) fPwrHostOrder = 0 :=
      (getBits_putBits_other _ _ _ _ (by decide) (by decide)).trans h0
    refine (exec_ackOff ht).trans (congrArg _ ?_)
    rw [pwrHostWrite_ack hack (bit_of_fld hn), orderShown_on horder hh, capShown_ack]

end Sys2Proof.Proofs
end

section
/-! SUPPORT. Tile chains and their finishes (R95–R119, R144, R145): what TSTART, TMMA, TFIN, TWAIT and FINISH_COMPLETE do, and the statements on
them. -/

namespace Sys2Proof.Proofs

open Sys2Proof Sys2Proof.Machine

/-! ### Reads of local stores that come as they were written (R205, R220) -/

section CleanReads

variable {s : State} {k : LCore} {l : List Range} {obs : List StoreLine}

theorem storeLine_clean {k : Nat} {o : StoreLine} (hh : o.hard = false) (hw : s.mem.wordFails (s.localAt k (64 * o.line) / 64) o.first = 0) :
    s.storeLine k o = s := by
  simp only [State.storeLine, hw, hh, if_true, Bool.false_eq_true, if_false]

theorem foldl_storeLine_clean {k : Nat} (h : ∀ o ∈ obs, s.storeLine k o = s) : obs.foldl (fun t o => t.storeLine k o) s = s := by
  induction obs with
  | nil => rfl
  | cons o t ih =>
    rw [List.foldl_cons, h o List.mem_cons_self]
    exact ih fun x hx => h x (List.mem_cons_of_mem _ hx)

/-- Lines that come as they were written, none of them marked, are read without effect. -/
theorem useLocal_clean (h : ReadsWell s k obs) (slot : Nat) (hl : l.any (s.markedAt k) = false) : s.useLocal k slot l obs = s := by
  have hreads : s.storeReads k l obs = s := foldl_storeLine_clean fun o ho =>
    let ⟨hhard, hfails⟩ := h o (List.mem_of_mem_filter ho)
    storeLine_clean hhard hfails
  have hmarks : ∀ x ∈ l, s.markedAt k x = false := by simpa using hl
  rw [State.useLocal, hreads, useMarked_clean hmarks]

/-- A change of the task's run before the reads does not bear on them. -/
theorem useLocal_setRun_clean (h : ReadsWell s k obs) (q : Run) (slot : Nat) (hl : l.any (s.markedAt k) = false) :
    (s.setRun k q).useLocal k slot l obs = s.setRun k q := useLocal_clean (s := s.setRun k q) h slot hl

end CleanReads

/-! ### The words of tile instructions (R144) -/

theorem bitOf_eq {v n : Nat} {b : Bool} (h : v / 2 ^ n % 2 = ofBool b) : bitOf v n = b := by
  rw [bitOf, h]
  cases b <;> rfl

theorem ofBool_le_one (b : Bool) : ofBool b ≤ 1 := by cases b <;> decide

/-- The reduction step that a TMMA logs, by its operands and what it reads (R138, R139). -/
def tmmaOf (aga agb : AReg) (fa fb : Fin 16) (mx sparse : Bool) (rk rs : XReg) (is : Issue) : Tmma :=
  { fa := fa, fb := fb, mx := mx, sparse := sparse, k := (is.x rk).toNat
    aAddr := (is.ag aga).rowBase, aStride := (is.ag aga).rowStride, bAddr := (is.ag agb).rowBase, bStride := (is.ag agb).rowStride
    scaleA := (is.x rs).toNat % 2 ^ 20, scaleB := (is.x rs).toNat / 2 ^ 20 % 2 ^ 20, posA := (is.x rs).toNat / 2 ^ 40 % 2 ^ 20 }

/-- The fields of a TMMA's word are its operands. -/
theorem tmma_of_slot {k c : LCore} {aga agb : AReg} {fa fb : Fin 16} {mx sparse : Bool} {rk rs : XReg} {obs : List StoreLine} {sl : Slot} {w : Nat}
    (h : slotOf (.tmma k aga agb fa fb mx sparse rk rs obs) = some (c, sl, w)) (is : Issue) :
    is.tmma w = tmmaOf aga agb fa fb mx sparse rk rs is := by
  have hw : 0x02 * 2 ^ 34 + aga.val * 2 ^ 32 + agb.val * 2 ^ 30 + fa.val * 2 ^ 26 + fb.val * 2 ^ 22 + ofBool mx * 2 ^ 21 + ofBool sparse * 2 ^ 20
      + rk.val * 2 ^ 15 + rs.val * 2 ^ 10 = w := congrArg (·.2.2) (Option.some.inj h)
  have hmx1 := ofBool_le_one mx
  have hsparse1 := ofBool_le_one sparse
  have haga : wAg w = aga := by unfold wAg; omega
  have hagb : wAgB w = agb := by unfold wAgB; omega
  have hfa : wFa w = fa := by unfold wFa; omega
  have hfb : wFb w = fb := by unfold wFb; omega
  have hmx : wMx w = mx := bitOf_eq (by omega)
  have hsparse : wSparse w = sparse := bitOf_eq (by omega)
  have hrk : wMmRk w = rk := by unfold wMmRk; omega
  have hrs : wMmRs w = rs := by unfold wMmRs; omega
  have hlow (v : Nat) : bitsOf v 19 0 = v % 2 ^ 20 := by rw [bitsOf, Nat.pow_zero, Nat.div_one]
  simp only [Issue.tmma, tmmaOf, haga, hagb, hfa, hfb, hmx, hsparse, hrk, hrs, hlow]
  rfl

/-- The records that a LOAD reads, by its operands. -/
theorem loadRange_of_slot {k c : LCore} {m1 n1 : Fin 128} {mode : Fin 4} {rk ra : XReg} {obs : List StoreLine} {sl : Slot} {w : Nat}
    (h : slotOf (.tstart k m1 n1 mode rk ra obs) = some (c, sl, w)) (is : Issue) :
    is.loadRange w = ((is.x ra).toNat, (m1.val + 1) * (n1.val + 1) * 16) := by
  have hw : 0x01 * 2 ^ 34 + m1.val * 2 ^ 27 + n1.val * 2 ^ 20 + mode.val * 2 ^ 18 + rk.val * 2 ^ 13 + ra.val * 2 ^ 8 = w :=
    congrArg (·.2.2) (Option.some.inj h)
  have hra : wStRa w = ra := by unfold wStRa; omega
  have hm : wM1 w = m1 := by unfold wM1; omega
  have hn : wN1 w = n1 := by unfold wN1; omega
  rw [Issue.loadRange, hra, hm, hn]

/-! ### Chains (R95, R98, R144, R145) -/

section Chains

variable {s : State} {k : LCore} {obs : List StoreLine} {w : Nat} {r : Run} {is : Issue} {b : Bundle}

/-- TSTART in a mode other than LOAD reads nothing. -/
theorem exec_tstart_noLoad {m1 n1 : Fin 128} {mode : Fin 4} {rk ra : XReg} (h : Acts s (.tstart k m1 n1 mode rk ra obs) k .I w r is b)
    (hmode : mode ≠ 3) (hw : ReadsWell s k obs) :
    exec (.tstart k m1 n1 mode rk ra obs) s = .next ((s.setRun k { r with
      chain := some ⟨m1 + 1, n1 + 1, mode, (is.x rk).toNat,
        if mode = 0 then some 32 else if mode = 1 then some (anchor12 (is.x ra)) else none, [], []⟩ }).closeBundle k .I) := by
  refine congrArg Host.Outcome.next ((issue_acts h _).trans ?_)
  dsimp only
  rw [modRun_run h.run, if_neg hmode, if_neg hmode, useLocal_setRun_clean hw _ _ rfl]
  have hmodes : mode = 0 ∨ mode = 1 ∨ mode = 2 := by omega
  obtain rfl | rfl | rfl := hmodes <;> rfl

/-- TSTART with LOAD takes its records, and the first one's anchor. -/
theorem exec_tstart_load {m1 n1 : Fin 128} {rk ra : XReg} (h : Acts s (.tstart k m1 n1 3 rk ra obs) k .I w r is b) (hw : ReadsWell s k obs)
    (hm : s.markedAt k ((is.x ra).toNat, (m1 + 1) * (n1 + 1) * 16) = false) :
    let recs := (s.loadRecs k ((is.x ra).toNat, (m1 + 1) * (n1 + 1) * 16)).map Rec96.read
    exec (.tstart k m1 n1 3 rk ra obs) s = .next ((s.setRun k
      { r with chain := some ⟨m1 + 1, n1 + 1, 3, (is.x rk).toNat, some ((recs.map (·.e)).headD 32), recs, []⟩ }).closeBundle k .I) := by
  refine congrArg Host.Outcome.next ((issue_acts h _).trans ?_)
  dsimp only
  rw [modRun_run h.run, h.word, loadRange_of_slot h.slot, if_pos rfl, if_pos rfl, useLocal_setRun_clean hw _ _ (by simpa using hm)]
  rfl

theorem exec_tmma {aga agb : AReg} {fa fb : Fin 16} {mx sparse : Bool} {rk rs : XReg} {c : Chain}
    (h : Acts s (.tmma k aga agb fa fb mx sparse rk rs obs) k .I w r is b) (hw : ReadsWell s k obs) (hc : r.chain = some c)
    (hm : ((tmmaOf aga agb fa fb mx sparse rk rs is).reads c.m c.n).any (s.markedAt k) = false) :
    let t := tmmaOf aga agb fa fb mx sparse rk rs is
    exec (.tmma k aga agb fa fb mx sparse rk rs obs) s = .next ((s.setRun k
      { r.tilePush s.time (some (s.tileTime k r c t)) with chain := some { c with ops := c.ops ++ [t] } }).closeBundle k .I) := by
  refine congrArg Host.Outcome.next ((issue_acts h _).trans ?_)
  simp only [h.word, tmma_of_slot h.slot, h.run, hc, useLocal_setRun_clean hw _ _ hm]

theorem exec_tfin {ago : AReg} {ofmt : Fin 16} {sat sr ftz : Bool} {rx : XReg} {c : Chain} (h : Acts s (.tfin k ago ofmt sat sr ftz rx) k .I w r is b)
    (hc : r.chain = some c) :
    exec (.tfin k ago ofmt sat sr ftz rx) s = .next ((s.setRun k { r.tilePush s.time none with
      chain := none
      finishes := r.finishes ++ [⟨c, (is.ag ago).rowBase, (is.ag ago).rowStride, ofmt, sat, sr, ftz, is.x rx, false, r.pc⟩] }).closeBundle k .I) := by
  refine congrArg Host.Outcome.next ((issue_acts h _).trans ?_)
  simp only [modRun_run h.run, hc]

end Chains

/-- Settles O16: each instruction by its own lemma. -/
theorem tileChains : Obligations.TileChains := by
  unfold Obligations.TileChains
  intro k m1 n1 rk ra rs rx aga agb ago fa fb ofmt mx sparse sat sr ftz s obs w r is b hw
  refine ⟨?_, ?_, ?_, ?_, ?_, ?_, ?_⟩
  · exact fun h => exec_tstart_noLoad h (by decide) hw
  · exact fun h => exec_tstart_noLoad h (by decide) hw
  · exact fun h => exec_tstart_noLoad h (by decide) hw
  · exact fun h hm => exec_tstart_load h hw hm
  · exact fun c h hc hm => exec_tmma h hw hc hm
  · exact fun c h hc => exec_tfin h hc
  · exact fun h => congrArg Host.Outcome.next (issue_acts h _)

/-! ### Finishes (R101, R107, R108, R118, R145) -/

/-- What a finish leaves of the flags and the mode, in one record: outside the window a raw chain is lost, and after any other the task runs
ordered. -/
theorem finished_eq (r : Run) (f : Finish) (o : FinishOut) : r.finished f o = { r with
    invalid := r.invalid || o.invalid, overflow := r.overflow || o.overflow, window := r.window || o.window
    ordered := r.ordered || (o.window && f.ofmt != 10), rawLost := r.rawLost || (o.window && f.ofmt == 10) } := by
  cases hw : o.window with
  | false => simp [Run.finished, Run.sticky, hw]
  | true =>
    by_cases hraw : f.ofmt = 10
    · simp [Run.finished, Run.sticky, Run.lost, hw, hraw]
    · simp [Run.finished, Run.sticky, hw, hraw]

/-- The rows of a block, written one after the other, reach memory alone. -/
theorem foldl_storeRows (k : Nat) (rows : List (Word × List Byte)) (s : State) :
    rows.foldl (fun s p => { s with mem := s.mem.store (coreStoreAt (s.physOf k) p.1.toNat) p.2 }) s
      = { s with mem := rows.foldl (fun m p => m.store (coreStoreAt (s.physOf k) p.1.toNat) p.2) s.mem } := by
  induction rows generalizing s with
  | nil => rfl
  | cons p t ih => exact ih _

/-- Settles O17: the flags by `finished_eq`, the rows by `foldl_storeRows`. -/
theorem finishWrites : Obligations.FinishWrites := by
  unfold Obligations.FinishWrites
  intro s k r f rest hr hf
  refine congrArg Host.Outcome.next ?_
  simp only [hr, hf, finished_eq, foldl_storeRows]
  rfl

end Sys2Proof.Proofs
end

section
/-! SUPPORT. Vector instructions (R118, R120, R122, R125–R127, R146): lanes of a v register, instructions that work lane by lane, moves between
registers and window reductions, and the statements on them. -/

namespace Sys2Proof.Proofs

open Sys2Proof Sys2Proof.Machine

/-! ### Lanes (R136) -/

/-- The number whose digits to the base 2^32 are the lanes given. -/
def lanesNumber (l : List Nat) : Nat := l.foldr (fun x a => x % 2 ^ 32 + 2 ^ 32 * a) 0

theorem lanesNumber_cons (x : Nat) (t : List Nat) : lanesNumber (x :: t) = x % 2 ^ 32 + 2 ^ 32 * lanesNumber t := rfl

theorem lanesNumber_lt (l : List Nat) : lanesNumber l < 2 ^ (32 * l.length) := by
  induction l with
  | nil => exact Nat.one_pos
  | cons x t ih =>
    rw [lanesNumber_cons, List.length_cons, Nat.mul_succ, Nat.add_comm (32 * t.length), Nat.pow_add]
    have hx : x % 2 ^ 32 < 2 ^ 32 := Nat.mod_lt _ (by decide)
    calc x % 2 ^ 32 + 2 ^ 32 * lanesNumber t < 2 ^ 32 * (lanesNumber t + 1) := by omega
      _ ≤ 2 ^ 32 * 2 ^ (32 * t.length) := Nat.mul_le_mul_left _ ih

theorem lanesNumber_digit (l : List Nat) (i : Nat) (h : i < l.length) : lanesNumber l / 2 ^ (32 * i) % 2 ^ 32 = l[i] % 2 ^ 32 := by
  induction l generalizing i with
  | nil => exact absurd h (Nat.not_lt_zero i)
  | cons x t ih =>
    rw [lanesNumber_cons]
    cases i with
    | zero => simp
    | succ i =>
      have htail : (x % 2 ^ 32 + 2 ^ 32 * lanesNumber t) / 2 ^ 32 = lanesNumber t := by omega
      rw [Nat.mul_succ, Nat.add_comm (32 * i), Nat.pow_add, ← Nat.div_div_eq_div_mul, htail]
      exact ih i (Nat.lt_of_succ_lt_succ h)

theorem toNat_ofLanes {l : List Nat} (h : 32 * l.length ≤ 4096) : (ofLanes l).toNat = lanesNumber l :=
  (BitVec.toNat_ofNat _ _).trans (Nat.mod_eq_of_lt ((lanesNumber_lt l).trans_le (pow_le_pow_right₀ one_le_two h)))

/-- A register made of 128 lanes holds each of them, cut to 32 bits. -/
theorem laneOf_ofLanes (l : List Nat) (i : Nat) (hl : l.length = 128) (h : i < l.length) : laneOf (ofLanes l) i = l[i] % 2 ^ 32 := by
  rw [laneOf, BitVec.extractLsb'_toNat, toNat_ofLanes (by omega), Nat.shiftRight_eq_div_pow, lanesNumber_digit l i h]

theorem lanes1_eq (f : Nat → Res) (a : BitVec 4096) : lanes1 f a = (List.range 128).map (fun i => f (laneOf a i)) := List.map_map

theorem lanes2_eq (f : Nat → Nat → Res) (a b : BitVec 4096) :
    lanes2 f a b = (List.range 128).map (fun i => f (laneOf a i) (laneOf b i)) := by
  rw [lanes2, lanesOf, lanesOf, List.zipWith_map, List.zipWith_self]

/-- Three registers lane by lane, as VFMA takes them. -/
theorem lanes3_eq (f : Nat → Nat → Nat → Res) (a b c : BitVec 4096) :
    List.zipWith (fun (p : Nat × Nat) z => f p.1 p.2 z) ((lanesOf a).zip (lanesOf b)) (lanesOf c)
      = (List.range 128).map (fun i => f (laneOf a i) (laneOf b i) (laneOf c i)) := by
  rw [lanesOf, lanesOf, lanesOf, List.zip, List.zipWith_map, List.zipWith_self, List.zipWith_map, List.zipWith_self]

/-! ### Lane by lane (R118, R125–R127, R146) -/

/-- An effect that changes the task's run alone. -/
theorem issue_modRun {s : State} {i : Instr} {k : LCore} {sl : Slot} {w : Nat} {r : Run} {is : Issue} {b : Bundle} (h : Acts s i k sl w r is b)
    (f : Nat → Issue → Run → Run) : s.issue i (fun k is _ t => t.modRun k (f k is)) = (s.setRun k (f k is r)).closeBundle k sl := by
  rw [issue_acts h, modRun_run h.run]

/-- An instruction that `State.vector` carries out works lane by lane. -/
theorem lanewise_of_vector {i : Instr} {vd : VReg} {f g : Issue → List Res} (hexec : ∀ s, exec i s = s.vector i vd f) (hfg : ∀ is, f is = g is) :
    Lanewise i vd g := by
  obtain rfl : f = g := funext hfg
  intro s k w r is b h
  rw [hexec]
  exact congrArg Host.Outcome.next (issue_modRun h _)

/-- Settles O18: each instruction is one of `State.vector`, on the lanes of its sources. -/
theorem vectorLanes : Obligations.VectorLanes := by
  unfold Obligations.VectorLanes
  refine ⟨laneOf_ofLanes, fun k vd a b c => ?_⟩
  have one (f : Nat → Res) (is : Issue) := lanes1_eq f (is.v a)
  have two (f : Nat → Nat → Res) (is : Issue) := lanes2_eq f (is.v a) (is.v b)
  have three (f : Nat → Nat → Nat → Res) (is : Issue) := lanes3_eq f (is.v a) (is.v b) (is.v c)
  refine ⟨?vadd, ?vsub, ?vmul, ?vdiv, ?vmax, ?vmin, ?vfma, ?vsqrt, ?vexp, ?vlog, ?vrsqrt, ?vtanh, ?vsig, ?vrsum, ?vrmax, ?vrmin⟩
  case vadd | vsub | vmul | vdiv | vmax | vmin => exact lanewise_of_vector (fun _ => rfl) (two _)
  case vfma => exact lanewise_of_vector (fun _ => rfl) (three fun x y z => ffma (f32 x) (f32 y) (f32 z))
  case vsqrt | vexp | vlog | vrsqrt | vtanh | vsig => exact lanewise_of_vector (fun _ => rfl) (one _)
  case vrsum | vrmax | vrmin => exact lanewise_of_vector (fun _ => rfl) fun _ => rfl

/-! ### Moves (R122, R139, R146) -/

theorem zipIdx_map_range {α : Type} (n : Nat) (g : Nat → α) : ((List.range n).map g).zipIdx = (List.range n).map (fun i => (g i, i)) :=
  List.ext_getElem (by simp) (by simp)

/-- The element index of lane i is x[rs] + i, modulo 2^64. -/
theorem cvtLane_eq (frm dst : Nat) (sat sr : Bool) (seed : Word) (task : Nat) (base : Word) (x i : Nat) :
    cvtLane frm dst sat sr seed task base (x, i) = (elemOf dst).convert sat sr (srng seed task ((base.toNat + i) % 2 ^ 64))
      ((elemOf frm).decode (x % 2 ^ (elemOf frm).bits)) := by
  rw [cvtLane, BitVec.toNat_add, BitVec.toNat_ofNat, Nat.add_mod_mod]

/-- Settles O19: all three change the task's run alone; VCVT's lanes are those of `cvtLane_eq`. -/
theorem vectorMoves : Obligations.VectorMoves := by
  unfold Obligations.VectorMoves
  intro k vd a rs lane frm dst sr sat
  refine ⟨?vbcast, ?vlane, ?vcvt⟩
  case vbcast | vlane => exact fun s _ w r is b h => congrArg Host.Outcome.next (issue_modRun h _)
  case vcvt =>
    intro s w r is b h
    refine congrArg Host.Outcome.next ((issue_modRun h _).trans ?_)
    simp only [lanesOf, zipIdx_map_range, List.map_map, Function.comp_def, cvtLane_eq]
    rfl

/-! ### Window reductions (R108, R120, R127) -/

/-- An INVALID alone that sticks. -/
theorem sticky_invalid (r : Run) (inv : Bool) : r.sticky inv false = { r with invalid := r.invalid || inv } := by
  rw [Run.sticky, Bool.or_false]

/-- A reduction whose total may leave the window: inside it the task goes on as given, outside it will complete WINDOW. -/
theorem exec_reduction {s : State} {i : Instr} {k : LCore} {sl : Slot} {w : Nat} {r : Run} {is : Issue} {b : Bundle} (h : Acts s i k sl w r is b)
    (g : Issue → Gather) (f : Issue → Run → Run)
    (hexec : exec i s = .next (s.issue i (fun k is _ t => t.modRun k (fun q => if (g is).window then q.lost else f is q)))) :
    ((g is).window = true → exec i s = .next ((s.setRun k r.lost).closeBundle k sl))
      ∧ ((g is).window = false → exec i s = .next ((s.setRun k (f is r)).closeBundle k sl)) := by
  rw [hexec, issue_modRun h]
  refine ⟨fun hout => ?_, fun hin => ?_⟩
  · rw [if_pos hout]
  · rw [hin, if_neg Bool.false_ne_true]

/-- Records added pairwise, none of them outside the window. -/
theorem sums_inside {l : List (Option Rec96)} {x : List Rec96} (h : l = x.map some) : l.any (·.isNone) = false ∧ l.filterMap id = x := by
  subst h
  exact ⟨by simp, by simp [List.filterMap_map]⟩

/-- Settles O20: VWRED and VWREDR by `exec_reduction`; VRADD by whether a sum left the window. -/
theorem windowReductions : Obligations.WindowReductions := by
  unfold Obligations.WindowReductions
  intro k vd a b rs s w r is bu
  refine ⟨fun h => ?_, fun h => ?_, fun h => ?_⟩
  · exact exec_reduction h _ _ rfl
  · have hexec := exec_reduction h (fun is => windowReduce (anchor12 (is.x rs)) (lanesOf (is.v a))) _ rfl
    rwa [sticky_invalid] at hexec
  · have hexec : exec (.vradd k vd a b) s = _ := congrArg Host.Outcome.next (issue_modRun h _)
    simp only [sticky_invalid] at hexec
    refine ⟨fun hout => hexec.trans ?_, fun x hx => hexec.trans ?_⟩
    · rw [if_pos (List.any_eq_true.2 ⟨none, hout, rfl⟩)]
      rfl
    · obtain ⟨hin, hsums⟩ := sums_inside hx
      rw [hin, hsums, if_neg Bool.false_ne_true]
      rfl

end Sys2Proof.Proofs
end

section
/-! SUPPORT. The issue of bundles (R134, R140, R151, R155): what opens a bundle, stops its task or makes it wait, how its slots close it, and the
statements on them. -/

namespace Sys2Proof.Proofs

open Sys2Proof Sys2Proof.Machine

/-! ### Faults of a task outside a pair (R155) -/

section Stops

variable {s : State} {k : Nat} {r : Run}

/-- The first fault of a task stands. -/
theorem stop_first (hf : r.fault = none) (c bundle slot n : Nat) : r.stop c bundle slot n = r.struck c bundle slot n := by
  simp only [Run.stop, hf, if_true, Run.wind, Run.struck, Run.faulted]

theorem struck_between (hi : r.issue = none) (c bundle slot n : Nat) : r.struck c bundle slot n = r.faulted c bundle slot n := by
  simp only [Run.struck, hi, Option.isSome_none, Bool.false_eq_true, if_false]

theorem faultRun_first (hr : s.runOf k = some r) (hp : r.partner = none) (hf : r.fault = none) (c bundle slot n : Nat) :
    s.faultRun k c bundle slot n = s.setRun k (r.struck c bundle slot n) := by
  simp only [State.faultRun, hr, hp, stop_first hf]

/-- Between bundles a fault is that of the bundle that the core would issue next. -/
theorem faultNow_between (hr : s.runOf k = some r) (hp : r.partner = none) (hf : r.fault = none) (hi : r.issue = none) (c slot : Nat) :
    s.faultNow k c slot = s.setRun k (r.faulted c r.pc slot (r.opened + 1)) := by
  simp only [State.faultNow, hr, hi, Option.isNone_none, ofBool, if_true, faultRun_first hr hp hf, struck_between hi]

end Stops

/-! ### The opening of a bundle (R134, R151, R155) -/

/-- Every task instruction issues its slot with an effect of its own. -/
theorem exec_slot {i : Instr} {k : LCore} {sl : Slot} {w : Nat} (h : slotOf i = some (k, sl, w)) :
    ∃ f : Effect, ∀ s, exec i s = .next (s.issue i f) := by
  cases i with
  | nop | add | sub | and | or | xor | sll | srl | sra | mul | mulhu | divu | remu | slt | sltu | min | max | addi | andi | ori | xori | lui | lhi
  | rdsr | beq | bne | blt | bge | bltu | bgeu | jal | jalr | ssig | swait | srst | srd | tbind | tunbind | tsend | trecv | tstat | clnch | tend
  | agbase | agdim | agstep | agrd | vld | vst | sld | sst | move | get | put | puts | fwait | aadd | amin | amax | aswp | acas
  | tstart | tmma | tfin | twait | vadd | vsub | vmul | vfma | vdiv | vsqrt | vmax | vmin | vexp | vlog | vrsqrt | vtanh | vsig
  | vbcast | vlane | vcvt | vrsum | vrmax | vrmin | vwred | vwredr | vradd => exact ⟨_, fun _ => rfl⟩
  | _ => cases h

/-- The slot instruction `i` meets the next bundle `b` of a task that still issues, on a core outside a pair: the bundle is not yet open. -/
structure Meets (s : State) (i : Instr) (k : LCore) (sl : Slot) (w : Nat) (r : Run) (b : Bundle) : Prop where
  slot : slotOf i = some (k, sl, w)
  run : s.runOf k = some r
  free : s.canIssue k = true
  bundle : s.bundleAt r = some b
  word : slotWord b sl = w
  unopened : r.issue = none
  sound : r.fault = none
  going : r.ending = none
  alone : r.partner = none

/-- The task's run once the bundle is open. -/
def openedRun (r : Run) (b : Bundle) : Run :=
  { r with issue := some (r.snapshot b), opened := r.opened + 1
           entered := r.entered + ofBool (isInward .C (slotWord b .C)) + ofBool (isInward .A (slotWord b .A)) }

section Opening

variable {s : State} {i : Instr} {k : LCore} {sl : Slot} {w : Nat} {r : Run} {b : Bundle}

/-- The first slot of a bundle opens it, and acts where the bundle could be opened. -/
theorem issue_meets (h : Meets s i k sl w r b) (f : Effect) : s.issue i f =
    if (s.openBundle k r b).2 then (s.openBundle k r b).1.actSlot k sl w b f else (s.openBundle k r b).1 := by
  simp only [State.issue, h.slot, h.run, h.free, h.bundle, h.word, h.unopened, h.sound, h.going, Bool.not_true, Bool.false_eq_true, if_false,
    ne_eq, not_true, Option.isSome_none, or_self]

/-- A bundle that could not be opened leaves what its opening left. -/
theorem exec_unopened (h : Meets s i k sl w r b) {t : State} (ho : s.openBundle k r b = (t, false)) : exec i s = .next t := by
  obtain ⟨f, hf⟩ := exec_slot h.slot
  rw [hf, issue_meets h, ho, if_neg Bool.false_ne_true]

theorem faultNow_meets (h : Meets s i k sl w r b) (c : Nat) : s.faultNow k c 0 = s.setRun k (r.faulted c r.pc 0 (r.opened + 1)) :=
  faultNow_between h.run h.alone h.sound h.unopened c 0

theorem openBundle_bundleFault (k : Nat) (r : Run) (hb : bundleFault b = true) : s.openBundle k r b = (s.faultNow k 0x01 0, false) := by
  simp only [State.openBundle, hb, if_true, ftEncoding]

theorem openBundle_badEncoding {k : Nat} {c : Nat} (hb : bundleFault b = false) (he : badEncoding sl (slotWord b sl) = true)
    (hc : s.slotsFault k r (r.snapshot b) b = some c) : s.openBundle k r b = (s.faultNow k c 0, false) := by
  have hany : slotsCAI.any (fun sl => badEncoding sl (slotWord b sl)) = true :=
    List.any_eq_true.2 ⟨sl, by cases sl <;> decide, he⟩
  simp only [State.openBundle, hb, hany, hc, Bool.false_eq_true, if_true, if_false, Option.getD_some]

theorem openBundle_stalls {k : Nat} (hb : bundleFault b = false) (he : ∀ sl, badEncoding sl (slotWord b sl) = false)
    (hs : s.stalls k r (r.snapshot b) b = true) : s.openBundle k r b = (s.noteWait k r (r.snapshot b) (slotWord b .C), false) := by
  simp only [State.openBundle, hb, he, hs, slotsCAI, List.any_cons, List.any_nil, Bool.or_self, Bool.false_eq_true, if_true, if_false]

theorem openBundle_slotsFault {k : Nat} {c : Nat} (hb : bundleFault b = false) (he : ∀ sl, badEncoding sl (slotWord b sl) = false)
    (hs : s.stalls k r (r.snapshot b) b = false) (hc : s.slotsFault k r (r.snapshot b) b = some c) :
    s.openBundle k r b = (s.faultNow k c 0, false) := by
  simp only [State.openBundle, hb, he, hs, hc, slotsCAI, List.any_cons, List.any_nil, Bool.or_self, Bool.false_eq_true, if_false]

/-- Outside a pair there are no digests to compare (R188). -/
theorem openBundle_opens {k : Nat} (hp : r.partner = none) (hb : bundleFault b = false) (he : ∀ sl, badEncoding sl (slotWord b sl) = false)
    (hs : s.stalls k r (r.snapshot b) b = false) (hc : s.slotsFault k r (r.snapshot b) b = none) :
    s.openBundle k r b = (s.setRun k (openedRun r b), true) := by
  simp only [State.openBundle, hb, he, hs, hc, hp, State.pairAgrees, openedRun, slotsCAI, List.any_cons, List.any_nil, Bool.or_self, Bool.not_true,
    Bool.false_eq_true, if_false, Option.isSome_none, List.append_nil, Nat.add_zero]

/-- A slot that holds an instruction has still to act when its bundle opens. -/
theorem todo_snapshot (r : Run) (h : opOf (slotWord b sl) ≠ 0) : (r.snapshot b).todo.contains (slotNum sl) = true := by
  have hmem : sl ∈ slotsCAI.filter (fun sl => opOf (slotWord b sl) != 0) :=
    List.mem_filter.2 ⟨by cases sl <;> decide, bne_iff_ne.2 h⟩
  exact List.contains_iff_mem.2 (List.mem_map_of_mem hmem)

theorem acts_opened (h : Meets s i k sl w r b) (hw : opOf w ≠ 0) : Acts (s.setRun k (openedRun r b)) i k sl w (openedRun r b) (r.snapshot b) b where
  slot := h.slot
  run := runOf_setRun_same s k _
  free := h.free
  bundle := h.bundle
  word := h.word
  opened := rfl
  todo := todo_snapshot r (h.word ▸ hw)

/-- Once open, the bundle's slot acts as in any open bundle. -/
theorem exec_opens (h : Meets s i k sl w r b) (hw : opOf w ≠ 0) (ho : s.openBundle k r b = (s.setRun k (openedRun r b), true)) :
    exec i s = exec i (s.setRun k (openedRun r b)) := by
  obtain ⟨f, hf⟩ := exec_slot h.slot
  have hacts := acts_opened h hw
  rw [hf, hf, issue_meets h, ho, if_pos rfl, issue_acts hacts]
  simp only [State.actSlot, hacts.run, hacts.opened, hacts.todo, or_true, if_true]

end Opening

/-- Settles O4: the opening of a bundle by `openBundle_opens`, its slot by `exec_opens`. -/
theorem bundleOpens : Obligations.BundleOpens := by
  unfold Obligations.BundleOpens
  intro s i k sl w r b hslot hrun hfree hbundle hword hissue hfault hending hpartner hb he hs hc hw
  have h : Meets s i k sl w r b := ⟨hslot, hrun, hfree, hbundle, hword, hissue, hfault, hending, hpartner⟩
  exact ⟨acts_opened h hw, exec_opens h hw (openBundle_opens hpartner hb he hs hc), rfl, rfl, rfl, rfl, rfl, rfl⟩

/-! ### Waits (R147, R151, R160) -/

section Waits

variable {s : State} {k : Nat} {r : Run} {is : Issue} {w : Nat}

theorem noteWait_other (hw : opOf w ≠ 0x41) : s.noteWait k r is w = s := if_neg fun h => hw h.1

theorem noteWait_swait {n : Node} {o : Nat} (hp : r.partner = none) (hw : opOf w = 0x41) (ho : objOf (is.x (wRs1 w)) = some (n, o))
    (hwait : r.waiting = none) (hs : s.stallC k r is w = true) :
    s.noteWait k r is w = s.setRun k { r with waiting := some (.swait o (is.x (wRs2 w)) (wFn w)) } := by
  simp only [State.noteWait, hw, hwait, hp, hs, ho, Option.isNone_none, or_true, and_self, if_true]

/-- Outside a pair a bundle waits where its slot C does. -/
theorem stalls_of_stallC {b : Bundle} (hp : r.partner = none) (hs : s.stallC k r is (slotWord b .C) = true) : s.stalls k r is b = true := by
  simp only [State.stalls, State.stallsOwn, hp, hs, Option.isNone_none, Bool.or_true, Bool.and_self, Bool.true_or]

end Waits

/-- Settles O5: each clause by what `openBundle` leaves there. -/
theorem faultsAndStalls : Obligations.FaultsAndStalls := by
  unfold Obligations.FaultsAndStalls
  intro s i k sl w r b hslot hrun hfree hbundle hword hissue hfault hending hpartner
  have h : Meets s i k sl w r b := ⟨hslot, hrun, hfree, hbundle, hword, hissue, hfault, hending, hpartner⟩
  have faults {c : Nat} (ho : s.openBundle k r b = (s.faultNow k c 0, false)) :
      exec i s = .next (s.setRun k (r.faulted c r.pc 0 (r.opened + 1))) := faultNow_meets h c ▸ exec_unopened h ho
  refine ⟨fun hb => faults (openBundle_bundleFault k r hb), fun sl' c hb he hc => faults (openBundle_badEncoding hb he hc),
    fun hb he => ⟨fun hs hw => ?_, fun n o hw ho hwait hs => ?_, fun c hs hc => faults (openBundle_slotsFault hb he hs hc)⟩⟩
  · exact (exec_unopened h (openBundle_stalls hb he hs)).trans (congrArg _ (noteWait_other hw))
  · exact (exec_unopened h (openBundle_stalls hb he (stalls_of_stallC hpartner hs))).trans
      (congrArg _ (noteWait_swait hpartner hw ho hwait hs))

/-! ### The closing of a bundle (R140, R155) -/

section Closing

variable {s : State} {k : Nat} {sl : Slot} {r : Run} {is : Issue}

/-- The task's run once its bundle is closed: control goes on, and of a task that has stopped the open chain goes. -/
def closedRun (r : Run) (next : Nat) : Run :=
  { r with issue := none, waiting := none, pc := next, chain := if r.fault.isSome || r.disagreed || r.timedOut then none else r.chain }

/-- The last slot closes the bundle; past the last bundle of its program a task that goes on meets PC_RANGE. -/
theorem closeBundle_last (hr : s.runOf k = some r) (hi : r.issue = some is) (ht : is.todo.filter (· != slotNum sl) = []) :
    s.closeBundle k sl = if r.ending.isNone ∧ r.fault.isNone ∧ is.next ≥ s.progLen r.task.ctx r.task.prog then
      (s.setRun k (closedRun r is.next)).faultRun k ftPcRange is.next 0 (r.opened + 1) else s.setRun k (closedRun r is.next) := by
  simp only [State.closeBundle, hr, hi, ht, ne_eq, not_true, if_false, closedRun]

theorem faulted_closedRun (r : Run) (next c bundle slot n : Nat) :
    (closedRun r next).faulted c bundle slot n = ({ r with issue := none, pc := next } : Run).faulted c bundle slot n := rfl

theorem closeBundle_pastEnd (hr : s.runOf k = some r) (hi : r.issue = some is) (ht : is.todo.filter (· != slotNum sl) = [])
    (hlen : s.progLen r.task.ctx r.task.prog ≤ is.next) (hf : r.fault = none) (he : r.ending = none) (hp : r.partner = none) :
    s.closeBundle k sl = s.setRun k (({ r with issue := none, pc := is.next } : Run).faulted 0x02 is.next 0 (r.opened + 1)) := by
  rw [closeBundle_last hr hi ht, if_pos ⟨by rw [he]; rfl, by rw [hf]; rfl, hlen⟩,
    faultRun_first (r := closedRun r is.next) (runOf_setRun_same _ _ _) hp hf, struck_between (r := closedRun r is.next) rfl, faulted_closedRun,
    setRun_setRun]
  rfl

end Closing

/-- Settles O6: by whether a slot is left, and whether control stays in the program. -/
theorem bundleCloses : Obligations.BundleCloses := by
  unfold Obligations.BundleCloses
  intro s k sl r is hr hi
  refine ⟨closeBundle_more hr hi, fun ht hlen => ?_, closeBundle_pastEnd hr hi⟩
  rw [closeBundle_last hr hi ht, if_neg fun h => Nat.not_le.2 hlen h.2.2]
  rfl

end Sys2Proof.Proofs
end

section
/-! SUPPORT. Scalar and branch instructions and RDSR (R136, R137, R140): the words that they compute, as numbers; the x registers; and the statements
on them. -/

namespace Sys2Proof.Proofs

open Sys2Proof Sys2Proof.Machine

/-! ### Words as numbers (R140) -/

section Words

variable (a b : Word) (imm : BitVec 24)

theorem addWord_eq : addWord a b = BitVec.ofNat 64 (a.toNat + b.toNat) := by
  rw [BitVec.ofNat_add, BitVec.ofNat_toNat, BitVec.ofNat_toNat, BitVec.setWidth_eq, BitVec.setWidth_eq, addWord]

theorem subWord_eq : subWord a b = BitVec.ofInt 64 (a.toInt - b.toInt) := by
  rw [Int.sub_eq_add_neg, BitVec.ofInt_add, BitVec.ofInt_neg, BitVec.ofInt_toInt, BitVec.ofInt_toInt, subWord, BitVec.sub_eq_add_neg]

theorem sllWord_eq : sllWord a b = BitVec.ofNat 64 (a.toNat * 2 ^ (b.toNat % 64)) := by
  apply BitVec.eq_of_toNat_eq
  rw [sllWord, BitVec.toNat_shiftLeft, Nat.shiftLeft_eq, BitVec.toNat_ofNat]

theorem srlWord_eq : srlWord a b = BitVec.ofNat 64 (a.toNat / 2 ^ (b.toNat % 64)) := by
  apply BitVec.eq_of_toNat_eq
  rw [srlWord, BitVec.toNat_ushiftRight, Nat.shiftRight_eq_div_pow, BitVec.toNat_ofNat,
    Nat.mod_eq_of_lt ((Nat.div_le_self _ _).trans_lt a.isLt)]

theorem sraWord_eq : sraWord a b = BitVec.ofInt 64 (a.toInt / 2 ^ (b.toNat % 64)) := by
  rw [← BitVec.ofInt_toInt (x := sraWord a b), sraWord, BitVec.toInt_sshiftRight, Int.shiftRight_eq_div_pow]
  norm_cast

theorem mulWord_eq : mulWord a b = BitVec.ofNat 64 (a.toNat * b.toNat) := by
  rw [BitVec.ofNat_mul, BitVec.ofNat_toNat, BitVec.ofNat_toNat, BitVec.setWidth_eq, BitVec.setWidth_eq, mulWord]

theorem eq_zero_iff_toNat : b = 0#64 ↔ b.toNat = 0 := BitVec.toNat_inj.symm

theorem divuWord_eq : divuWord a b = if b.toNat = 0 then BitVec.allOnes 64 else BitVec.ofNat 64 (a.toNat / b.toNat) := by
  simp only [divuWord, eq_zero_iff_toNat, BitVec.udiv_def]

theorem remuWord_eq : remuWord a b = if b.toNat = 0 then a else BitVec.ofNat 64 (a.toNat % b.toNat) := by
  simp only [remuWord, eq_zero_iff_toNat, BitVec.umod_def]

theorem sltWord_eq : sltWord a b = if a.toInt < b.toInt then 1#64 else 0#64 := by simp only [sltWord, boolWord, decide_eq_true_eq]

theorem sltuWord_eq : sltuWord a b = if a.toNat < b.toNat then 1#64 else 0#64 := by simp only [sltuWord, boolWord, decide_eq_true_eq]

theorem minWord_eq : minWord a b = BitVec.ofInt 64 (min a.toInt b.toInt) := by
  rw [minWord, Int.min_def, apply_ite (BitVec.ofInt 64), BitVec.ofInt_toInt, BitVec.ofInt_toInt]

theorem maxWord_eq : maxWord a b = BitVec.ofInt 64 (max a.toInt b.toInt) := by
  rw [maxWord, max_comm, Int.max_def, apply_ite (BitVec.ofInt 64), BitVec.ofInt_toInt, BitVec.ofInt_toInt]

theorem add_sext24_eq : a + sext24 imm = BitVec.ofInt 64 (a.toInt + imm.toInt) := by
  rw [BitVec.ofInt_add, BitVec.ofInt_toInt, sext24, BitVec.signExtend]

theorem zext24_eq : zext24 imm = BitVec.ofNat 64 imm.toNat := (BitVec.ofNat_toNat 64 imm).symm

theorem luiWord_eq : zext24 imm <<< 24 = BitVec.ofNat 64 (imm.toNat * 2 ^ 24) := by
  apply BitVec.eq_of_toNat_eq
  rw [zext24_eq, BitVec.toNat_shiftLeft, Nat.shiftLeft_eq, BitVec.toNat_ofNat, BitVec.toNat_ofNat, Nat.mod_mul_mod]

/-- The low 48 bits of a register below the low 16 of the immediate. -/
theorem lhiWord_eq : (a &&& 0x0000FFFFFFFFFFFF#64) ||| (zext24 imm <<< 48) = BitVec.ofNat 64 (a.toNat % 2 ^ 48 + imm.toNat % 2 ^ 16 * 2 ^ 48) := by
  have hlow : (a &&& 0x0000FFFFFFFFFFFF#64).toNat = a.toNat % 2 ^ 48 := Nat.and_two_pow_sub_one_eq_mod a.toNat 48
  have hhigh : (zext24 imm <<< 48).toNat = 2 ^ 48 * (imm.toNat % 2 ^ 16) := by
    have := imm.isLt
    rw [zext24_eq, BitVec.toNat_shiftLeft, Nat.shiftLeft_eq, BitVec.toNat_ofNat]
    omega
  have hsmall : a.toNat % 2 ^ 48 < 2 ^ 48 := Nat.mod_lt _ (by decide)
  apply BitVec.eq_of_toNat_eq
  rw [BitVec.toNat_or, hlow, hhigh, Nat.or_comm, ← Nat.two_pow_add_eq_or_of_lt hsmall, BitVec.toNat_ofNat]
  omega

end Words

/-! ### The x registers (R136) -/

section Registers

variable {α : Type}

theorem length_setAt (l : List α) (i : Nat) (v : α) : (setAt l i v).length = l.length := by
  induction l generalizing i with
  | nil => rfl
  | cons x t ih =>
    cases i with
    | zero => rfl
    | succ i => exact congrArg (· + 1) (ih i)

theorem getD_setAt_same (l : List α) {i : Nat} (v d : α) (h : i < l.length) : (setAt l i v).getD i d = v := by
  induction l generalizing i with
  | nil => exact absurd h (Nat.not_lt_zero i)
  | cons x t ih =>
    cases i with
    | zero => rfl
    | succ i => exact ih (Nat.lt_of_succ_lt_succ h)

theorem getD_setAt_other (l : List α) {i j : Nat} (v d : α) (h : j ≠ i) : (setAt l i v).getD j d = l.getD j d := by
  induction l generalizing i j with
  | nil => rfl
  | cons x t ih =>
    cases i with
    | zero =>
      cases j with
      | zero => exact absurd rfl h
      | succ j => rfl
    | succ i =>
      cases j with
      | zero => rfl
      | succ j => exact ih fun hji => h (congrArg (· + 1) hji)

variable {r : Run} {rd : XReg} (v : Word)

theorem writeX_zero (r : Run) : r.writeX 0 v = r := if_pos rfl

theorem writeX_nonzero (h : rd ≠ 0) : r.writeX rd v = { r with xs := setAt r.xs rd v } := if_neg fun h0 => h (Fin.ext h0)

theorem issue_writeX (r : Run) (rd : Nat) : (r.writeX rd v).issue = r.issue := by
  unfold Run.writeX
  split <;> rfl

end Registers

/-! ### Scalar instructions (R140) -/

section Effects

variable {s : State} {i : Instr} {k : LCore} {sl : Slot} {w : Nat} {r : Run} {is : Issue} {b : Bundle}

/-- An instruction that `State.scalar` carries out writes its register with the word that it computes. -/
theorem writes_of_scalar {rd : XReg} {g : Issue → Word} {f : (XReg → Word) → Word} (hexec : ∀ s, exec i s = s.scalar i rd g)
    (hfg : ∀ is : Issue, g is = f (fun n => is.x n)) : Writes i rd f := by
  intro s k w r is b h
  rw [hexec]
  refine congrArg Host.Outcome.next ((issue_modRun h _).trans ?_)
  rw [hfg]

/-- NOP acts even where its slot has nothing left to do (R134). -/
theorem exec_nop (hr : s.runOf k = some r) (hfree : s.canIssue k = true) (hb : s.bundleAt r = some b) (hw : slotWord b sl = 0)
    (hi : r.issue = some is) : exec (.nop k sl) s = .next (s.closeBundle k sl) := by
  show Host.Outcome.next (s.issue (.nop k sl) _) = _
  simp only [State.issue, slotOf, hr, hfree, hb, hw, hi, State.actSlot, Bool.not_true, Bool.false_eq_true, if_false, ne_eq, not_true, opOf,
    Nat.zero_div, true_or, if_true]

end Effects

/-- Settles O7: each instruction is one of `State.scalar`, on the word that it computes; x0 and the other registers by `writeX`. -/
theorem scalarResults : Obligations.ScalarResults := by
  unfold Obligations.ScalarResults
  refine ⟨fun k rd rs1 rs2 imm => ⟨fun sl s r is b => exec_nop, ?add, ?sub, ?and, ?or, ?xor, ?sll, ?srl, ?sra, ?mul, ?mulhu, ?divu, ?remu, ?slt,
    ?sltu, ?min, ?max, ?addi, ?andi, ?ori, ?xori, ?lui, ?lhi⟩, fun is => rfl, fun r v => writeX_zero v r, fun r rd v hrd hlen => ?registers⟩
  case add => exact writes_of_scalar (fun _ => rfl) fun _ => addWord_eq _ _
  case sub => exact writes_of_scalar (fun _ => rfl) fun _ => subWord_eq _ _
  case and | or | xor | mulhu => exact writes_of_scalar (fun _ => rfl) fun _ => rfl
  case sll => exact writes_of_scalar (fun _ => rfl) fun _ => sllWord_eq _ _
  case srl => exact writes_of_scalar (fun _ => rfl) fun _ => srlWord_eq _ _
  case sra => exact writes_of_scalar (fun _ => rfl) fun _ => sraWord_eq _ _
  case mul => exact writes_of_scalar (fun _ => rfl) fun _ => mulWord_eq _ _
  case divu => exact writes_of_scalar (fun _ => rfl) fun _ => divuWord_eq _ _
  case remu => exact writes_of_scalar (fun _ => rfl) fun _ => remuWord_eq _ _
  case slt => exact writes_of_scalar (fun _ => rfl) fun _ => sltWord_eq _ _
  case sltu => exact writes_of_scalar (fun _ => rfl) fun _ => sltuWord_eq _ _
  case min => exact writes_of_scalar (fun _ => rfl) fun _ => minWord_eq _ _
  case max => exact writes_of_scalar (fun _ => rfl) fun _ => maxWord_eq _ _
  case addi => exact writes_of_scalar (fun _ => rfl) fun _ => add_sext24_eq _ _
  case andi => exact writes_of_scalar (fun _ => rfl) fun is => congrArg (is.x rs1 &&& ·) (zext24_eq imm)
  case ori => exact writes_of_scalar (fun _ => rfl) fun is => congrArg (is.x rs1 ||| ·) (zext24_eq imm)
  case xori => exact writes_of_scalar (fun _ => rfl) fun is => congrArg (is.x rs1 ^^^ ·) (zext24_eq imm)
  case lui => exact writes_of_scalar (fun _ => rfl) fun _ => luiWord_eq _
  case lhi => exact writes_of_scalar (fun _ => rfl) fun _ => lhiWord_eq _ _
  case registers =>
    rw [writeX_nonzero v hrd]
    exact ⟨getD_setAt_same _ _ _ (rd.isLt.trans_eq hlen.symm), fun j hj => getD_setAt_other _ _ _ fun h => hj (Fin.ext h),
      (length_setAt _ _ _).trans hlen, rfl⟩

/-! ### Branches (R140) -/

/-- An instruction that `State.branch` carries out branches relative to its own bundle. -/
theorem branches_of_branch {i : Instr} {off : BitVec 24} {c : (XReg → Word) → Bool}
    (hexec : ∀ s, exec i s = s.branch i off (fun is => c (fun n => is.x n))) : Branches i off c := by
  intro s k w r is b h hnext
  rw [hexec]
  refine congrArg Host.Outcome.next ((issue_acts h _).trans ?_)
  simp only [State.jump, modRun_run h.run, h.opened, Option.map_some, hnext, Nat.cast_add, Nat.cast_one, add_sub_cancel_right]

/-- A link and a jump: both change the task's run alone. -/
theorem exec_link {s : State} {i : Instr} {k : LCore} {sl : Slot} {w : Nat} {r : Run} {is : Issue} {b : Bundle} (h : Acts s i k sl w r is b)
    (rd : XReg) (v : Issue → Word) (t : Issue → Nat) : s.issue i (fun k is _ s => (s.writeX k rd (v is)).jump k (t is))
      = (s.setRun k { (r.writeX rd (v is)) with issue := some { is with next := t is } }).closeBundle k sl := by
  rw [issue_acts h, State.writeX, modRun_run h.run, State.jump, modRun_run (runOf_setRun_same s k _), setRun_setRun, issue_writeX, h.opened,
    Option.map_some]

/-- Settles O8: the branches by `branches_of_branch`, JAL and JALR by `exec_link`. -/
theorem branchTargets : Obligations.BranchTargets := by
  unfold Obligations.BranchTargets
  intro k rd rs1 rs2 off
  refine ⟨?beq, ?bne, ?blt, ?bge, ?bltu, ?bgeu, fun s k' w r is b h hnext => ?jal, fun s k' w r is b h hnext => ?jalr⟩
  case beq | bne | blt | bge | bltu | bgeu => exact branches_of_branch fun _ => rfl
  case jal =>
    refine congrArg Host.Outcome.next ((exec_link h rd _ fun is => ((is.next : Int) - 1 + off.toInt).toNat).trans ?_)
    simp only [hnext, Nat.cast_add, Nat.cast_one, add_sub_cancel_right]
  case jalr =>
    refine congrArg Host.Outcome.next ((exec_link h rd _ fun is => (is.x rs1 + sext24 off).toNat).trans ?_)
    simp only [hnext, add_sext24_eq]

/-! ### Special registers (R137, R151) -/

section Specials

variable {s : State} {k : LCore} {rd : XReg} {idx : BitVec 24} {w : Nat} {r : Run} {is : Issue} {b : Bundle}

theorem runOf_special (hr : s.runOf k = some r) (q : Run) (n : Nat) : (s.special k q is n).2.runOf k = some r := by
  unfold State.special
  split <;> exact hr

/-- Outside a pair a special register reads the same whether or not it enters the task from outside (R187). -/
theorem exec_rdsr (h : Acts s (.rdsr k rd idx) k .C w r is b) (hp : r.partner = none) {v : Word} {t : State}
    (hv : s.special k r is idx.toNat = (v, t)) : exec (.rdsr k rd idx) s = .next ((t.setRun k (r.writeX rd v)).closeBundle k .C) := by
  have hrun : t.runOf k = some r := by
    have := runOf_special (is := is) h.run r idx.toNat
    rwa [hv] at this
  have henter : s.enterC k is b (fun s => s.special k r is idx.toNat) = s.special k r is idx.toNat :=
    enterC_unpaired h.run hp (runOf_special h.run r idx.toNat)
  refine congrArg Host.Outcome.next ((issue_acts h _).trans ?_)
  simp only [h.run, henter, ite_self, hv, State.writeX, modRun_run hrun]

end Specials

/-- Settles O9: each index by what it names. -/
theorem specialRegisters : Obligations.SpecialRegisters := by
  unfold Obligations.SpecialRegisters
  intro k rd idx s w r is b h hp
  refine ⟨?_, ?_, ?_, ?_, ?_, ?_, ?_, ?_⟩ <;> (rintro rfl; exact exec_rdsr h hp rfl)

end Sys2Proof.Proofs
end

section
/-! SUPPORT. Address generators, local memory and moves (R133, R138, R141, R143, R153, R205, R220): what a generator yields, what loads, stores and
MOVEs do to registers and memory, and the statements on them. -/

namespace Sys2Proof.Proofs

open Sys2Proof Sys2Proof.Machine

/-! ### Address generators (R138) -/

theorem ofInt_term (d : Dim) : BitVec.ofInt 64 (d.stride.toInt * (d.index.toNat : Int)) = d.term := by
  rw [BitVec.ofInt_mul, BitVec.ofInt_natCast, BitVec.ofNat_toNat, Dim.term, BitVec.signExtend]

/-- Terms add up to the same sum in whichever order. -/
theorem foldl_term (dims : List Dim) (base : Word) : dims.foldl (fun a d => a + d.term) base
    = base + BitVec.ofInt 64 ((dims.map (fun d => d.stride.toInt * (d.index.toNat : Int))).foldr (· + ·) 0) := by
  induction dims generalizing base with
  | nil => exact (BitVec.add_zero base).symm
  | cons d t ih => rw [List.foldl_cons, ih, List.map_cons, List.foldr_cons, BitVec.ofInt_add, ofInt_term, BitVec.add_assoc]

theorem addr_eq (g : AG) :
    g.addr = BitVec.ofInt 64 (g.base.toInt + (g.dims.map (fun d => d.stride.toInt * (d.index.toNat : Int))).foldr (· + ·) 0) := by
  rw [AG.addr, foldl_term, BitVec.ofInt_add, BitVec.ofInt_toInt]

theorem stepDims_within {d : Dim} (t : List Dim) (h : d.index.toNat + 1 < d.size) : stepDims (d :: t) = { d with index := d.index + 1#16 } :: t :=
  if_neg (Nat.not_le.2 h)

theorem stepDims_carry {d : Dim} (t : List Dim) (h : d.size ≤ d.index.toNat + 1) :
    stepDims (d :: t) = { d with index := 0#16 } :: stepDims t := if_pos h

/-- Settles O10: the sum by `addr_eq`; the instructions change the task's run alone. -/
theorem addressGenerators : Obligations.AddressGenerators := by
  unfold Obligations.AddressGenerators
  refine ⟨addr_eq, fun d t => stepDims_within t, fun d t => stepDims_carry t, fun k ag d rs1 rs2 => ⟨?_, ?_, ?_, ?_⟩⟩
  all_goals exact fun s _ w r is b h => congrArg Host.Outcome.next (issue_modRun h _)

/-! ### Memory (R133, R141, R143, R208) -/

section Memories

variable {m : Mem} {a n ln : Nat}

theorem mem_poison_store (l : List Byte) :
    ln ∈ (m.store a l).poison ↔ ln ∈ m.poison ∧ ¬(a ≤ 64 * ln ∧ 64 * ln + 64 ≤ a + l.length) := by
  rw [Mem.store, List.mem_filter, Bool.not_eq_true', decide_eq_false_iff_not]

theorem poisoned_mark (m : Mem) (ln : Nat) : (m.mark ln).poisoned (64 * ln) 64 = true := by
  have hmem : ln ∈ (m.mark ln).poison := by
    unfold Mem.mark
    split
    · next h => exact List.contains_iff_mem.1 h
    · exact List.mem_cons_self
  exact List.any_eq_true.2 ⟨ln, hmem, decide_eq_true (by omega)⟩

/-- A range that touches no marked line has none to carry (R143). -/
theorem poisonedOffsets_clean (h : m.poisoned a n = false) : m.poisonedOffsets a n = [] := by
  unfold Mem.poisonedOffsets
  split
  · rfl
  · next hn =>
    refine List.filterMap_eq_nil_iff.2 fun i hi => if_neg fun hc => ?_
    have hi' := List.mem_range.1 hi
    have htouch : m.poisoned a n = true := Bool.and_eq_true_iff.2 ⟨decide_eq_true hn,
      List.any_eq_true.2 ⟨a / 64 + i, List.contains_iff_mem.1 hc, decide_eq_true (by omega)⟩⟩
    exact Bool.false_ne_true (h.symm.trans htouch)

end Memories

/-- Settles O12: reads after a store, its form and its marks, each by its own law. -/
theorem storeFrame : Obligations.StoreFrame := by
  unfold Obligations.StoreFrame
  exact fun m a l => ⟨fun i h => read_store m a l i h, fun c h => read_store_other m a l c h, wf_store m a l, fun ln => mem_poison_store l⟩

/-! ### Loads and stores (R141, R143, R220) -/

section LocalAccess

variable {s : State} {k : LCore} {v : VReg} {ag : AReg} {wd : Fin 4} {rd rs1 rs2 : XReg} {imm : BitVec 24} {obs : List StoreLine} {w : Nat} {r : Run}
  {is : Issue} {b : Bundle}

theorem laneOf_unpackLanes (wd : Fin 4) (l : List Byte) (i : Fin 128) :
    laneOf (unpackLanes wd l) i = fromLe l / 2 ^ (32 / 2 ^ wd.val * i.val) % 2 ^ (32 / 2 ^ wd.val) := by
  have hwide : 2 ^ vmBits wd ≤ 2 ^ 32 := Nat.pow_le_pow_right (by decide) (Nat.div_le_self _ _)
  rw [unpackLanes, laneOf_ofLanes _ _ (by simp) (by simp), List.getElem_map, List.getElem_range,
    Nat.mod_eq_of_lt ((Nat.mod_lt _ (Nat.two_pow_pos _)).trans_le hwide)]
  rfl

theorem any_markedAt_single {k : Nat} {x : Range} {marked : Bool} (h : s.mem.poisoned (s.localAt k x.1) x.2 = marked) :
    [x].any (s.markedAt k) = marked := (Bool.or_false _).trans h

/-- A vector move writes the register that it names and its generator. -/
theorem exec_vld (h : Acts s (.vld k v ag wd obs) k .A w r is b) (hw : ReadsWell s k obs)
    (hm : s.mem.poisoned (s.localAt k (is.ag ag).addr.toNat) (512 / 2 ^ wd.val) = false) :
    exec (.vld k v ag wd obs) s = .next ((s.setRun k
      { r with vs := setAt r.vs v (unpackLanes wd (s.mem.bytes (s.localAt k (is.ag ag).addr.toNat) (512 / 2 ^ wd.val)))
               ags := setAt r.ags ag ((is.ag ag).step 0) }).closeBundle k .A) := by
  have hclean : s.useLocal k 1 [((is.ag ag).addr.toNat, vmBytes wd)] obs = s :=
    useLocal_clean hw 1 (any_markedAt_single hm)
  refine congrArg Host.Outcome.next ((issue_acts h _).trans ?_)
  dsimp only
  rw [hclean, State.writeV, modRun_run h.run, modRun_run (runOf_setRun_same s k _), setRun_setRun]
  rfl

theorem exec_vst (h : Acts s (.vst k v ag wd) k .A w r is b) : exec (.vst k v ag wd) s = .next
    ((({ s with mem := s.mem.store (s.localAt k (is.ag ag).addr.toNat) (packLanes wd (is.v v)) }).setRun k
      { r with ags := setAt r.ags ag ((is.ag ag).step 0) }).closeBundle k .A) := by
  have hrun (m : Mem) : ({ s with mem := m } : State).runOf k = some r := h.run
  refine congrArg Host.Outcome.next ((issue_acts h _).trans ?_)
  exact congrArg (State.closeBundle · k .A) (modRun_run (hrun _) _)

/-- The address of SLD and SST. -/
theorem slAddr_eq (is : Issue) (rs1 : XReg) (imm : BitVec 24) :
    (is.x rs1 + sext24 imm).toNat = (BitVec.ofInt 64 ((is.x rs1).toInt + imm.toInt)).toNat := congrArg BitVec.toNat (add_sext24_eq _ _)

theorem exec_sld (h : Acts s (.sld k rd rs1 imm obs) k .A w r is b) (hw : ReadsWell s k obs)
    (hm : s.mem.poisoned (s.localAt k (is.x rs1 + sext24 imm).toNat) 8 = false) :
    exec (.sld k rd rs1 imm obs) s = .next ((s.setRun k (r.writeX rd
      (BitVec.ofNat 64 (fromLe (s.mem.bytes (s.localAt k (is.x rs1 + sext24 imm).toNat) 8))))).closeBundle k .A) := by
  have hclean : s.useLocal k 1 [((is.x rs1 + sext24 imm).toNat, 8)] obs = s :=
    useLocal_clean hw 1 (any_markedAt_single hm)
  refine congrArg Host.Outcome.next ((issue_acts h _).trans ?_)
  dsimp only
  rw [hclean, State.writeX, modRun_run h.run]
  rfl

/-- Lines that come as they were written are read without effect (R220). -/
theorem storeReads_clean (hw : ReadsWell s k obs) (l : List Range) : s.storeReads k l obs = s := foldl_storeLine_clean fun o ho =>
  let ⟨hhard, hfails⟩ := hw o (List.mem_of_mem_filter ho)
  storeLine_clean hhard hfails

/-- A use of marked lines, each read as it was written, is the fault POISON, met after the bundle's issue (R143, R155). -/
theorem useLocal_marked {l : List Range} (hr : s.runOf k = some r) (hp : r.partner = none) (hf : r.fault = none) (hw : ReadsWell s k obs)
    (slot : Nat) (hm : l.any (s.markedAt k) = true) : s.useLocal k slot l obs = s.setRun k (r.struck 0x18 r.pc slot (r.opened - 1)) := by
  simp only [State.useLocal, storeReads_clean hw, State.useMarked, hr, hm, if_true, ftPoison, faultRun_first hr hp hf]

theorem exec_sld_marked (h : Acts s (.sld k rd rs1 imm obs) k .A w r is b) (hp : r.partner = none) (hf : r.fault = none) (hw : ReadsWell s k obs)
    (hm : s.mem.poisoned (s.localAt k (is.x rs1 + sext24 imm).toNat) 8 = true) :
    exec (.sld k rd rs1 imm obs) s = .next ((s.setRun k ((r.struck 0x18 r.pc 1 (r.opened - 1)).writeX rd
      (s.mem.word (s.localAt k (is.x rs1 + sext24 imm).toNat)))).closeBundle k .A) := by
  have huse := useLocal_marked h.run hp hf hw 1 (l := [((is.x rs1 + sext24 imm).toNat, 8)])
    (any_markedAt_single hm)
  refine congrArg Host.Outcome.next ((issue_acts h _).trans ?_)
  dsimp only
  rw [huse, State.writeX, modRun_run (runOf_setRun_same s k _), setRun_setRun]
  rfl

theorem exec_sst (h : Acts s (.sst k rd rs1 imm) k .A w r is b) : exec (.sst k rd rs1 imm) s = .next (({ s with
    mem := s.mem.store (s.localAt k (is.x rs1 + sext24 imm).toNat) (leBytes 8 (is.x rd).toNat) }).closeBundle k .A) :=
  congrArg Host.Outcome.next (issue_acts h _)

/-- A read whose repeat passes is logged. -/
theorem storeLine_repeated {k : Nat} {o : StoreLine} (hh : o.hard = false) (h1 : s.mem.wordFails (s.localAt k (64 * o.line) / 64) o.first ≠ 0)
    (h2 : s.mem.wordFails (s.localAt k (64 * o.line) / 64) o.second = 0) : s.storeLine k o = s.log
      { code := 0x0306, kind := (s.storeUnit k (64 * o.line)).1, unit := (s.storeUnit k (64 * o.line)).2, action := 2, ctx := s.ctxOf k } := by
  simp only [State.storeLine, hh, if_neg h1, h2, if_true, Bool.false_eq_true, if_false]

/-- A line that fails twice is logged and marked. -/
theorem storeLine_failed {k : Nat} {o : StoreLine} (hh : o.hard = false) (h1 : s.mem.wordFails (s.localAt k (64 * o.line) / 64) o.first ≠ 0)
    (h2 : s.mem.wordFails (s.localAt k (64 * o.line) / 64) o.second ≠ 0) : s.storeLine k o =
      { (s.log { code := 0x0307, cls := 1, kind := (s.storeUnit k (64 * o.line)).1, unit := (s.storeUnit k (64 * o.line)).2, action := 3
                 ctx := s.ctxOf k }) with mem := s.mem.mark (s.localAt k (64 * o.line) / 64) } := by
  simp only [State.storeLine, hh, if_neg h1, if_neg h2, Bool.false_eq_true, if_false]

end LocalAccess

/-- Settles O11: each instruction by its own lemma, the reads of lines by `storeLine`'s. -/
theorem loadsAndStores : Obligations.LoadsAndStores := by
  unfold Obligations.LoadsAndStores
  intro k v ag wd rd rs1 imm
  simp only [← slAddr_eq]
  exact ⟨fun s obs w r is b h hw hm => ⟨_, exec_vld h hw hm, laneOf_unpackLanes _ _⟩, fun s w r is b h => exec_vst h,
    fun x => leBytes_length _ _, fun s obs w r is b h hw hm => exec_sld h hw hm, fun s w r is b h => exec_sst h,
    fun s obs w r is b h hp hf hw hm => ⟨_, exec_sld_marked h hp hf hw hm⟩,
    fun s o hh => ⟨storeLine_repeated hh, fun h1 h2 => ⟨storeLine_failed hh h1 h2, poisoned_mark _ _⟩⟩⟩

/-! ### MOVE (R141, R143, R153) -/

section Moving

variable {s : State} {k : LCore} {rd rs1 rs2 : XReg} {obs : List StoreLine} {w : Nat} {r : Run} {is : Issue} {b : Bundle}

theorem exec_move (h : Acts s (.move k rd rs1 rs2 obs) k .A w r is b) (hw : ReadsWell s k obs)
    (hm : s.mem.poisoned (s.localAt k (is.x rs1).toNat) (is.x rs2).toNat = false) :
    exec (.move k rd rs1 rs2 obs) s = .next ((s.setRun k
      { r with moves := r.moves ++ [⟨(is.x rs1).toNat, (is.x rd).toNat, (is.x rs2).toNat⟩] }).closeBundle k .A) := by
  refine congrArg Host.Outcome.next ((issue_acts h _).trans ?_)
  rw [modRun_run h.run, useLocal_setRun_clean hw _ _ (any_markedAt_single hm)]

theorem exec_moveComplete {i : Nat} {m : Mv} (hr : s.runOf k = some r) (hi : r.moves[i]? = some m)
    (hm : s.mem.poisoned (s.localAt k m.src) m.bytes = false) :
    exec (.moveComplete k i) s = .next { (s.setRun k { r with moves := r.moves.eraseIdx i }) with
      mem := s.mem.store (s.localAt k m.dst) (s.mem.bytes (s.localAt k m.src) m.bytes) } := by
  show execMoveComplete k i s = _
  simp only [execMoveComplete, hr, hi, poisonedOffsets_clean hm, State.storeMarked, List.foldl_nil, setRun_mem]

end Moving

/-- Settles O13: the issue by `exec_move`, the completion by `exec_moveComplete`. -/
theorem moves : Obligations.Moves := by
  unfold Obligations.Moves
  exact fun k rd rs1 rs2 => ⟨fun s obs w r is b h hw hm => exec_move h hw hm, fun s r i m hr hi hm => exec_moveComplete hr hi hm⟩

end Sys2Proof.Proofs
end

section
/-! SUPPORT. Fabric operations of a task outside a pair (R142, R143, R155, R226, R230, R234, R235): their issue, where every address translates to
this module, their completion, and the statements on them. -/

namespace Sys2Proof.Proofs

open Sys2Proof Sys2Proof.Machine

/-! ### Shares at home (R226, R234, R235) -/

/-- The shares of an operation whose addresses all translate to this module: no request leaves for them. -/
def homeChunks (l : List (Nat × Nat × Nat)) : List Chunk := l.map (fun p => ⟨none, p.1, p.2.1, p.2.2, none⟩)

section Shares

variable {s : State} {k : Nat} {r : Run} {l : List (Nat × Nat × Nat)}

/-- The translation caches hold neither the tasks nor the module's number. -/
theorem cacheRun_keeps (u : Option Nat) (ctx va n : Nat) :
    (s.cacheRun u ctx va n).runOf k = s.runOf k ∧ (s.cacheRun u ctx va n).node = s.node := by
  have hkept := runsAndBeyond_cacheRun (s := s) u ctx va n
  simp only [runsAndBeyond, beyondTasks, Prod.mk.injEq] at hkept
  obtain ⟨hruns, -, -, -, himg, -⟩ := hkept
  exact ⟨congrArg (lookupKey · k) hruns, by rw [State.node, himg, State.node]⟩

theorem sendShares_home (kind ctx op : Nat) (data : Nat → Nat → List Byte) (h : ∀ p ∈ l, gpaNode p.1 = s.node.toNat) :
    s.sendShares kind ctx op data l = (s, homeChunks l) := by
  induction l using List.reverseRecOn with
  | nil => rfl
  | append_singleton t p ih =>
    have hinit := ih fun q hq => h q (List.mem_append_left _ hq)
    have hlast : gpaNode p.1 = s.node.toNat := h p (List.mem_append_right _ List.mem_cons_self)
    rw [State.sendShares] at hinit ⊢
    rw [List.foldl_append, hinit, List.foldl_cons, List.foldl_nil, if_pos hlast, homeChunks, homeChunks, List.map_append]
    rfl

/-- An operation all of whose addresses translate to this module goes on in the background. -/
theorem goOut_home {o : FabOp} {perm : Nat} (hr : s.runOf k = some r)
    (ht : s.translateRun (some (clusterOf k)) r.task.ctx o.va.toNat o.bytes perm = some l) (hhome : ∀ p ∈ l, gpaNode p.1 = s.node.toNat) (pk : Nat)
    (data : Nat → Nat → List Byte) : s.goOut k r o pk perm data =
      (s.cacheRun (some (clusterOf k)) r.task.ctx o.va.toNat o.bytes).setRun k { r with fab := r.fab ++ [{ o with chunks := homeChunks l }] } := by
  have hkept (n : Nat) := cacheRun_keeps (s := s) (k := k) (some (clusterOf k)) r.task.ctx o.va.toNat n
  have hshares := sendShares_home (s := s.cacheRun (some (clusterOf k)) r.task.ctx o.va.toNat o.bytes) pk r.task.ctx o.aop data
    fun p hp => (hhome p hp).trans (congrArg BitVec.toNat (hkept _).2.symm)
  simp only [State.goOut, ht, hshares, State.addFab]
  exact modRun_run ((hkept _).1.trans hr) _

end Shares

/-! ### Issue (R142, R143) -/

theorem badSize_iff (n : Nat) : badSize n = true ↔ n = 0 ∨ n % 64 ≠ 0 ∨ 2 ^ 24 < n := by
  simp only [badSize, Bool.or_eq_true, beq_iff_eq, bne_iff_ne, decide_eq_true_eq, or_assoc, gt_iff_lt]

theorem badSize_legal {n : Nat} (h : n ≠ 0 ∧ n % 64 = 0 ∧ n ≤ 2 ^ 24) : badSize n = false := by
  obtain ⟨hzero, hlines, hlimit⟩ := h
  refine Bool.eq_false_iff.2 fun hbad => ?_
  rcases (badSize_iff n).1 hbad with h | h | h
  · exact hzero h
  · exact h hlines
  · exact Nat.not_le.2 h hlimit

/-- The state after the issue of an operation at home. -/
def notedAtHome (s : State) (k : Nat) (r : Run) (o : FabOp) (l : List (Nat × Nat × Nat)) : State :=
  (s.cacheRun (some (clusterOf k)) r.task.ctx o.va.toNat o.bytes).setRun k { r with fab := r.fab ++ [{ o with chunks := homeChunks l }] }

section Issues

variable {s : State} {k : LCore} {r : Run} {l : List (Nat × Nat × Nat)} {va : Word} {loc n : Nat} {kind : FabKind} {sig : Option (Node × Nat)}
  {obs : List StoreLine}

theorem issueGet_home (hr : s.runOf k = some r) (hn : badSize n = false)
    (ht : s.translateRun (some (clusterOf k)) r.task.ctx va.toNat n permRead = some l) (hhome : ∀ p ∈ l, gpaNode p.1 = s.node.toNat) :
    s.issueGet k r va loc n none = notedAtHome s k r (s.fabOp r .get va loc n) l := by
  rw [State.issueGet, hn, if_neg Bool.false_ne_true]
  exact goOut_home hr ht hhome _ _

theorem putEffect_home (hr : s.runOf k = some r) (hp : r.partner = none) (hw : ReadsWell s k obs) (hn : badSize n = false)
    (hm : s.mem.poisoned (s.localAt k loc) n = false) (ht : s.translateRun (some (clusterOf k)) r.task.ctx va.toNat n permWrite = some l)
    (hhome : ∀ p ∈ l, gpaNode p.1 = s.node.toNat) :
    s.putEffect k kind va loc n sig obs = notedAtHome s k r { s.fabOp r kind va loc n with sig := sig } l := by
  have hclean := useLocal_clean hw 1 (any_markedAt_single (x := (loc, n)) hm)
  have hmark : s.markedAt k (loc, n) = false := hm
  simp only [State.putEffect, hr, hn, hclean, hmark, isShadow_unpaired hr hp, Bool.false_eq_true, or_self, if_false, State.issuePut]
  exact goOut_home hr ht hhome _ _

theorem putEffect_marked (hr : s.runOf k = some r) (hp : r.partner = none) (hf : r.fault = none) (hw : ReadsWell s k obs)
    (hn : badSize n = false) (hm : s.mem.poisoned (s.localAt k loc) n = true) :
    s.putEffect k kind va loc n sig obs = s.setRun k (r.struck 0x18 r.pc 1 (r.opened - 1)) := by
  have huse := useLocal_marked hr hp hf hw 1 (any_markedAt_single (x := (loc, n)) hm)
  have hmark : s.markedAt k (loc, n) = true := hm
  simp only [State.putEffect, hr, hn, huse, markedAt_setRun, hmark, true_or, if_true, Bool.false_eq_true, if_false]

theorem putEffect_badSize (hr : s.runOf k = some r) (hp : r.partner = none) (hf : r.fault = none) (hn : badSize n = true) :
    s.putEffect k kind va loc n sig obs = s.setRun k (r.struck 0x11 r.pc 1 (r.opened - 1)) := by
  simp only [State.putEffect, hr, hn, if_true, ftFabricSize, faultRun_first hr hp hf]

theorem atomicEffect_home {is : Issue} {b : Bundle} {op : Nat} {arg cmp : Word} {rd : XReg} (hr : s.runOf k = some r) (hp : r.partner = none)
    (ht : s.translateRun (some (clusterOf k)) r.task.ctx va.toNat 8 permAtomic = some l) (hhome : ∀ p ∈ l, gpaNode p.1 = s.node.toNat) :
    s.atomicEffect k is b op va arg cmp rd
      = notedAtHome s k r { s.fabOp r .atomic va 0 8 with aop := op, arg := arg, cmp := cmp, rd := rd } l := by
  simp only [State.atomicEffect, hr, isShadow_unpaired hr hp, Bool.false_eq_true, if_false, State.issueAtomic, Issue.inwardA, hp,
    Option.isSome_none]
  exact goOut_home hr ht hhome _ _

end Issues

section Instructions

variable {s : State} {k : LCore} {rd rs1 rs2 : XReg} {w : Nat} {r : Run} {is : Issue} {b : Bundle} {l : List (Nat × Nat × Nat)} {i : Instr}
  {sl : Slot}

theorem exec_get_home (h : Acts s (.get k rd rs1 rs2) k .A w r is b) (hp : r.partner = none) (hn : badSize (is.x rs2).toNat = false)
    (ht : s.translateRun (some (clusterOf k)) r.task.ctx (is.x rs1).toNat (is.x rs2).toNat permRead = some l)
    (hhome : ∀ p ∈ l, gpaNode p.1 = s.node.toNat) : exec (.get k rd rs1 rs2) s =
      .next ((notedAtHome s k r (s.fabOp r .get (is.x rs1) (is.x rd).toNat (is.x rs2).toNat) l).closeBundle k .A) := by
  refine congrArg Host.Outcome.next ((issue_acts h _).trans ?_)
  simp only [h.run, isShadow_unpaired h.run hp, Bool.false_eq_true, if_false, Issue.inwardA, hp, Option.isSome_none,
    issueGet_home h.run hn ht hhome]

theorem exec_get_badSize (h : Acts s (.get k rd rs1 rs2) k .A w r is b) (hp : r.partner = none) (hf : r.fault = none)
    (hn : badSize (is.x rs2).toNat = true) :
    exec (.get k rd rs1 rs2) s = .next ((s.setRun k (r.struck 0x11 r.pc 1 (r.opened - 1))).closeBundle k .A) := by
  refine congrArg Host.Outcome.next ((issue_acts h _).trans ?_)
  simp only [h.run, isShadow_unpaired h.run hp, Bool.false_eq_true, if_false, State.issueGet, hn, if_true, State.lateFault, State.fabOp,
    ftFabricSize, faultRun_first h.run hp hf]

/-- An instruction that acts has the effect given on the state that it meets. -/
theorem exec_of_effect (h : Acts s i k sl w r is b) {f : Effect} (hexec : exec i s = .next (s.issue i f)) {t : State} (hf : f k is b s = t) :
    exec i s = .next (t.closeBundle k sl) := by rw [hexec, issue_acts h, hf]

end Instructions

/-- Settles O14: each instruction by its effect at home, in a marked line or at a wrong size. -/
theorem fabricIssue : Obligations.FabricIssue := by
  unfold Obligations.FabricIssue
  intro k rd rs1 rs2 rsig n s obs w r is b hp hw
  refine ⟨fun l h hn ht hhome => ?_, fun l h hn hm ht hhome => ?_, fun l h hn hm ht hhome => ?_, fun h hn hm hf => ?_, fun h hn hf => ?_,
    fun h hn hf => ?_, fun h => ?_, fun l ht hhome => ⟨fun h => ?_, fun h => ?_, fun h => ?_, fun h => ?_, fun h => ?_⟩⟩
  · exact exec_get_home h hp (badSize_legal hn) ht hhome
  · exact exec_of_effect h rfl (putEffect_home h.run hp hw (badSize_legal hn) hm ht hhome)
  · exact exec_of_effect h rfl (putEffect_home h.run hp hw (badSize_legal hn) hm ht hhome)
  · exact exec_of_effect h rfl (putEffect_marked h.run hp hf hw (badSize_legal hn) hm)
  · exact exec_get_badSize h hp hf ((badSize_iff _).2 hn)
  · exact exec_of_effect h rfl (putEffect_badSize h.run hp hf ((badSize_iff _).2 hn))
  · exact exec_of_effect h rfl rfl
  all_goals exact exec_of_effect h rfl (atomicEffect_home h.run hp ht hhome)

/-! ### Completion (R142, R143, R155) -/

section Completions

variable {s : State} {k : LCore} {i : Nat} {r : Run} {o : FabOp} {lines : List LineObs}

/-- The task's run without its i-th fabric operation. -/
def withoutFab (r : Run) (i : Nat) : Run := { r with fab := r.fab.eraseIdx i }

/-- A fault of an operation that leaves its target undefined. -/
theorem targetLost_lateFault (hr : s.runOf k = some r) (hp : r.partner = none) (hf : r.fault = none) (c : Nat) :
    (s.targetLost k o).lateFault k o c = (s.setRun k (r.struck c o.bundle 1 o.seq)).targetLost k o := by
  unfold State.targetLost
  split
  · exact faultRun_first (s := s.forget _ _) hr hp hf c o.bundle 1 o.seq
  · exact faultRun_first hr hp hf c o.bundle 1 o.seq

theorem exec_fabricReply_untranslated (hr : s.runOf k = some r) (hi : r.fab[i]? = some o) (hp : r.partner = none) (hf : r.fault = none)
    (hok : o.ok = false) :
    exec (.fabricReply k i lines) s = .next ((s.setRun k ((withoutFab r i).struck 0x10 o.bundle 1 o.seq)).targetLost k o) := by
  show execFabricReply k i lines s = _
  simp only [execFabricReply, hr, hi, hok, Bool.not_false, if_true, ftFabricPage]
  have hlost := targetLost_lateFault (o := o) (r := withoutFab r i) (runOf_setRun_same s k _) hp hf 0x10
  rw [setRun_setRun] at hlost
  exact congrArg _ hlost

/-- An operation whose one share went to another node completes once its reply is here. -/
theorem exec_fabricReply_far {id g off len : Nat} {y : Reply} (hr : s.runOf k = some r) (hi : r.fab[i]? = some o) (hp : r.partner = none)
    (hok : o.ok = true) (hc : o.chunks = [⟨some id, g, off, len, some y⟩]) : exec (.fabricReply k i lines) s =
      .next ((s.setRun k (withoutFab r i)).fabOutcome k r.task.ctx o [⟨y.status.toNat, off, y.data, y.poisoned⟩]) := by
  show execFabricReply k i lines s = _
  simp only [execFabricReply, hr, hi, hok, hc, isShadow_unpaired hr hp, earlierFrame, State.doShares, State.doShare, List.any_cons, List.any_nil,
    List.foldl_cons, List.foldl_nil, List.nil_append, Option.isSome_some, Option.isNone_some, Bool.not_true, Bool.false_and, Bool.and_false,
    Bool.or_self, Bool.false_eq_true, or_self, if_false]
  rfl

theorem not_refused (off : Nat) (data : List Byte) (poisoned : List Nat) : [Brought.mk 0 off data poisoned].any Brought.refused = false := rfl

theorem winding_sound {k : Nat} (hr : s.runOf k = some r) (hf : r.fault = none) : s.winding k = false := by
  rw [State.winding, hr, Option.bind_some, hf, Option.isSome_none]

/-- Data that comes back unmarked is stored at its place. -/
theorem fabOutcome_get {ctx off : Nat} {data : List Byte} (hr : s.runOf k = some r) (hf : r.fault = none) (hin : o.inward = none)
    (hk : o.kind = .get) : s.fabOutcome k ctx o [⟨0, off, data, []⟩] = { s with mem := s.mem.store (s.localAt k (o.loc + off)) data } := by
  simp only [State.fabOutcome, not_refused, hk, hin, winding_sound hr hf, Bool.false_eq_true, if_false]
  rfl

theorem fabOutcome_put {ctx off : Nat} {data : List Byte} (hk : o.kind = .put) : s.fabOutcome k ctx o [⟨0, off, data, []⟩] = s := by
  simp only [State.fabOutcome, not_refused, hk, Bool.false_eq_true, if_false]

theorem fabOutcome_atomic {ctx off : Nat} {data : List Byte} (hr : s.runOf k = some r) (hin : o.inward = none) (hk : o.kind = .atomic) :
    s.fabOutcome k ctx o [⟨0, off, data, []⟩] = s.setRun k (r.writeX o.rd (BitVec.ofNat 64 (fromLe (data.take 8)))) := by
  have hclean : [Brought.mk 0 off data []].any (fun b => b.status == 8) = false := rfl
  simp only [State.fabOutcome, not_refused, hk, hin, hclean, Bool.false_eq_true, if_false, List.flatMap_cons, List.flatMap_nil, List.append_nil]
  exact modRun_run hr _

end Completions

/-- Settles O15: an address that did not translate by `exec_fabricReply_untranslated`, a reply by `exec_fabricReply_far` and its outcome. -/
theorem fabricCompletion : Obligations.FabricCompletion := by
  unfold Obligations.FabricCompletion
  intro k i lines s r o hr hi hp hf
  refine ⟨fun hok => exec_fabricReply_untranslated hr hi hp hf hok, fun id g off len y hok hc hin hstatus hclean => ?_⟩
  have hexec := exec_fabricReply_far (lines := lines) hr hi hp hok hc
  rw [hstatus, hclean] at hexec
  have hrun : (s.setRun k (withoutFab r i)).runOf k = some (withoutFab r i) := runOf_setRun_same _ _ _
  refine ⟨fun hk => hexec.trans (congrArg _ (fabOutcome_get hrun hf hin hk)), fun hk => hexec.trans (congrArg _ (fabOutcome_put hk)),
    fun hk => hexec.trans (congrArg _ ((fabOutcome_atomic hrun hin hk).trans (setRun_setRun _ _ _ _)))⟩

end Sys2Proof.Proofs
end

section
/-! SUPPORT. Sync instructions, CLNCH and the end of a task outside a pair (R107, R108, R147, R149, R150, R155, R160, R180, R288), and the statements
on them. -/

namespace Sys2Proof.Proofs

open Sys2Proof Sys2Proof.Machine

section Unpaired

variable {s : State} {k : LCore} {rd rs1 rs2 : XReg} {fn : BitVec 19} {w : Nat} {r : Run} {is : Issue} {b : Bundle}

/-! ### Sync instructions (R147, R160) -/

/-- A signal to an object of this module goes through the trellis. -/
theorem sendSignal_here (stop ctx obj : Nat) (v : Word) : s.sendSignal stop ctx s.node obj v.toNat = { s with
    cores := { s.cores with signals := s.cores.signals ++
      [(stop, (⟨if h : ctx < 128 then some ⟨ctx, h⟩ else none, BitVec.ofNat 14 obj, v⟩ : SigMsg))] } } := by
  rw [State.sendSignal, if_pos rfl, BitVec.ofNat_toNat, BitVec.setWidth_eq]

/-- A signal to an object of another module leaves as a SIGNAL packet that holds the value. -/
theorem sendSignal_away {n : Node} (hn : n ≠ s.node) (stop ctx obj v : Nat) : s.sendSignal stop ctx n obj v =
    ({ s with fab := { s.fab with nextId := s.fab.nextId + 1 } }).sendPkt 0x13 n (frameOf (signalPlace n obj))
      (requestBody (signalPlace n obj) (s.jobTag ctx) ctx 0 s.fab.nextId (leBytes 8 v)) [] := by
  rw [State.sendSignal, if_neg hn]

theorem exec_ssig (h : Acts s (.ssig k rs1 rs2) k .C w r is b) (hp : r.partner = none) {n : Node} {i : Nat} (ho : objOf (is.x rs1) = some (n, i)) :
    exec (.ssig k rs1 rs2) s = .next ((s.sendSignal (clusterOf k) r.task.ctx n i (is.x rs2).toNat).closeBundle k .C) := by
  refine congrArg Host.Outcome.next ((exec_unlessShadow h hp _).trans ?_)
  simp only [ho, taskCtx_run h.run]

/-- What a SWAIT that waits no longer writes. -/
def waited : Option Wait → Word
  | some (.over v) => BitVec.ofNat 64 v
  | _ => 0#64

theorem exec_swait (h : Acts s (.swait k rd rs1 rs2 fn) k .C w r is b) (hp : r.partner = none) :
    exec (.swait k rd rs1 rs2 fn) s = .next ((s.setRun k (r.writeX rd (waited r.waiting))).closeBundle k .C) := by
  refine congrArg Host.Outcome.next ((exec_enterC h hp rd h.run).trans ?_)
  rw [h.run, Option.bind_some]
  rfl

theorem exec_srst (h : Acts s (.srst k rs1) k .C w r is b) (hp : r.partner = none) {n : Node} {i : Nat} {o : SyncObj}
    (ho : objOf (is.x rs1) = some (n, i)) (hl : lookupKey s.sync i = some o) :
    exec (.srst k rs1) s = .next ({ s with sync := insertKey s.sync i { o with counter := 0 } }.closeBundle k .C) := by
  refine congrArg Host.Outcome.next ((exec_unlessShadow h hp _).trans ?_)
  simp only [ho, State.setCounter, hl]

theorem exec_srd (h : Acts s (.srd k rd rs1) k .C w r is b) (hp : r.partner = none) {n : Node} {i : Nat} {o : SyncObj}
    (ho : objOf (is.x rs1) = some (n, i)) (hl : lookupKey s.sync i = some o) :
    exec (.srd k rd rs1) s = .next ((s.setRun k (r.writeX rd (BitVec.ofNat 64 o.counter))).closeBundle k .C) := by
  refine congrArg Host.Outcome.next ((exec_enterC h hp rd h.run).trans ?_)
  simp only [ho, Option.bind_some, hl]

theorem exec_swaitTimeout {o n : Nat} {t : Word} (hr : s.runOf k = some r) (hw : r.waiting = some (.swait o t n)) :
    exec (.swaitTimeout k) s = .next (if n = 0 then s.setRun k r else s.setRun k { r with waiting := some (.over 1) }) := by
  refine congrArg Host.Outcome.next ((modRun_run hr _).trans ?_)
  simp only [hw, apply_ite (s.setRun k)]

/-! ### Collective launch and TEND (R149, R150) -/

theorem exec_clnch {obs : List StoreLine} (h : Acts s (.clnch k rs1 rs2 obs) k .C w r is b) (hp : r.partner = none) (hw : ReadsWell s k obs)
    (hm : s.mem.poisoned (s.localAt k (is.x rs2).toNat) 64 = false) :
    let q := insertKey s.que.comm (is.x rs1).toNat (s.commOf (is.x rs1).toNat ++ [s.mem.bytes (s.localAt k (is.x rs2).toNat) 64])
    exec (.clnch k rs1 rs2 obs) s = .next ({ s with que := { s.que with comm := q } }.closeBundle k .C) := by
  have hreads : s.storeReads k [((is.x rs2).toNat, 64)] obs = s := storeReads_clean hw _
  have hmark : s.markedAt k ((is.x rs2).toNat, 64) = false := hm
  refine congrArg Host.Outcome.next ((issue_acts h _).trans ?_)
  simp only [hreads, hmark, isShadow_unpaired h.run hp, Bool.false_eq_true, if_false]

/-! ### Completion (R107, R108, R150, R155, R180) -/

/-- A task that has stopped, with no bundle open and no background work left, leaves its core with its outcome. -/
theorem exec_taskCompletion (hr : s.runOf k = some r) (hp : r.partner = none) (hprimary : r.primary = true) (hover : r.over = true)
    (hd : r.disagreed = false) (ht : r.timedOut = false) : exec (.taskCompletion k) s = .next (((s.dropRun k).closeTask r.task r.outcome.1
      r.outcome.2.1 r.outcome.2.2.1 r.recFlags r.outcome.2.2.2 (some k) true).startNext k) := by
  show execTaskCompletion k s = _
  simp only [execTaskCompletion, hr, hprimary, State.taskOver, hover, hp, hd, ht, Bool.not_true, Bool.not_false, Bool.and_self, Bool.false_eq_true,
    or_self, if_false]

theorem over_stopped (hstop : (r.fault.isSome || r.ending.isSome || r.timedOut) = true) (hi : r.issue = none) (hfin : r.finishes = [])
    (hmov : r.moves = []) (hfab : r.fab = []) : r.over = true := by
  simp only [Run.over, hstop, hi, Run.quietNow, hfin, hmov, hfab, Option.isNone_none, List.isEmpty_nil, Bool.and_self]

theorem outcome_ended {kind : Bool} (hd : r.disagreed = false) (ht : r.timedOut = false) (he : r.ending = some kind) (hf : r.fault = none) :
    r.outcome = (r.endStatus kind, 0, none, some r.endX) := by
  simp only [Run.outcome, hd, ht, he, hf, Bool.false_eq_true, false_and, if_false]

theorem outcome_faulted {c bundle : Nat} (hd : r.disagreed = false) (ht : r.timedOut = false) (hf : r.fault = some (c, bundle)) :
    r.outcome = (if c = 0x18 then 8 else 4, c, some bundle, some 0#64) := by
  simp only [Run.outcome, hd, ht, hf, Bool.false_eq_true, false_and, if_false]
  rfl

/-- The record of a task whose bundle, result and core are given; its cycle count alone is a free value (R180). -/
theorem closeTask_record (t : Task) (st fault bu fl : Nat) (res : Word) (core : Nat) (sg : Bool) : ∃ q : CRec,
    (s.closeTask t st fault (some bu) fl (some res) (some core) sg).que.recs = s.que.recs ++
      [⟨s.ringOf t.ctx t.queue, q, if sg ∧ st ≤ 1 then t.done else none, t.decant && decide (t.ctx < 8) && decide (st ≤ 1),
        t.quiet && decide (st = 0), false, some core⟩]
    ∧ q.tag = t.id ∧ q.status = st ∧ q.fault = fault ∧ q.flags = fl ∧ q.kind = 0 ∧ q.queue = t.queue ∧ q.bundle = bu ∧ q.result = res
    ∧ q.core = core ∧ q.ctx = t.ctx :=
  ⟨⟨t.id, st, fault, fl, 0, t.queue, bu, 0, res, core, t.ctx, (Config.freeWord (s.free + 3)).toNat % 2 ^ 24⟩, rfl, rfl, rfl, rfl, rfl, rfl, rfl,
    rfl, rfl, rfl, rfl⟩

end Unpaired

/-- Settles O21: each instruction by its own lemma; where a signal goes by the node that it names. -/
theorem syncInstructions : Obligations.SyncInstructions := by
  unfold Obligations.SyncInstructions
  intro k rd rs1 rs2 fn s w r is b hp
  refine ⟨fun n i h ho => ⟨fun hn => ?_, fun hn => ?_⟩, fun h => ⟨fun hw => ?_, fun hw => ?_, fun hw => ?_⟩,
    fun n i o h ho hl => exec_srst h hp ho hl, fun n i o h ho hl => exec_srd h hp ho hl, fun o t n hr hw => exec_swaitTimeout hr hw⟩
  · subst hn
    exact (exec_ssig h hp ho).trans (congrArg (fun t : State => Host.Outcome.next (t.closeBundle k .C)) (sendSignal_here _ _ _ _))
  · exact (exec_ssig h hp ho).trans (congrArg (fun t : State => Host.Outcome.next (t.closeBundle k .C)) (sendSignal_away hn _ _ _ _))
  all_goals
    have hexec := exec_swait h hp
    rw [hw] at hexec
    exact hexec

/-- Settles O23: CLNCH and TEND by what they do, the completion by how the task ended. -/
theorem launchAndEnd : Obligations.LaunchAndEnd := by
  unfold Obligations.LaunchAndEnd
  intro k rs1 rs2 kind obs s w r is b hp
  refine ⟨fun h hw hm => exec_clnch h hp hw hm, fun h => congrArg Host.Outcome.next (issue_modRun h _),
    fun hr hprimary hi hfin hmov hfab hd ht => ⟨fun kd he hf => ?_, fun c bu hf => ?_⟩, fun t st fault bu fl res core sg => closeTask_record ..⟩
  · have hover := over_stopped (r := r) (by rw [he, Option.isSome_some, Bool.or_true, Bool.true_or]) hi hfin hmov hfab
    rw [exec_taskCompletion hr hp hprimary hover hd ht, outcome_ended hd ht he hf]
    rfl
  · have hover := over_stopped (r := r) (by rw [hf, Option.isSome_some, Bool.true_or, Bool.true_or]) hi hfin hmov hfab
    rw [exec_taskCompletion hr hp hprimary hover hd ht, outcome_faulted hd ht hf]

end Sys2Proof.Proofs
end

section
/-! SUPPORT. The decant pair (R190–R194): what an access to the compatibility page does behind the gates of R415 and R472, and the statement on
it. -/

namespace Sys2Proof.Proofs

open Sys2Proof Sys2Proof.Machine

section Decant

variable {s : State} {off : Nat}

/-- From the end of the auxiliary stage on bad accesses are logged (R415). -/
theorem logsAccess_iff : s.logsAccess = true ↔ s.pins.vaux = true ∧ 2 ≤ s.fld fBringStateAux := by
  simp [State.logsAccess]

/-! ### Reads of the pair (R191) -/

theorem readDecantLo_empty (h : s.que.decant = []) : s.readDecantLo = s.emit (.hostRead 4 0xFFFFFFFE#64) := by
  simp only [State.readDecantLo, h]

/-- The oldest entry leaves the queue, its low half as the answer and its high half to the latch; a latch that still held one is counted. -/
theorem readDecantLo_entry {e : Word} {l : List Word} (h : s.que.decant = e :: l) : s.readDecantLo =
    let hi : BitVec 32 := BitVec.ofNat 32 (e.toNat / 2 ^ 31)
    let s1 := if s.que.latch.isSome then s.bump fDecantLostLost 1 else s
    ((({ s1 with que := { s.que with decant := l, latch := some hi } }).setFld fDecantHiHigh hi.toNat).decantShow).emit
      (.hostRead 4 (BitVec.ofNat 64 (e.toNat % 2 ^ 31))) := by
  simp only [State.readDecantLo, h]
  cases hl : s.que.latch.isSome <;> rfl

/-! ### The commands behind the gates -/

theorem exec_decantLoRead : exec .decantLoRead s = .next (s.hostRead 0xF00000 4 State.readDecantLo) := rfl

theorem exec_decantWrite (x : BitVec 12) (v : BitVec 32) : exec (.decantWrite x v) s = .next s := rfl

/-- An access of another size or alignment meets the gates of a bad access (R192). -/
theorem exec_decantBadAccess {x : BitVec 12} {size : Nat} (a : HostAcc) (h : ¬(size = 4 ∧ x.toNat % 4 = 0)) :
    exec (.decantBadAccess x size a) s
      = .next (s.badAccess (0xF00000 + x.toNat) size a (fun t => t.compatBad (0xF00000 + x.toNat) size a)) :=
  congrArg Host.Outcome.next (if_neg h)

/-- The offsets of the compatibility page (R194). -/
abbrev OnPage (off : Nat) : Prop := 0xF00000 ≤ off ∧ off < 0xF01000

/-- The page answers from the end of the auxiliary stage on (R415). -/
theorem answers_page (ho : OnPage off) : s.answers off = s.logsAccess := by
  have hlow : ¬off < 0x100000 := by omega
  have hrst : (off / 0x100000 == 0x10) = false := by
    simp only [beq_eq_false_iff_ne]
    omega
  simp [State.answers, State.logsAccess, hlow, hrst]

theorem pageRead_now (f : State → State) (ho : OnPage off) (h : s.logsAccess = true) (hh : s.holding = false) : s.hostRead off 4 f = f s :=
  hostRead_now f ((answers_page ho).trans h) hh

theorem pageRead_held (f : State → State) (ho : OnPage off) (h : s.logsAccess = true) (hh : s.holding = true) :
    s.hostRead off 4 f = s.hold ⟨off, 4, .rd, HostObs.plain⟩ := hostRead_held f ((answers_page ho).trans h) hh

theorem pageRead_mute (f : State → State) (ho : OnPage off) (h : s.logsAccess = false) :
    s.hostRead off 4 f = s.emit (.hostRead 4 0xFFFFFFFF#64) := hostRead_mute f ((answers_page ho).trans h)

end Decant

/-- Settles O27: each access passes its gate, or is turned away there. -/
theorem decantPair : Obligations.DecantPair := by
  unfold Obligations.DecantPair
  have hlo : OnPage 0xF00000 := by decide
  have hhi : OnPage 0xF00004 := by decide
  have hlost : OnPage 0xF00008 := by decide
  have hspill : OnPage 0xF00010 := by decide
  refine ⟨fun s hv ha hh => ?_, fun s off size a => ⟨fun hdown => ?_, fun hdown hb => ?_, fun hup hh => ?_, exec_decantWrite off⟩⟩
  · have hup : s.logsAccess = true := logsAccess_iff.mpr ⟨hv, ha⟩
    have hread := exec_decantLoRead.trans (congrArg Host.Outcome.next (pageRead_now (s := s) _ hlo hup hh))
    refine ⟨fun h => hread.trans ?_, fun e l h => ⟨fun hl => hread.trans ?_, fun hl => hread.trans ?_⟩,
      congrArg Host.Outcome.next (pageRead_now _ hhi hup hh), congrArg Host.Outcome.next (pageRead_now _ hlost hup hh),
      congrArg Host.Outcome.next (pageRead_now _ hspill hup hh), exec_decantWrite, fun off size w hb => ?_⟩
    · rw [readDecantLo_empty h]
      rfl
    · rw [readDecantLo_entry h, hl]
      rfl
    · rw [readDecantLo_entry h, hl]
      rfl
    · simp only [exec_decantBadAccess _ hb, badAccess_now _ _ hup hh]
      exact ⟨rfl, rfl⟩
  · have hmute : s.logsAccess = false := Bool.eq_false_iff.mpr fun h => hdown (logsAccess_iff.mp h)
    exact ⟨congrArg Host.Outcome.next (pageRead_mute _ hlo hmute), congrArg Host.Outcome.next (pageRead_mute _ hhi hmute),
      congrArg Host.Outcome.next (pageRead_mute _ hlost hmute), congrArg Host.Outcome.next (pageRead_mute _ hspill hmute)⟩
  · have hmute : s.logsAccess = false := Bool.eq_false_iff.mpr fun h => hdown (logsAccess_iff.mp h)
    rw [exec_decantBadAccess _ hb, badAccess_unlogged _ _ hmute]
    rfl
  · have hlog : s.logsAccess = true := logsAccess_iff.mpr hup
    refine ⟨congrArg Host.Outcome.next (pageRead_held _ hlo hlog hh), congrArg Host.Outcome.next (pageRead_held _ hhi hlog hh),
      congrArg Host.Outcome.next (pageRead_held _ hlost hlog hh), congrArg Host.Outcome.next (pageRead_held _ hspill hlog hh), fun hb => ?_⟩
    rw [exec_decantBadAccess _ hb, badAccess_held _ _ hlog hh]
    rfl

end Sys2Proof.Proofs
end

section
/-! SUPPORT. Queues, rings and doorbells (R170, R172, R196, R309): what a write of a queue's or a ring's CFG does by the result of its checks, what
a doorbell does by its own, and the statement on them. -/

namespace Sys2Proof.Proofs

open Sys2Proof Sys2Proof.Machine

/-! ### Enable and disable (R170, R196) -/

section Configuration

variable {s : State} {q : QRegs} {v : Word} {c : Ctx}

/-- A queue or ring that an enable with the CFG word `w` turned on: empty and RUNNING. -/
abbrev turnedOn (s : State) (q : QRegs) (w : Word) : State :=
  (s.writeUnder takesAll q.cfg w).setFlds [(q.state, 1), (q.head, 0), (q.tail, 0), (q.result, 0)]

/-- A queue or ring that a disable turned OFF. -/
abbrev turnedOff (s : State) (q : QRegs) : State := s.setFlds [(q.enable, 0), (q.state, 0), (q.result, 0)]

theorem cfgApply_enable {m : Nat} (h : getBits v q.enable = 1) : s.cfgApply q v 0 m = turnedOn s q v :=
  (if_pos h).trans (if_pos rfl)

theorem cfgApply_enable_refused {n m : Nat} (h : getBits v q.enable = 1) (hn : n ≠ 0) : s.cfgApply q v n m = s.setFld q.result n :=
  (if_pos h).trans (if_neg hn)

/-- A write with enable 0 to a queue or ring of an ACTIVE context that is not OFF is a disable: it goes by whether work is left. -/
theorem cfgApply_disable {n : Nat} {busy : Bool} (h : getBits v q.enable = 0) (hs : s.fld q.state ≠ 0) :
    s.cfgApply q v n (if !true then qNoContext else if busy then qBusy else qDone)
      = if busy then s.setFld q.result 6 else turnedOff s q := by
  refine (if_neg (by rw [h]; decide)).trans ((if_neg hs).trans ?_)
  cases busy
  · exact if_pos rfl
  · exact if_neg (by decide)

/-- The sizes and bases that R170 allows to a ring with entries of `unit` bytes. -/
abbrev Aligned (base log2 unit : Nat) : Prop := 4 ≤ log2 ∧ log2 ≤ 16 ∧ base % (unit * 2 ^ log2) = 0

theorem enableResult_done {log2 base unit : Nat} (h : Aligned base log2 unit) : enableResult true true true true log2 base unit = 0 := by
  obtain ⟨hlow, hhigh, hbase⟩ := h
  have hsize : ¬(log2 < 4 ∨ log2 > 16) := by omega
  simp only [enableResult, Bool.not_true, Bool.false_eq_true, if_false, if_neg hsize, hbase, ne_eq, not_true_eq_false]
  rfl

/-- The word that an enable or a disable writes; every CFG has its enable at the same place. -/
abbrev enableWord (v : Word) : Word := putBits v (fQueCqCfgEnable 0 0) 1
abbrev disableWord (v : Word) : Word := putBits v (fQueCqCfgEnable 0 0) 0

theorem getBits_enableWord {f : Fld} (hhi : f.hi = 31) (hlo : f.lo = 31) : getBits (enableWord v) f = 1 := by
  obtain ⟨off, hi, lo⟩ := f
  subst hhi hlo
  exact getBits_putBits_one v (f := fQueCqCfgEnable 0 0) (by decide) (by decide)

theorem getBits_disableWord {f : Fld} (hhi : f.hi = 31) (hlo : f.lo = 31) : getBits (disableWord v) f = 0 := by
  obtain ⟨off, hi, lo⟩ := f
  subst hhi hlo
  exact getBits_putBits_same v (fQueCqCfgEnable 0 0) 0 (by decide)

theorem beq_of_fld {f : Fld} {n : Nat} (h : s.fld f = n) : (s.fld f == n) = true := beq_iff_eq.mpr h

theorem beq_of_fld_ne {f : Fld} {n : Nat} (h : s.fld f ≠ n) : (s.fld f == n) = false := beq_false_of_ne h

theorem exec_queueEnable {q : Fin 20} (h : Taken s (queueCfg c q)) :
    exec (.queueEnable c q v) s = .next (s.queueCfgWrite c q (enableWord v)) := congrArg Host.Outcome.next (hostWrite_taken _ _ _ h)

theorem exec_queueDisable {q : Fin 20} (h : Taken s (queueCfg c q)) :
    exec (.queueDisable c q v) s = .next (s.queueCfgWrite c q (disableWord v)) := congrArg Host.Outcome.next (hostWrite_taken _ _ _ h)

/-! Compute queues. -/

section Compute

variable {n : Fin 16}

theorem queueCfg_compute : queueCfg c n = rQueCqCfg c n := if_pos n.isLt

theorem queueCfgWrite_compute (w : Word) : s.queueCfgWrite c n w = s.cqCfgWrite c n w := if_pos n.isLt

theorem cqCfgWrite_enable (ha : s.active c = true) (hs : s.fld (cqRegs c n).state = 0)
    (hm : s.maskOk c (getBits (enableWord v) (fQueCqCfgClusters c n)) = true)
    (hr : s.ringOn (ringKey c (getBits (enableWord v) (fQueCqCfgRing c n))) = true)
    (hal : Aligned (s.fld (fQueCqBaseBase c n) * 32) (getBits (enableWord v) (fQueCqCfgLog2size c n)) 64) :
    s.cqCfgWrite c n (enableWord v) = turnedOn s (cqRegs c n) (enableWord v) := by
  unfold State.cqCfgWrite
  dsimp only
  rw [ha, beq_of_fld hs, hm, hr, enableResult_done hal]
  exact cfgApply_enable (getBits_enableWord rfl rfl)

theorem cqCfgWrite_noContext (ha : s.active c = false) : s.cqCfgWrite c n (enableWord v) = s.setFld (cqRegs c n).result 1 := by
  unfold State.cqCfgWrite
  dsimp only
  rw [ha]
  exact cfgApply_enable_refused (n := 1) (getBits_enableWord rfl rfl) (by decide)

theorem cqCfgWrite_wrongState (ha : s.active c = true) (hs : s.fld (cqRegs c n).state ≠ 0) :
    s.cqCfgWrite c n (enableWord v) = s.setFld (cqRegs c n).result 7 := by
  unfold State.cqCfgWrite
  dsimp only
  rw [ha, beq_of_fld_ne hs]
  exact cfgApply_enable_refused (n := 7) (getBits_enableWord rfl rfl) (by decide)

/-- A disable goes by what of the queue is unfetched or running. -/
theorem cqCfgWrite_disable (ha : s.active c = true) (hs : s.fld (cqRegs c n).state ≠ 0) : s.cqCfgWrite c n (disableWord v) =
    if s.unfetched (cqRegs c n) || s.queueTasks c n then s.setFld (cqRegs c n).result 6 else turnedOff s (cqRegs c n) := by
  unfold State.cqCfgWrite
  dsimp only
  rw [ha]
  exact cfgApply_disable (getBits_disableWord rfl rfl) hs

end Compute

/-! Copy queues. -/

section Copy

variable {x : Fin 4}

theorem queueCfg_copy : queueCfg c (16 + x) = rQueXqCfg c x := by simp [queueCfg]

theorem queueCfgWrite_copy (w : Word) : s.queueCfgWrite c (16 + x) w = s.xqCfgWrite c x w := by simp [State.queueCfgWrite]

theorem xqCfgWrite_enable (ha : s.active c = true) (hs : s.fld (xqRegs c x).state = 0)
    (hr : s.ringOn (ringKey c (getBits (enableWord v) (fQueXqCfgRing c x))) = true)
    (hal : Aligned (s.fld (fQueXqBaseBase c x) * 32) (getBits (enableWord v) (fQueXqCfgLog2size c x)) 64) :
    s.xqCfgWrite c x (enableWord v) = turnedOn s (xqRegs c x) (enableWord v) := by
  unfold State.xqCfgWrite
  dsimp only
  rw [ha, beq_of_fld hs, hr, enableResult_done hal]
  exact cfgApply_enable (getBits_enableWord rfl rfl)

theorem xqCfgWrite_disable (ha : s.active c = true) (hs : s.fld (xqRegs c x).state ≠ 0) (hu : s.unfetched (xqRegs c x) = false)
    (hr : s.que.copies.any (fun y => y.ctx == c.val && y.queue == x.val) = false) :
    s.xqCfgWrite c x (disableWord v) = turnedOff s (xqRegs c x) := by
  unfold State.xqCfgWrite
  dsimp only
  rw [ha, hu, hr]
  exact cfgApply_disable (busy := false) (getBits_disableWord rfl rfl) hs

end Copy

/-! Completion rings. -/

section Rings

variable {r : Fin 8}

theorem exec_ringEnable (h : Taken s (rQueRingCfg c r)) : exec (.ringEnable c r v) s = .next (s.ringCfgWrite c r (enableWord v)) :=
  congrArg Host.Outcome.next (hostWrite_taken _ _ _ h)

theorem exec_ringDisable (h : Taken s (rQueRingCfg c r)) : exec (.ringDisable c r v) s = .next (s.ringCfgWrite c r (disableWord v)) :=
  congrArg Host.Outcome.next (hostWrite_taken _ _ _ h)

/-- An enabled ring shows RUNNING. -/
theorem ringState_turnedOn (w : Word) : (turnedOn s (ringRegs c r) w).fld (ringRegs c r).state = 1 := by
  have hapart (t : State) {f : Fld} (k : Nat) (hf : Apart f (ringRegs c r).state) :
      (t.setFld f k).fld (ringRegs c r).state = t.fld (ringRegs c r).state := fld_setFld_bits _ _ _ _ (of_decide_eq_true rfl) hf
  simp only [turnedOn, State.setFlds, List.foldl_cons, List.foldl_nil]
  rw [hapart _ _ (of_decide_eq_true rfl), hapart _ _ (of_decide_eq_true rfl), hapart _ _ (of_decide_eq_true rfl)]
  exact fld_setFld_fits _ (of_decide_eq_true rfl) (of_decide_eq_true rfl)

/-- An enable starts the ring with no record counted towards its interrupt (R184). -/
theorem ringCfgWrite_enable (ha : s.active c = true) (hs : s.fld (ringRegs c r).state = 0)
    (hal : Aligned (s.fld (fQueRingBaseBase c r) * 32) (getBits (enableWord v) (fQueRingCfgLog2size c r)) 32) :
    s.ringCfgWrite c r (enableWord v) =
      let t := turnedOn s (ringRegs c r) (enableWord v)
      { t with que := { t.que with ringIrq := eraseKey t.que.ringIrq (ringKey c r) } } := by
  unfold State.ringCfgWrite
  dsimp only
  rw [ha, beq_of_fld hs, enableResult_done hal, cfgApply_enable (getBits_enableWord rfl rfl), ringState_turnedOn, if_pos ⟨hs, Nat.one_ne_zero⟩]

/-- A disable goes by the queues bound to the ring and the records that wait for it. -/
theorem ringCfgWrite_disable (ha : s.active c = true) (hs : s.fld (ringRegs c r).state ≠ 0) : s.ringCfgWrite c r (disableWord v) =
    if s.ringUsed c r then s.setFld (ringRegs c r).result 6 else turnedOff s (ringRegs c r) := by
  unfold State.ringCfgWrite
  dsimp only
  rw [if_neg fun h => hs h.1, ha]
  exact cfgApply_disable (getBits_disableWord rfl rfl) hs

end Rings

/-! Communication queues. -/

section Comm

variable {g : Grp}

theorem exec_commQueueEnable (h : Taken s (rGrpGQcfg g)) : exec (.commQueueEnable g v) s = .next (s.commCfgWrite g (enableWord v)) :=
  congrArg Host.Outcome.next (hostWrite_taken _ _ _ h)

theorem exec_commQueueDisable (h : Taken s (rGrpGQcfg g)) : exec (.commQueueDisable g v) s = .next (s.commCfgWrite g (disableWord v)) :=
  congrArg Host.Outcome.next (hostWrite_taken _ _ _ h)

theorem commCfgWrite_enable (hg : s.fld (fGrpGStateState g) = 2) (ha : s.active (s.fld (fGrpGStatContext g)) = true)
    (hs : s.fld (commRegs g).state = 0)
    (hr : s.ringOn (ringKey (s.fld (fGrpGStatContext g)) (getBits (enableWord v) (fGrpGQcfgRing g))) = true)
    (hal : Aligned (s.fld (fGrpGQbaseBase g) * 32) (getBits (enableWord v) (fGrpGQcfgLog2size g)) 64) :
    s.commCfgWrite g (enableWord v) = turnedOn s (commRegs g) (enableWord v) := by
  unfold State.commCfgWrite
  dsimp only
  rw [hg, ha, beq_of_fld hs, hr]
  exact (congrArg (fun n => s.cfgApply _ _ n _) (enableResult_done hal)).trans (cfgApply_enable (getBits_enableWord rfl rfl))

theorem commCfgWrite_disable (hg : s.fld (fGrpGStateState g) ≠ 0) (ha : s.active (s.fld (fGrpGStatContext g)) = true)
    (hs : s.fld (commRegs g).state ≠ 0) (hu : s.unfetched (commRegs g) = false) (hc : s.commOf g = []) (hi : lookupKey s.grp.inflight g = none) :
    s.commCfgWrite g (disableWord v) = turnedOff s (commRegs g) := by
  have hfree : (s.fld (fGrpGStateState g) == gFree) = false := beq_false_of_ne hg
  unfold State.commCfgWrite
  dsimp only
  rw [hfree, ha, hu, hc, hi]
  exact cfgApply_disable (busy := false) (getBits_disableWord rfl rfl) hs

end Comm

end Configuration

/-! ### Doorbells (R7, R172, R309) -/

section Doorbells

variable {s : State} {c : Ctx} {v : Word}

/-- BAR2 takes writes and answers reads from the end of the auxiliary stage on (R415). -/
theorem takesWrites_bar2 (hv : s.pins.vaux = true) (ha : s.fld fBringStateAux ≥ 2) : s.takesWrites 0x200000 = true := by
  simp [State.takesWrites, hv, ha]

theorem answers_bar2 (hv : s.pins.vaux = true) (ha : s.fld fBringStateAux ≥ 2) : s.answers 0x200000 = true := by
  simp [State.answers, hv, ha]

/-- May a doorbell move the tail of a queue to `t`: it is RUNNING, and `t` passes neither head nor ring size. -/
abbrev mayTail (s : State) (q : QRegs) (t log2 : Nat) : Bool := s.fld q.state == 1 && tailOk t (s.fld q.head) (s.fld q.tail) log2

theorem tailWrite_taken {off : Nat} {q : QRegs} {log2 t : Nat} (hu : s.inUse c = true) (h : mayTail s q t log2 = true) :
    s.tailWrite c off q log2 true t v = s.setFld q.tail t := by
  obtain ⟨hs, ht⟩ := Bool.and_eq_true_iff.mp h
  simp [State.tailWrite, hu, beq_iff_eq.mp hs, ht]

theorem tailWrite_refused {off : Nat} {q : QRegs} {log2 t : Nat} {allowed : Bool} (h : s.inUse c = false ∨ mayTail s q t log2 = false) :
    s.tailWrite c off q log2 allowed t v = s.doorbellLog c off v := by
  refine if_pos ?_
  rcases h with h | h
  · exact .inl (by rw [h]; rfl)
  · rcases Bool.and_eq_false_iff.mp h with h | h
    · exact .inr (.inr (.inl (by simpa using h)))
    · exact .inr (.inr (.inr (by rw [h]; rfl)))

/-- How far a head may go: to the tail. -/
abbrev mayHead (s : State) (q : QRegs) (h : Nat) : Bool :=
  decide ((h + 2 ^ 24 - s.fld q.head) % 2 ^ 24 ≤ (s.fld q.tail + 2 ^ 24 - s.fld q.head) % 2 ^ 24)

theorem headWrite_taken {r : Nat} (hu : s.inUse c = true) (hs : s.fld (ringRegs c r).state ≠ 0)
    (h : mayHead s (ringRegs c r) (v.toNat % 2 ^ 24) = true) :
    s.headWrite c r v = ((s.setFld (ringRegs c r).head (v.toNat % 2 ^ 24)).ringShow (ringKey c r)).settle := by
  have hle := of_decide_eq_true h
  refine if_neg ?_
  rintro (hn | hn | hn)
  · rw [hu] at hn
    exact absurd hn (by decide)
  · exact hs hn
  · exact absurd hle (Nat.not_le.mpr hn)

theorem headWrite_refused {r : Nat} (h : s.inUse c = false ∨ mayHead s (ringRegs c r) (v.toNat % 2 ^ 24) = false) :
    s.headWrite c r v = s.doorbellLog c (0xC0 + 8 * r) v := by
  refine if_pos ?_
  rcases h with h | h
  · exact .inl (by rw [h]; rfl)
  · exact .inr (.inr (Nat.not_le.mp (of_decide_eq_false h)))

theorem queueAt_compute (n : Fin 16) : s.queueAt c n = (cqRegs c n, s.fld (fQueCqCfgLog2size c n), rQueCqState c n) := if_pos n.isLt

theorem queueAt_copy (x : Fin 4) : s.queueAt c (16 + x) = (xqRegs c x, s.fld (fQueXqCfgLog2size c x), rQueXqState c x) := by
  simp [State.queueAt]

theorem exec_tailDoorbell_wr {q : Fin 20} (h : s.takesWrites 0x200000 = true) : exec (.tailDoorbell c q (.wr v)) s
    = .next (s.tailWrite c (8 * q) (s.queueAt c q).1 (s.queueAt c q).2.1 (decide (q.val ≥ 16) || !s.isDown c) (v.toNat % 2 ^ 24) v) :=
  congrArg Host.Outcome.next (if_pos h)

theorem exec_tailDoorbell_rd {q : Fin 20} (h : s.answers 0x200000 = true) : exec (.tailDoorbell c q .rd) s
    = .next (s.emit (.hostRead 8 (s.reg (s.queueAt c q).2.2))) := by
  refine congrArg Host.Outcome.next ?_
  simp [State.doorbellRead, h]

theorem exec_headDoorbell_wr {r : Fin 8} (h : s.takesWrites 0x200000 = true) : exec (.headDoorbell c r (.wr v)) s = .next (s.headWrite c r v) :=
  congrArg Host.Outcome.next (if_pos h)

theorem exec_headDoorbell_rd {r : Fin 8} (h : s.answers 0x200000 = true) : exec (.headDoorbell c r .rd) s
    = .next (s.emit (.hostRead 8 (s.reg (rQueRingState c r)))) := by
  refine congrArg Host.Outcome.next ?_
  simp [State.doorbellRead, h]

/-- The group that a communication doorbell names, and the tail. -/
abbrev bellGroup (v : Word) : Nat := bitsOf v.toNat 57 48
abbrev bellTail (v : Word) : Nat := v.toNat % 2 ^ 24

theorem exec_commDoorbell_wr (h : s.takesWrites 0x200000 = true) : ∃ allowed, exec (.commDoorbell c (.wr v)) s
    = .next (s.tailWrite c 0x400 (commRegs (bellGroup v)) (s.fld (fGrpGQcfgLog2size (bellGroup v))) allowed (bellTail v) v)
    ∧ (v.toNat = bellGroup v * 2 ^ 48 + bellTail v → s.fld (fGrpGStateState (bellGroup v)) = 2 →
      s.fld (fGrpGStatContext (bellGroup v)) = c.val → allowed = true) := by
  have htail : bitsOf v.toNat 23 0 = bellTail v := by rw [bitsOf, Nat.pow_zero, Nat.div_one]
  have hexec : exec (.commDoorbell c (.wr v)) s = .next _ := congrArg Host.Outcome.next (if_neg (by rw [h]; decide))
  rw [htail] at hexec
  refine ⟨_, hexec, fun hword hst hctx => ?_⟩
  have hmember : decide (s.fld (fGrpGStateState (bellGroup v)) = gReady ∨ s.fld (fGrpGStateState (bellGroup v)) = gBroken) = true :=
    decide_eq_true (.inl hst)
  have hextra : decide (v.toNat ≠ bellGroup v * 2 ^ 48 + bellTail v) = false := decide_eq_false fun hne => hne hword
  rw [hmember, hextra, beq_of_fld hctx]
  rfl

theorem exec_commDoorbell_rd (h : s.answers 0x200000 = true) : exec (.commDoorbell c .rd) s = .next (s.emit (.hostRead 8 0#64)) :=
  congrArg (fun w => Host.Outcome.next (s.emit (.hostRead 8 w))) (if_pos h)

end Doorbells

/-! ### The statement -/

/-- Settles O31: each CFG write by the result of its checks, each doorbell by whether its index may move there. -/
theorem queuesAndDoorbells : Obligations.QueuesAndDoorbells := by
  unfold Obligations.QueuesAndDoorbells
  refine ⟨fun c n x r g v s => ⟨fun h => ?_, fun h => ?_, fun h => ?_, fun h => ?_⟩, fun c n x r v s haux hv => ⟨fun hu => ?_, fun hu => ?_, ?_⟩⟩
  · have htaken : Taken s (queueCfg c n) := (congrArg (Taken s) queueCfg_compute).mpr h
    have hon := exec_queueEnable (v := v) (q := ⟨n.val, by omega⟩) htaken
    have hoff := exec_queueDisable (v := v) (q := ⟨n.val, by omega⟩) htaken
    rw [queueCfgWrite_compute] at hon hoff
    refine ⟨fun ha hs hm hr hal => hon.trans ?_, fun ha => hon.trans ?_, fun ha hs => hon.trans ?_, fun ha hs hf ht => hoff.trans ?_,
      fun ha hs hf => hoff.trans ?_⟩
    · rw [cqCfgWrite_enable ha hs hm hr hal]
    · rw [cqCfgWrite_noContext ha]
    · rw [cqCfgWrite_wrongState ha hs]
    · rw [cqCfgWrite_disable ha hs, hf, ht]
      rfl
    · rw [cqCfgWrite_disable ha hs, hf]
      rfl
  · have htaken : Taken s (queueCfg c (16 + x)) := (congrArg (Taken s) queueCfg_copy).mpr h
    have hon := exec_queueEnable (v := v) (q := ⟨16 + x.val, by omega⟩) htaken
    have hoff := exec_queueDisable (v := v) (q := ⟨16 + x.val, by omega⟩) htaken
    rw [queueCfgWrite_copy] at hon hoff
    refine ⟨fun ha hs hr hal => hon.trans ?_, fun ha hs hf hc => hoff.trans ?_⟩
    · rw [xqCfgWrite_enable ha hs hr hal]
    · rw [xqCfgWrite_disable ha hs hf hc]
  · refine ⟨fun ha hs hal => ⟨_, exec_ringEnable h, ?_⟩, fun ha hs hn => (exec_ringDisable h).trans ?_,
      fun ha hs hn => (exec_ringDisable h).trans ?_⟩
    · rw [ringCfgWrite_enable ha hs hal]
      exact ⟨lookupKey_eraseKey_same _ _, rfl⟩
    · rw [ringCfgWrite_disable ha hs, hn]
      rfl
    · rw [ringCfgWrite_disable ha hs, hn]
      rfl
  · refine ⟨fun hg ha hs hr hal => (exec_commQueueEnable h).trans ?_, fun hg ha hs hf hc hi => (exec_commQueueDisable h).trans ?_⟩
    · exact congrArg Host.Outcome.next (commCfgWrite_enable hg ha hs hr hal)
    · rw [commCfgWrite_disable hg ha hs hf hc hi]
  · have htakes := takesWrites_bar2 hv haux
    have hcompute := exec_tailDoorbell_wr (c := c) (v := v) (q := ⟨n.val, by omega⟩) htakes
    have hcopy := exec_tailDoorbell_wr (c := c) (v := v) (q := ⟨16 + x.val, by omega⟩) htakes
    rw [queueAt_compute] at hcompute
    rw [queueAt_copy] at hcopy
    obtain ⟨allowed, hcomm, hallowed⟩ := exec_commDoorbell_wr (c := c) (v := v) htakes
    refine ⟨fun hm hd => hcompute.trans ?_, fun hm => hcompute.trans ?_, fun hm => hcopy.trans ?_,
      fun hs hf => (exec_headDoorbell_wr htakes).trans ?_, fun hf => (exec_headDoorbell_wr htakes).trans ?_,
      fun hw hst hctx hm => hcomm.trans ?_, fun hm => hcomm.trans ?_⟩
    · rw [hd, Bool.not_false, Bool.or_true, tailWrite_taken hu hm]
    · rw [tailWrite_refused (.inr hm)]
      rfl
    · have hq : decide (16 + x.val ≥ 16) = true := decide_eq_true (Nat.le_add_right _ _)
      rw [hq, Bool.true_or, tailWrite_taken hu hm]
    · rw [headWrite_taken hu hs hf]
    · rw [headWrite_refused (.inr hf)]
      rfl
    · rw [hallowed hw hst hctx, tailWrite_taken hu hm]
    · rw [tailWrite_refused (.inr hm)]
      rfl
  · have htakes := takesWrites_bar2 hv haux
    obtain ⟨allowed, hcomm, -⟩ := exec_commDoorbell_wr (c := c) (v := v) htakes
    refine ⟨(exec_tailDoorbell_wr htakes).trans ?_, (exec_headDoorbell_wr htakes).trans ?_, hcomm.trans ?_⟩
    · rw [tailWrite_refused (.inl hu)]
      rfl
    · rw [headWrite_refused (.inl hu)]
      rfl
    · rw [tailWrite_refused (.inl hu)]
      rfl
  · have hanswers := answers_bar2 hv haux
    refine ⟨(exec_tailDoorbell_rd hanswers).trans ?_, (exec_tailDoorbell_rd hanswers).trans ?_, exec_headDoorbell_rd hanswers,
      exec_commDoorbell_rd hanswers⟩
    · rw [queueAt_compute]
      rfl
    · rw [queueAt_copy]
      rfl

end Sys2Proof.Proofs
end

section
/-! SUPPORT. The SYNC block and its signals (R159–R167, R197, R349): what a write of SYNC.CMD does by the first check that fails, what a signal
does at its object, and the statement on them. -/

namespace Sys2Proof.Proofs

open Sys2Proof Sys2Proof.Machine

/-! ### SYNC.CMD (R164, R197) -/

section SyncCommands

variable {s : State} {v : Word} {op : Nat}

/-- The write of SYNC.CMD with go and an op, and the state once its register holds it. -/
abbrev syncWord (v : Word) (op : Nat) : Word := withOp v fSyncCmdGo fSyncCmdOp op
abbrev syncWritten (s : State) (v : Word) (op : Nat) : State := s.writeUnder takesAll rSyncCmd (syncWord v op)

/-- What a command does with an object that the context holds (R164). -/
def syncHeld (s t : State) (v : Word) (op : Nat) : State :=
  let c := getBits v fSyncCmdContext
  let i := getBits v fSyncCmdIndex
  match op with
  | 2 => if s.waiters i ≠ 0 then t.syncResult 5 else (t.syncDrop c i).syncResult 0
  | 3 => (t.syncArm i (s.fld fSyncFireFire) (getBits v fSyncCmdHeavy == 1) (getBits v fSyncCmdRemote == 1)).syncResult 0
  | 4 => (t.applySignal i (s.fld fSyncValueValue)).syncResult 0
  | 5 => (t.setCounter i 0).syncResult 0
  | _ => match lookupKey s.sync i with
    | some o => ((t.setFld fSyncValueValue o.counter).setFld fSyncFireFire o.fire).syncResult 0
    | none => t

/-- A row's write goes through the checks of R197 in their order. -/
theorem syncCmdWrite_eq (hop : 1 ≤ op ∧ op ≤ 6) : s.syncCmdWrite (syncWord v op) =
    let c := getBits v fSyncCmdContext
    let t := syncWritten s v op
    if !s.active c then t.syncResult 1
    else if op = 1 then t.syncAlloc c (getBits v fSyncCmdDie)
    else if !s.holds c (getBits v fSyncCmdIndex) then t.syncResult 2
    else syncHeld s t v op := by
  have hnum : ¬(op = 0 ∨ op > 6) := by omega
  have hfits : op < 8 := by omega
  have hkeeps (g : Fld) (hg : g.hi < 64) (hgo : Apart fSyncCmdGo g) (hopf : Apart fSyncCmdOp g) : getBits (syncWord v op) g = getBits v g :=
    getBits_withOp op hg hgo hopf
  simp only [State.syncCmdWrite, getBits_withOp_go (v := v) (go := fSyncCmdGo) (opf := fSyncCmdOp) op (by decide) (by decide) (by decide),
    getBits_withOp_op (v := v) (go := fSyncCmdGo) (opf := fSyncCmdOp) (by decide) hfits, hnum, if_false, Nat.one_ne_zero,
    hkeeps fSyncCmdContext (by decide) (by decide) (by decide), hkeeps fSyncCmdIndex (by decide) (by decide) (by decide),
    hkeeps fSyncCmdDie (by decide) (by decide) (by decide), hkeeps fSyncCmdHeavy (by decide) (by decide) (by decide),
    hkeeps fSyncCmdRemote (by decide) (by decide) (by decide), syncHeld] <;> rfl

theorem syncCmdWrite_inactive (hop : 1 ≤ op ∧ op ≤ 6) (ha : s.active (getBits v fSyncCmdContext) = false) :
    s.syncCmdWrite (syncWord v op) = (syncWritten s v op).syncResult 1 := by
  simp only [syncCmdWrite_eq hop, ha, Bool.not_false, if_true]

theorem syncCmdWrite_notHeld (hop : 2 ≤ op ∧ op ≤ 6) (ha : s.active (getBits v fSyncCmdContext) = true)
    (hh : s.holds (getBits v fSyncCmdContext) (getBits v fSyncCmdIndex) = false) :
    s.syncCmdWrite (syncWord v op) = (syncWritten s v op).syncResult 2 := by
  have hne : op ≠ 1 := by omega
  simp only [syncCmdWrite_eq (by omega : 1 ≤ op ∧ op ≤ 6), ha, hh, hne, Bool.not_true, Bool.not_false, Bool.false_eq_true, if_true, if_false]

theorem syncCmdWrite_held (hop : 2 ≤ op ∧ op ≤ 6) (ha : s.active (getBits v fSyncCmdContext) = true)
    (hh : s.holds (getBits v fSyncCmdContext) (getBits v fSyncCmdIndex) = true) :
    s.syncCmdWrite (syncWord v op) = syncHeld s (syncWritten s v op) v op := by
  have hne : op ≠ 1 := by omega
  simp only [syncCmdWrite_eq (by omega : 1 ≤ op ∧ op ≤ 6), ha, hh, hne, Bool.not_true, Bool.false_eq_true, if_false]

/-- A row's write that is taken meets those checks. -/
theorem syncRow_taken (h : Taken s rSyncCmd) :
    s.hostWrite rSyncCmd (syncWord v op) HostObs.plain (fun t => t.syncCmdWrite (syncWord v op)) = s.syncCmdWrite (syncWord v op) :=
  hostWrite_taken _ _ _ h

/-- The objects that are free do not depend on registers. -/
theorem freeObj_syncWritten (die : Nat) : (syncWritten s v op).freeObj die = s.freeObj die := by
  simp only [State.freeObj, writeUnder_sync]

/-- An ALLOC below the limit takes the lowest free object of the die. -/
theorem syncAlloc_gives {c die n : Nat} (h : s.fld (fCtxQsyncUse c) + 1 ≤ s.fld (fCtxQsyncLimit c)) (hf : s.freeObj die = some n) :
    s.syncAlloc c die = ((({ s with sync := insertKey s.sync n ⟨c, 0, 1, false, false⟩ }).setSyncUse c (s.fld (fCtxQsyncUse c) + 1)).setFld
      fSyncCmdIndex n).setFld fSyncCmdResult 0 := by
  unfold State.syncAlloc
  rw [if_neg (Nat.not_lt.mpr h), hf]
  rfl

end SyncCommands

/-! ### Signals (R163, R165, R288) -/

section Signals

variable {s : State} {i : Nat}

/-- A remote signal takes effect on an object that is open to other modules. -/
theorem remoteSignal_taken {node : Node} {n : Nat} {o : SyncObj} (h : lookupKey s.sync i = some o) (hr : o.remote = true) :
    s.remoteSignal node i n = s.applySignal i n := by
  simp only [State.remoteSignal, h, hr, if_true]

theorem remoteSignal_dropped {node : Node} {n : Nat} (h : ∀ o, lookupKey s.sync i = some o → o.remote = false) :
    s.remoteSignal node i n = s.log { code := 0x0406, kind := 15, unit := i, detail := leBytes 2 node.toNat ++ leBytes 2 i } := by
  unfold State.remoteSignal
  split
  case h_1 o ho => exact if_neg (by simp [h o ho])
  case h_2 => rfl

theorem localSignal_taken {c n : Nat} (h : s.holds c i = true) : s.localSignal c i n = s.applySignal i n := if_pos h

theorem localSignal_dropped {c n : Nat} (h : s.holds c i = false) : s.localSignal c i n
    = s.log { code := 0x020D, kind := 15, unit := i, part := s.partOf c, ctx := some c, detail := leBytes 1 c ++ leBytes 8 n } :=
  if_neg (by simp [h])

/-- A signal of this module that has left the trellis. -/
abbrev arrived (s : State) (k : Nat) : State := { s with cores := { s.cores with signals := s.cores.signals.eraseIdx k } }

theorem exec_signal_own {m : SigMsg} {k : Nat} {x : Ctx} (ecc : EccObs) (h : s.signalAt m = some k) (hx : m.fromCtx = some x) :
    exec (.signal (.own m) ecc) s
      = .next ((arrived s k).signalEcc m.obj.toNat ecc (fun t => t.localSignal x m.obj.toNat m.value.toNat)) := by
  simp only [exec, execSignal, h, hx]

theorem exec_signal_none {m : SigMsg} (ecc : EccObs) (h : s.signalAt m = none) : exec (.signal (.own m) ecc) s = .next s := by
  simp only [exec, execSignal, h]

/-- The signal that was sent first may arrive first (R65). -/
theorem signalAt_first {m : SigMsg} {stop : Nat} {rest : List (Nat × SigMsg)} (h : s.cores.signals = (stop, m) :: rest) :
    s.signalAt m = some 0 := by
  have hturn : s.signalTurn 0 = true := by simp [State.signalTurn, h]
  simp [State.signalAt, h, List.range_succ_eq_map, hturn]

/-! ### Waves and setpoints (R166, R349) -/

theorem exec_pourWave {d : Die} {l : List Nat} (h : lookupKey s.cores.wavesDue d = some l) (hl : l ≠ []) : exec (.pourWave d) s
    = .next ((l.take 16).foldl State.waveWake { s with cores := { s.cores with wavesDue := insertKey s.cores.wavesDue d (l.drop 16) } }) := by
  simp only [exec, execPourWave, h, Option.getD_some, if_neg hl]

end Signals

/-- Settles O34: a command by the first check that fails, a signal by whether its sender may signal the object. -/
theorem syncBlock : Obligations.SyncBlock := by
  unfold Obligations.SyncBlock
  intro v m p d s
  dsimp only
  refine ⟨fun h ha => ?_, fun h ha => ?_, ⟨fun o ho hr => ?_, fun hr => ?_, rfl, rfl⟩, fun x k hk hx => ?_, fun stop rest => signalAt_first,
    exec_signal_none .clean, fun l => exec_pourWave, fun hr => congrArg Host.Outcome.next (if_pos hr)⟩
  · have halloc := exec_syncAlloc h ha
    have hheld (op : Nat) (hop : 2 ≤ op ∧ op ≤ 6) (hh : s.holds (getBits v fSyncCmdContext) (getBits v fSyncCmdIndex) = true) :=
      congrArg (Host.Outcome.next (φ := Fault) (ρ := Refusal)) ((syncRow_taken h).trans (syncCmdWrite_held hop ha hh))
    have hnot (op : Nat) (hop : 2 ≤ op ∧ op ≤ 6) (hh : s.holds (getBits v fSyncCmdContext) (getBits v fSyncCmdIndex) = false) :=
      congrArg (Host.Outcome.next (φ := Fault) (ρ := Refusal)) ((syncRow_taken h).trans (syncCmdWrite_notHeld hop ha hh))
    refine ⟨fun n hlim hf => halloc.trans ?_, fun hlim => halloc.trans ?_, fun hlim hf => halloc.trans ?_,
      fun hh hw => (hheld 2 (by decide) hh).trans ?_, fun hh hw => (hheld 2 (by decide) hh).trans ?_, fun hh => hheld 3 (by decide) hh,
      fun hh => hheld 4 (by decide) hh, fun hh => hheld 5 (by decide) hh, fun o hh ho => (hheld 6 (by decide) hh).trans ?_, fun hh => ⟨hnot 2 (by decide) hh, hnot 3 (by decide) hh, hnot 4 (by decide) hh,
        hnot 5 (by decide) hh, hnot 6 (by decide) hh⟩⟩
    · rw [syncAlloc_gives hlim ((freeObj_syncWritten _).trans hf), writeUnder_sync]
    · rw [syncAlloc_above hlim]
    · rw [syncAlloc_full hlim ((freeObj_syncWritten _).trans hf)]
    · simp only [syncHeld, hw]
      rfl
    · exact congrArg Host.Outcome.next (if_pos hw)
    · simp only [syncHeld, ho]
      rfl
  · have hrow (op : Nat) (hop : 1 ≤ op ∧ op ≤ 6) := congrArg (Host.Outcome.next (φ := Fault) (ρ := Refusal))
      ((syncRow_taken h).trans (syncCmdWrite_inactive hop ha))
    exact ⟨hrow 1 (by decide), hrow 6 (by decide)⟩
  · exact congrArg Host.Outcome.next (remoteSignal_taken ho hr)
  · exact congrArg Host.Outcome.next (remoteSignal_dropped hr)
  · refine ⟨fun hh => (exec_signal_own _ hk hx).trans (congrArg Host.Outcome.next (localSignal_taken (s := arrived s k) hh)),
      fun hh => (exec_signal_own _ hk hx).trans (congrArg Host.Outcome.next (localSignal_dropped (s := arrived s k) hh)),
      fun hh => (exec_signal_own _ hk hx).trans (congrArg Host.Outcome.next (localSignal_taken hh)), exec_signal_own _ hk hx⟩

end Sys2Proof.Proofs
end

section
/-! SUPPORT. Completion records (R179–R185, R188, R190, R379, R513): the record that RECORD_WRITE takes, its way into a ring in host memory, the
holdoffs, and the statement on them. -/

namespace Sys2Proof.Proofs

open Sys2Proof Sys2Proof.Machine

section Records

variable {s : State} {c : Ctx} {r : Fin 8} {w : RecWait} {l : List RecWait} {linkOk : Bool}

/-- RECORD_WRITE takes the first record due where that is one of its ring that may pass. -/
theorem exec_recordWrite_first (hl : s.que.recs = w :: l) (hk : ringKey w.record.ctx w.ring = ringKey c r)
    (h : w.quiet = true ∨ (s.ringOn (ringKey c r) = true ∧ s.ringSpace (ringKey c r) ≠ 0)) :
    exec (.recordWrite c r linkOk) s = .next (if w.quiet then s.quietRec 0 w linkOk else s.writeRec 0 w linkOk) := by
  have hpass : (ringKey w.record.ctx w.ring == ringKey c r
      && (w.quiet || !(s.ringSpace (ringKey c r) == 0 || !s.ringOn (ringKey c r)))) = true := by
    rcases h with hq | ⟨hon, hspace⟩
    · simp [hk, hq]
    · simp [hk, hon, hspace]
  simp only [exec, execRecordWrite, hl, List.findIdx?_cons, hpass, if_true, List.getElem?_cons_zero]

/-- The state without the first record due. -/
theorem dropRec_first (hl : s.que.recs = w :: l) : s.dropRec 0 = { s with que := { s.que with recs := l } } := by
  simp only [State.dropRec, hl, List.eraseIdx_cons_zero]

/-- A quiet record without the decant flag leaves nothing but its done signal (R185). -/
theorem quietRec_plain {i : Nat} (hd : w.decant = false) : s.quietRec i w linkOk = ((s.dropRec i).doneSignal w).settle :=
  if_neg (by simp [hd])

/-! ### A record into host memory (R181, R513) -/

section HostRing

variable {ctx ring : Nat}

/-- Where the next record of a ring goes, and the bytes that are written there. -/
abbrev recordAt (s : State) (ctx ring : Nat) : Nat :=
  s.fld (fQueRingBaseBase ctx ring) * 32 + s.fld (fQueRingStateTail ctx ring) % 2 ^ s.fld (fQueRingCfgLog2size ctx ring) * 32
abbrev recordNow (s : State) (ctx ring : Nat) (q : CRec) : List Byte :=
  q.bytes (ringGen (s.fld (fQueRingStateTail ctx ring)) (s.fld (fQueRingCfgLog2size ctx ring)))

/-- Two posted writes, byte 31 last. -/
theorem recordBytes_host (hc : w.record.ctx = ctx) (hr : w.ring = ring) (hloc : s.fld (fQueRingCfgLoc ctx ring) = 1) : s.recordBytes w true =
    ((s.emit (.hostWrite (recordAt s ctx ring) ((recordNow s ctx ring w.record).take 31))).emit
      (.hostWrite (recordAt s ctx ring + 31) ((recordNow s ctx ring w.record).drop 31)), true) := by
  subst hc hr
  exact if_pos (bit_of_fld hloc)

theorem recordBytes_lost (hc : w.record.ctx = ctx) (hr : w.ring = ring) (hloc : s.fld (fQueRingCfgLoc ctx ring) = 1) :
    s.recordBytes w false = (s, false) := by
  subst hc hr
  exact if_pos (bit_of_fld hloc)

end HostRing

theorem dropRec_emit (i : Nat) (o : Out) : (s.emit o).dropRec i = (s.dropRec i).emit o := rfl

/-- A record that is written moves the ring's tail and counts towards its interrupt; the done signal follows it (R178, R183, R184). -/
theorem writeRec_written {i : Nat} {t : State} (hb : s.recordBytes w linkOk = (t, true)) (hd : w.decant = false) : s.writeRec i w linkOk =
    let key := ringKey w.record.ctx w.ring
    ((((((t.dropRec i).setFld (fQueRingStateTail w.record.ctx w.ring)
      ((s.fld (fQueRingStateTail w.record.ctx w.ring) + 1) % 2 ^ 24)).ringShow key).ringCount key).doneSignal w).settle) := by
  simp only [State.writeRec, hb, hd, if_true, Bool.false_eq_true, if_false]

/-- A record that cannot be written is lost and logged (R513). -/
theorem writeRec_lost {i : Nat} {t : State} (hb : s.recordBytes w linkOk = (t, false)) : s.writeRec i w linkOk =
    (((t.dropRec i).log { code := 0x0107, kind := 0, unit := 0, part := s.partOf w.record.ctx, ctx := some w.record.ctx
                          detail := leBytes 1 w.ring ++ leBytes 4 w.record.tag ++ leBytes 1 w.record.kind }).settle) := by
  simp only [State.writeRec, hb, Bool.false_eq_true, if_false]

end Records

/-! ### Holdoffs and pairs (R184, R188, R379) -/

section Holdoffs

variable {s : State}

theorem resultHoldoff_covers {c : Ctx} {r : Fin 8} {n : Nat} (hi : s.fld (fQueRingCfgIrq c r) = 1) (hh : s.fld (fQueRingCfgHoldoff c r) ≠ 0)
    (hn : lookupKey s.que.ringIrq (ringKey c r) = some n) (h0 : n ≠ 0) : s.resultHoldoff c r =
    { (s.msix (s.fld (fQueRingCfgVector c r))) with que := { s.que with ringIrq := insertKey s.que.ringIrq (ringKey c r) 0 } } :=
  if_pos ⟨bit_of_fld hi, hh, by rwa [hn]⟩

theorem errHoldoff_covers (hi : s.fld fErrRingCfgIrq = 1) (hh : s.fld fErrRingCfgHoldoff ≠ 0) (hf : s.err.ringFirst = true) : s.errHoldoff =
    { (s.msix (s.fld fErrRingCfgVector)) with err := { s.err with ringCount := 0, ringFirst := false } } :=
  if_pos ⟨bit_of_fld hi, hh, hf⟩

theorem exec_shadowTimeout {k : LCore} {p : Run} {b : Bundle} (hp : s.runOf k = some p) (hb : s.bundleAt p = some b) (hi : p.issue = none)
    (hf : p.fault = none) (he : p.ending = none) (hs : s.stallPair p b = true) : exec (.shadowTimeout k) s = .next (s.pairStop k) := by
  simp only [exec, execShadowTimeout, hp, hb, hi, hf, he, hs, Option.isNone_none, Bool.and_self, if_true]

end Holdoffs

/-- Settles O33: RECORD_WRITE by the record that it takes and by whether that could be written, the holdoffs and the pair by their rules. -/
theorem recordsWritten : Obligations.RecordsWritten := by
  unfold Obligations.RecordsWritten
  intro c r linkOk k s
  refine ⟨fun w l hl hk => ⟨fun hon hspace hq => ?_, fun hq hd => ?_⟩, fun w l hl hc hr hloc hon hspace hq hd => ?_,
    fun n hi hh hn h0 => congrArg Host.Outcome.next (resultHoldoff_covers hi hh hn h0),
    fun hi hh hf => congrArg Host.Outcome.next (errHoldoff_covers hi hh hf), fun p b hp hb hi hf he hs => exec_shadowTimeout hp hb hi hf he hs⟩
  · rw [exec_recordWrite_first hl hk (.inr ⟨hon, hspace⟩), hq]
    rfl
  · rw [exec_recordWrite_first hl hk (.inl hq), hq, if_pos rfl, quietRec_plain hd, dropRec_first hl]
  · have hexec (ok : Bool) : exec (.recordWrite c r ok) s = .next (s.writeRec 0 w ok) := by
      rw [exec_recordWrite_first hl (by rw [hc, hr]) (.inr ⟨hon, hspace⟩), hq]
      rfl
    refine ⟨(hexec true).trans ?_, (hexec false).trans ?_⟩
    · rw [writeRec_written (recordBytes_host hc hr hloc) hd, dropRec_emit, dropRec_emit, dropRec_first hl, hc, hr]
      rfl
    · rw [writeRec_lost (recordBytes_lost hc hr hloc), dropRec_first hl, hc, hr]

end Sys2Proof.Proofs
end

section
/-! SUPPORT. The decant pair at resets (R193): a start leaves it empty, and of the compute-domain reset no step reaches it; the statement on it. -/

namespace Sys2Proof.Proofs

open Sys2Proof Sys2Proof.Machine

section DecantPart

variable {s : State}

/-! ### The pair and its counters -/

/-- The decant queue and the latch, with the level and the counters that the compatibility page shows (R190–R194). -/
def decantPart (s : State) : List Word × Option (BitVec 32) × Nat × Nat × Nat :=
  (s.que.decant, s.que.latch, s.fld fDecantLevelLevel, s.fld fDecantLostLost, s.fld fDecantSpillSpill)

/-- The same after a start. -/
def decantEmpty : List Word × Option (BitVec 32) × Nat × Nat × Nat := ([], none, 0, 0, 0)

theorem decantPart_eq_empty : decantPart s = decantEmpty ↔ s.que.decant = [] ∧ s.que.latch = none ∧ s.fld fDecantLevelLevel = 0
    ∧ s.fld fDecantLostLost = 0 ∧ s.fld fDecantSpillSpill = 0 := by
  simp only [decantPart, decantEmpty, Prod.mk.injEq]

theorem decantPart_eq_iff {t : State} : decantPart t = decantPart s ↔ t.que.decant = s.que.decant ∧ t.que.latch = s.que.latch
    ∧ t.fld fDecantLostLost = s.fld fDecantLostLost ∧ t.fld fDecantSpillSpill = s.fld fDecantSpillSpill
    ∧ t.fld fDecantLevelLevel = s.fld fDecantLevelLevel := by
  simp only [decantPart, Prod.mk.injEq]
  tauto

/-- A register field that shares no bit with the level and the counters. -/
abbrev MissesDecant (f : Fld) : Prop := ∀ g ∈ [fDecantLevelLevel, fDecantLostLost, fDecantSpillSpill], g.off ≠ f.off ∨ Apart f g

/-- The registers of the pair stand apart from those below and beyond them. -/
theorem ne_of_decantOff {a b : Nat} (ha : 0xF00000 ≤ a ∧ a < 0xF00014) (hb : b < 0xF00000 ∨ 0xF00014 ≤ b) : a ≠ b := by omega

theorem missesDecant_of_off {f : Fld} (h : f.off < 0xF00000 ∨ 0xF00014 ≤ f.off) : MissesDecant f := by
  intro g hg
  left
  simp only [List.mem_cons, List.not_mem_nil, or_false] at hg
  rcases hg with rfl | rfl | rfl
  · exact ne_of_decantOff (by decide) h
  · exact ne_of_decantOff (by decide) h
  · exact ne_of_decantOff (by decide) h

/-- The pair depends on the registers and on its queue alone. -/
theorem decantPart_congr {t : State} (hr : t.regs = s.regs) (hd : t.que.decant = s.que.decant) (hl : t.que.latch = s.que.latch) :
    decantPart t = decantPart s := by
  simp only [decantPart, hd, hl, fld_congr hr]

theorem decantPart_setFld {f : Fld} (h : MissesDecant f) (v : Nat) : decantPart (s.setFld f v) = decantPart s := by
  have hkeeps {g : Fld} (hg : g ∈ [fDecantLevelLevel, fDecantLostLost, fDecantSpillSpill]) (hhi : g.hi < 64) :
      (s.setFld f v).fld g = s.fld g := by
    rcases h g hg with h | h
    · exact fld_setFld_off _ _ _ _ h
    · exact fld_setFld_bits _ _ _ _ hhi h
  simp only [decantPart, setFld_que, hkeeps (g := fDecantLevelLevel) (by simp) (by decide), hkeeps (g := fDecantLostLost) (by simp) (by decide),
    hkeeps (g := fDecantSpillSpill) (by simp) (by decide)]

theorem decantPart_setFlds {l : List (Fld × Nat)} (h : ∀ p ∈ l, MissesDecant p.1) : decantPart (s.setFlds l) = decantPart s := by
  unfold State.setFlds
  induction l generalizing s with
  | nil => rfl
  | cons a t ih =>
    rw [List.foldl_cons, ih fun p hp => h p (List.mem_cons_of_mem a hp), decantPart_setFld (h a List.mem_cons_self)]

theorem decantPart_setReg {off : Nat} (h : off < 0xF00000 ∨ 0xF00014 ≤ off) (w : Word) : decantPart (s.setReg off w) = decantPart s := by
  have hkeeps {g : Fld} (hg : 0xF00000 ≤ g.off ∧ g.off < 0xF00014) : (s.setReg off w).fld g = s.fld g :=
    fld_setReg_off w (ne_of_decantOff hg h)
  simp only [decantPart, setReg_que, hkeeps (g := fDecantLevelLevel) (by decide), hkeeps (g := fDecantLostLost) (by decide),
    hkeeps (g := fDecantSpillSpill) (by decide)]

/-- A fold over a list keeps a part of the state that each of its elements keeps. -/
theorem foldl_keeps_mem {α β : Type} (p : State → β) {f : State → α → State} {l : List α} (hf : ∀ a ∈ l, ∀ t, p (f t a) = p t) (s : State) :
    p (l.foldl f s) = p s :=
  List.foldlRecOn (motive := fun t : State => p t = p s) l f rfl fun t ht a ha => (hf a ha t).trans ht

/-! ### Starts (R405–R408) -/

theorem decantPart_event (code v : Nat) : decantPart (s.event code v) = decantPart s := by
  unfold State.event
  dsimp only
  split <;> rfl

theorem decantPart_faultSince (before : State) : decantPart (s.faultSince before) = decantPart s := by
  unfold State.faultSince
  split
  · rfl
  · exact decantPart_event _ _

theorem decantPart_showSec : decantPart s.showSec = decantPart s := decantPart_setFlds (of_decide_eq_true rfl)

theorem missesDecant_disturb {k : Nat} (h : k < 12) : MissesDecant (fMemcStkDisturbMeasured k) := by
  refine missesDecant_of_off (.inl ?_)
  simp only [fMemcStkDisturbMeasured, rMemcStkDisturb]
  omega

theorem decantPart_loadFlash : decantPart s.loadFlash = decantPart s := by
  unfold State.loadFlash
  dsimp only
  rw [decantPart_showSec, decantPart_setFlds, decantPart_setFlds]
  · exact decantPart_congr rfl rfl rfl
  · exact of_decide_eq_true rfl
  · intro p hp
    obtain ⟨k, hk, rfl⟩ := List.mem_map.mp hp
    exact missesDecant_disturb (List.mem_range.mp hk)

theorem decantPart_pwrShow : decantPart s.pwrShow = decantPart s := by
  have hshown (l : List (Fld × Nat)) (h : ∀ p ∈ l, MissesDecant p.1) (c : Prop) [Decidable c] (code v : Nat) :
      decantPart (if c then s.setFlds l else (s.setFlds l).event code v) = decantPart s := by
    split
    · exact decantPart_setFlds h
    · exact (decantPart_event _ _).trans (decantPart_setFlds h)
  exact (decantPart_faultSince _).trans (hshown _ (of_decide_eq_true rfl) _ _ _)

theorem decantPart_reset : decantPart State.reset = decantEmpty := rfl

theorem decantPart_freshNonce : decantPart s.freshNonce = decantPart s :=
  (decantPart_setReg (.inr (by decide)) _).trans (decantPart_congr rfl rfl rfl)

/-- A start reads every register from its Reset column, the pair's among them. -/
theorem decantPart_restart (cause code aux : Nat) : decantPart (s.restart cause code aux) = decantEmpty := by
  unfold State.restart
  dsimp only
  rw [decantPart_freshNonce, decantPart_setFlds (of_decide_eq_true rfl), decantPart_loadFlash]
  exact (decantPart_congr rfl rfl rfl).trans decantPart_reset

/-- Registers of the MSI-X table that are carried over leave the others (R4, R408). -/
theorem readKey_msixKept {off : Nat} (h : msixAt off = false) (kept l : List (Nat × Word)) :
    readKey regReset (kept.foldl (fun l r => if msixAt r.1 then writeKey regReset l r.1 r.2 else l) l) off = readKey regReset l off := by
  refine List.foldlRecOn (motive := fun l' => readKey regReset l' off = readKey regReset l off) kept _ rfl fun l' hl' r _ => ?_
  split
  · next hr =>
    have hne : off ≠ r.1 := by
      rintro rfl
      rw [hr] at h
      cases h
    exact (readKey_writeKey_other _ _ _ hne).trans hl'
  · exact hl'

theorem decantPart_msixKept (kept : List (Nat × Word)) (x : Fabric) : decantPart { s with
    regs := kept.foldl (fun l r => if msixAt r.1 then writeKey regReset l r.1 r.2 else l) s.regs, fab := x } = decantPart s := by
  simp only [decantPart, State.fld, State.reg]
  rw [readKey_msixKept (by decide), readKey_msixKept (by decide), readKey_msixKept (by decide)]

theorem missesDecant_warmKept : ∀ f ∈ warmKept, MissesDecant f := of_decide_eq_true rfl

/-- A warm reset leaves the pair empty, whatever its cause. -/
theorem decantPart_warm (cause code aux : Nat) : decantPart (s.warm cause code aux) = decantEmpty := by
  have hstart := decantPart_restart (s := s) cause code (if s.pins.perst then 0 else aux)
  unfold State.warm
  generalize s.restart cause code (if s.pins.perst then 0 else aux) = s0 at hstart ⊢
  rw [← hstart, decantPart_pwrShow, decantPart_setFld (of_decide_eq_true rfl), decantPart_setFlds]
  · split
    · exact decantPart_congr rfl rfl rfl
    · exact (decantPart_congr rfl rfl rfl).trans (decantPart_msixKept (s := s0) s.regs s0.fab)
  · intro p hp
    obtain ⟨f, hf, rfl⟩ := List.mem_map.mp hp
    exact missesDecant_warmKept f hf

/-- A broken seal loop at the start leads to a warm reset (R456). -/
theorem decantPart_zeroise : decantPart s.zeroise = decantEmpty := decantPart_warm _ _ _

theorem decantPart_coldReset {t : State} (sealClosed : Bool) (h : exec (.coldReset sealClosed) s = .next t) : decantPart t = decantEmpty := by
  have hstart := decantPart_restart (s := s) caCold 0 (if s.pins.perst then 0 else 1)
  cases h
  generalize s.restart caCold 0 (if s.pins.perst then 0 else 1) = s0 at hstart ⊢
  split
  · rw [← hstart, decantPart_setFld (of_decide_eq_true rfl)]
    exact decantPart_congr rfl rfl rfl
  · exact decantPart_zeroise

/-! The resets of PCIe (R406). -/

theorem exec_perstAssert (hv : s.pins.vaux = true) :
    exec .perstAssert s = .next (({ s with pins := { s.pins with perst := true } } : State).warm caPerst 0 0) :=
  congrArg Host.Outcome.next (if_pos hv)

theorem exec_hotReset (hv : s.pins.vaux = true) : exec .hotReset s = .next (s.warm caHotReset 0 1) := congrArg Host.Outcome.next (if_pos hv)

theorem exec_flr (hv : s.pins.vaux = true) : exec .flr s = .next (s.warm caFlr 0 1) := congrArg Host.Outcome.next (if_pos hv)

/-! ### The compute-domain reset (R410) -/

theorem decantPart_capture (p seq code : Nat) (silent : Option (List Nat)) : decantPart (s.capture p seq code silent) = decantPart s :=
  (decantPart_setFld (of_decide_eq_true rfl) _).trans (decantPart_congr rfl rfl rfl)

theorem decantPart_takeFree : decantPart s.takeFree.2 = decantPart s := decantPart_congr rfl rfl rfl

theorem decantPart_due (w : RecWait) : decantPart (s.due w) = decantPart s := decantPart_congr rfl rfl rfl

theorem decantPart_clearMem (a n : Nat) : decantPart (s.clearMem a n) = decantPart s := decantPart_congr rfl rfl rfl

/-- A task that is closed leaves its record among those due (R180). -/
theorem decantPart_closeTask (t : Task) (st fault : Nat) (bu : Option Nat) (fl : Nat) (res : Option Word) (core : Option Nat) (sg : Bool) :
    decantPart (s.closeTask t st fault bu fl res core sg) = decantPart s := by
  unfold State.closeTask
  dsimp only
  rw [decantPart_due, decantPart_takeFree, decantPart_takeFree, decantPart_takeFree, decantPart_takeFree]

theorem decantPart_abortRun (k : Nat) : decantPart (s.abortRun k) = decantPart s := by
  unfold State.abortRun
  split
  · dsimp only
    split
    · exact (decantPart_closeTask ..).trans (decantPart_congr rfl rfl rfl)
    · exact decantPart_congr rfl rfl rfl
  · rfl

theorem missesDecant_tasting {n : Nat} (h : n < 32) : MissesDecant (fTstClRunning n) := by
  refine missesDecant_of_off (.inl ?_)
  simp only [fTstClRunning, rTstCl]
  omega

theorem decantPart_abortPart (p : Nat) : decantPart (s.abortPart p) = decantPart s := by
  unfold State.abortPart
  refine (decantPart_congr rfl rfl rfl).trans ((foldl_keeps decantPart (fun _ _ => decantPart_closeTask ..) _ _).trans
    ((foldl_keeps decantPart (fun _ _ => decantPart_abortRun _) _ _).trans (decantPart_setFlds fun x hx => ?_)))
  obtain ⟨n, hn, rfl⟩ := List.mem_map.mp hx
  exact missesDecant_tasting (List.mem_range.mp (List.mem_of_mem_filter hn))

theorem missesDecant_cqHead {c q : Nat} (hc : c < 128) (hq : q < 16) : MissesDecant (fQueCqStateHead c q) := by
  refine missesDecant_of_off (.inl ?_)
  simp only [fQueCqStateHead, rQueCqState]
  omega

theorem decantPart_dropUnfetched (p : Nat) : decantPart (s.dropUnfetched p) = decantPart s :=
  foldl_keeps_mem decantPart (fun _ hc t => foldl_keeps_mem decantPart (fun _ hq _ =>
    decantPart_setFld (missesDecant_cqHead (List.mem_range.mp (List.mem_of_mem_filter hc)) (List.mem_range.mp hq)) _) t) s

theorem decantPart_clearStores (p : Nat) : decantPart (s.clearStores p) = decantPart s :=
  foldl_keeps decantPart (fun _ _ => (foldl_keeps decantPart (fun _ _ => decantPart_clearMem _ _) _ _).trans (decantPart_clearMem _ _)) _ _

/-- The registers of a partition lie beside the pair, whatever its number. -/
theorem missesDecant_partState (p : Nat) : MissesDecant (fCtxPartState p) := by
  intro g hg
  right
  simp only [List.mem_cons, List.not_mem_nil, or_false] at hg
  rcases hg with rfl | rfl | rfl <;> exact .inl (of_decide_eq_true rfl)

theorem missesDecant_rstPart (p hi lo : Nat) : MissesDecant ⟨rRstPart p, hi, lo⟩ := by
  refine missesDecant_of_off (.inr ?_)
  simp only [rRstPart]
  omega

theorem decantPart_domainReset (p cause seq code : Nat) (hold : Bool) (silent : Option (List Nat)) :
    decantPart (s.domainReset p cause seq code hold silent) = decantPart s := by
  unfold State.domainReset
  dsimp only
  split
  · split
    · exact decantPart_setFld (missesDecant_rstPart p _ _) _
    · rfl
  · split
    · rfl
    · have hshown (l : List (Fld × Nat)) (hl : ∀ x ∈ l, MissesDecant x.1) (n : Nat) :
          decantPart ((s.setFlds l).bump (fRstPartCount p) n) = decantPart s :=
        (decantPart_setFld (missesDecant_rstPart p _ _) _).trans (decantPart_setFlds hl)
      refine (decantPart_congr (s := State.clearStores _ p) rfl rfl rfl).trans ((decantPart_clearStores p).trans
        ((decantPart_congr (s := State.dropUnfetched _ p) rfl rfl rfl).trans ((decantPart_dropUnfetched p).trans ((decantPart_abortPart p).trans
          ((decantPart_capture _ _ _ _).trans (hshown _ ?_ 1))))))
      simp only [List.mem_cons, List.not_mem_nil, or_false, forall_eq_or_imp, forall_eq]
      exact ⟨missesDecant_partState p, missesDecant_rstPart p _ _, missesDecant_rstPart p _ _, missesDecant_rstPart p _ _⟩

/-! ### RST.CTL (R410, R432) -/

theorem decantPart_writeRstCtl (v : Word) : decantPart (s.writeUnder takesAll rRstCtl v) = decantPart s := by
  unfold State.writeUnder
  split
  · exact decantPart_setReg (.inr (by decide)) _
  · rfl

theorem decantPart_rstAwait (ps : List Nat) : decantPart (s.rstAwait ps) = decantPart s :=
  (decantPart_setFld (missesDecant_of_off (.inr (by decide))) _).trans (decantPart_congr rfl rfl rfl)

/-- MODULE while no command runs is a warm reset. -/
theorem exec_module {v : Word} (h : Taken s rRstCtl) (hb : s.fld fRstCtlBusy = 0) : exec (.module v) s
    = .next ((s.writeUnder takesAll rRstCtl (withOp v fRstCtlGo fRstCtlOp 3)).warm caHost 0 1) := by
  have hbusy : s.bit fRstCtlBusy = false := by simp [State.bit, hb]
  refine congrArg Host.Outcome.next ((hostWrite_taken _ _ _ h).trans ?_)
  simp only [State.rstCtlWrite, getBits_withOp_go (v := v) (go := fRstCtlGo) (opf := fRstCtlOp) 3 (by decide) (by decide) (by decide),
    getBits_withOp_op (v := v) (go := fRstCtlGo) (opf := fRstCtlOp) (op := 3) (by decide) (by decide), hbusy, Bool.false_eq_true, if_false,
    Nat.one_ne_zero]

/-- DOMAIN resets the partitions that it names, or is refused. -/
theorem decantPart_rstCtlDomain (v : Word) (silent : List LCore) (failed : List TasteFail) :
    decantPart (s.rstCtlWrite (withOp v fRstCtlGo fRstCtlOp 1) silent failed) = decantPart s := by
  have hresult (t : State) (n : Nat) (ht : decantPart t = decantPart s) : decantPart (t.setFld fRstCtlResult n) = decantPart s :=
    (decantPart_setFld (missesDecant_of_off (.inr (by decide))) _).trans ht
  have hwritten := decantPart_writeRstCtl (s := s) (withOp v fRstCtlGo fRstCtlOp 1)
  simp only [State.rstCtlWrite, getBits_withOp_go (v := v) (go := fRstCtlGo) (opf := fRstCtlOp) 1 (by decide) (by decide) (by decide),
    getBits_withOp_op (v := v) (go := fRstCtlGo) (opf := fRstCtlOp) (op := 1) (by decide) (by decide), Nat.one_ne_zero, if_false]
  split
  · exact hresult _ _ hwritten
  · split
    · exact hresult _ _ hwritten
    · rw [decantPart_rstAwait]
      exact hresult _ _ ((foldl_keeps decantPart (fun _ _ => decantPart_domainReset ..) _ _).trans hwritten)

theorem decantPart_domain {t : State} {v : Word} {silent : List LCore} (h : Taken s rRstCtl) (ht : exec (.domain v silent) s = .next t) :
    decantPart t = decantPart s := by
  have hexec : exec (.domain v silent) s = .next (s.rstCtlWrite (withOp v fRstCtlGo fRstCtlOp 1) silent []) :=
    congrArg Host.Outcome.next (hostWrite_taken _ _ _ h)
  cases hexec.symm.trans ht
  exact decantPart_rstCtlDomain _ _ _

end DecantPart

/-- Settles O60: every start leaves the pair empty, and no step of a compute-domain reset reaches it. -/
theorem decantAtResets : Obligations.DecantAtResets := by
  unfold Obligations.DecantAtResets
  intro v silent sealClosed s t
  dsimp only
  have hwarm (u : State) (cause code aux : Nat) := decantPart_eq_empty.mp (decantPart_warm (s := u) cause code aux)
  refine ⟨fun h => decantPart_eq_empty.mp (decantPart_coldReset sealClosed h), fun h hb ht => ?_, fun hv => ⟨fun ht => ?_, fun ht => ?_, fun ht => ?_⟩,
    fun cause code aux ht => ?_, fun h ht => decantPart_eq_iff.mp (decantPart_domain h ht),
    fun p cause seq code hold l => decantPart_eq_iff.mp (decantPart_domainReset ..)⟩
  · cases (exec_module h hb).symm.trans ht
    exact hwarm _ _ _ _
  · cases (exec_perstAssert hv).symm.trans ht
    exact hwarm _ _ _ _
  · cases (exec_hotReset hv).symm.trans ht
    exact hwarm _ _ _ _
  · cases (exec_flr hv).symm.trans ht
    exact hwarm _ _ _ _
  · subst ht
    exact hwarm _ _ _ _

end Sys2Proof.Proofs
end

section
/-! SUPPORT. Requests at their home and the answers to them (R142, R207, R208, R229–R231, R236, R240, R241, R299): reads of clean lines, what a
home answers to each access, and the statement on them. -/

namespace Sys2Proof.Proofs

open Sys2Proof Sys2Proof.Machine

/-! ### Activations and the reads of clean lines (R207, R212) -/

section CleanLines

variable {s : State} {m : Mem} {a n : Nat}

theorem activateRow_mem (r : RowKey) : (s.activateRow r).mem = s.mem := by
  unfold State.activateRow
  dsimp only
  split <;> rfl

/-- Activations leave memory as it is. -/
@[simp] theorem activate_mem (a n : Nat) : (s.activate a n).mem = s.mem := by
  unfold State.activate
  split
  · rfl
  · exact foldl_keeps State.mem (fun _ => activateRow_mem) _ _

/-- A range without offsets of poisoned lines touches no marked line: the converse of `poisonedOffsets_clean`. -/
theorem poisoned_of_poisonedOffsets (h : m.poisonedOffsets a n = []) : m.poisoned a n = false := by
  by_contra hp
  obtain ⟨hn, hany⟩ := Bool.and_eq_true_iff.1 (Bool.eq_true_of_not_eq_false hp)
  obtain ⟨ln, hmem, htouch⟩ := List.any_eq_true.1 hany
  have hn := of_decide_eq_true hn
  have htouch := of_decide_eq_true htouch
  rw [Mem.poisonedOffsets, if_neg hn, List.filterMap_eq_nil_iff] at h
  have hline : a / 64 + (ln - a / 64) = ln := by omega
  have hnone := h (ln - a / 64) (List.mem_range.2 (by omega))
  rw [hline, if_pos (List.contains_iff_mem.2 hmem)] at hnone
  cases hnone

/-- Where no line is marked and the world names none, every line is delivered clean. -/
theorem linesMet_clean (h : m.poisoned a n = false) : m.linesMet a n [] = [] := by
  have hnone : m.poison.filter (fun ln => decide (n ≠ 0 ∧ 64 * ln < a + n ∧ a < 64 * ln + 64)) = [] := by
    refine List.filter_eq_nil_iff.2 fun ln hln hmeet => Bool.false_ne_true (h.symm.trans ?_)
    obtain ⟨hn, htouch⟩ := of_decide_eq_true hmeet
    exact Bool.and_eq_true_iff.2 ⟨decide_eq_true hn, List.any_eq_true.2 ⟨ln, hln, decide_eq_true htouch⟩⟩
  rw [Mem.linesMet, List.map_nil, List.append_nil, hnone]
  rfl

theorem lineReads_clean (h : s.mem.poisoned a n = false) : s.lineReads a n [] = (s, []) := by
  rw [State.lineReads, linesMet_clean h, List.foldl_nil]

/-- The reads of an access to clean lines: only its activations are left. -/
theorem lineReads_activate_clean (h : s.mem.poisonedOffsets a n = []) : (s.activate a n).lineReads a n [] = (s.activate a n, []) :=
  lineReads_clean (by rw [activate_mem]; exact poisoned_of_poisonedOffsets h)

end CleanLines

/-! ### What a home does (R207, R208, R229–R231, R240, R241) -/

section Home

variable {s : State} {src : Node} {ctx tag a n op : Nat} {arg cmp : Word} {d : List Byte} {obs : List LineObs}

theorem homeRead_refused (h : s.admits src ctx tag 1 a = false) :
    s.homeRead src ctx tag a n obs = (s.borrowRefused src ctx a, ⟨4, [], []⟩) := by
  simp only [State.homeRead, h, Bool.false_eq_true, if_false]

theorem homeRead_clean (h : s.admits src ctx tag 1 a = true) (hm : s.mem.poisonedOffsets a n = []) :
    s.homeRead src ctx tag a n [] = (s.activate a n, ⟨0, s.mem.bytes a n, []⟩) := by
  simp only [State.homeRead, h, lineReads_activate_clean hm, lineOffsets, if_true]

theorem homeRead_marked (h : s.admits src ctx tag 1 a = true) (hm : lineOffsets a n ((s.activate a n).lineReads a n obs).2 ≠ []) :
    s.homeRead src ctx tag a n obs = (((s.activate a n).lineReads a n obs).1,
      ⟨8, s.mem.bytes a n, lineOffsets a n ((s.activate a n).lineReads a n obs).2⟩) := by
  simp only [State.homeRead, h, if_true, if_neg hm]

theorem homeWrite_refused (h : s.admits src ctx tag 2 a = false) :
    s.homeWrite src ctx tag a d = (s.borrowRefused src ctx a, ⟨4, [], []⟩) := by
  simp only [State.homeWrite, h, Bool.false_eq_true, if_false]

theorem homeWrite_stores (h : s.admits src ctx tag 2 a = true) :
    s.homeWrite src ctx tag a d = ({ (s.activate a d.length) with mem := s.mem.store a d }, ⟨0, [], []⟩) := by
  simp only [State.homeWrite, h, if_true]

theorem homeAtomic_clean (h : s.admits src ctx tag 3 a = true) (hm : s.mem.poisonedOffsets a 8 = []) :
    s.homeAtomic src ctx tag a op arg cmp [] =
      ({ (s.activate a 8) with mem := s.mem.store a (leBytes 8 (atomicNew op (s.mem.word a) arg cmp).toNat) },
        ⟨0, leBytes 8 (s.mem.word a).toNat, []⟩) := by
  simp only [State.homeAtomic, h, lineReads_activate_clean hm, activate_mem, Bool.not_true, Bool.false_eq_true, if_false, ne_eq, not_true]

/-- A poisoned line refuses the atomic (R241). -/
theorem homeAtomic_marked (h : s.admits src ctx tag 3 a = true) (hm : ((s.activate a 8).lineReads a 8 obs).2 ≠ []) :
    s.homeAtomic src ctx tag a op arg cmp obs = (((s.activate a 8).lineReads a 8 obs).1, ⟨8, [], []⟩) := by
  simp only [State.homeAtomic, h, Bool.not_true, Bool.false_eq_true, if_false, if_pos hm]

end Home

/-! ### Answers to requests (R229–R231, R236, R240, R241, R288) -/

section Answers

variable {s : State} {q : Req} {lines : List LineObs}

theorem answerTo_done (kind : Nat) (d : List Byte) (bad : List Nat) :
    s.answerTo q kind ⟨0, d, bad⟩ = s.sendPkt kind q.src (frameOf q.gpa.toNat) (replyBody q.id.toNat 0 d) bad := if_pos (.inl rfl)

/-- Poisoned lines of a read come with its bytes, marked (R208). -/
theorem answerTo_marked (d : List Byte) (bad : List Nat) :
    s.answerTo q pkData ⟨8, d, bad⟩ = s.sendPkt pkData q.src (frameOf q.gpa.toNat) (replyBody q.id.toNat 8 d) bad := if_pos (.inr ⟨rfl, rfl⟩)

theorem answerTo_refused {kind : Nat} {h : HomeAns} (h0 : h.status ≠ 0) (h8 : ¬(h.status = 8 ∧ kind = pkData)) :
    s.answerTo q kind h = s.sendPkt pkRefused q.src (frameOf q.gpa.toNat) (replyBody q.id.toNat h.status []) [] :=
  if_neg fun hok => hok.elim h0 h8

theorem exec_read_home {t : State} {h : HomeAns} (hq : s.isHome q = true)
    (hr : s.homeRead q.src q.ctx q.job.toNat (gpaLocal q.gpa.toNat) q.len lines = (t, h)) :
    exec (.read q lines) s = .next (t.answerTo q pkData h) := by
  have hhere : ¬(!s.isHome q) = true := by simp [hq]
  refine congrArg Host.Outcome.next ((if_neg hhere).trans ?_)
  dsimp only
  rw [hr]

theorem exec_write_home {t : State} {h : HomeAns} (hq : s.isHome q = true)
    (hw : s.homeWrite q.src q.ctx q.job.toNat (gpaLocal q.gpa.toNat) q.data = (t, h)) :
    exec (.write q) s = .next (t.answerTo q pkAck h) := by
  have hhere : ¬(!s.isHome q) = true := by simp [hq]
  refine congrArg Host.Outcome.next ((if_neg hhere).trans ?_)
  dsimp only
  rw [hw]

/-- An ATOMIC carries operand and compare value in eight bytes of its data each (R288). -/
theorem exec_atomic_home {t : State} {h : HomeAns} (hq : s.isHome q = true)
    (ha : s.homeAtomic q.src q.ctx q.job.toNat (gpaLocal q.gpa.toNat) q.op.toNat
      (BitVec.ofNat 64 (field q.data 0 8)) (BitVec.ofNat 64 (field q.data 8 8)) lines = (t, h)) :
    exec (.atomic q lines) s = .next (t.answerTo q pkOld h) := by
  have hhere : ¬(!s.isHome q) = true := by simp [hq]
  refine congrArg Host.Outcome.next ((if_neg hhere).trans ?_)
  dsimp only
  rw [ha]

/-- A request for another node's memory does nothing here. -/
theorem exec_request_elsewhere (h : s.isHome q = false) :
    exec (.read q lines) s = .next s ∧ exec (.write q) s = .next s ∧ exec (.atomic q lines) s = .next s := by
  have hnot : (!s.isHome q) = true := by simp [h]
  exact ⟨congrArg Host.Outcome.next (if_pos hnot), congrArg Host.Outcome.next (if_pos hnot), congrArg Host.Outcome.next (if_pos hnot)⟩

/-- A refusal that gives a reason reaches its chunk as it came (R231). -/
theorem exec_refused_reason {a : Reply} (h : a.status ≠ 0#8) : exec (.refused a) s = .next (s.answer a.id.toNat a) :=
  congrArg (fun b => Host.Outcome.next (s.answer a.id.toNat b)) (if_neg h)

end Answers

/-- Settles O37: what the home does with the access, then how its answer leaves; a store's frame by the laws of `Mem.store`. -/
theorem homeRequests : Obligations.HomeRequests := by
  unfold Obligations.HomeRequests
  intro q lines a id s
  dsimp only
  refine ⟨fun hq => ⟨fun hadm => ⟨fun hm => ?_, fun hm => ?_⟩, fun hadm => ⟨_, ?_, rfl, fun i hi => ?_, fun x hx => ?_⟩,
    fun hadm hm => ⟨_, ?_, rfl, fun x hx => ?_⟩, fun hadm hm => ?_, fun hno => ?_, fun hno => ?_⟩,
    fun hq => exec_request_elsewhere hq, rfl, rfl, rfl, fun h => exec_refused_reason h, rfl⟩
  · rw [exec_read_home hq (homeRead_clean hadm hm), answerTo_done]
  · rw [exec_read_home hq (homeRead_marked hadm hm), answerTo_marked]
  · rw [exec_write_home hq (homeWrite_stores hadm), answerTo_done]
  · exact read_store _ _ _ i hi
  · exact read_store_other _ _ _ x hx
  · rw [exec_atomic_home hq (homeAtomic_clean hadm hm), answerTo_done]
  · exact read_store_other _ _ _ x (by rwa [leBytes_length])
  · rw [exec_atomic_home hq (homeAtomic_marked hadm hm), answerTo_refused (by decide) (by decide)]
  · rw [exec_write_home hq (homeWrite_refused hno), answerTo_refused (by decide) (by decide)]
  · rw [exec_read_home hq (homeRead_refused hno), answerTo_refused (by decide) (by decide)]

end Sys2Proof.Proofs
end

section
/-! SUPPORT. The memory controllers and the replayed words of paths (R206–R214, R382): what a remap, a marked line, a scrub and a replay do, and
the statement on them. -/

namespace Sys2Proof.Proofs

open Sys2Proof Sys2Proof.Machine

/-! ### Remaps (R213, R214, R222) -/

section Remaps

variable {s : State} {r : RowRef}

theorem dram_of_runsAndBeyond {t : State} (h : runsAndBeyond t = runsAndBeyond s) : t.dram = s.dram := by
  simp only [runsAndBeyond, beyondTasks, Prod.mk.injEq] at h
  obtain ⟨-, -, -, -, -, -, -, -, -, -, -, -, -, -, hdram, -⟩ := h
  exact hdram

/-- Records and the defect log leave the controllers' books as they are. -/
@[simp] theorem dram_log (e : ErrArg) : (s.log e).dram = s.dram := dram_of_runsAndBeyond (runsAndBeyond_log e)

@[simp] theorem dram_defect (kind source unit location code flags : Nat) :
    (s.defect kind source unit location code flags).dram = s.dram := dram_of_runsAndBeyond (runsAndBeyond_defectAt ..)

@[simp] theorem dram_stackLast (kind : Nat) (k : RowKey) : (s.stackLast kind k).dram = s.dram := setFlds_dram _ _

@[simp] theorem dram_showSpares (st : Nat) : (s.showSpares st).dram = s.dram := setFlds_dram _ _

/-- The row is no longer due. -/
def rowTaken (s : State) (k : RowKey) : State := { s with dram := { s.dram with rowDue := s.dram.rowDue.filter (· != k) } }

/-- The bank is no longer due. -/
def bankTaken (s : State) (b : RowKey) : State := { s with dram := { s.dram with bankDue := s.dram.bankDue.filter (· != b) } }

/-- The rows remapped once k is: k stands last, once. -/
def rowsWith (s : State) (k : RowKey) : List RowKey := s.dram.rows.filter (· != k) ++ [k]

/-- A spare stands in for a row: its re-reads are forgotten; the remap is shown, logged and entered in the defect log (R213, R222, R389). -/
def rowRemapped (s : State) (k : RowKey) : State :=
  (((({ (rowTaken s k) with dram := { (rowTaken s k).dram with
      rows := rowsWith s k, rereads := s.dram.rereads.filter (fun p => p.1 != k) } }).showSpares k.stack).stackLast 3 k).log
    { code := 0x0303, kind := 5, unit := k.stack, action := 4, defect := s.canList, detail := k.detail }).defect 5 5 k.stack k.location 0x0303 0

theorem rows_rowRemapped (k : RowKey) : (rowRemapped s k).dram.rows = rowsWith s k := by
  simp only [rowRemapped, dram_defect, dram_log, dram_stackLast, dram_showSpares]

/-- Has a row a spare: its own, or one of those that its stack has left (R213)? -/
def HasSpare (s : State) (k : RowKey) : Prop :=
  s.dram.rows.contains k = true ∨ (s.dram.rows.filter (fun x => x.stack == k.stack)).length < 1024

theorem not_hasSpare_iff (k : RowKey) : ¬HasSpare s k ↔
    (!s.dram.rows.contains k) = true ∧ (s.dram.rows.filter (fun x => x.stack == k.stack)).length ≥ 1024 := by
  rw [HasSpare, not_or, Bool.not_eq_true, Nat.not_lt, Bool.not_eq_true']

/-- ROW_REMAP of a row that is due. -/
theorem exec_rowRemap_due (h : s.dram.rowDue.contains (keyOfRow r) = true) (ok : Bool) : exec (.rowRemap r ok) s = .next (
    if (!s.dram.rows.contains (keyOfRow r)) = true ∧ (s.dram.rows.filter (fun x => x.stack == (keyOfRow r).stack)).length ≥ 1024 then
      (rowTaken s (keyOfRow r)).spareExhausted (keyOfRow r).stack
    else if (!ok) = true then (rowTaken s (keyOfRow r)).dueBank (keyOfRow r).bankKey
    else if ((rowRemapped s (keyOfRow r)).dram.rows.filter (fun x => x.bankKey == (keyOfRow r).bankKey)).length ≥ 8 then
      (rowRemapped s (keyOfRow r)).dueBank (keyOfRow r).bankKey
    else rowRemapped s (keyOfRow r)) :=
  congrArg Host.Outcome.next (if_neg (by rw [h]; decide))

theorem exec_rowRemap_exhausted (h : s.dram.rowDue.contains (keyOfRow r) = true) (hno : ¬HasSpare s (keyOfRow r)) (ok : Bool) :
    exec (.rowRemap r ok) s = .next ((rowTaken s (keyOfRow r)).spareExhausted (keyOfRow r).stack) := by
  rw [exec_rowRemap_due h, if_pos ((not_hasSpare_iff _).1 hno)]

theorem exec_rowRemap_fails (h : s.dram.rowDue.contains (keyOfRow r) = true) (hs : HasSpare s (keyOfRow r)) :
    exec (.rowRemap r false) s = .next ((rowTaken s (keyOfRow r)).dueBank (keyOfRow r).bankKey) := by
  rw [exec_rowRemap_due h, if_neg fun hno => (not_hasSpare_iff _).2 hno hs]
  rfl

/-- A remapped row makes its bank due where it is the eighth there (R213). -/
theorem exec_rowRemap_done (h : s.dram.rowDue.contains (keyOfRow r) = true) (hs : HasSpare s (keyOfRow r)) :
    exec (.rowRemap r true) s = .next (
      if ((rowsWith s (keyOfRow r)).filter (fun x => x.bankKey == (keyOfRow r).bankKey)).length ≥ 8 then
        (rowRemapped s (keyOfRow r)).dueBank (keyOfRow r).bankKey
      else rowRemapped s (keyOfRow r)) := by
  rw [exec_rowRemap_due h, if_neg fun hno => (not_hasSpare_iff _).2 hno hs, rows_rowRemapped]
  rfl

/-- A spare stands in for a bank (R213, R222, R389). -/
def bankRemapped (s : State) (b : RowKey) : State :=
  (((({ (bankTaken s b) with dram := { (bankTaken s b).dram with banks := s.dram.banks ++ [b] } }).showSpares b.stack).stackLast 3 b).log
    { code := 0x0304, kind := 5, unit := b.stack, action := 4, defect := s.canList, detail := b.detail }).defect 5 5 b.stack b.location 0x0304 2

/-- BANK_REMAP of a bank that is due: 111 banks of a stack use up its spares (R214). -/
theorem exec_bankRemap_due (h : s.dram.bankDue.contains (keyOfRow r).bankKey = true) : exec (.bankRemap r) s = .next (
    if (s.dram.banks.filter (fun x => x.stack == (keyOfRow r).bankKey.stack)).length ≥ 111 then
      (bankTaken s (keyOfRow r).bankKey).spareExhausted (keyOfRow r).bankKey.stack
    else bankRemapped s (keyOfRow r).bankKey) :=
  congrArg Host.Outcome.next (if_neg (by rw [h]; decide))

end Remaps

/-! ### Marked lines and the scrub (R208, R209, R213) -/

section Lines

variable {s : State} {st : Stack} {line : Nat} {obs : LineObs}

theorem contains_poison_mark (m : Mem) (line : Nat) : (m.mark line).poison.contains line = true := by
  unfold Mem.mark
  split
  · assumption
  · exact List.contains_iff_mem.2 List.mem_cons_self

theorem contains_rowDue_dueRow (k : RowKey) : (s.dueRow k).dram.rowDue.contains k = true := by
  unfold State.dueRow
  split
  · assumption
  · exact List.contains_iff_mem.2 List.mem_concat_self

theorem mem_dueRow (k : RowKey) : (s.dueRow k).mem = s.mem := by
  unfold State.dueRow
  split <;> rfl

/-- A line of a stack that becomes poisoned is marked, and its row waits for a remap. -/
theorem markLine_new (h : s.mem.poison.contains line = false) (hline : 64 * line < memoryEnd) :
    s.markLine line = ({ s with mem := s.mem.mark line } : State).dueRow (s.rowOf (64 * line)) := by
  simp only [State.markLine, h, Bool.false_eq_true, if_false, if_pos hline]
  rfl

/-- A line that the scrub finds poisoned is not read again in the period (R209). -/
def scrubFound (s : State) (line : Nat) : State :=
  if s.mem.poison.contains line then { s with dram := { s.dram with scrubSkip := line :: s.dram.scrubSkip } } else s

/-- PATROL_SCRUB of a line of the stack that it has not found poisoned in this period: its row is activated and the line read (R207, R212). -/
theorem exec_patrolScrub_reads (hup : s.fld (fMemcStkStateState st) = 3) (hrun : s.fld fMemcScrubPaused = 0)
    (hst : (s.rowOf (64 * line)).stack = st.val) (hskip : s.dram.scrubSkip.contains line = false) :
    exec (.patrolScrub st line obs) s = .next
      ((scrubFound ((s.activateRow (s.rowOf (64 * line))).lineRead { obs with line := line }) line).scrubCount st line) := by
  have hpaused : s.bit fMemcScrubPaused = false := by simp [State.bit, hrun]
  exact congrArg Host.Outcome.next
    (if_neg (by simp only [hup, hpaused, hst, hskip, ne_eq, not_true, Bool.false_eq_true, or_self, not_false_eq_true]))

theorem scrubFound_clean (h : s.mem.poison.contains line = false) : scrubFound s line = s := if_neg (Bool.eq_false_iff.1 h)

theorem scrubFound_poisoned (h : s.mem.poison.contains line = true) :
    scrubFound s line = { s with dram := { s.dram with scrubSkip := line :: s.dram.scrubSkip } } := if_pos h

theorem exec_patrolScrub_paused (h : s.fld fMemcScrubPaused = 1) : exec (.patrolScrub st line obs) s = .next s :=
  congrArg Host.Outcome.next (if_pos (.inr (.inl (bit_of_fld h))))

end Lines

/-! ### Words that four replays do not bring (R206, R382) -/

section Replays

variable {s : State} {path : PathRef}

/-- The line is delivered poisoned and the loss is logged for its path. -/
def wordLost (s : State) (path : PathRef) (line : Nat) : State :=
  (s.markLine line).log { code := 0x0209, cls := 1, kind := (pathUnit path).1, unit := (pathUnit path).2, action := 3, detail := pathDetail path }

/-- The path's last loss is kept with its time. -/
def lossKept (s : State) (path : PathRef) : State :=
  { s with err := { s.err with paths := (path, s.time) :: s.err.paths.filter (fun p => p.1 != path) } }

/-- Has the path lost a word within the last millisecond? -/
def lostAgain (s : State) (path : PathRef) : Bool := s.err.paths.any (fun p => p.1 == path && decide (s.time < p.2 + 10 ^ 6))

/-- A word lost on a link, or between a controller and its cipher. -/
theorem exec_wordReplay_lost (line : Nat) (h : isLinkPath path = true ∨ (pathUnit path).1 = 5) :
    exec (.wordReplay path false line) s = .next (if (isLinkPath path && lostAgain (wordLost s path line) path) = true then
      (lossKept (wordLost s path line) path).fatalModule
        { code := 0x020A, kind := (pathUnit path).1, unit := (pathUnit path).2, detail := pathDetail path } caFatal
      else lossKept (wordLost s path line) path) := by
  have hport : ¬((!isLinkPath path) = true ∧ (pathUnit path).1 ≠ 5) := by
    rcases h with h | h <;> simp [h]
  exact congrArg Host.Outcome.next (if_neg hport)

/-- A link that loses a second word within a millisecond is dead (R382). -/
theorem exec_wordReplay_link (line : Nat) (h : isLinkPath path = true) :
    exec (.wordReplay path false line) s = .next (if lostAgain (wordLost s path line) path = true then
      (lossKept (wordLost s path line) path).fatalModule
        { code := 0x020A, kind := (pathUnit path).1, unit := (pathUnit path).2, detail := pathDetail path } caFatal
      else lossKept (wordLost s path line) path) := by
  rw [exec_wordReplay_lost line (.inl h), h, Bool.true_and]

/-- At the port of a store the loss follows the store's rule (R220). -/
theorem exec_wordReplay_port (line : Nat) (hlink : isLinkPath path = false) (hunit : (pathUnit path).1 ≠ 5) :
    exec (.wordReplay path false line) s = .next ((s.markLine line).log
      { code := 0x0307, cls := 1, kind := (pathUnit path).1, unit := (pathUnit path).2, action := 3, detail := leBytes 8 (64 * line) }) :=
  congrArg Host.Outcome.next (if_pos (And.intro (by rw [hlink]; rfl) hunit))

end Replays

/-- Settles O39: each event by its own law; the rows after a remap by `rows_rowRemapped`. -/
theorem stacksAndPaths : Obligations.StacksAndPaths := by
  unfold Obligations.StacksAndPaths
  intro r st line obs temp path s
  dsimp only
  refine ⟨fun hdue => ⟨fun hno ok => exec_rowRemap_exhausted hdue hno ok, fun hs => exec_rowRemap_fails hdue hs,
      fun hs => ⟨rowRemapped s (keyOfRow r), rows_rowRemapped _, rfl, fun hfew => ?_, fun hmany => ?_⟩⟩,
    fun hdue => ⟨fun hmany => ?_, fun hfew => ?_⟩, fun hnew hline => ?_, rfl,
    fun hup hrun hst hskip => ⟨fun hclean => ?_, fun hbad => ?_⟩, fun hpaused => exec_patrolScrub_paused hpaused, rfl, rfl,
    rfl, fun hport => ?_, fun hcipher => ?_, fun hlink => ?_⟩
  · exact (exec_rowRemap_done hdue hs).trans (congrArg _ (if_neg (Nat.not_le.2 hfew)))
  · exact (exec_rowRemap_done hdue hs).trans (congrArg _ (if_pos hmany))
  · exact (exec_bankRemap_due hdue).trans (congrArg _ (if_pos hmany))
  · exact (exec_bankRemap_due hdue).trans (congrArg _ (if_neg (Nat.not_le.2 hfew)))
  · rw [markLine_new hnew hline, mem_dueRow]
    exact ⟨contains_poison_mark _ _, contains_rowDue_dueRow _⟩
  · rw [exec_patrolScrub_reads hup hrun hst hskip, scrubFound_clean hclean]
  · rw [exec_patrolScrub_reads hup hrun hst hskip, scrubFound_poisoned hbad]
  · obtain ⟨x, rfl⟩ | ⟨x, rfl⟩ := hport <;> exact exec_wordReplay_port line rfl (of_decide_eq_true rfl)
  · obtain ⟨x, rfl⟩ := hcipher
    exact exec_wordReplay_lost line (.inr rfl)
  · have hpath : isLinkPath path = true := by obtain ⟨x, rfl⟩ | ⟨x, rfl⟩ | rfl := hlink <;> rfl
    exact ⟨fun hfirst => (exec_wordReplay_link line hpath).trans (congrArg _ (if_neg (Bool.eq_false_iff.1 hfirst))),
      fun hagain => (exec_wordReplay_link line hpath).trans (congrArg _ (if_pos hagain))⟩

end Sys2Proof.Proofs
end

section
/-! SUPPORT. Map commands (R232–R234): what a command does once its checks have passed or failed, the end of a drop, what a cache holds after
it and how a unit translates, and the statement on them. -/

namespace Sys2Proof.Proofs

open Sys2Proof Sys2Proof.Machine

/-! ### Commands that the register takes (R232, R233) -/

section MapCommand

variable {s : State} {v : Word} {n : Nat}

/-- The command's word is stored, with go and its op. -/
def mapStored (s : State) (v : Word) (n : Nat) : State := s.writeUnder takesAll rZfMapcmd (withOp v fZfMapcmdGo fZfMapcmdOp n)

@[simp] theorem mapStored_fab : (mapStored s v n).fab = s.fab := writeUnder_fab _ _ _

/-- The stored command names the run of the written word: ZF.MAPVA and ZF.MAPPA are other registers, go and op other fields. -/
theorem zfRun_mapStored : (mapStored s v n).zfRun (withOp v fZfMapcmdGo fZfMapcmdOp n) = s.zfRun v := by
  have hva : (mapStored s v n).fld fZfMapvaVa = s.fld fZfMapvaVa := fld_writeUnder_off _ _ (by decide)
  have hpa : (mapStored s v n).fld fZfMappaGpa = s.fld fZfMappaGpa := fld_writeUnder_off _ _ (by decide)
  have hfield (g : Fld) (hg : g.hi < 64 ∧ Apart fZfMapcmdGo g ∧ Apart fZfMapcmdOp g) :
      getBits (withOp v fZfMapcmdGo fZfMapcmdOp n) g = getBits v g := getBits_withOp n hg.1 hg.2.1 hg.2.2
  simp only [State.zfRun, hva, hpa, hfield fZfMapcmdContext (by decide), hfield fZfMapcmdCountM1 (by decide), hfield fZfMapcmdSize (by decide),
    hfield fZfMapcmdExport (by decide), hfield fZfMapcmdRead (by decide), hfield fZfMapcmdWrite (by decide), hfield fZfMapcmdAtomic (by decide)]

theorem getBits_mapGo : getBits (withOp v fZfMapcmdGo fZfMapcmdOp n) fZfMapcmdGo = 1 :=
  getBits_withOp_go n (by decide) (by decide) (by decide)

/-- The host's write of a command: what MAP, UNMAP, PROTECT and LOOKUP are, by the op. -/
def mapWrite (s : State) (v : Word) (n : Nat) : State :=
  s.hostWrite rZfMapcmd (withOp v fZfMapcmdGo fZfMapcmdOp n) HostObs.plain (fun s => s.zfMapcmdWrite (withOp v fZfMapcmdGo fZfMapcmdOp n))

theorem exec_unmap : exec (.unmap v) s = .next (mapWrite s v 2) := rfl
theorem exec_protect : exec (.protect v) s = .next (mapWrite s v 3) := rfl
theorem exec_lookup : exec (.lookup v) s = .next (mapWrite s v 4) := rfl

/-- A command that passes its checks while none waits applies. -/
theorem mapWrite_passes {op : ZfOp} (hop : zfOpOf n = some op) (hn : n < 8) (h : Taken s rZfMapcmd) (hb : s.fld fZfMapcmdBusy = 0)
    (hc : (mapStored s v n).zfCheck op (s.zfRun v) = 0) : mapWrite s v n = (mapStored s v n).zfApply op (s.zfRun v) := by
  have hbits : getBits (withOp v fZfMapcmdGo fZfMapcmdOp n) fZfMapcmdOp = n := getBits_withOp_op (by decide) hn
  have hgo : ¬getBits (withOp v fZfMapcmdGo fZfMapcmdOp n) fZfMapcmdGo = 0 := by rw [getBits_mapGo]; decide
  have hidle : ¬s.fld fZfMapcmdBusy = 1 := by rw [hb]; decide
  rw [mapWrite, hostWrite_taken _ _ _ h, State.zfMapcmdWrite, if_neg hgo, if_neg hidle, hbits, hop, ← mapStored]
  dsimp only
  rw [zfRun_mapStored, if_pos hc]

/-- A command while another waits is refused. -/
theorem mapWrite_busy (h : Taken s rZfMapcmd) (hb : s.fld fZfMapcmdBusy = 1) : mapWrite s v n = (mapStored s v n).zfResult 0x0A := by
  have hgo : ¬getBits (withOp v fZfMapcmdGo fZfMapcmdOp n) fZfMapcmdGo = 0 := by rw [getBits_mapGo]; decide
  rw [mapWrite, hostWrite_taken _ _ _ h, State.zfMapcmdWrite, if_neg hgo, if_pos hb, mapStored]

/-! What each command does to the run that its word names. -/

variable {r : PageRun}

theorem runLeaves_mapStored : (mapStored s v n).runLeaves r = s.runLeaves r := by simp only [State.runLeaves, mapStored_fab]

theorem removesPerm_mapStored : (mapStored s v n).removesPerm r = s.removesPerm r := by simp only [State.removesPerm, runLeaves_mapStored]

/-- An UNMAP takes the leaves out of the tables, and its run waits for the caches (R233). -/
theorem zfApply_unmap : (mapStored s v n).zfApply .unmap r = ({ (mapStored s v n) with fab := { s.fab with
    leaves := eraseAll s.fab.leaves ((s.runLeaves r).map Prod.fst)
    dropping := some ⟨r.ctx, true, s.runLeaves r⟩ } }).showTables.setFld fZfMapcmdBusy 1 := by
  simp only [State.zfApply, runLeaves_mapStored, mapStored_fab]

/-- A PROTECT that removes no permission is done at once. -/
theorem zfApply_protect_keeps (h : s.removesPerm r = false) : (mapStored s v n).zfApply .protect r =
    (((mapStored s v n).zfProtect r).cacheDrop ((s.runLeaves r).map Prod.fst)).zfResult 0 := by
  simp only [State.zfApply, removesPerm_mapStored, h, runLeaves_mapStored, Bool.false_eq_true, if_false]

/-- A PROTECT that removes one waits for the caches (R233). -/
theorem zfApply_protect_removes (h : s.removesPerm r = true) : (mapStored s v n).zfApply .protect r =
    ({ ((mapStored s v n).zfProtect r) with fab := { ((mapStored s v n).zfProtect r).fab with
      dropping := some ⟨r.ctx, false, s.runLeaves r⟩ } }).setFld fZfMapcmdBusy 1 := by
  simp only [State.zfApply, removesPerm_mapStored, h, runLeaves_mapStored, if_true]

theorem zfApply_lookup {l : Leaf} (h : lookupKey s.fab.leaves (leafKey r.ctx (r.va / 2 ^ 21)) = some l) :
    (mapStored s v n).zfApply .lookup r = ((mapStored s v n).zfResult 0).setReg rZfLookup l.entry := by
  simp only [State.zfApply, mapStored_fab, h]

end MapCommand

/-! ### The end of a drop (R229, R233, R249) -/

section Drops

variable {s : State} {d : Drop}

/-- Every cache has dropped the command's entries. -/
def dropped (s : State) (d : Drop) : State := ({ s with fab := { s.fab with dropping := none } }).cacheDrop (d.leaves.map Prod.fst)

/-- The context gives up the frames of the command's leaves, and their charge. -/
def givenUp (s : State) (d : Drop) : State :=
  let w := (d.leaves.flatMap (fun p => s.leafFrames p.2)).foldl (fun s f => s.dropFrame d.ctx f) (dropped s d)
  w.setPageUse d.ctx (w.fld (fCtxUpagesUse d.ctx) - (d.leaves.map (·.2.charge)).foldl (· + ·) 0)

/-- CACHE_DROP_COMPLETE once no request under the old entries is out. -/
theorem exec_cacheDropComplete (hd : s.fab.dropping = some d) (hp : s.dropPending d = false) :
    exec .cacheDropComplete s = .next (((if d.unmap then givenUp s d else dropped s d).setFld fZfMapcmdBusy 0).zfResult 0) := by
  show execCacheDropComplete s = _
  simp only [execCacheDropComplete, hd, hp, Bool.false_eq_true, if_false]
  rfl

end Drops

/-! ### Translation caches (R233, R234) -/

section Caches

variable {s : State} {n c : Nat} {a : Word}

/-- Looking up a table whose values are mapped. -/
theorem lookupKey_map {α β : Type} (f : α → β) (l : List (Nat × α)) (k : Nat) :
    lookupKey (l.map (fun p => (p.1, f p.2))) k = (lookupKey l k).map f := by
  induction l with
  | nil => rfl
  | cons p t ih =>
    by_cases hk : p.1 = k
    · simp [lookupKey, hk]
    · simp [lookupKey, hk, ih]

/-- After a drop each cache holds its other entries. -/
theorem cacheOf_cacheDrop (l : List Nat) : (s.cacheDrop l).cacheOf n = (s.cacheOf n).filter (fun p => !l.contains p.1) := by
  simp only [State.cacheOf, State.cacheDrop, lookupKey_map]
  cases lookupKey s.fab.caches n with
  | none => rfl
  | some t => rfl

theorem not_mem_cacheOf_cacheDrop {l : List Nat} {k : Nat} (hk : k ∈ l) (e : Leaf) : (k, e) ∉ (s.cacheDrop l).cacheOf n := by
  rw [cacheOf_cacheDrop]
  intro h
  obtain ⟨-, hnot⟩ := List.mem_filter.1 h
  simp [hk] at hnot

/-- A unit translates by what its cache holds. -/
theorem leafVia_cached {p : Nat × Leaf} (ha : a.toNat < 2 ^ 52) (h : leafIn (s.cacheOf n) c a = some p) : s.leafVia (some n) c a = some p.2 := by
  simp only [State.leafVia, h, if_neg (Nat.not_le.2 ha)]

/-- A cluster or the host window translates what its cache lacks by the tables; only a copy engine heeds the entry that is being dropped. -/
theorem leafVia_uncached (ha : a.toNat < 2 ^ 52) (hn : n < 32 ∨ n = unitHost) (h : leafIn (s.cacheOf n) c a = none) :
    s.leafVia (some n) c a = s.leafAt c a := by
  have hcopy : ¬(n = 32 ∨ n = 33) := by
    rw [unitHost] at hn
    omega
  simp only [State.leafVia, h, if_neg (Nat.not_le.2 ha), if_neg hcopy]

end Caches

/-- Settles O36: a command by its checks and its effect, a drop by its end, the caches by what a drop leaves in them. -/
theorem mapCommands : Obligations.MapCommands := by
  unfold Obligations.MapCommands
  intro v s
  dsimp only
  refine ⟨fun ht hb => ⟨fun hc => (exec_map ht hb).trans (congrArg _ (if_pos hc)), fun hc => (exec_map ht hb).trans (congrArg _ (if_neg hc)),
      fun hc => ?_, fun hc hk => ?_, fun hc hr => ?_, fun l hc hl => ?_⟩,
    fun ht hb => ⟨congrArg _ (mapWrite_busy ht hb), congrArg _ (mapWrite_busy ht hb)⟩, fun d hd hp => ⟨fun hu => ?_, fun hu => ?_⟩,
    fun l n k hk e => not_mem_cacheOf_cacheDrop hk e, fun n c a ha hn h => leafVia_uncached ha hn h, fun n c a p ha h => leafVia_cached ha h⟩
  · rw [exec_unmap, mapWrite_passes rfl (by decide) ht hb hc, zfApply_unmap]
    rfl
  · rw [exec_protect, mapWrite_passes rfl (by decide) ht hb hc, zfApply_protect_keeps hk]
    rfl
  · rw [exec_protect, mapWrite_passes rfl (by decide) ht hb hc, zfApply_protect_removes hr]
    rfl
  · rw [exec_lookup, mapWrite_passes rfl (by decide) ht hb hc, zfApply_lookup hl]
    rfl
  · rw [exec_cacheDropComplete hd hp, hu]
    rfl
  · rw [exec_cacheDropComplete hd hp, hu]
    rfl

end Sys2Proof.Proofs
end

section
/-! SUPPORT. Copies (R243–R248): the start of the next copy of a queue, the transfer of a part, the timeout of a part that waits for another
node, the completion with the last part, and the statement on them. -/

namespace Sys2Proof.Proofs

open Sys2Proof Sys2Proof.Machine

section Copies

variable {s : State} {c : Ctx} {q : Fin 4} {i n : Nat} {part : Fin 32} {x : Copy}

/-! ### The start of a copy (R244, R246) -/

/-- Copies of a queue that run. -/
def runningCopies (s : State) (c : Ctx) (q : Fin 4) : Nat :=
  (s.que.copies.filter (fun x => x.ctx == c.val && x.queue == q.val && x.started)).length

/-- A copy that waits for nothing starts while fewer than four of its queue run; its seed is latched. -/
theorem exec_copyStart_starts (hi : s.copyIdx c q (fun x => !x.started) = some n) (hx : s.que.copies[n]? = some x) (hw : x.wait = none)
    (hfew : runningCopies s c q < 4) : exec (.copyStart c q) s = .next { s with que := { s.que with
      copies := setAt s.que.copies n { x with started := true, seed := s.reg (rTaskSeed c) } } } := by
  have hstart : ¬(x.wait.isSome = true ∨ runningCopies s c q ≥ 4) := by
    rw [hw]
    exact fun h => h.elim Bool.false_ne_true (Nat.not_le.2 hfew)
  show execCopyStart c q s = _
  rw [execCopyStart, hi]
  dsimp only
  rw [hx]
  exact congrArg Host.Outcome.next (if_neg hstart)

/-! ### The transfer of a part (R231, R243, R247, R297) -/

variable {j : Nat} {obs : PartObs} {t p : State} {b : List Byte}

/-- A source that is refused or fails ends the part PARTIAL, its destination undefined. -/
theorem copyPart_sourceRefused {st : Nat} (hop : x.op ≠ 2)
    (hr : s.readRunVia (some (unitCopy x.queue)) x.ctx (x.src.toNat + (partRange x.bytes j).1) (partRange x.bytes j).2 obs.far = (t, st, b))
    (h0 : st ≠ 0) (h8 : st ≠ 8) : s.copyPart x j obs =
      (t.undefineRunVia (some (unitCopy x.queue)) x.ctx (x.dst.toNat + (partRange x.bytes j).1) (partRange x.bytes j).2 [], 4, 0#64) := by
  rw [State.copyPart]
  dsimp only
  rw [if_neg hop, hr, if_pos ⟨h0, h8⟩]

/-- A COPY whose source and destination serve it ends the part OK. -/
theorem copyPart_copied (hop : x.op = 0)
    (hr : s.readRunVia (some (unitCopy x.queue)) x.ctx (x.src.toNat + (partRange x.bytes j).1) (partRange x.bytes j).2 obs.far = (t, 0, b))
    (hw : t.writeRunVia (some (unitCopy x.queue)) x.ctx (x.dst.toNat + (partRange x.bytes j).1) b obs.sink = (p, 0)) :
    s.copyPart x j obs = (p, 0, 0#64) := by
  have hfill : ¬x.op = 2 := by rw [hop]; decide
  have hdigest : ¬x.op = 1 := by rw [hop]; decide
  have honce : ¬(x.op = 1 ∧ (0 : Nat) = 0 ∧ (0 : Nat) = 0 ∧ obs.disagree.val ≠ 0) := fun h => hdigest h.1
  have hserved : ¬((0 : Nat) ≠ 0 ∧ (0 : Nat) ≠ 8) := fun h => h.1 rfl
  rw [State.copyPart]
  dsimp only
  rw [if_neg hfill, hr, if_neg hserved]
  dsimp only
  rw [hw]
  dsimp only
  rw [if_neg honce, if_neg (not_not.2 rfl), if_neg (by decide), if_pos hdigest]

/-! ### Parts that end, and those that wait for a silent node (R243, R248) -/

/-- A part ends with what its transfer gave. -/
theorem exec_copyPartEnd_running (h : s.runningPart c q i part = some (n, x)) : exec (.copyPartEnd c q i part obs) s = .next
    ((s.copyPart x part obs).1.partEnd n part (s.copyPart x part obs).2.1 (s.copyPart x part obs).2.2 (decide (obs.disagree.val ≠ 0))
      obs.record obs.sink) := by
  show execCopyPartEnd c q i part obs s = _
  rw [execCopyPartEnd, h]

/-- Does a part wait for another node: that of its destination, or of a source that is not a pattern? -/
def PartWaits (s : State) (c : Ctx) (q : Fin 4) (part : Nat) (x : Copy) : Prop :=
  s.runIsFar (some (unitCopy q)) c (x.dst.toNat + (partRange x.bytes part).1) (partRange x.bytes part).2 permWrite = true
    ∨ (x.op ≠ 2 ∧ s.runIsFar (some (unitCopy q)) c (x.src.toNat + (partRange x.bytes part).1) (partRange x.bytes part).2 permRead = true)

theorem exec_partTimeout_waits (h : s.runningPart c q i part = some (n, x)) (hw : PartWaits s c q part x) :
    exec (.partTimeout c q i part) s = .next ((s.undefineRunVia (some (unitCopy q)) c (x.dst.toNat + (partRange x.bytes part).1)
      (partRange x.bytes part).2 []).partEnd n part 7 0#64 false true FarReply.ok) := by
  show execPartTimeout c q i part s = _
  rw [execPartTimeout, h]
  exact congrArg Host.Outcome.next (if_pos hw)

theorem exec_partTimeout_home (h : s.runningPart c q i part = some (n, x)) (hw : ¬PartWaits s c q part x) :
    exec (.partTimeout c q i part) s = .next s := by
  show execPartTimeout c q i part s = _
  rw [execPartTimeout, h]
  exact congrArg Host.Outcome.next (if_neg hw)

/-! ### Completion (R247) -/

theorem setAt_eq_set {α : Type} (l : List α) (i : Nat) (v : α) : setAt l i v = l.set i v := by
  induction l generalizing i with
  | nil => rfl
  | cons x t ih =>
    cases i with
    | zero => rfl
    | succ i => exact congrArg (x :: ·) (ih i)

/-- A fold that no element of the list moves from its start. -/
theorem foldl_fixed_mem {α β : Type} {f : α → β → α} {a : α} {l : List β} (h : ∀ y ∈ l, f a y = a) : l.foldl f a = a :=
  List.foldlRecOn (motive := (· = a)) l f rfl fun b hb y hy => by rw [hb, h y hy]

/-- A copy without a digest record whose parts are all OK leaves its queue with status OK and no part marked. -/
theorem copyFinish_ok (hok : ∀ p ∈ x.parts, p.status = some 0) (hop : x.op ≠ 1) (recordOk : Bool) (sink : FarReply) :
    s.copyFinish n x recordOk sink = ({ s with que := { s.que with copies := s.que.copies.eraseIdx n } } : State).copyRecord x 0 0 := by
  have hended : ¬x.parts.any (fun p => p.status.isNone) = true := by
    rw [Bool.not_eq_true, List.any_eq_false]
    exact fun p hp => by simp [hok p hp]
  have hstatus : (x.parts.map (fun p => p.status.getD 0)).foldl max 0 = 0 := by
    rw [List.foldl_map]
    exact foldl_fixed_mem fun p hp => by simp [hok p hp]
  have hbits : (x.parts.zipIdx.map (fun p => if p.1.status = some 0 then 0 else 2 ^ p.2)).foldl (· + ·) 0 = 0 := by
    rw [List.foldl_map]
    exact foldl_fixed_mem fun p hp => by simp [hok p.1 (List.fst_mem_of_mem_zipIdx hp)]
  rw [State.copyFinish, if_neg hended]
  dsimp only
  rw [if_neg hop, hstatus, hbits]

/-- The copy with a part's end in place. -/
def partSet (x : Copy) (j st : Nat) (d : Word) (again : Bool) : Copy := { x with parts := modifyAt x.parts j (fun _ => ⟨some st, d, again⟩) }

/-- A part's end is noted in its copy, which completes where it was the last. -/
theorem partEnd_some {st : Nat} {d : Word} {again recordOk : Bool} {sink : FarReply} (hx : s.que.copies[n]? = some x) :
    s.partEnd n j st d again recordOk sink =
      ({ s with que := { s.que with copies := setAt s.que.copies n (partSet x j st d again) } } : State).copyFinish n
        (partSet x j st d again) recordOk sink := by
  rw [State.partEnd, hx]
  rfl

/-- The last part that ends OK completes the copy. -/
theorem partEnd_last {d : Word} (hx : s.que.copies[n]? = some x) (hok : ∀ p ∈ (partSet x j 0 d false).parts, p.status = some 0)
    (hop : x.op ≠ 1) : s.partEnd n j 0 d false true FarReply.ok =
      ({ s with que := { s.que with copies := s.que.copies.eraseIdx n } } : State).copyRecord (partSet x j 0 d false) 0 0 := by
  rw [partEnd_some hx, copyFinish_ok hok hop]
  dsimp only
  rw [setAt_eq_set, List.eraseIdx_set_eq]

end Copies

/-- Settles O38: the start by `exec_copyStart_starts`, a part by its transfer or its timeout, the completion by `partEnd_last`. -/
theorem copiesRun : Obligations.CopiesRun := by
  unfold Obligations.CopiesRun
  intro c q i part obs s
  dsimp only
  refine ⟨fun n x hi hx hw hfew => exec_copyStart_starts hi hx hw hfew,
    fun n x h => ⟨exec_copyPartEnd_running h, fun hop hctx hqueue => ⟨fun t b p h0 hr hw => ?_, fun t st b hr h0 h8 => ?_⟩⟩,
    fun n x h => ⟨fun hw => exec_partTimeout_waits h hw, fun hw => exec_partTimeout_home h hw⟩, fun n j d x hx hok hop => ?_⟩
  · rw [← hctx, ← hqueue] at hr hw
    exact copyPart_copied h0 hr hw
  · rw [← hctx, ← hqueue] at hr ⊢
    exact copyPart_sourceRefused hop hr h0 h8
  · exact partEnd_last hx (fun p hp => eq_of_beq (List.all_eq_true.1 hok p hp)) hop

end Sys2Proof.Proofs
end

section
/-! SUPPORT. Ports in service (R258–R266, R276–R279, R298, R305): the check of a block and what a replay leaves of it, what a block time sends,
what a receiver makes of a block and of an express flit, commas, changes of lanes, and the statement on them. -/

namespace Sys2Proof.Proofs

open Sys2Proof Sys2Proof.Machine

section Ports

variable {s : State} {p : Nat} {f g : PortSt → PortSt}

/-! ### What a port holds, and its state -/

/-- What a port holds after a change of it. -/
@[simp] theorem portSt_modPort (s : State) (p : Nat) (f : PortSt → PortSt) : (s.modPort p f).portSt p = f (s.portSt p) := by
  simp [State.portSt, State.modPort, lookupKey_insertKey_same]

/-- Changes that agree on what a port holds are one change. -/
theorem modPort_congr (h : f (s.portSt p) = g (s.portSt p)) : s.modPort p f = s.modPort p g := by
  rw [State.modPort, h, State.modPort]

@[simp] theorem portSt_bump (s : State) (f : Fld) (n p : Nat) : (s.bump f n).portSt p = s.portSt p := rfl

theorem portUp_iff : s.portUp p = true ↔ s.portState p = 2 ∨ s.portState p = 3 := by
  simp [State.portUp, stPlain, stSealed]

theorem portUp_sealed (h : s.portState p = 3) : s.portUp p = true := portUp_iff.2 (.inr h)

theorem portUp_false_iff : s.portUp p = false ↔ s.portState p ≠ 2 ∧ s.portState p ≠ 3 := by
  rw [Bool.eq_false_iff, Ne, portUp_iff, not_or]

theorem not_portDown (h : s.portUp p = true) : ¬(!s.portUp p) = true := by simp [h]

end Ports

/-! ### The check of a block (R259, R264) -/

section Checks

variable {key : List Byte} {ctr : Nat} {cws : List Codeword}

/-- What of a codeword its block's check covers. -/
def coveredPart (c : Codeword) : BitVec 16 × List (List Byte) := (c.hdr, c.slots)

/-- Blocks that agree on what is covered have one check. -/
theorem blockCheck_congr {l m : List Codeword} (h : l.map coveredPart = m.map coveredPart) : blockCheck key ctr l = blockCheck key ctr m := by
  have hcover (f : BitVec 16 × List (List Byte) → List Byte) :
      l.flatMap (fun c => f (coveredPart c)) = m.flatMap (fun c => f (coveredPart c)) := by
    rw [← List.flatMap_map, h, List.flatMap_map]
  have hslots (f : BitVec 16 × List (List Byte) → List (List Byte)) :
      l.flatMap (fun c => f (coveredPart c)) = m.flatMap (fun c => f (coveredPart c)) := by
    rw [← List.flatMap_map, h, List.flatMap_map]
  have hhdrs := hcover fun c => leBytes 2 c.1.toNat
  have hall := hcover fun c => c.2.flatten
  have hexpress : expressSlots l = expressSlots m := hslots fun c => if c.1.getLsbD 15 then c.2.take 1 else []
  have hordinary : ordinarySlots l = ordinarySlots m := hslots fun c => if c.1.getLsbD 15 then c.2.drop 1 else c.2
  dsimp only [coveredPart] at hhdrs hall
  rw [blockCheck, blockCheck, hexpress, hordinary, hhdrs, hall]

/-- The nibbles of a check leave what it covers. -/
theorem withCheck_covered (key : List Byte) (ctr : Nat) (cws : List Codeword) : (withCheck key ctr cws).map coveredPart = cws.map coveredPart := by
  have h : (cws.zipIdx.map (·.1)).map coveredPart = cws.map coveredPart := by rw [List.zipIdx_map_fst]
  rw [withCheck, List.map_map, ← h, List.map_map]
  rfl

@[simp] theorem withCheck_length (key : List Byte) (ctr : Nat) (cws : List Codeword) : (withCheck key ctr cws).length = cws.length := by
  simp [withCheck]

/-- Nibbles dealt to codewords spell the number again, as far as they reach. -/
theorem nibbleCheck_dealt (cws : List Codeword) (chk n : Nat) :
    nibbleCheck ((cws.zipIdx n).map (fun c => { c.1 with nib := BitVec.ofNat 4 (chk / 16 ^ c.2) })) = chk / 16 ^ n % 16 ^ cws.length := by
  induction cws generalizing n with
  | nil => simp [nibbleCheck, Nat.mod_one]
  | cons c t ih =>
    have hstep (d : Codeword) (l : List Codeword) : nibbleCheck (d :: l) = nibbleCheck l * 16 + d.nib.toNat := by
      simp [nibbleCheck, List.foldl_append]
    have hdigit : chk / 16 ^ n % 16 ^ (t.length + 1) = chk / 16 ^ n % 16 + 16 * (chk / 16 ^ (n + 1) % 16 ^ t.length) := by
      rw [Nat.pow_succ', Nat.mod_mul, Nat.pow_succ, Nat.div_div_eq_div_mul]
    rw [List.zipIdx_cons, List.map_cons, hstep, ih, BitVec.toNat_ofNat, List.length_cons, hdigit]
    rw [Nat.mul_comm 16, Nat.add_comm]

theorem blockCheck_lt (key : List Byte) (ctr : Nat) (cws : List Codeword) : blockCheck key ctr cws < 16 ^ 16 := by
  rw [blockCheck]
  split
  · exact Nat.mod_lt _ (by decide)
  · have hlen := List.length_take_le 8 (gcmTag (key.take 32) (ivOf key false ctr)
      (cws.flatMap (fun c => leBytes 2 c.hdr.toNat) ++ (expressSlots cws).flatten) (ordinarySlots cws).flatten)
    exact (fromLe_lt _).trans_le (Nat.pow_le_pow_right (by decide) (Nat.mul_le_mul_left 8 hlen))

/-- The nibbles of a block of sixteen codewords are its check. -/
theorem nibbleCheck_withCheck (h : cws.length = 16) :
    nibbleCheck (withCheck key ctr cws) = blockCheck key ctr (withCheck key ctr cws) := by
  rw [blockCheck_congr (withCheck_covered key ctr cws), withCheck]
  dsimp only
  rw [nibbleCheck_dealt, h, Nat.pow_zero, Nat.div_one, Nat.mod_eq_of_lt (blockCheck_lt _ _ _)]

/-- What no replay changes of a codeword: EX and the slots (R264). -/
def keptPart (c : Codeword) : Bool × List (List Byte) := (c.hdr.getLsbD 15, c.slots)

theorem withCheck_kept (key : List Byte) (ctr : Nat) (cws : List Codeword) : (withCheck key ctr cws).map keptPart = cws.map keptPart := by
  have h := congrArg (List.map (fun c : BitVec 16 × List (List Byte) => (c.1.getLsbD 15, c.2))) (withCheck_covered key ctr cws)
  rwa [List.map_map, List.map_map] at h

theorem replay_kept (b : Block) : b.replay.map keptPart = b.cws.map keptPart := by
  have hzip : (b.cws.zipIdx.map (·.1)).map keptPart = b.cws.map keptPart := by rw [List.zipIdx_map_fst]
  have hex (h : BitVec 16) : (h ||| 0x4000#16).getLsbD 15 = h.getLsbD 15 := by
    rw [BitVec.getLsbD_or]
    exact Bool.or_false _
  rw [Block.replay, withCheck_kept, List.map_map, ← hzip, List.map_map]
  refine List.map_congr_left fun c _ => ?_
  simp only [Function.comp_apply, keptPart]
  split
  · rw [hex]
  · rfl

end Checks

/-! ### What a block time sends (R258, R260, R261, R264, R298, R305) -/

section BlockTimes

variable {s t : State} {p : Port} {x y z : PortSt} {credits : List (BitVec 22 × Fin 17)}

/-- A port without the traffic that waits on it: what no flit's coming or going changes. -/
def withoutTraffic (x : PortSt) : PortSt :=
  { x with txq := [], blocked := [], xq := [], xwait := [], tq := [], credits := [], served := 0, xserved := 0 }

/-- Ports that are the same but for their traffic retain the same blocks, are at the same counters and keys, and owe the same NAKs. -/
theorem same_of_withoutTraffic (h : withoutTraffic x = withoutTraffic y) : x.retained = y.retained ∧ x.txCtr = y.txCtr ∧ x.xTx = y.xTx
    ∧ x.nakDue = y.nakDue ∧ x.nakRun = y.nakRun ∧ x.keyBlocks = y.keyBlocks ∧ x.laneWaits = y.laneWaits
    ∧ ∀ n, x.txKeyAt n = y.txKeyAt n :=
  ⟨(congrArg PortSt.retained h :), (congrArg PortSt.txCtr h :), (congrArg PortSt.xTx h :), (congrArg PortSt.nakDue h :),
    (congrArg PortSt.nakRun h :), (congrArg PortSt.keyBlocks h :), (congrArg PortSt.laneWaits h :), fun n => (congrArg (PortSt.txKeyAt · n) h :)⟩

theorem withoutTraffic_take (x : PortSt) (port : Nat) (q back : Pkt) : withoutTraffic (x.take port q back) = withoutTraffic x := by
  unfold PortSt.take
  split <;> rfl

theorem withoutTraffic_xtake (x : PortSt) (f : XFlit) : withoutTraffic (x.xtake f) = withoutTraffic x := by
  unfold PortSt.xtake
  dsimp only
  split <;> rfl

theorem withoutTraffic_takes (port : Nat) (l : List (Pkt × Pkt)) (x : PortSt) :
    withoutTraffic (l.foldl (fun (y : PortSt) b => y.take port b.1 b.2) x) = withoutTraffic x := by
  induction l generalizing x with
  | nil => rfl
  | cons b t ih => exact (ih _).trans (withoutTraffic_take x port b.1 b.2)

theorem withoutTraffic_xtakes (l : List XFlit) (x : PortSt) : withoutTraffic (l.foldl PortSt.xtake x) = withoutTraffic x := by
  induction l generalizing x with
  | nil => rfl
  | cons g t ih => exact (ih _).trans (withoutTraffic_xtake x g)

theorem withoutTraffic_unblock (x : PortSt) (port : Nat) : withoutTraffic (x.unblock port) = withoutTraffic x := by
  have hblocked : withoutTraffic { x with blocked := [] } = withoutTraffic x := rfl
  have hxwait (y : PortSt) : withoutTraffic { y with xwait := [] } = withoutTraffic y := rfl
  exact (withoutTraffic_xtakes _ _).trans ((hxwait _).trans ((withoutTraffic_takes _ _ _).trans hblocked))

theorem withoutTraffic_nextTree {q : Pkt} (h : x.nextTree = some (q, y)) : withoutTraffic y = withoutTraffic x := by
  obtain ⟨k, -, h⟩ := Option.bind_eq_some_iff.1 h
  obtain ⟨r, -, h⟩ := Option.map_eq_some_iff.1 h
  rw [← (Prod.mk.inj h).2]
  rfl

theorem withoutTraffic_pullTree (port us n room : Nat) (x : PortSt) : withoutTraffic (PortSt.pullTree port us n room x) = withoutTraffic x := by
  induction n generalizing x with
  | zero => rfl
  | succ n ih =>
    rw [PortSt.pullTree]
    split
    · rfl
    · split
      · rfl
      · next q y h =>
        dsimp only
        split
        · exact (ih _).trans (show withoutTraffic y = _ from withoutTraffic_nextTree h)
        · rfl

theorem nextTree_none (h : x.tq = []) : x.nextTree = none := by
  simp [PortSt.nextTree, h, nextAfter]

/-- Where no collective packet of this module waits none joins. -/
theorem pullTree_idle (port us n room : Nat) (h : x.tq = []) : PortSt.pullTree port us n room x = x := by
  cases n with
  | zero => rfl
  | succ n =>
    rw [PortSt.pullTree, nextTree_none h]
    exact ite_self x

/-- Taking an express flit keeps the ordinary flits and the port but for its traffic. -/
theorem nextExpress_keeps {g : XFlit} (h : x.nextExpress = some (g, y)) :
    withoutTraffic y = withoutTraffic x ∧ y.txq = x.txq ∧ y.tq = x.tq := by
  obtain ⟨k, -, h⟩ := Option.bind_eq_some_iff.1 h
  obtain ⟨r, -, h⟩ := Option.map_eq_some_iff.1 h
  rw [← (Prod.mk.inj h).2]
  cases k with
  | none => exact ⟨rfl, rfl, rfl⟩
  | some n =>
    dsimp only
    split <;> exact ⟨rfl, rfl, rfl⟩

theorem pullExpress_keeps (n : Nat) (x : PortSt) : withoutTraffic (x.pullExpress n).2 = withoutTraffic x
    ∧ (x.pullExpress n).2.txq = x.txq ∧ (x.pullExpress n).2.tq = x.tq ∧ (x.pullExpress n).1.length ≤ n := by
  induction n generalizing x with
  | zero => exact ⟨rfl, rfl, rfl, le_rfl⟩
  | succ n ih =>
    rw [PortSt.pullExpress]
    split
    · exact ⟨rfl, rfl, rfl, Nat.zero_le _⟩
    · next g y h =>
      obtain ⟨hport, htxq, htq, hlen⟩ := ih y
      obtain ⟨hport', htxq', htq'⟩ := nextExpress_keeps h
      exact ⟨hport.trans hport', htxq.trans htxq', htq.trans htq', Nat.succ_le_succ hlen⟩

/-- The express flits of the next block, and the port once they are taken. -/
def expressPulled (t : State) (p : Nat) (z : PortSt) : List XFlit × PortSt :=
  if t.portState p = stSealed then (z.age t.aged).1.pullExpress 16 else ([], (z.age t.aged).1)

/-- The port as the next block is built: its express flits taken, collective packets pulled into what room is left. -/
def portAtBuild (t : State) (p : Nat) (z : PortSt) : PortSt :=
  (expressPulled t p z).2.pullTree p t.usNow (160 - (expressPulled t p z).1.length) (160 - (expressPulled t p z).1.length)

/-- The next block. -/
def nextBlock (t : State) (p : Nat) (z : PortSt) : Block :=
  (portAtBuild t p z).build ((portAtBuild t p z).txq.take (160 - (expressPulled t p z).1.length)) (expressPulled t p z).1

/-- The port once the next block has left it. -/
def portSent (t : State) (p : Nat) (z : PortSt) : PortSt :=
  { portAtBuild t p z with
    txCtr := (portAtBuild t p z).txCtr + 1, retained := (portAtBuild t p z).retained ++ [nextBlock t p z]
    txq := (portAtBuild t p z).txq.drop (160 - (expressPulled t p z).1.length)
    xTx := (portAtBuild t p z).xTx + (expressPulled t p z).1.length, nakDue := false
    nakRun := (portAtBuild t p z).nakRun + ofBool (portAtBuild t p z).nakDue, keyBlocks := (portAtBuild t p z).keyBlocks + 1 }

/-- The state once the next block has left, before the port may fail. -/
def blockSent (t : State) (p : Nat) (z : PortSt) : State :=
  (((t.bump fRteErrAged (z.age t.aged).2).modPort p (fun _ => (portSent t p z).unblock p)).putBlock p (nextBlock t p z).cws (t.commaLanes p)).bump
    (fLnkPortErrNaks p) (ofBool (portAtBuild t p z).nakDue)

theorem newBlock_eq (t : State) (p : Nat) (z : PortSt) : t.newBlock p z =
    if (portAtBuild t p z).nakDue = true ∧ (portSent t p z).nakRun ≥ 8 ∧ (!(portSent t p z).laneWaits) = true then
      (blockSent t p z).portDown p stFailed lrReplay else blockSent t p z := rfl

theorem expressPulled_keeps (t : State) (p : Nat) (z : PortSt) : withoutTraffic (expressPulled t p z).2 = withoutTraffic z
    ∧ (expressPulled t p z).2.txq = (z.age t.aged).1.txq ∧ (expressPulled t p z).2.tq = z.tq ∧ (expressPulled t p z).1.length ≤ 16 := by
  unfold expressPulled
  split
  · exact pullExpress_keeps 16 (z.age t.aged).1
  · exact ⟨rfl, rfl, rfl, Nat.zero_le _⟩

theorem withoutTraffic_portAtBuild (t : State) (p : Nat) (z : PortSt) : withoutTraffic (portAtBuild t p z) = withoutTraffic z :=
  (withoutTraffic_pullTree _ _ _ _ _).trans (expressPulled_keeps t p z).1

/-- A block of a transmitter has sixteen codewords, and its nibbles are its check. -/
theorem build_checks (x : PortSt) (fl : List LFlit) (xs : List XFlit) : (x.build fl xs).cws.length = 16
    ∧ nibbleCheck (x.build fl xs).cws = blockCheck (x.build fl xs).key (x.build fl xs).ctr (x.build fl xs).cws := by
  have hlen : ∀ g : Nat → Codeword, ((List.range 16).map g).length = 16 := fun g => by rw [List.length_map, List.length_range]
  exact ⟨(withCheck_length _ _ _).trans (hlen _), nibbleCheck_withCheck (hlen _)⟩

theorem nextBlock_checks (t : State) (p : Nat) (z : PortSt) : (nextBlock t p z).cws.length = 16
    ∧ nibbleCheck (nextBlock t p z).cws = blockCheck (nextBlock t p z).key (nextBlock t p z).ctr (nextBlock t p z).cws :=
  build_checks _ _ _

/-- What the next block is of the port as it was: the number, the key, at most 160 flits, express ones only under a key. -/
theorem nextBlock_spec (t : State) (p : Nat) (z : PortSt) : (nextBlock t p z).ctr = z.txCtr ∧ (nextBlock t p z).key = z.txKeyAt z.txCtr
    ∧ (nextBlock t p z).flits.length + (nextBlock t p z).xs.length ≤ 160 ∧ (nextBlock t p z).xs.length ≤ 16
    ∧ (t.portState p = 2 → (nextBlock t p z).xs = [])
    ∧ (z.tq = [] → (nextBlock t p z).flits = (z.age t.aged).1.txq.take (160 - (nextBlock t p z).xs.length)) := by
  obtain ⟨-, hctr, -, -, -, -, -, hkey⟩ := same_of_withoutTraffic (withoutTraffic_portAtBuild t p z)
  obtain ⟨-, htxq, htq, hlen⟩ := expressPulled_keeps t p z
  refine ⟨hctr, ?_, ?_, hlen, fun h => ?_, fun h => ?_⟩
  · show (portAtBuild t p z).txKeyAt (portAtBuild t p z).txCtr = _
    rw [hkey, hctr]
  · have htake := List.length_take_le (160 - (expressPulled t p z).1.length) (portAtBuild t p z).txq
    show (List.take _ _).length + (expressPulled t p z).1.length ≤ 160
    omega
  · show (expressPulled t p z).1 = []
    rw [expressPulled, if_neg (by rw [h]; decide)]
  · show (portAtBuild t p z).txq.take _ = _
    rw [portAtBuild, pullTree_idle _ _ _ _ (htq.trans h), htxq]
    rfl

/-- What the port is once the block has left, but for its traffic. -/
theorem withoutTraffic_portSent (t : State) (p : Nat) (z : PortSt) : withoutTraffic ((portSent t p z).unblock p) =
    withoutTraffic { z with txCtr := z.txCtr + 1, retained := z.retained ++ [nextBlock t p z], xTx := z.xTx + (nextBlock t p z).xs.length,
                            nakDue := false, nakRun := z.nakRun + ofBool z.nakDue, keyBlocks := z.keyBlocks + 1 } := by
  have hsent := congrArg (fun y : PortSt => ({ y with
    txCtr := y.txCtr + 1, retained := y.retained ++ [nextBlock t p z], xTx := y.xTx + (nextBlock t p z).xs.length
    nakDue := false, nakRun := y.nakRun + ofBool y.nakDue, keyBlocks := y.keyBlocks + 1 } : PortSt)) (withoutTraffic_portAtBuild t p z)
  exact (withoutTraffic_unblock _ _).trans hsent

/-- What a new block leaves in the port: it is retained and counted, its express flits are counted, the NAK that was due is given. -/
theorem portSent_spec (t : State) (p : Nat) (z : PortSt) :
    ((portSent t p z).unblock p).retained = z.retained ++ [nextBlock t p z] ∧ ((portSent t p z).unblock p).txCtr = z.txCtr + 1
    ∧ ((portSent t p z).unblock p).xTx = z.xTx + (nextBlock t p z).xs.length ∧ ((portSent t p z).unblock p).nakDue = false
    ∧ ((portSent t p z).unblock p).nakRun = z.nakRun + ofBool z.nakDue ∧ ((portSent t p z).unblock p).keyBlocks = z.keyBlocks + 1 := by
  obtain ⟨hretained, hctr, hxctr, hdue, hrun, hkeyed, -, -⟩ := same_of_withoutTraffic (withoutTraffic_portSent t p z)
  exact ⟨hretained, hctr, hxctr, hdue, hrun, hkeyed⟩

/-- The state once a block time's credits have come back. -/
def creditsIn (s : State) (p : Port) (credits : List (BitVec 22 × Fin 17)) : State := credits.foldl (fun u c => u.creditIn p c) s

/-- A block time, once the credits are in. -/
theorem exec_blockSend (ht : creditsIn s p credits = t) : exec (.blockSend p credits) s = .next (
    if (!t.portUp p) = true then t
    else if t.keySpent p = true then t.keyStop p
    else if (t.portSt p).resend ≠ [] then t.resendBlock p (t.portSt p).resend
    else if (t.portSt p).retained.length ≥ 256 then
      (t.modPort p (fun _ => { t.portSt p with winFull := true })).resendBlock p ((t.portSt p).retained.map (·.ctr))
    else if (t.portSt p).keyDue = true then t
    else t.newBlock p (t.portSt p)) := by
  rw [← ht]
  rfl

/-- A port that is up and whose key holds sends by what it retains. -/
theorem exec_blockSend_up (ht : creditsIn s p credits = t) (hup : t.portUp p = true) (hkey : t.keySpent p = false) :
    exec (.blockSend p credits) s = .next (
    if (t.portSt p).resend ≠ [] then t.resendBlock p (t.portSt p).resend
    else if (t.portSt p).retained.length ≥ 256 then
      (t.modPort p (fun _ => { t.portSt p with winFull := true })).resendBlock p ((t.portSt p).retained.map (·.ctr))
    else if (t.portSt p).keyDue = true then t
    else t.newBlock p (t.portSt p)) := by
  rw [exec_blockSend ht, if_neg (not_portDown hup), if_neg (Bool.eq_false_iff.1 hkey)]

theorem resendBlock_found {q : Nat} {l : List Nat} {b : Block} (h : (t.portSt p).retained.find? (fun b => b.ctr == q) = some b) :
    t.resendBlock p (q :: l) = (t.putBlock p b.replay (t.commaLanes p)).modPort p (fun y => { y with resend := l }) := by
  rw [State.resendBlock]
  simp only [h]

/-- A new block that carries no eighth NAK, or while a lane's change is awaited. -/
theorem newBlock_sent (h : z.nakDue = true → z.nakRun < 7 ∨ z.laneWaits = true) : t.newBlock p z =
    (((t.bump fRteErrAged (z.age t.aged).2).modPort p (fun _ => (portSent t p z).unblock p)).putBlock p (nextBlock t p z).cws (t.commaLanes p)).bump
      (fLnkPortErrNaks p) (ofBool z.nakDue) := by
  obtain ⟨-, -, -, hdue, hrun, -, hwaits, -⟩ := same_of_withoutTraffic (withoutTraffic_portAtBuild t p z)
  have hwaits : (portSent t p z).laneWaits = z.laneWaits := hwaits
  rw [newBlock_eq, blockSent, hdue, hwaits]
  refine if_neg fun ⟨hnak, hcount, hnone⟩ => ?_
  have hcount : (portAtBuild t p z).nakRun + ofBool (portAtBuild t p z).nakDue ≥ 8 := hcount
  rw [hrun, hdue, hnak, ofBool, if_pos rfl] at hcount
  rcases h hnak with hfew | hwait
  · omega
  · simp [hwait] at hnone

/-- The eighth NAK for one block, where no lane has failed, fails the port (R262). -/
theorem newBlock_fails (hnak : z.nakDue = true) (hcount : 7 ≤ z.nakRun) (hnone : z.laneWaits = false) :
    t.newBlock p z = (blockSent t p z).portDown p 5 10 := by
  obtain ⟨-, -, -, hdue, hrun, -, hwaits, -⟩ := same_of_withoutTraffic (withoutTraffic_portAtBuild t p z)
  have hwaits : (portSent t p z).laneWaits = z.laneWaits := hwaits
  refine (newBlock_eq t p z).trans (if_pos ⟨hdue.trans hnak, ?_, by rw [hwaits, hnone]; rfl⟩)
  show (portAtBuild t p z).nakRun + ofBool (portAtBuild t p z).nakDue ≥ 8
  rw [hrun, hdue, hnak]
  exact Nat.succ_le_succ hcount

/-- A spent key fails the port (R444). -/
theorem exec_blockSend_spent (ht : creditsIn s p credits = t) (hst : t.portState p = 3) (hk : keyLimit ≤ (t.portSt p).keyBlocks) :
    exec (.blockSend p credits) s = .next (t.keyStop p) := by
  have hspent : t.keySpent p = true := by
    rw [State.keySpent, hst]
    exact decide_eq_true hk
  rw [exec_blockSend ht, if_neg (not_portDown (portUp_sealed hst)), if_pos hspent]

/-- A credit of no tree of this module comes back to the port. -/
theorem creditIn_own {c : BitVec 22 × Fin 17} (h : s.grp.trees.find? (fun g => g.key == c.1.toNat) = none) :
    s.creditIn p c = s.modPort p (·.refund c.1.toNat c.2) := by
  rw [State.creditIn]
  simp only [h]

/-- A forwarder without members hands a credit on. -/
theorem creditIn_forwarded {c : BitVec 22 × Fin 17} {g : Tree} {r : Nat} (h : s.grp.trees.find? (fun g => g.key == c.1.toNat) = some g)
    (hf : g.forwards = true) (hr : g.across (g.edgeOn p) = some r) : s.creditIn p c = s.emit (.credit r c.1.toNat c.2) := by
  rw [State.creditIn]
  simp only [h, hf, hr, if_true]

end BlockTimes


/-! ### What a receiver makes of a block (R258, R260, R261, R276) -/

section Reception

variable {s : State} {p : Port} {x : PortSt} {cws : List (BitVec 5440)} {l : List (Codeword × Nat)} {got : List (Nat × Codeword)}

/-- Of codewords as decoded, the lanes of those that were lost. -/
def lostLanes (x : PortSt) (dec : List (Option (Codeword × Nat))) : List Nat :=
  (dec.zipIdx.filter (fun d => d.1.isNone)).map (fun d => x.rxLanes.getD ((16 * x.rxBlocks + d.2) % max 1 x.rxWidth) 0)

/-- Those that decoded, by position. -/
def decodedAt (dec : List (Option (Codeword × Nat))) : List (Nat × Codeword) := dec.zipIdx.filterMap (fun d => d.1.map (fun c => (d.2, c.1)))

/-- The losses of the last 100 µs with those of this block (R276). -/
def recentLosses (s : State) (x : PortSt) (dec : List (Option (Codeword × Nat))) : List (Nat × Nat) :=
  x.uncorr.filter (fun u => decide (s.time < u.2 + laneWindow)) ++ (lostLanes x dec).map (fun m => (m, s.time))

/-- The state once a block was received, before any lane fails. -/
def blockTaken (s : State) (p : Port) (dec : List (Option (Codeword × Nat))) : State :=
  ((s.bump (fLnkPortErrCorrected p) (dec.filter (fun d => d.any (fun c => decide (c.2 > 0)))).length).bump (fLnkPortErrUncorrectable p)
    (lostLanes (s.portSt p) dec).length).modPort p (fun y => { (y.receive (decodedAt dec)) with
      uncorr := recentLosses s (s.portSt p) dec, rxBlocks := y.rxBlocks + 1 })

@[simp] theorem portSt_blockTaken (s : State) (p : Port) (dec : List (Option (Codeword × Nat))) : (blockTaken s p dec).portSt p =
    { (s.portSt p).receive (decodedAt dec) with uncorr := recentLosses s (s.portSt p) dec, rxBlocks := (s.portSt p).rxBlocks + 1 } :=
  portSt_modPort _ _ _

/-- Where no lane has lost four codewords the port takes the block for what it is, and no lane fails. -/
theorem exec_blockReceive_calm (hup : s.portUp p = true) (hlen : cws.length = 16)
    (hcalm : ∀ m ∈ lostLanes (s.portSt p) (cws.map decodeCodeword),
      ((recentLosses s (s.portSt p) (cws.map decodeCodeword)).filter (fun u => u.1 == m)).length < 4) :
    exec (.blockReceive p cws) s = .next (blockTaken s p (cws.map decodeCodeword)) := by
  have hnone : ((lostLanes (s.portSt p) (cws.map decodeCodeword)).eraseDups).filter (fun m =>
      decide (((recentLosses s (s.portSt p) (cws.map decodeCodeword)).filter (fun u => u.1 == m)).length ≥ 4)) = [] := by
    refine List.filter_eq_nil_iff.2 fun m hm => ?_
    have := hcalm m (List.mem_eraseDups.1 hm)
    simpa using this
  have hruns : ¬((!s.portUp p) = true ∨ cws.length ≠ 16) := fun h => h.elim (not_portDown hup) fun h => h hlen
  show execBlockReceive p cws s = _
  rw [execBlockReceive, if_neg hruns]
  exact congrArg (fun r : List Nat => Host.Outcome.next (r.foldl (fun (t : State) m => if t.portUp p then t.laneFailed p m else t)
    (blockTaken s p (cws.map decodeCodeword)))) hnone

/-- The port after the acks that a block brings, whatever becomes of it. -/
def ackTaken (x : PortSt) (got : List (Nat × Codeword)) : PortSt :=
  match agreed (headersAt got 1) with
  | some (nak, ack) => x.takeAck ack nak
  | none => x

theorem ackTaken_some {nak : Bool} {ack : Nat} (h : agreed (headersAt got 1) = some (nak, ack)) : ackTaken x got = x.takeAck ack nak := by
  rw [ackTaken, h]

@[simp] theorem ackTaken_rxCtr (x : PortSt) (got : List (Nat × Codeword)) : (ackTaken x got).rxCtr = x.rxCtr := by
  unfold ackTaken
  split <;> rfl

@[simp] theorem ackTaken_delivered (x : PortSt) (got : List (Nat × Codeword)) : (ackTaken x got).delivered = x.delivered := by
  unfold ackTaken
  split <;> rfl

/-- A block that lost a codeword fails. -/
theorem receive_short (h : got.length ≠ 16) : x.receive got = (ackTaken x got).fail := by
  unfold PortSt.receive
  dsimp only
  split
  · rw [if_neg fun h' => h h'.1]
    rfl
  · rfl

/-- The low bits of the counter expected name it. -/
theorem nearCtr_expected (n : Nat) : nearCtr 14 n (n % 2 ^ 14) = n := by
  have hzero : (n % 2 ^ 14 + 2 ^ 14 - n % 2 ^ 14) % 2 ^ 14 = 0 := by
    rw [Nat.add_sub_cancel_left, Nat.mod_self]
  rw [nearCtr, hzero]
  rfl

variable {rpl nak : Bool} {ack : Nat}

/-- The block expected whose check holds is delivered; its ack is taken. -/
theorem receive_delivers (hlen : got.length = 16) (hseq : agreed (headersAt got 0) = some (rpl, x.rxCtr % 2 ^ 14))
    (hack : agreed (headersAt got 1) = some (nak, ack)) (hwait : x.nakWait = false)
    (hok : nibbleCheck (got.map (·.2)) = blockCheck (x.rxKeyAt x.rxCtr) x.rxCtr (got.map (·.2))) :
    x.receive got = (x.takeAck ack nak).accept (x.rxKeyAt x.rxCtr) (got.map (·.2)) := by
  rw [← nearCtr_expected x.rxCtr] at hok
  rw [PortSt.receive]
  simp only [hseq, hack, hlen, hok, hwait, nearCtr_expected, true_and, if_true, Bool.false_eq_true, false_and, if_false]

/-- One whose check does not hold fails; its ack is taken. -/
theorem receive_refuses (hseq : agreed (headersAt got 0) = some (rpl, x.rxCtr % 2 ^ 14)) (hack : agreed (headersAt got 1) = some (nak, ack))
    (hbad : nibbleCheck (got.map (·.2)) ≠ blockCheck (x.rxKeyAt x.rxCtr) x.rxCtr (got.map (·.2))) :
    x.receive got = (x.takeAck ack nak).fail := by
  rw [PortSt.receive]
  simp only [hseq, hack, nearCtr_expected, hbad, and_false, if_false]

/-- Codewords that all decoded, by position. -/
def wholeAt (l : List (Codeword × Nat)) : List (Nat × Codeword) := l.zipIdx.map (fun c => (c.2, c.1.1))

theorem decodedAt_whole (l : List (Codeword × Nat)) : decodedAt (l.map some) = wholeAt l := by
  rw [decodedAt, List.zipIdx_map, List.filterMap_map]
  exact List.filterMap_eq_map' ▸ rfl

theorem wholeAt_words (l : List (Codeword × Nat)) : (wholeAt l).map (·.2) = l.map (·.1) := by
  rw [wholeAt, List.map_map]
  conv_rhs => rw [← List.zipIdx_map_fst 0 l, List.map_map]
  rfl

theorem wholeAt_length (l : List (Codeword × Nat)) : (wholeAt l).length = l.length := by
  rw [wholeAt, List.length_map, List.length_zipIdx]

theorem lostLanes_whole (x : PortSt) (l : List (Codeword × Nat)) : lostLanes x (l.map some) = [] := by
  rw [lostLanes, List.map_eq_nil_iff, List.filter_eq_nil_iff]
  intro d hd
  obtain ⟨c, -, hc⟩ := List.mem_map.1 (List.fst_mem_of_mem_zipIdx hd)
  simp [← hc]

/-- A block whose codewords all decode is taken for what it is. -/
theorem exec_blockReceive_whole (hup : s.portUp p = true) (hdec : cws.map decodeCodeword = l.map some) (hlen : l.length = 16) :
    exec (.blockReceive p cws) s = .next (blockTaken s p (l.map some)) := by
  have hcount : cws.length = 16 := by
    have := congrArg List.length hdec
    rwa [List.length_map, List.length_map, hlen] at this
  have h := exec_blockReceive_calm hup hcount
  rw [hdec, lostLanes_whole] at h
  exact h fun m hm => absurd hm List.not_mem_nil

/-- A port that fails a block owes a NAK, waits for the replay, and stays otherwise. -/
theorem fails_block {y z : PortSt} {losses : List (Nat × Nat)} {n : Nat} (h : z = { y.fail with uncorr := losses, rxBlocks := n }) :
    z.nakDue = true ∧ z.nakWait = true ∧ z.rxCtr = y.rxCtr ∧ z.delivered = y.delivered ∧ z.retained = y.retained := by
  rw [h]
  exact ⟨rfl, rfl, rfl, rfl, rfl⟩

/-- The block expected whose check holds is delivered: its flits, the next counter, its ack; no NAK comes of it. -/
theorem exec_blockReceive_delivers (hup : s.portUp p = true) (hdec : cws.map decodeCodeword = l.map some) (hlen : l.length = 16)
    (hseq : agreed (headersAt (wholeAt l) 0) = some (rpl, (s.portSt p).rxCtr % 2 ^ 14)) (hack : agreed (headersAt (wholeAt l) 1) = some (nak, ack))
    (hwait : (s.portSt p).nakWait = false)
    (hok : nibbleCheck (l.map (·.1)) = blockCheck ((s.portSt p).rxKeyAt (s.portSt p).rxCtr) (s.portSt p).rxCtr (l.map (·.1))) :
    ∃ t, exec (.blockReceive p cws) s = .next t ∧ (t.portSt p).delivered = (unitFlits (s.portSt p).rxRest
        (plainFlits ((s.portSt p).rxKeyAt (s.portSt p).rxCtr) (s.portSt p).rxCtr (l.map (·.1)))).1
      ∧ (t.portSt p).rxCtr = (s.portSt p).rxCtr + 1 ∧ (t.portSt p).nakRun = 0 ∧ (t.portSt p).nakDue = (s.portSt p).nakDue
      ∧ (t.portSt p).retained = ((s.portSt p).takeAck ack nak).retained := by
  rw [← wholeAt_words] at hok ⊢
  refine ⟨_, exec_blockReceive_whole hup hdec hlen, ?_⟩
  rw [portSt_blockTaken, decodedAt_whole, receive_delivers ((wholeAt_length l).trans hlen) hseq hack hwait hok]
  exact ⟨rfl, rfl, rfl, rfl, rfl⟩

/-- The block expected whose check does not hold is refused: a NAK is due, and its ack is taken all the same. -/
theorem exec_blockReceive_refuses (hup : s.portUp p = true) (hdec : cws.map decodeCodeword = l.map some) (hlen : l.length = 16)
    (hseq : agreed (headersAt (wholeAt l) 0) = some (rpl, (s.portSt p).rxCtr % 2 ^ 14)) (hack : agreed (headersAt (wholeAt l) 1) = some (nak, ack))
    (hbad : nibbleCheck (l.map (·.1)) ≠ blockCheck ((s.portSt p).rxKeyAt (s.portSt p).rxCtr) (s.portSt p).rxCtr (l.map (·.1))) :
    ∃ t, exec (.blockReceive p cws) s = .next t ∧ (t.portSt p).nakDue = true ∧ (t.portSt p).nakWait = true
      ∧ (t.portSt p).rxCtr = (s.portSt p).rxCtr ∧ (t.portSt p).delivered = (s.portSt p).delivered
      ∧ (t.portSt p).retained = ((s.portSt p).takeAck ack nak).retained := by
  rw [← wholeAt_words] at hbad
  have hport := portSt_blockTaken s p (l.map some)
  rw [decodedAt_whole, receive_refuses hseq hack hbad] at hport
  obtain ⟨hdue, hwait, hctr, hdelivered, hretained⟩ := fails_block hport
  exact ⟨_, exec_blockReceive_whole hup hdec hlen, hdue, hwait, hctr, hdelivered, hretained⟩

/-- How many codewords decoded, and how many were lost. -/
theorem decodedAt_length (x : PortSt) (dec : List (Option (Codeword × Nat))) : (lostLanes x dec).length = (dec.filter Option.isNone).length
    ∧ (decodedAt dec).length + (dec.filter Option.isNone).length = dec.length := by
  have hlost : (dec.zipIdx.filter (fun d => d.1.isNone)).length = (dec.filter Option.isNone).length := by
    rw [← List.countP_eq_length_filter, ← List.countP_eq_length_filter]
    conv_rhs => rw [← List.zipIdx_map_fst 0 dec, List.countP_map]
    rfl
  refine ⟨by rw [lostLanes, List.length_map, hlost], ?_⟩
  rw [← hlost, decodedAt, List.length_filterMap_eq_countP, ← List.countP_eq_length_filter]
  have hsplit : dec.zipIdx.length = _ := List.length_eq_countP_add_countP (fun d => d.1.isNone)
  rw [List.length_zipIdx] at hsplit
  rw [hsplit, Nat.add_comm]
  congr 1
  refine List.countP_congr fun d _ => ?_
  cases d.1 <;> simp

/-- A block that lost some codewords, fewer than four, and none before, is refused and fails no lane. -/
theorem exec_blockReceive_lossy (hup : s.portUp p = true) (hlen : cws.length = 16) (hfirst : (s.portSt p).uncorr = [])
    (hsome : 0 < ((cws.map decodeCodeword).filter Option.isNone).length) (hfew : ((cws.map decodeCodeword).filter Option.isNone).length < 4) :
    ∃ t, exec (.blockReceive p cws) s = .next t ∧ (t.portSt p).nakDue = true ∧ (t.portSt p).nakWait = true
      ∧ (t.portSt p).rxCtr = (s.portSt p).rxCtr ∧ (t.portSt p).delivered = (s.portSt p).delivered := by
  obtain ⟨hlost, hgot⟩ := decodedAt_length (s.portSt p) (cws.map decodeCodeword)
  rw [List.length_map, hlen] at hgot
  have hport := portSt_blockTaken s p (cws.map decodeCodeword)
  rw [receive_short (by omega)] at hport
  obtain ⟨hdue, hwait, hctr, hdelivered, -⟩ := fails_block hport
  refine ⟨_, exec_blockReceive_calm hup hlen fun m _ => (List.length_filter_le _ _).trans_lt ?_, hdue, hwait,
    hctr.trans (ackTaken_rxCtr _ _), hdelivered.trans (ackTaken_delivered _ _)⟩
  rw [recentLosses, hfirst, List.filter_nil, List.nil_append, List.length_map, hlost]
  exact hfew

end Reception

/-! ### Express flits (R265, R266) -/

section Express

variable {s : State} {p : Port} {cw : BitVec 5440} {c : Codeword}

/-- The flit in the express slot of a codeword. -/
def expressBytes (c : Codeword) : List Byte := c.slots.headD []

/-- Does a codeword carry an express flit whose CRC and tag hold at a port? -/
def expressHolds (x : PortSt) (c : Codeword) : Bool :=
  c.ex && expressOk (x.rxKeyAt x.rxCtr) (nearCtr 16 x.xRx (field (expressBytes c) 44 2)) (expressBytes c)

/-- The express flit of a codeword that holds. -/
def heldFlit (x : PortSt) (c : Codeword) : Option (List Byte) := if expressHolds x c then some (expressBytes c) else none

theorem heldFlit_eq (x : PortSt) (c : Codeword) : heldFlit x c =
    if (c.ex && expressOk (x.rxKeyAt x.rxCtr) (nearCtr 16 x.xRx (field (c.slots.headD []) 44 2)) (c.slots.headD [])) = true then
      some (c.slots.headD []) else none := rfl

/-- The state once an express flit was taken: unchanged where it is not newer than the last. -/
def expressTaken (s : State) (p : Port) (b : List Byte) : State :=
  if behind 16 (s.portSt p).xRx (field b 44 2) = true then s
  else s.modPort p (fun y => { y with
    xRx := nearCtr 16 (s.portSt p).xRx (field b 44 2) + 1
    delivered := [cipher ((s.portSt p).rxKeyAt (s.portSt p).rxCtr) true (nearCtr 16 (s.portSt p).xRx (field b 44 2)) 0 (b.take 44)] })

/-- The raw bits' express flit is taken if it holds, else the corrected codeword's if that does. -/
theorem exec_expressFlit (h : s.portState p = 3) : exec (.expressFlit p cw) s = .next
    (((heldFlit (s.portSt p) (rawCodeword cw)).or ((decodeCodeword cw).bind (fun d => heldFlit (s.portSt p) d.1))).elim s (expressTaken s p)) := by
  have hsealed : ¬s.portState p ≠ stSealed := not_not.2 h
  -- The two readings stand by name from here on: no later step has to compute with a codeword's bits.
  obtain ⟨raw, hraw⟩ : ∃ c, rawCodeword cw = c := ⟨_, rfl⟩
  obtain ⟨fec, hfec⟩ : ∃ d, decodeCodeword cw = d := ⟨_, rfl⟩
  show execExpressFlit p cw s = _
  rw [execExpressFlit, if_neg hsealed, hraw, hfec]
  dsimp only
  simp only [← heldFlit_eq]
  cases heldFlit (s.portSt p) raw with
  | some b => rw [Option.some_or, Option.elim_some, expressTaken]
  | none =>
    dsimp only
    cases fec.bind (fun d => heldFlit (s.portSt p) d.1) with
    | some b => rw [Option.none_or, Option.elim_some, expressTaken]
    | none => rfl

/-- The raw bits hold. -/
theorem exec_expressFlit_raw (h : s.portState p = 3) (hraw : expressHolds (s.portSt p) (rawCodeword cw) = true) :
    exec (.expressFlit p cw) s = .next (expressTaken s p (expressBytes (rawCodeword cw))) := by
  rw [exec_expressFlit h, heldFlit, if_pos hraw, Option.some_or, Option.elim_some]

/-- Only the corrected codeword holds. -/
theorem exec_expressFlit_corrected {n : Nat} (h : s.portState p = 3) (hraw : expressHolds (s.portSt p) (rawCodeword cw) = false)
    (hdec : decodeCodeword cw = some (c, n)) (hc : expressHolds (s.portSt p) c = true) :
    exec (.expressFlit p cw) s = .next (expressTaken s p (expressBytes c)) := by
  rw [exec_expressFlit h, hdec, Option.bind_some, heldFlit, heldFlit, if_neg (Bool.eq_false_iff.1 hraw), if_pos hc, Option.none_or,
    Option.elim_some]

/-- Neither holds. -/
theorem exec_expressFlit_unheld {n : Nat} (h : s.portState p = 3) (hraw : expressHolds (s.portSt p) (rawCodeword cw) = false)
    (hdec : decodeCodeword cw = some (c, n)) (hc : expressHolds (s.portSt p) c = false) : exec (.expressFlit p cw) s = .next s := by
  rw [exec_expressFlit h, hdec, Option.bind_some, heldFlit, heldFlit, if_neg (Bool.eq_false_iff.1 hraw), if_neg (Bool.eq_false_iff.1 hc)]
  rfl

/-- The raw bits do not hold, and the codeword is lost. -/
theorem exec_expressFlit_lost (h : s.portState p = 3) (hraw : expressHolds (s.portSt p) (rawCodeword cw) = false)
    (hdec : decodeCodeword cw = none) : exec (.expressFlit p cw) s = .next s := by
  rw [exec_expressFlit h, hdec, heldFlit, if_neg (Bool.eq_false_iff.1 hraw)]
  rfl

end Express

/-! ### Commas (R256, R276) -/

section Commas

variable {s : State} {p : Port} {obs : CommaObs}

/-- The state once a port has seen a comma. -/
def commaSeen (s : State) (p : Port) (obs : CommaObs) : State := s.modPort p (fun y => y.comma obs)

/-- Does this comma take a lane's lock? -/
def lockGoes (s : State) (p : Port) (obs : CommaObs) : Bool :=
  (s.portSt p).locked.contains obs.lane.val && !((commaSeen s p obs).portSt p).locked.contains obs.lane.val

/-- A comma on a lane of a port that is up or trains. -/
theorem exec_comma (hlane : portHasLane p obs.lane = true) (h : s.portUp p = true ∨ s.portState p = 1) : exec (.comma p obs) s = .next (
    if (!s.portUp p) = true then (commaSeen s p obs).commaPhase p
    else if lockGoes s p obs = true then (commaSeen s p obs).lockLost p obs.lane else commaSeen s p obs) := by
  have hruns : ¬((!portHasLane p obs.lane) = true ∨ (!(decide (s.portUp p = true ∨ s.portState p = stTraining))) = true) := by
    have hlive : decide (s.portUp p = true ∨ s.portState p = stTraining) = true := decide_eq_true h
    simp [hlane, hlive]
  show execComma p obs s = _
  rw [execComma, if_neg hruns]
  rfl

theorem exec_comma_training (hlane : portHasLane p obs.lane = true) (h : s.portState p = 1) :
    exec (.comma p obs) s = .next ((commaSeen s p obs).commaPhase p) := by
  have hdown : (!s.portUp p) = true := by
    rw [portUp_false_iff.2 (by omega)]
    rfl
  rw [exec_comma hlane (.inr h), if_pos hdown]

theorem exec_comma_up (hlane : portHasLane p obs.lane = true) (hup : s.portUp p = true) : exec (.comma p obs) s = .next
    (if lockGoes s p obs = true then (commaSeen s p obs).lockLost p obs.lane else commaSeen s p obs) := by
  rw [exec_comma hlane (.inl hup), if_neg (not_portDown hup)]

/-- A lane that is not in use becomes bad, for both ports of its engine. -/
theorem lockLost_idle {lane : Nat} (h : (s.lanesInUse p).contains lane = false) : s.lockLost p lane =
    ((s.markBad (engineOf p) [lane] true).showLanes p).showLanes (siblingOf p) := by
  rw [State.lockLost, if_neg (Bool.eq_false_iff.1 h)]

/-- A lane in use has failed, and where every lane in use missed its last two commas the port is lost. -/
theorem lockLost_used {lane : Nat} (h : (s.lanesInUse p).contains lane = true) : s.lockLost p lane =
    if (s.lanesInUse p).all (fun l => decide (2 ≤ (lookupKey (s.portSt p).misses l).getD 0)) = true then s.portDown p 5 11
    else s.laneFailed p lane := by
  rw [State.lockLost, if_pos h]
  rfl

/-- The third miss in a row takes a lane's lock. -/
theorem locked_thirdMiss (y : PortSt) (hmiss : commaHit obs.levels = false) (hcount : lookupKey y.misses obs.lane.val = some 2) :
    (y.comma obs).locked.contains obs.lane.val = false := by
  rw [PortSt.comma]
  simp [hmiss, hcount]

/-- A lane's comma word is a comma of that lane, whatever its toggle. -/
theorem commaWord_own : ∀ (lane : Fin 34) tg, commaHit (commaWord lane tg) = true ∧ commaOwn (commaWord lane tg) lane = true := by
  decide

end Commas

/-! ### Changes of lanes (R277–R279) -/

section LaneChanges

variable {s : State} {p : Port} {w : LaneSwitch} {x : PortSt}

/-- SWAP of a lane that no spare serves yet. -/
theorem exec_swap_own {lane : Fin 16} {sub : Fin 34} {seq : BitVec 14} (hup : s.portUp p = true)
    (hown : (s.portSt p).hasLane (p.val % 2 * 16 + lane.val) = true) :
    let t := (s.markBad (engineOf p) [p.val % 2 * 16 + lane.val] false).showLanes p
    exec (.swap p lane sub seq) s = .next ((t.modPort p (fun y => { y with switches := y.switches ++
      [⟨none, p.val % 2 * 16 + lane.val, sub.val, t.nameBlock p, some (s.peerBlock p seq), false, false⟩] })).sendCtl p 0x02
      (leBytes 1 lane ++ leBytes 1 sub ++ leBytes 2 (t.nameBlock p % 2 ^ 14))) := by
  show execSwap p lane sub seq s = _
  rw [execSwap, if_neg (not_portDown hup)]
  simp only [hown, if_true]

theorem exec_narrow_less {n : BitVec 5} {seq : BitVec 14} (hup : s.portUp p = true) (h : n.toNat < (s.portSt p).txWidth) :
    exec (.narrow p n seq) s = .next ((s.modPort p (fun y => { y with
      switches := y.switches ++ [⟨some n.toNat, 0, 0, s.nameBlock p, some (s.peerBlock p seq), false, false⟩] })).sendCtl p 0x04
      (leBytes 1 n.toNat ++ [0x00#8] ++ leBytes 2 (s.nameBlock p % 2 ^ 14))) := by
  have hnarrows : ¬((!s.portUp p) = true ∨ n.toNat ≥ (s.portSt p).txWidth) := fun h' => h'.elim (not_portDown hup) (Nat.not_le.2 h)
  show execNarrow p n seq s = _
  rw [execNarrow, if_neg hnarrows]

/-- A width that is not smaller narrows nothing. -/
theorem exec_narrow_same {n : BitVec 5} {seq : BitVec 14} (h : (s.portSt p).txWidth ≤ n.toNat) : exec (.narrow p n seq) s = .next s :=
  congrArg Host.Outcome.next (if_pos (.inr h))

theorem exec_disable_up {reason : Fin 16} (hup : s.portUp p = true) : exec (.disable p reason) s = .next (s.portDown p 4 8) :=
  congrArg Host.Outcome.next (if_pos (.inl hup))

/-- At a comma those changes take place of which a named block has gone by. -/
theorem exec_swapApply_up (hup : s.portUp p = true) : exec (.swapApply p) s = .next
    (((s.portSt p).switches.filter (fun w => w.txReady (s.portSt p) || w.rxReady (s.portSt p))).foldl (fun s w => s.switchAt p w) s) :=
  congrArg Host.Outcome.next (if_neg (not_portDown hup))

/-- The only change under way takes place where a direction of it is ready. -/
theorem exec_swapApply_only (hup : s.portUp p = true) (hw : (s.portSt p).switches = [w])
    (hready : (w.txReady (s.portSt p) || w.rxReady (s.portSt p)) = true) : exec (.swapApply p) s = .next (s.switchAt p w) := by
  simp only [exec_swapApply_up hup, hw, List.filter_cons, hready, if_true, List.filter_nil, List.foldl_cons, List.foldl_nil]

theorem exec_swapApply_none (hup : s.portUp p = true) (hw : (s.portSt p).switches = [w]) (htx : w.txReady (s.portSt p) = false)
    (hrx : w.rxReady (s.portSt p) = false) : exec (.swapApply p) s = .next s := by
  simp only [exec_swapApply_up hup, hw, List.filter_cons, htx, hrx, Bool.or_self, Bool.false_eq_true, if_false, List.filter_nil, List.foldl_nil]

/-- The transmit direction of a swap changes, and the receive direction. -/
def txSwapped (w : LaneSwitch) (y : PortSt) : PortSt := { y with lanes := swapLane y.lanes w.lane w.sub, txBlocks := 0 }
def rxSwapped (w : LaneSwitch) (y : PortSt) : PortSt := { y with rxLanes := swapLane y.rxLanes w.lane w.sub, rxBlocks := 0 }

/-- Both directions of the only swap change at one comma. -/
theorem switchAt_both (hw : (s.portSt p).switches = [w]) (hswap : w.narrow = none) (htx : w.txReady (s.portSt p) = true)
    (hrx : w.rxReady (s.portSt p) = true) :
    s.switchAt p w = (s.modPort p (fun y => { rxSwapped w (txSwapped w y) with switches := [] })).switchDone p w := by
  rw [State.switchAt]
  dsimp only
  simp only [htx, hrx, Bool.or_true, Bool.and_self, if_true]
  refine congrArg (State.switchDone · p w) (modPort_congr ?_)
  simp [LaneSwitch.apply, hswap, hw, rxSwapped, txSwapped]

theorem switchAt_tx (hw : (s.portSt p).switches = [w]) (hswap : w.narrow = none) (htx : w.txReady (s.portSt p) = true)
    (hrx : w.rxReady (s.portSt p) = false) (hdone : w.rxDone = false) :
    s.switchAt p w = s.modPort p (fun y => { txSwapped w y with switches := [{ w with txDone := true }] }) := by
  rw [State.switchAt]
  dsimp only
  simp only [htx, hrx, hdone, Bool.or_true, Bool.or_false, Bool.and_false, if_true, Bool.false_eq_true, if_false]
  refine modPort_congr ?_
  simp [LaneSwitch.apply, hswap, hw, txSwapped]

theorem switchAt_rx (hw : (s.portSt p).switches = [w]) (hswap : w.narrow = none) (htx : w.txReady (s.portSt p) = false)
    (hrx : w.rxReady (s.portSt p) = true) (hdone : w.txDone = false) :
    s.switchAt p w = s.modPort p (fun y => { rxSwapped w y with switches := [{ w with rxDone := true }] }) := by
  rw [State.switchAt]
  dsimp only
  simp only [htx, hrx, hdone, Bool.or_true, Bool.or_false, Bool.false_and, if_true, Bool.false_eq_true, if_false]
  refine modPort_congr ?_
  simp [LaneSwitch.apply, hswap, hw, rxSwapped]

/-- The end of a swap of a data lane. -/
theorem switchDone_lane (hswap : w.narrow = none) (hlane : w.lane < 32) : s.switchDone p w =
    ((((((s.modPort p (fun y => { y with uncorr := y.uncorr.filter (fun u => u.1 != w.lane) })).showSpare p (s.relLane p w.lane) w.sub).showLanes
      p).showLanes (siblingOf p)).bump (fLnkPortErrChanges p) 1).log
      { code := 0x0402, kind := 7, unit := laneUnit (engineOf p) w.lane, action := 4
        detail := leBytes 1 (s.relLane p w.lane) ++ leBytes 1 w.sub }) := by
  have h32 : ¬w.lane = 32 := by omega
  have h33 : ¬w.lane = 33 := by omega
  rw [State.switchDone]
  simp only [hswap, if_neg h32, if_neg h33]

theorem exec_linksRecordDue (h : s.mgmt.linksDue = true) : exec .linksRecordDue s = .next s.sendLinks :=
  congrArg Host.Outcome.next (if_pos h)

end LaneChanges

/-! ### The statement -/

section BlocksStated

variable {s : State} {p : Port} {credits : List (BitVec 22 × Fin 17)}

/-- The new block of a block time, by what the port was. -/
theorem exec_blockSend_new {t : State} (ht : creditsIn s p credits = t) (hup : t.portUp p = true) (hkey : t.keySpent p = false)
    (hresend : (t.portSt p).resend = []) (hroom : (t.portSt p).retained.length < 256) (hdue : (t.portSt p).keyDue = false) :
    exec (.blockSend p credits) s = .next (t.newBlock p (t.portSt p)) := by
  rw [exec_blockSend_up ht hup hkey, if_neg (not_not.2 hresend), if_neg (Nat.not_le.2 hroom), if_neg (Bool.eq_false_iff.1 hdue)]

end BlocksStated

/-- Settles O43: a block time by `exec_blockSend_up`, `nextBlock_spec` and `portSent_spec`, a block by `exec_blockReceive_calm`, an express flit by
`exec_expressFlit`, commas and changes of lanes by the lemmas on each. -/
theorem linkBlocks : Obligations.LinkBlocks := by
  unfold Obligations.LinkBlocks
  intro p credits cw s
  dsimp only
  obtain ⟨t, ht⟩ : ∃ t, creditsIn s p credits = t := ⟨_, rfl⟩
  have hfold : credits.foldl (fun u c => u.creditIn p c) s = t := ht
  rw [hfold]
  refine ⟨fun hup hkey => ⟨?_, ?_, ?_, ?_, ?_⟩, fun hst hk => exec_blockSend_spent ht hst hk,
    fun c => ⟨creditIn_own, fun g r => creditIn_forwarded⟩,
    replay_kept, ?_, ?_, ?_, ?_, commaWord_own, ?_, fun w seq => rfl, fun lane sub seq => rfl, exec_linksRecordDue⟩
  · intro q l b hresend hfound
    rw [exec_blockSend_up ht hup hkey, if_pos (by rw [hresend]; exact List.cons_ne_nil _ _), hresend, resendBlock_found hfound]
  · intro hresend hfull
    rw [exec_blockSend_up ht hup hkey, if_neg (not_not.2 hresend), if_pos hfull]
  · intro hresend hroom hdue
    rw [exec_blockSend_up ht hup hkey, if_neg (not_not.2 hresend), if_neg (Nat.not_le.2 hroom), if_pos hdue]
  · intro hresend hroom hdue hnak
    obtain ⟨hctr, hbkey, hfits, hexpress, hplain, hnext⟩ := nextBlock_spec t p (t.portSt p)
    obtain ⟨hlen, hcheck⟩ := nextBlock_checks t p (t.portSt p)
    obtain ⟨hretained, htxCtr, hxctr, hnone, hrun, hkeyed⟩ := portSent_spec t p (t.portSt p)
    refine ⟨nextBlock t p (t.portSt p), (portSent t p (t.portSt p)).unblock p, ?_, hctr, hbkey, hlen, hcheck, hfits, hexpress, hplain, hnext,
      hretained, htxCtr, hxctr, hnone, hrun, hkeyed⟩
    rw [exec_blockSend_new ht hup hkey hresend hroom hdue, newBlock_sent hnak]
  · intro hresend hroom hdue hnak hcount hwait
    exact ⟨_, by rw [exec_blockSend_new ht hup hkey hresend hroom hdue, newBlock_fails hnak hcount hwait]⟩
  · intro cws l rpl nak ack hup hdec hlen hseq hack
    exact ⟨fun hwait hok => exec_blockReceive_delivers hup hdec hlen hseq hack hwait hok,
      fun hbad => exec_blockReceive_refuses hup hdec hlen hseq hack hbad⟩
  · exact fun cws hup hlen hfirst hsome hfew => exec_blockReceive_lossy hup hlen hfirst hsome hfew
  · exact fun hst => ⟨exec_expressFlit_raw hst, fun hraw => ⟨fun c n => exec_expressFlit_corrected hst hraw,
      fun c n => exec_expressFlit_unheld hst hraw, exec_expressFlit_lost hst hraw⟩⟩
  · intro obs hlane
    refine ⟨exec_comma_training hlane, fun hup hgone => ?_, fun hup hgone hused hsome => ?_, fun hup hgone hused hall => ?_,
      fun hup hgone hidle => ?_, fun y => locked_thirdMiss y⟩
    all_goals rw [exec_comma_up hlane hup]
    · exact congrArg Host.Outcome.next (if_neg (Bool.eq_false_iff.1 hgone))
    · exact congrArg Host.Outcome.next ((if_pos hgone).trans ((lockLost_used hused).trans (if_neg (Bool.eq_false_iff.1 hsome))))
    · exact congrArg Host.Outcome.next ((if_pos hgone).trans ((lockLost_used hused).trans (if_pos hall)))
    · exact congrArg Host.Outcome.next ((if_pos hgone).trans (lockLost_idle hidle))
  · intro hup
    refine ⟨fun lane sub seq => exec_swap_own hup, fun w hw hswap => ⟨fun hlane htx hrx => ?_, fun htx hrx hdone => ?_, fun htx hrx hdone => ?_,
      exec_swapApply_none hup hw⟩, fun w seq => exec_narrow_less hup, fun w seq => exec_narrow_same, fun reason => exec_disable_up hup⟩
    · rw [exec_swapApply_only hup hw (by rw [htx, hrx]; rfl), switchAt_both hw hswap htx hrx, switchDone_lane hswap hlane]
      rfl
    · rw [exec_swapApply_only hup hw (by rw [htx, hrx]; rfl), switchAt_tx hw hswap htx hrx hdone]
      rfl
    · rw [exec_swapApply_only hup hw (by rw [htx, hrx]; rfl), switchAt_rx hw hswap htx hrx hdone]
      rfl

end Sys2Proof.Proofs
end

section
/-! SUPPORT. Ports in training (R267–R282): taps, lanes accepted, LANE_DONE, IDENT and WIDTH, ABORT, timeouts, ports that failed, requests to
retrain, and the statement on them. -/

namespace Sys2Proof.Proofs

open Sys2Proof Sys2Proof.Machine

section Training

variable {s : State} {p : Port} {lane : Fin 34}

theorem inPhase_iff {q ph : Nat} : s.inPhase q ph = true ↔ s.portState q = 1 ∧ s.fld (fLnkPortStatePhase q) = ph := by
  simp [State.inPhase, stTraining]

theorem not_inPhase {q ph : Nat} (h : s.inPhase q ph = true) : ¬(!s.inPhase q ph) = true := by simp [h]

/-- A port that is up neither trains nor is dark. -/
theorem lit_of_portUp {q : Nat} (h : s.portUp q = true) : s.portState q ≠ 1 ∧ s.portState q ≠ 0 := by
  have := portUp_iff.1 h
  omega

/-! ### Taps and the lanes accepted (R268–R271) -/

/-- A tap request of a new number is applied and answered. -/
theorem exec_tapReq_applied {r : TapReq} (hst : s.portState p = 1) (hlane : portHasLane p lane = true)
    (hnew : lookupKey (s.portSt p).tapNum lane ≠ some r.num.toNat) :
    let t := applyTaps ((lookupKey (s.portSt p).taps lane).getD Taps.preset) r
    exec (.tapReq p lane r (msgCrc (tapReqMsg r))) s = .next ((s.modPort p (fun y => { y with
      taps := insertKey y.taps lane t.1, tapNum := insertKey y.tapNum lane r.num.toNat })).sendTrain p (some lane.val)
      (tapStatMsg t.1 r.num.toNat t.2)) := by
  have hruns : ¬(s.portState p ≠ stTraining ∨ (!portHasLane p lane) = true ∨ lookupKey (s.portSt p).tapNum lane = some r.num.toNat) := by
    simp [hst, hlane, hnew, stTraining]
  show execTapReq p lane r _ s = _
  rw [execTapReq, if_pos rfl, State.tapReqIn, if_neg hruns]

/-- One whose CRC fails, or whose number was applied, does nothing. -/
theorem exec_tapReq_ignored {r : TapReq} {crc : BitVec 32}
    (h : crc ≠ msgCrc (tapReqMsg r) ∨ lookupKey (s.portSt p).tapNum lane = some r.num.toNat) : exec (.tapReq p lane r crc) s = .next s := by
  show execTapReq p lane r crc s = _
  rw [execTapReq]
  split
  · next hcrc =>
    have hseen := h.resolve_left (not_not.2 hcrc)
    rw [State.tapReqIn]
    exact congrArg Host.Outcome.next (if_pos (.inr (.inr hseen)))
  · rfl

/-- The answer to the last request on a lane is noted. -/
theorem exec_tapStat_noted {num : Byte} {t : Taps} {res : BitVec 8} (hst : s.portState p = 1) (hlane : portHasLane p lane = true)
    (hnum : lookupKey (s.portSt p).reqNum lane = some num.toNat) :
    exec (.tapStat p lane num t res (msgCrc (tapStatMsg t num.toNat res.toNat))) s = .next
      (s.modPort p (fun y => { y with peerTaps := insertKey y.peerTaps lane t })) := by
  have hruns : ¬(s.portState p ≠ stTraining ∨ (!portHasLane p lane) = true ∨ lookupKey (s.portSt p).reqNum lane ≠ some num.toNat) := by
    simp [hst, hlane, hnum, stTraining]
  show execTapStat p lane num t res _ s = _
  rw [execTapStat, if_pos rfl, State.tapStatIn, if_neg hruns]

/-- A port in EQUALIZE whose lanes are all in, and that has not said so, sends LANE_DONE. -/
def closesEqualize (u : State) (q : Nat) : State :=
  if u.portState q = 1 ∧ u.fld (fLnkPortStatePhase q) = 2 ∧ (u.portSt q).done = false ∧ u.allLanesIn q (·.accepted) = true then
    u.sendLaneDone q
  else u

theorem acceptedAll_eq (u : State) (q : Nat) : u.acceptedAll q = closesEqualize u q := by
  have hwhen : (u.inPhase q phEqualize = true ∧ (!(u.portSt q).done) = true ∧ u.allLanesIn q (·.accepted) = true) ↔
      (u.portState q = 1 ∧ u.fld (fLnkPortStatePhase q) = 2 ∧ (u.portSt q).done = false ∧ u.allLanesIn q (·.accepted) = true) := by
    rw [inPhase_iff, and_assoc, Bool.not_eq_true']
    rfl
  exact if_congr hwhen rfl rfl

/-- A lane of a port joins those that it has accepted. -/
def laneAccepted (s : State) (p : Port) (lane : Fin 34) : State :=
  s.modPort p (fun y => if y.accepted.contains lane.val then y else { y with accepted := lane.val :: y.accepted })

/-- A lane below 1,000 errors is accepted, a spare for both ports of its engine; else other taps are asked for (R271). -/
theorem exec_prbsCount {errors : Nat} (hst : s.portState p = 1) (hph : s.fld (fLnkPortStatePhase p) = 2) (hlane : portHasLane p lane = true)
    (hgood : s.laneBad (engineOf p) lane = false) (hopen : (s.portSt p).done = false) : exec (.prbsCount p lane errors) s = .next (
      if errors < 1000 then
        if lane.val ≥ 32 then closesEqualize (closesEqualize (laneAccepted s p lane) p) (siblingOf p)
        else closesEqualize (laneAccepted s p lane) p
      else s.askTaps p lane) := by
  have hruns : ¬((!s.inPhase p phEqualize) = true ∨ (!portHasLane p lane) = true ∨ s.laneBad (engineOf p) lane = true
      ∨ (s.portSt p).done = true) := by
    simp [inPhase_iff.2 ⟨hst, hph⟩, phEqualize, hlane, hgood, hopen]
  show execPrbsCount p lane errors s = _
  rw [execPrbsCount, if_neg hruns]
  dsimp only
  rw [acceptedAll_eq, acceptedAll_eq]
  rfl

/-! ### LANE_DONE, IDENT and WIDTH (R267, R269, R272–R275, R282) -/

theorem exec_laneDone_equalize {lanes : BitVec 34} (hst : s.portState p = 1) (hph : s.fld (fLnkPortStatePhase p) = 2) :
    exec (.laneDone p lanes (msgCrc (laneDoneMsg lanes.toNat))) s = .next
      ((s.modPort p (fun y => { y with peerDone := some lanes.toNat })).equalizeEnd p) := by
  have hruns : s.inPhase p phEqualize = true ∨ s.inPhase p phLock = true := .inl (inPhase_iff.2 ⟨hst, hph⟩)
  show execLaneDone p lanes _ s = _
  rw [execLaneDone, if_pos rfl, State.laneDone, if_pos hruns]

/-- The state once a peer's IDENT is noted and answered. -/
def identNoted (s : State) (p : Port) (node : Node) (port : Port) (token echo : BitVec 12) : State :=
  let t := (s.modPort p (fun y => { y with
    identIn := true, peerToken := token.toNat, echoed := y.echoed || decide (echo.toNat = (s.portSt p).token) })).setFlds
    [(fLnkPortCableSeenNode p, node.toNat), (fLnkPortCableSeenPort p, port.val)]
  t.sendTrain p none (t.ownIdent p)

/-- IDENT is noted and answered; once this side's token comes back the round trip decides. -/
theorem exec_ident (node : Node) (port : Port) (token echo : BitVec 12) (rtt : BitVec 16) (hst : s.portState p = 1)
    (hph : s.fld (fLnkPortStatePhase p) = 3) :
    let u := identNoted s p node port token echo
    exec (.ident p node port token echo rtt (msgCrc (identMsg node.toNat port token.toNat echo.toNat))) s = .next (
      if echo.toNat = (s.portSt p).token then
        if rtt.toNat > 5600 then (u.setFld (fLnkPortStateRtt p) rtt.toNat).trainFail p 5
        else ((u.setFld (fLnkPortStateRtt p) rtt.toNat).setPhase p 4).offerWidth p
      else u) := by
  have hruns : ¬(!s.inPhase p phIdent) = true := not_inPhase (inPhase_iff.2 ⟨hst, hph⟩)
  show execIdent p node port token echo rtt _ s = _
  rw [execIdent, if_pos rfl, State.identIn, if_neg hruns]
  by_cases hback : echo.toNat = (s.portSt p).token
  · have hknown : ¬(!decide (echo.toNat = (s.portSt p).token)) = true := by simp [hback]
    rw [if_pos hback]
    exact congrArg Host.Outcome.next (if_neg hknown)
  · have hunknown : (!decide (echo.toNat = (s.portSt p).token)) = true := by simp [hback]
    rw [if_neg hback]
    exact congrArg Host.Outcome.next (if_pos hunknown)

/-- The state once a peer's WIDTH is noted. -/
def widthNoted (s : State) (p : Port) (wmin : BitVec 5) : State := s.modPort p (fun y => { y with minPeer := wmin.toNat })

section Widths

variable {w wmin : BitVec 5} {bad : BitVec 34} {mine own : Nat}
  (hst : s.portState p = 1) (hph : s.fld (fLnkPortStatePhase p) = 4) (hsib : s.pastEqualize (siblingOf p) = true)

include hst hph hsib

/-- In WIDTH, with the sibling past EQUALIZE, the peer's WIDTH is looked at. -/
theorem exec_width (hmine : widthOf (s.workingList p).length = mine) (hown : s.fld (fLnkPortStateWidthMin p) = own) :
    let s2 := if s.stepDone 8 = true then (widthNoted s p wmin).checkCable p else widthNoted s p wmin
    exec (.width p w wmin bad (msgCrc (widthMsg w.toNat wmin.toNat bad.toNat))) s = .next (
      if w.toNat ≠ mine ∨ bad.toNat ≠ s.badMap (engineOf p) then widthNoted s p wmin
      else if own ≤ mine ∧ wmin.toNat ≤ mine then (widthNoted s p wmin).portPlain p
      else if s2.portState p ≠ 1 then s2
      else s2.portDown p 4 (if mine < own then 6 else 8)) := by
  have hruns : ¬((!s.inPhase p phWidth) = true ∨ (!s.pastEqualize (siblingOf p)) = true) := by
    simp [inPhase_iff.2 ⟨hst, hph⟩, phWidth, hsib]
  show execWidth p w wmin bad _ s = _
  rw [execWidth, if_pos rfl, State.widthIn, if_neg hruns, ← hmine, ← hown]
  rfl

/-- Sides that differ on the width or the bitmap wait for the next WIDTH. -/
theorem exec_width_differs (h : w.toNat ≠ widthOf (s.workingList p).length ∨ bad.toNat ≠ s.badMap (engineOf p)) :
    exec (.width p w wmin bad (msgCrc (widthMsg w.toNat wmin.toNat bad.toNat))) s = .next (widthNoted s p wmin) := by
  rw [exec_width hst hph hsib rfl rfl, if_pos h]

variable (hmine : widthOf (s.workingList p).length = mine) (hown : s.fld (fLnkPortStateWidthMin p) = own)
  (hw : w.toNat = mine) (hbad : bad.toNat = s.badMap (engineOf p))

include hmine hown hw hbad

/-- A width that both sides allow brings the port up. -/
theorem exec_width_wide (h : own ≤ mine ∧ wmin.toNat ≤ mine) :
    exec (.width p w wmin bad (msgCrc (widthMsg w.toNat wmin.toNat bad.toNat))) s = .next ((widthNoted s p wmin).portPlain p) := by
  rw [exec_width hst hph hsib hmine hown, if_neg (by simp [hw, hbad]), if_pos h]

/-- One that a side does not allow disables the port, before CABLING. -/
theorem exec_width_narrow (h : ¬(own ≤ mine ∧ wmin.toNat ≤ mine)) (hstep : s.stepDone 8 = false) :
    exec (.width p w wmin bad (msgCrc (widthMsg w.toNat wmin.toNat bad.toNat))) s = .next
      ((widthNoted s p wmin).portDown p 4 (if mine < own then 6 else 8)) := by
  have htrains : ¬(widthNoted s p wmin).portState p ≠ 1 := not_not.2 hst
  rw [exec_width hst hph hsib hmine hown, if_neg (by simp [hw, hbad]), if_neg h, if_neg (Bool.eq_false_iff.1 hstep), if_neg htrains]

/-- After CABLING the plan is looked at first, and what the plan leaves in training is disabled. -/
theorem exec_width_narrow_cabled (h : ¬(own ≤ mine ∧ wmin.toNat ≤ mine)) (hstep : s.stepDone 8 = true) :
    exec (.width p w wmin bad (msgCrc (widthMsg w.toNat wmin.toNat bad.toNat))) s = .next (
      if ((widthNoted s p wmin).checkCable p).portState p ≠ 1 then (widthNoted s p wmin).checkCable p
      else ((widthNoted s p wmin).checkCable p).portDown p 4 (if mine < own then 6 else 8)) := by
  rw [exec_width hst hph hsib hmine hown, if_neg (by simp [hw, hbad]), if_neg h, if_pos hstep]

end Widths

/-! ### ABORT, messages that do not hold, timeouts (R267–R269) -/

variable {msg : Word} {crc : BitVec 32} {rtt : BitVec 16}

theorem exec_abort (hst : s.portState p = 1) (reason : Byte) : exec (.abort p reason (msgCrc (abortMsg reason.toNat))) s = .next
    (s.startTraining p (s.portSt p).retried) := by
  show execAbort p reason _ s = _
  rw [execAbort, if_pos rfl, State.abortIn]
  exact congrArg Host.Outcome.next (if_pos hst)

/-- On a training port a superframe's message acts where its CRC holds. -/
theorem exec_trainingSuperframe (hst : s.portState p = 1) : exec (.trainingSuperframe p lane msg crc rtt) s = .next
    (if crc ≠ msgCrc msg then s else s.messageIn p lane msg.toNat rtt.toNat) := by
  have hfailed : ¬(s.portState p = stFailed ∧ s.mayTrain p = true) := fun h => by
    have := hst.symm.trans h.1
    contradiction
  show execTrainingSuperframe p lane msg crc rtt s = _
  rw [execTrainingSuperframe, if_neg hfailed]
  simp [hst, stTraining]

/-- ABORT as a superframe's message. -/
theorem exec_trainingSuperframe_abort (hst : s.portState p = 1) (hmsg : bitsOf msg.toNat 63 60 = 6) :
    exec (.trainingSuperframe p lane msg (msgCrc msg) rtt) s = .next (s.startTraining p (s.portSt p).retried) := by
  rw [exec_trainingSuperframe hst, if_neg (not_not.2 rfl), State.messageIn]
  simp only [hmsg]
  rw [State.abortIn]
  exact congrArg Host.Outcome.next (if_pos hst)

theorem exec_trainingTimeout (hst : s.portState p = 1) {ph : Nat} (hph : s.fld (fLnkPortStatePhase p) = ph) :
    (ph = 0 → exec (.trainingTimeout p) s = .next (s.trainFail p 1))
    ∧ (ph = 1 → exec (.trainingTimeout p) s = .next
      (if ((s.portSt p).locked.filter (dataLanes p).contains).length ≥ 4 then s.lockEnd p else s.trainFail p 2)) := by
  have hruns : ¬s.portState p ≠ stTraining := not_not.2 hst
  have hdo : exec (.trainingTimeout p) s = execTrainingTimeout p s := rfl
  rw [hdo, execTrainingTimeout, if_neg hruns, hph]
  exact ⟨fun h => by rw [h]; rfl, fun h => by rw [h]; rfl⟩

/-! ### Ports that failed, eyes, and requests (R280–R282) -/

theorem exec_retrainTimer_failed (hst : s.portState p = 5) (hmay : s.mayTrain p = true) :
    exec (.retrainTimer p) s = .next (s.startTraining p true) := congrArg Host.Outcome.next (if_pos ⟨hst, hmay⟩)

theorem exec_trainingSuperframe_failed (hst : s.portState p = 5) (hmay : s.mayTrain p = true) :
    exec (.trainingSuperframe p lane msg crc rtt) s = .next (s.startTraining p true) := congrArg Host.Outcome.next (if_pos ⟨hst, hmay⟩)

theorem exec_eyeMarginSweep_idle {oe : Fin 16} {w0 h0 w1 h1 : Byte} (hup : (s.portUp (2 * oe.val) || s.portUp (2 * oe.val + 1)) = true)
    (h32 : s.spareIdle oe 32 = true) (h33 : s.spareIdle oe 33 = true) : exec (.eyeMarginSweep oe w0 h0 w1 h1) s = .next
      ((s.setFlds [(fLnkOeStatS0Width oe, w0.toNat), (fLnkOeStatS0Height oe, h0.toNat)]).setFlds
        [(fLnkOeStatS1Width oe, w1.toNat), (fLnkOeStatS1Height oe, h1.toNat)]) := by
  show execEyeMarginSweep oe w0 h0 w1 h1 s = _
  rw [execEyeMarginSweep]
  simp only [hup, h32, h33, Bool.and_self, if_true]

/-- A request's write of LNK.CTL: go is set, port and defer are the host's. -/
theorem exec_portRetrain {v : Word} (h : Taken s rLnkCtl) :
    let q := getBits v fLnkCtlPort
    let t := s.writeUnder takesAll rLnkCtl (putBits v fLnkCtlGo 1)
    exec (.portRetrain v) s = .next (
      if s.bit fLnkCtlBusy = true then t
      else if s.portState q = 1 then t.lnkStatus 0
      else if (!s.mayTrain q) = true ∨ s.portState q = 0 then t.lnkStatus 4
      else if s.portUp q = true then
        if s.quiesced = true then t.askRetrain q
        else if getBits v fLnkCtlDefer = 1 then ({ t with lnk := { t.lnk with waiting := some q } }).setFld fLnkCtlBusy 1
        else t.lnkStatus 2
      else t.askRetrain q) := by
  have hgo : getBits (putBits v fLnkCtlGo 1) fLnkCtlGo = 1 := getBits_putBits_one v (by decide) (by decide)
  have hport : getBits (putBits v fLnkCtlGo 1) fLnkCtlPort = getBits v fLnkCtlPort := getBits_putBits_other _ _ _ _ (by decide) (by decide)
  have hdefer : getBits (putBits v fLnkCtlGo 1) fLnkCtlDefer = getBits v fLnkCtlDefer := getBits_putBits_other _ _ _ _ (by decide) (by decide)
  show execPortRetrain v s = _
  rw [execPortRetrain, hostWrite_taken _ _ _ h, State.lnkCtlWrite, hgo, hport, hdefer]
  simp only [Nat.one_ne_zero, false_or]
  rfl

/-- A request for a port that may train and neither trains nor is dark: at once where it is down or no partition is open, else later or not at all. -/
theorem exec_portRetrain_idle {v : Word} (h : Taken s rLnkCtl) (hfree : s.fld fLnkCtlBusy = 0) (hmay : s.mayTrain (getBits v fLnkCtlPort) = true)
    (hrest : s.portState (getBits v fLnkCtlPort) ≠ 1) (hlight : s.portState (getBits v fLnkCtlPort) ≠ 0) :
    let q := getBits v fLnkCtlPort
    let t := s.writeUnder takesAll rLnkCtl (putBits v fLnkCtlGo 1)
    exec (.portRetrain v) s = .next (
      if s.portUp q = true then
        if s.quiesced = true then t.askRetrain q
        else if getBits v fLnkCtlDefer = 1 then ({ t with lnk := { t.lnk with waiting := some q } }).setFld fLnkCtlBusy 1
        else t.lnkStatus 2
      else t.askRetrain q) := by
  have hidle : ¬s.bit fLnkCtlBusy = true := by simp [State.bit, hfree]
  have hallowed : ¬((!s.mayTrain (getBits v fLnkCtlPort)) = true ∨ s.portState (getBits v fLnkCtlPort) = 0) := by simp [hmay, hlight]
  rw [exec_portRetrain h, if_neg hidle, if_neg hrest, if_neg hallowed]

/-- The request that waits, as a quiesce begins. -/
theorem exec_deferredRetrainStart {q : Nat} (h : s.lnk.waiting = some q) : exec .deferredRetrainStart s = .next (
    if (!s.quiesced) = true then s
    else if s.portState q = 1 then ({ s with lnk := { s.lnk with waiting := none } } : State).lnkStatus 0
    else if (!s.mayTrain q) = true then ({ s with lnk := { s.lnk with waiting := none } } : State).lnkStatus 4
    else ({ s with lnk := { s.lnk with waiting := none } } : State).askRetrain q) := by
  show execDeferredRetrainStart s = _
  rw [execDeferredRetrainStart, h]
  rfl

end Training

/-- Settles O44: taps and accepted lanes by `exec_tapReq_applied` and `exec_prbsCount`, IDENT by `exec_ident`, WIDTH by `exec_width`, a request of the
host by `exec_portRetrain`. -/
theorem linkTraining : Obligations.LinkTraining := by
  unfold Obligations.LinkTraining
  intro p lane s
  dsimp only
  refine ⟨fun hst => ⟨fun r => exec_tapReq_applied hst, fun r crc => exec_tapReq_ignored, fun num t res => exec_tapStat_noted hst,
      fun hph hlane hgood hopen => ⟨fun errors hfew hdata => ?_, fun errors hfew hspare => ?_, fun errors hmany => ?_⟩,
      fun lanes => exec_laneDone_equalize hst, ?_, ?_, exec_abort hst, fun msg rtt => exec_trainingSuperframe_abort hst, fun msg crc rtt hcrc => ?_,
      fun hph => (exec_trainingTimeout hst hph).1 rfl, fun hph hfew => ?_, fun hph hmany => ?_⟩,
    fun hst hmay => ⟨exec_retrainTimer_failed hst hmay, fun msg crc rtt => exec_trainingSuperframe_failed hst hmay⟩,
    fun oe w0 h0 w1 h1 => exec_eyeMarginSweep_idle, fun v hv => ⟨fun hbusy => ?_, fun hfree => ?_⟩,
    fun q hq => ⟨fun hquiet hst hmay => ?_, fun hopen => ?_⟩⟩
  · rw [exec_prbsCount hst hph hlane hgood hopen, if_pos hfew, if_neg (Nat.not_le.2 hdata)]
    rfl
  · rw [exec_prbsCount hst hph hlane hgood hopen, if_pos hfew, if_pos hspare]
    rfl
  · rw [exec_prbsCount hst hph hlane hgood hopen, if_neg (Nat.not_lt.2 hmany)]
  · intro node port token echo rtt hph
    have hident := exec_ident node port token echo rtt hst hph
    refine ⟨fun hother => ?_, fun hback hnear => ?_, fun hback hfar => ?_⟩
    · exact hident.trans (congrArg Host.Outcome.next (if_neg hother))
    · exact hident.trans (congrArg Host.Outcome.next ((if_pos hback).trans (if_neg (Nat.not_lt.2 hnear))))
    · exact hident.trans (congrArg Host.Outcome.next ((if_pos hback).trans (if_pos hfar)))
  · intro w wmin bad hph hsib
    refine ⟨fun hw hbad => ⟨fun hown hpeer => exec_width_wide hst hph hsib rfl rfl hw hbad ⟨hown, hpeer⟩,
      fun hstep => ⟨fun hless => ?_, fun hown hless => ?_⟩, fun hstep hless => ?_⟩, exec_width_differs hst hph hsib⟩
    · rw [exec_width_narrow hst hph hsib rfl rfl hw hbad (fun h => Nat.not_le.2 hless h.1) hstep, if_pos hless]
      rfl
    · rw [exec_width_narrow hst hph hsib rfl rfl hw hbad (fun h => Nat.not_le.2 hless h.2) hstep, if_neg (Nat.not_lt.2 hown)]
      rfl
    · rw [exec_width_narrow_cabled hst hph hsib rfl rfl hw hbad (fun h => hless.elim (Nat.not_lt.2 h.1) (Nat.not_lt.2 h.2)) hstep]
      exact ⟨fun hdown => congrArg Host.Outcome.next (if_pos hdown), fun htrains => congrArg Host.Outcome.next (if_neg (not_not.2 htrains))⟩
  · rw [exec_trainingSuperframe hst, if_pos hcrc]
  · rw [(exec_trainingTimeout hst hph).2 rfl, if_neg (Nat.not_le.2 hfew)]
  · rw [(exec_trainingTimeout hst hph).2 rfl, if_pos hmany]
  · have hbit : s.bit fLnkCtlBusy = true := beq_iff_eq.2 hbusy
    rw [exec_portRetrain hv, if_pos hbit]
  · have hidle : ¬s.bit fLnkCtlBusy = true := by simp [State.bit, hfree]
    refine ⟨fun hst hmay => ?_, fun hup hmay hquiet => ?_, fun hup hmay hopen hdefer => ?_, fun hup hmay hopen hnow => ?_,
      fun hst => ?_, fun hst => ?_⟩
    · have hdown := portUp_false_iff.2 (show s.portState (getBits v fLnkCtlPort) ≠ 2 ∧ s.portState (getBits v fLnkCtlPort) ≠ 3 by omega)
      rw [exec_portRetrain_idle hv hfree hmay (by omega) (by omega), if_neg (Bool.eq_false_iff.1 hdown)]
    · obtain ⟨hrest, hlight⟩ := lit_of_portUp hup
      rw [exec_portRetrain_idle hv hfree hmay hrest hlight, if_pos hup, if_pos hquiet]
    · obtain ⟨hrest, hlight⟩ := lit_of_portUp hup
      rw [exec_portRetrain_idle hv hfree hmay hrest hlight, if_pos hup, if_neg (Bool.eq_false_iff.1 hopen), if_pos hdefer]
    · obtain ⟨hrest, hlight⟩ := lit_of_portUp hup
      have hnot : ¬getBits v fLnkCtlDefer = 1 := by omega
      rw [exec_portRetrain_idle hv hfree hmay hrest hlight, if_pos hup, if_neg (Bool.eq_false_iff.1 hopen), if_neg hnot]
    · rw [exec_portRetrain hv, if_neg hidle, if_pos hst]
    · have hrest : ¬s.portState (getBits v fLnkCtlPort) = 1 := by omega
      rw [exec_portRetrain hv, if_neg hidle, if_neg hrest, if_pos (.inr hst)]
  · have hrest : s.portState q ≠ 1 := hst
    rw [exec_deferredRetrainStart hq, if_neg (by simp [hquiet]), if_neg hrest, if_neg (by simp [hmay])]
  · rw [exec_deferredRetrainStart hq, if_pos (by simp [hopen])]

end Sys2Proof.Proofs
end

section
/-! SUPPORT. Routing and fabric time (R288–R298, R328–R330): what the router does with a packet by its kind, its age and the route changes in
force, the source of time among the neighbours, what fabric time's commands do; the statement on them. -/

namespace Sys2Proof.Proofs

open Sys2Proof Sys2Proof.Machine

/-! ### Packets at the router (R288, R289, R291, R298) -/

section Routers

variable {s : State} {p : Pkt}

theorem exec_routerForward_unknown (o : Option Port) (h : knownKind p.kind.toNat = false) :
    exec (.routerForward p o) s = .next (s.log
      { code := 0x0405, kind := 8, unit := routerOf (o.map Fin.val), detail := leBytes 1 p.kind.toNat }) :=
  congrArg Host.Outcome.next (if_pos (by rw [h]; rfl))

theorem exec_routerForward_aged (q : Port) (h : knownKind p.kind.toNat = true) (hage : s.aged p = true) :
    exec (.routerForward p (some q)) s = .next (s.bump fRteErrAged 1) :=
  congrArg Host.Outcome.next ((if_neg (by simp [h])).trans (if_pos hage))

theorem exec_routerForward_young (q : Port) (h : knownKind p.kind.toNat = true) (hage : s.aged p = false) :
    exec (.routerForward p (some q)) s = .next (s.routePacket p (some q.val)) :=
  congrArg Host.Outcome.next ((if_neg (by simp [h])).trans (if_neg (by simp [hage])))

theorem exec_routerForward_own (h : knownKind p.kind.toNat = true) :
    exec (.routerForward p none) s = .next (s.routePacket
      { p with stamp := BitVec.ofNat 8 s.usNow, stage := 0, phase := 0, last := 7, adv := false } none) :=
  congrArg Host.Outcome.next (if_neg (by simp [h]))

/-- Packets that are held leave in order, stamped anew, each by the changes still in force. -/
theorem exec_holdRelease : exec .holdRelease s = .next (s.rte.held.foldl
    (fun u x => u.routePacket { x.1 with stamp := BitVec.ofNat 8 u.usNow } x.2)
    { s with rte := { s.rte with held := [], changes := s.rte.changes.drop 1 } }) := rfl

/-- A packet is aged or young, by the same difference of times. -/
theorem aged_eq_not_young : s.aged p = !decide ((s.usNow + 256 - p.stamp.toNat) % 256 < 64) := by
  rw [State.aged, ← decide_not, decide_eq_decide, Nat.not_lt]

theorem not_moved_iff : s.moved p = false ↔
    ∀ c ∈ s.rte.changes, ((s.routeView.before c).nextHop p).portOf = (s.routeView.nextHop p).portOf := by
  simp [State.moved]

theorem moved_of_change {c : Nat × Nat × List Word} (hc : c ∈ s.rte.changes)
    (h : ((s.routeView.before c).nextHop p).portOf ≠ (s.routeView.nextHop p).portOf) : s.moved p = true :=
  List.any_eq_true.mpr ⟨c, hc, bne_iff_ne.mpr h⟩

theorem routePacket_moved (o : Option Nat) (h : s.moved p = true) :
    s.routePacket p o = { s with rte := { s.rte with held := s.rte.held ++ [(p, o)] } } := if_pos h

theorem routePacket_still (o : Option Nat) (h : s.moved p = false) : s.routePacket p o = s.takeHop (s.routeView.nextHop p) p o :=
  if_neg (by simp [h])

theorem routerOf_some (n : Nat) : routerOf (some n) = if 16 ≤ n then 1 else 0 := by
  simp only [routerOf, Option.any_some, ofBool, decide_eq_true_eq, ge_iff_le]

/-- A packet without a next hop is counted, and a request is answered by a refusal (R291). -/
theorem takeHop_unreachable (o : Option Nat) : s.takeHop .unreachable p o =
    if pktClass p = 0 ∧ p.tunnel = false then
      ((s.bump fRteErrUnreachable 1).log { code := 0x0404, kind := 8, unit := routerOf o, action := 0, detail := leBytes 2 p.dst.toNat }).sendPkt
        pkRefused p.src (pktFrame p) (replyBody (field p.body 12 4) 7 []) []
    else s.bump fRteErrUnreachable 1 := by
  simp only [State.takeHop, Bool.not_eq_true']
  rfl

end Routers

/-! ### Route updates (R294) -/

section Updates

variable {s : State} {m : RouteMsg}

theorem exec_routeUpdate_newer (hpos : m.pos.toNat ≠ posOf s.node)
    (h : ∀ g, lookupKey s.rte.updates m.pos.toNat = some g → newer16 m.gen.toNat g = true) :
    exec (.routeUpdate m) s = .next (((({ s with rte := { s.rte with
      updates := insertKey s.rte.updates m.pos.toNat m.gen.toNat } } : State).setGateways m.pos.toNat (m.works.take 7)).routeChanged
        s.routeView).flood (some m.arrived.val) (updateData m.pos.toNat m.gen.toNat m.works)) := by
  have hfresh : (lookupKey s.rte.updates m.pos.toNat).any (fun g => !newer16 m.gen.toNat g) = false := by
    cases hg : lookupKey s.rte.updates m.pos.toNat with
    | none => rfl
    | some g => simp [h g hg]
  exact congrArg Host.Outcome.next (if_neg (by simp [hpos, hfresh]))

theorem exec_routeUpdate_stale {g : Nat} (hg : lookupKey s.rte.updates m.pos.toNat = some g) (h : newer16 m.gen.toNat g = false) :
    exec (.routeUpdate m) s = .next s :=
  congrArg Host.Outcome.next (if_pos (.inr (by simp [hg, h])))

end Updates

/-! ### The source of time (R328) -/

section Sources

variable {s : State} {master : Bool}

/-- Can a neighbour be the source of time: over a sealed port, and for a module that is no master over a local one? -/
def canSource (s : State) (master : Bool) (x : TimePeer) : Bool := s.portState x.port == stSealed && (master || decide (x.port.val < 28))

/-- A neighbour's distance to the hall root, or to the rack master. -/
def sourceDist (master : Bool) (x : TimePeer) : Nat := if master then x.hall.toNat else x.rack.toNat

/-- A neighbour is no worse a source than another: nearer, or as near with no higher node ID. -/
def NoWorse (master : Bool) (x y : TimePeer) : Prop :=
  sourceDist master x < sourceDist master y ∨ (sourceDist master x = sourceDist master y ∧ x.node.toNat ≤ y.node.toNat)

/-- The better of two neighbours, the first where neither is. -/
def better (master : Bool) (b q : TimePeer) : TimePeer :=
  if sourceDist master q < sourceDist master b ∨ (sourceDist master q = sourceDist master b ∧ q.node.toNat < b.node.toNat) then q else b

theorem NoWorse.trans {x y z : TimePeer} (hxy : NoWorse master x y) (hyz : NoWorse master y z) : NoWorse master x z := by
  unfold NoWorse at *
  omega

theorem better_noWorse (b q : TimePeer) : NoWorse master (better master b q) b ∧ NoWorse master (better master b q) q := by
  unfold better NoWorse
  split <;> omega

/-- The best of a list after a first neighbour is one of them, and no worse than any. -/
theorem foldl_better_spec (l : List TimePeer) (b : TimePeer) :
    l.foldl (better master) b ∈ b :: l ∧ ∀ y ∈ b :: l, NoWorse master (l.foldl (better master) b) y := by
  induction l generalizing b with
  | nil => exact ⟨List.mem_cons_self, fun y hy => by rw [List.mem_singleton.mp hy]; exact .inr ⟨rfl, Nat.le_refl _⟩⟩
  | cons q t ih =>
    obtain ⟨hmem, hbest⟩ := ih (better master b q)
    obtain ⟨hb, hq⟩ := better_noWorse (master := master) b q
    have hfirst := hbest _ List.mem_cons_self
    refine ⟨?_, fun y hy => ?_⟩
    · rcases List.mem_cons.mp hmem with h | h
      · rw [List.foldl_cons, h, better]
        split <;> simp
      · exact List.mem_cons_of_mem _ (List.mem_cons_of_mem _ h)
    · rcases List.mem_cons.mp hy with rfl | hy
      · exact hfirst.trans hb
      · rcases List.mem_cons.mp hy with rfl | hy
        · exact hfirst.trans hq
        · exact hbest y (List.mem_cons_of_mem _ hy)

/-- The choice of the upstream is the best of the neighbours that can be it. -/
theorem pickUpstream_eq (peers : List TimePeer) : s.pickUpstream master peers = match peers.filter (canSource s master) with
    | [] => none
    | b :: l => some (l.foldl (better master) b) := by
  have hfold (l : List TimePeer) (b : TimePeer) : l.foldl (fun (best : Option TimePeer) (q : TimePeer) => match best with
      | none => some q
      | some b => if sourceDist master q < sourceDist master b ∨ (sourceDist master q = sourceDist master b ∧ q.node.toNat < b.node.toNat)
          then some q else some b) (some b) = some (l.foldl (better master) b) := by
    induction l generalizing b with
    | nil => rfl
    | cons q t ih => rw [List.foldl_cons, List.foldl_cons, ← ih, better, apply_ite some]
  unfold State.pickUpstream
  change (peers.filter (canSource s master)).foldl _ none = _
  cases peers.filter (canSource s master) with
  | nil => rfl
  | cons b l => exact hfold l b

theorem pickUpstream_none_iff (peers : List TimePeer) :
    s.pickUpstream master peers = none ↔ peers.all (fun x => !canSource s master x) = true := by
  rw [pickUpstream_eq]
  cases h : peers.filter (canSource s master) with
  | nil => simpa using h
  | cons b l =>
    have hb : b ∈ peers.filter (canSource s master) := h ▸ List.mem_cons_self
    simpa using ⟨b, List.mem_filter.mp hb⟩

theorem pickUpstream_some {peers : List TimePeer} {x : TimePeer} (h : s.pickUpstream master peers = some x) :
    x ∈ peers ∧ canSource s master x = true ∧ ∀ y ∈ peers, canSource s master y = true → NoWorse master x y := by
  rw [pickUpstream_eq] at h
  cases hl : peers.filter (canSource s master) with
  | nil => simp [hl] at h
  | cons b l =>
    simp only [hl, Option.some.injEq] at h
    obtain ⟨hmem, hbest⟩ := foldl_better_spec (master := master) l b
    rw [h, ← hl] at hmem hbest
    obtain ⟨hin, hcan⟩ := List.mem_filter.mp hmem
    exact ⟨hin, hcan, fun y hy hc => hbest y (List.mem_filter.mpr ⟨hy, hc⟩)⟩

end Sources

/-! ### Fabric time (R329, R330) -/

section Times

variable {s : State}

theorem bit_of_fld_zero {f : Fld} (h : s.fld f = 0) : s.bit f = false := by simp [State.bit, h]

theorem exec_timeSyncTick_asks (hj : s.fld fRteStateJoined = 1) (hv : s.fld fRteStateUpValid = 1) (hup : s.portUp (s.fld fRteStateUpstream) = true) :
    let d := max (-5) (min 5 s.rte.slew)
    let slewed : State := { s with rte := { s.rte with offset := s.rte.offset + d, slew := s.rte.slew - d } }
    exec .timeSyncTick s = .next (({ slewed with rte := { slewed.rte with asked := some slewed.fabTime } }).sendCtl
      (s.fld fRteStateUpstream) 0x20 (leBytes 8 slewed.fabTime)) :=
  congrArg Host.Outcome.next ((if_neg (by simp [bit_of_fld hj])).trans (if_neg (by simp [bit_of_fld hv, hup])))

theorem exec_timeSyncTick_holds (hj : s.fld fRteStateJoined = 1)
    (h : s.fld fRteStateUpValid = 0 ∨ s.portUp (s.fld fRteStateUpstream) = false) : exec .timeSyncTick s = .next s.holdTime := by
  have hlost : (!s.bit fRteStateUpValid) = true ∨ (!s.portUp (s.fld fRteStateUpstream)) = true :=
    h.imp (fun hv => by rw [bit_of_fld_zero hv]; rfl) fun hup => by rw [hup]; rfl
  exact congrArg Host.Outcome.next ((if_neg (by simp [bit_of_fld hj])).trans (if_pos hlost))

theorem exec_upstreamTimeout (hj : s.fld fRteStateJoined = 1) (joined : List Node) (peers : List TimePeer) :
    exec (.upstreamTimeout joined peers) s = .next (s.chooseTime joined peers) :=
  congrArg Host.Outcome.next (if_neg (by simp [bit_of_fld hj]))

theorem chooseTime_root {joined : List Node} (h : s.isRoot joined = true) (peers : List TimePeer) :
    s.chooseTime joined peers = (s.holdTime.setFld fRteStateMaster (ofBool (s.isMaster joined))).asRoot := if_pos h

theorem chooseTime_upstream {joined : List Node} {peers : List TimePeer} {x : TimePeer} (h : s.isRoot joined = false)
    (hx : s.pickUpstream (s.isMaster joined) peers = some x) :
    s.chooseTime joined peers = (s.holdTime.setFld fRteStateMaster (ofBool (s.isMaster joined))).setFlds
      [(fRteStateTimeRoot, (joined.map BitVec.toNat).foldl min s.node.toNat), (fRteStateDistance, min 255 (x.hall.toNat + 1)),
        (fRteStateUpValid, 1), (fRteStateUpstream, x.port), (fRteStateTimeLocked, 1)] := by
  simp only [State.chooseTime, h, hx, Bool.false_eq_true, if_false]

theorem chooseTime_alone {joined : List Node} {peers : List TimePeer} (h : s.isRoot joined = false)
    (hx : s.pickUpstream (s.isMaster joined) peers = none) :
    s.chooseTime joined peers = (s.holdTime.setFld fRteStateMaster (ofBool (s.isMaster joined))).setFlds
      [(fRteStateUpValid, 0), (fRteStateTimeLocked, 0)] := by
  simp only [State.chooseTime, h, hx, Bool.false_eq_true, if_false]

theorem exec_timeReq (p : Port) (t1 : Word) (h : s.portUp p = true) : exec (.timeReq p t1) s = .next (s.sendCtl p 0x21
    (leBytes 8 s.fabTime ++ leBytes 8 s.fabTime ++ leBytes 2 (s.fld fRteStateDistance) ++ leBytes 2 (s.fld fRteStateTimeRoot))) :=
  congrArg Host.Outcome.next (if_neg (by simp [h]))

/-- An answer from upstream to the question that is open. -/
theorem exec_timeRsp {p : Port} {t2 t3 : Word} {distance : BitVec 16} {root : Node} {a : Nat} (hv : s.fld fRteStateUpValid = 1)
    (hp : s.fld fRteStateUpstream = p.val) (ha : s.rte.asked = some a) : exec (.timeRsp p t2 t3 distance root) s = .next
      (if s.node.toNat ≤ root.toNat then s.asRoot
        else ({ s with rte := { s.rte with
          slew := (((t2.toNat : Int) - a) - ((s.fabTime : Int) - t3.toNat)) / 2, asked := none } }).setFlds
            [(fRteStateDistance, min 255 (distance.toNat + 1)), (fRteStateTimeRoot, root.toNat)]) := by
  refine congrArg Host.Outcome.next ((if_neg (by simp [bit_of_fld hv, hp])).trans ?_)
  simp only [ha]

end Times

/-- Settles O40: packets by kind, age and route changes, updates by generation, time by what is left of the upstream. -/
theorem routingAndTime : Obligations.RoutingAndTime := by
  unfold Obligations.RoutingAndTime
  intro p q pr m t1 t2 t3 distance root joined peers s h fresh young router send
  have hrouter (o : Option Nat) : routerOf o = router o := by
    cases o with
    | none => rfl
    | some n => exact routerOf_some n
  have hsend (x : State) (k : Pkt) (o : Option Nat) : x.takeHop (x.routeView.nextHop k) k o = send x k o := by
    simp only [send]
    cases x.routeView.nextHop k with
    | here => rfl
    | port n y d => rfl
    | unreachable => exact (takeHop_unreachable o).trans (by rw [hrouter])
  have hroute (x : State) (k : Pkt) (o : Option Nat) : x.routePacket k o
      = if x.moved k then { x with rte := { x.rte with held := x.rte.held ++ [(k, o)] } } else send x k o := by
    rw [State.routePacket, hsend]
  have hage : s.aged p = !young := aged_eq_not_young
  refine ⟨fun o hk => ?_, fun hk => ⟨fun hy => ?_, fun hy hsame => ?_, fun c hc hy hmoved => ?_, fun hnone => ?_⟩, ?_,
    fun hpos => ⟨fun hnew => ?_, fun g hg hold => ?_⟩, fun master => ?_, fun hj => ?_, fun hup => exec_timeReq pr t1 hup,
    fun a hv hp ha => ⟨fun hroot => ?_, fun hroot => ?_⟩⟩
  · rw [← hrouter]
    exact exec_routerForward_unknown o hk
  · exact exec_routerForward_aged q hk (by rw [hage, hy]; rfl)
  · rw [exec_routerForward_young q hk (by rw [hage, hy]; rfl), routePacket_still _ (not_moved_iff.mpr hsame), hsend]
  · rw [exec_routerForward_young q hk (by rw [hage, hy]; rfl), routePacket_moved _ (moved_of_change hc hmoved)]
  · rw [exec_routerForward_own hk, routePacket_still _ (not_moved_iff.mpr (by simp [hnone])), hsend]
  · rw [exec_holdRelease]
    simp only [hroute]
  · exact exec_routeUpdate_newer hpos hnew
  · exact exec_routeUpdate_stale hg hold
  · exact ⟨pickUpstream_none_iff peers, fun x hx => pickUpstream_some hx⟩
  · refine ⟨exec_timeSyncTick_asks hj, exec_timeSyncTick_holds hj, fun hroot => ?_, fun x hroot hx => ?_, fun hroot hx => ?_⟩
    · rw [exec_upstreamTimeout hj, chooseTime_root hroot]
      rfl
    · rw [exec_upstreamTimeout hj, chooseTime_upstream hroot hx]
      rfl
    · rw [exec_upstreamTimeout hj, chooseTime_alone hroot hx]
      rfl
  · rw [exec_timeRsp hv hp ha, if_neg (Nat.not_le.mpr hroot)]
  · rw [exec_timeRsp hv hp ha, if_pos hroot]

end Sys2Proof.Proofs
end

section
/-! SUPPORT. Groups (R301–R308, R333, R334): what a write of GRP.CMD leaves, CREATE, JOIN and DESTROY by their checks, the steps of a formation at
the leader and at the modules of its tree; the statement on them. -/

namespace Sys2Proof.Proofs

open Sys2Proof Sys2Proof.Machine

/-! ### What a command leaves of the state -/

section Frame

variable {s t : State}

/-- A state that differs from another in GRP.CMD alone, as a command and its result leave it. -/
structure CmdOnly (s t : State) : Prop where
  reg : ∀ off, off ≠ rGrpCmd → t.reg off = s.reg off
  rest : { t with regs := s.regs } = s

theorem CmdOnly.writeUnder (takes : Acc → Bool) (w : Word) : CmdOnly s (s.writeUnder takes rGrpCmd w) :=
  ⟨fun _ h => reg_writeUnder_off takes w h, writeUnder_keeps (fun u => { u with regs := s.regs }) (fun _ _ _ => rfl) takes rGrpCmd w⟩

theorem CmdOnly.setFld (h : CmdOnly s t) {f : Fld} (hf : f.off = rGrpCmd) (n : Nat) : CmdOnly s (t.setFld f n) :=
  ⟨fun off ho => (reg_setReg_other _ _ (by rwa [hf])).trans (h.reg off ho), h.rest⟩

theorem CmdOnly.fld (h : CmdOnly s t) {g : Fld} (hg : g.off ≠ rGrpCmd) : t.fld g = s.fld g := by
  rw [State.fld, h.reg _ hg, State.fld]

/-- What no register takes part in is the same. -/
theorem CmdOnly.same {β : Type} (h : CmdOnly s t) (f : State → β) (hf : ∀ u r, f { u with regs := r } = f u) : f t = f s :=
  (hf t s.regs).symm.trans (congrArg f h.rest)

theorem CmdOnly.inflight (h : CmdOnly s t) : t.grp.inflight = s.grp.inflight := h.same (·.grp.inflight) fun _ _ => rfl
theorem CmdOnly.node (h : CmdOnly s t) : t.node = s.node := h.same State.node fun _ _ => rfl
theorem CmdOnly.commOf (h : CmdOnly s t) (n : Nat) : t.commOf n = s.commOf n := h.same (State.commOf · n) fun _ _ => rfl
theorem CmdOnly.ledNodes (h : CmdOnly s t) (n : Nat) : t.ledNodes n = s.ledNodes n := h.same (State.ledNodes · n) fun _ _ => rfl
theorem CmdOnly.setupMsg (h : CmdOnly s t) (step : SetupStep) (key reason : Nat) :
    t.setupMsg step key reason = s.setupMsg step key reason :=
  h.same (State.setupMsg · step key reason) fun _ _ => rfl
theorem CmdOnly.gpaPieces (h : CmdOnly s t) (c va n perm : Nat) : t.gpaPieces c va n perm = s.gpaPieces c va n perm :=
  h.same (State.gpaPieces · c va n perm) fun _ _ => rfl

/-- The registers of a group lie beside GRP.CMD. -/
theorem groupFields_ne_cmd (n : Nat) : (fGrpGStateState n).off ≠ rGrpCmd ∧ (fGrpGStateLeader n).off ≠ rGrpCmd
    ∧ (fGrpGStateKey n).off ≠ rGrpCmd ∧ (fGrpGStatContext n).off ≠ rGrpCmd ∧ (fGrpGQstateHead n).off ≠ rGrpCmd
    ∧ (fGrpGQstateTail n).off ≠ rGrpCmd := by
  simp only [fGrpGStateState, fGrpGStateLeader, fGrpGStateKey, fGrpGStatContext, fGrpGQstateHead, fGrpGQstateTail, rGrpGState, rGrpGStat,
    rGrpGQstate, rGrpCmd]
  omega

end Frame

/-! ### CREATE and JOIN (R301, R302, R334) -/

section GroupStarts

variable {s : State} {v : Word} {c p i : Nat}

/-- The fields of a number that starts FORMING. -/
def formingFields (i lead members key c : Nat) : List (Fld × Nat) :=
  [(fGrpGStateReason i, 0), (fGrpGStateTunnelled i, 0), (fGrpGStateLeader i, lead), (fGrpGStateState i, 1), (fGrpGStateHub i, 0),
    (fGrpGStateRank i, 0), (fGrpGStateMembers i, members), (fGrpGStateKey i, key), (fGrpGStatContext i, c)]

/-- A formation is noted under its number. -/
def notedForming (s : State) (i : Nat) (f : Forming) : State := { s with grp := { s.grp with forming := insertKey s.grp.forming i f } }

theorem tryForm_noted (f : Forming) :
    (notedForming s i f).tryForm i = if f.ready then (notedForming s i f).formTree i f else notedForming s i f := by
  have : lookupKey (notedForming s i f).grp.forming i = some f := lookupKey_insertKey_same _ _ _
  simp only [State.tryForm, this]

/-- A leader that has asked no module is ready once it has met every other member of its map. -/
theorem ready_iff {f : Forming} (hl : f.leader = true) (ha : f.asked = []) : f.ready = true ↔ ∀ e ∈ f.map.drop 1, e.1 ∈ f.met := by
  simp [Forming.ready, hl, ha]

/-- A JOIN that passes its checks (R301, R334). -/
theorem groupJoin_forms (hv : getBits v fGrpCmdContext = c) (ha : s.active c = true) (hp : s.partOf c = some p) (ho : s.isOpen p = true)
    (hi : freeGroup s p = some i) (hroom : s.fld (fCtxQgroupsUse c) + 1 ≤ s.fld (fCtxQgroupsLimit c)) :
    s.groupJoin v = (notedForming ((((s.setFld fGrpCmdResult 0).setFld fGrpCmdNumber i).setGroupUse c (s.fld (fCtxQgroupsUse c) + 1)).setFlds
        (formingFields i 0 0 ((s.reg rGrpArg0).toNat % 2 ^ 22) c)) i ⟨0, false, [], s.fld fGrpArg1Timeout, [], [], []⟩).sendSetup
      ((s.reg rGrpArg0).toNat % 2 ^ 22 / 1024)
      { s.setupMsg .joined ((s.reg rGrpArg0).toNat % 2 ^ 22) 0 with member := some (Fin.ofNat 128 c) } := by
  subst hv
  unfold freeGroup at hi
  simp only [State.groupJoin, ha, hp, ho, if_true, Bool.not_true, Bool.false_eq_true, if_false, gFree, hi, if_neg (Nat.not_lt.mpr hroom)]
  simp only [State.setupMsg, State.node, setFlds_img]
  rfl

theorem groupJoin_full (hv : getBits v fGrpCmdContext = c) (ha : s.active c = true) (hp : s.partOf c = some p) (ho : s.isOpen p = true)
    (hi : freeGroup s p = none) : s.groupJoin v = s.setFld fGrpCmdResult 3 := by
  subst hv
  unfold freeGroup at hi
  simp only [State.groupJoin, ha, hp, ho, if_true, Bool.not_true, Bool.false_eq_true, if_false, gFree, hi]
  rfl

/-- The arguments of a CREATE name a number of the partition, a size and a time within their bounds (R301, R334). -/
def CreateNamed (s : State) (p n : Nat) : Prop :=
  (s.groupRange p).1 ≤ n ∧ n < (s.groupRange p).1 + (s.groupRange p).2 ∧ 2 ≤ s.fld fGrpArg1Members ∧ s.fld fGrpArg1Members ≤ 4096
    ∧ 1 ≤ s.fld fGrpArg1FormMs ∧ s.fld fGrpArg1FormMs ≤ 10000

theorem createNamed_iff {n : Nat} : CreateNamed s p n ↔ ¬(n < (s.groupRange p).1 ∨ n ≥ (s.groupRange p).1 + (s.groupRange p).2
    ∨ s.fld fGrpArg1Members < 2 ∨ s.fld fGrpArg1Members > 4096 ∨ s.fld fGrpArg1FormMs < 1 ∨ s.fld fGrpArg1FormMs > 10000) := by
  unfold CreateNamed
  omega

/-- The leader's state once a CREATE has passed its checks, before it reads its rank map (R302). -/
def leaderForming (s : State) (c n : Nat) : State :=
  ((s.setFld fGrpCmdResult 0).setGroupUse c (s.fld (fCtxQgroupsUse c) + 1)).setFlds
    (formingFields n 1 (s.fld fGrpArg1Members) (s.node.toNat * 1024 + n) c)

/-- A rank map names each member once, and this module's context first (R301). -/
def MapHolds (m : List (Nat × Nat)) (members node c : Nat) : Prop :=
  (m.map Prod.fst).eraseDups.length = members ∧ m.head? = some (node, c)

/-- The JOINs of a group that came before its CREATE, by node. -/
def joinsMet (s : State) (key : Nat) : List Nat := (s.grp.joins.filter (fun j => j.1 == key)).map (fun j => j.2.1)

/-- The same joins, taken from those kept. -/
def withoutJoins (s : State) (key : Nat) : State := { s with grp := { s.grp with joins := s.grp.joins.filter (fun j => j.1 != key) } }

section Create

variable {far : FarReply} {views : List RouterObs} {n : Nat}
variable (hv : getBits v fGrpCmdContext = c) (hn : getBits v fGrpCmdNumber = n) (ha : s.active c = true) (hp : s.partOf c = some p)
  (ho : s.isOpen p = true)

include hv hn ha hp ho

theorem groupCreate_unnamed (h : ¬CreateNamed s p n) : s.groupCreate v far views = s.setFld fGrpCmdResult 2 := by
  subst hv hn
  simp only [State.groupCreate, ha, hp, ho, if_true, Bool.not_true, Bool.false_eq_true, if_false,
    if_pos (Classical.not_not.mp (mt createNamed_iff.mpr h))]
  rfl

theorem groupCreate_used (h : CreateNamed s p n) (hs : s.fld (fGrpGStateState n) ≠ 0) :
    s.groupCreate v far views = s.setFld fGrpCmdResult 3 := by
  subst hv hn
  simp only [State.groupCreate, ha, hp, ho, if_true, Bool.not_true, Bool.false_eq_true, if_false, if_neg (createNamed_iff.mp h)]
  exact if_pos hs

/-- The rank map of a CREATE that passes its checks is read. -/
theorem groupCreate_read (h : CreateNamed s p n) (hs : s.fld (fGrpGStateState n) = 0)
    (hroom : s.fld (fCtxQgroupsUse c) + 1 ≤ s.fld (fCtxQgroupsLimit c))
    (hm : (s.gpaPieces c (s.reg rGrpArg0).toNat (4 * s.fld fGrpArg1Members) permRead).isSome = true) {u : State} {x : Nat} {b : List Byte}
    (hread : (leaderForming s c n).readRun c (s.reg rGrpArg0).toNat (4 * s.fld fGrpArg1Members) far = (u, x, b)) :
    (x ≠ 0 → s.groupCreate v far views = u.freeGroup n 5)
    ∧ (x = 0 → MapHolds (mapEntries b (s.fld fGrpArg1Members)) (s.fld fGrpArg1Members) s.node.toNat c →
      s.groupCreate v far views = (notedForming (withoutJoins u (s.node.toNat * 1024 + n)) n ⟨s.fld fGrpArg1Members, true,
        mapEntries b (s.fld fGrpArg1Members), s.fld fGrpArg1Timeout, views, joinsMet u (s.node.toNat * 1024 + n), []⟩).tryForm n) := by
  subst hv hn
  have hmap : ¬(s.gpaPieces (getBits v fGrpCmdContext) (s.reg rGrpArg0).toNat (4 * s.fld fGrpArg1Members) permRead).isNone = true := by
    rw [← Option.not_isSome, hm]
    decide
  have hread' := hread
  unfold leaderForming formingFields at hread'
  simp only [State.groupCreate, ha, hp, ho, if_true, Bool.not_true, Bool.false_eq_true, if_false, if_neg (createNamed_iff.mp h), gFree, hs,
    ne_eq, not_true, if_neg (Nat.not_lt.mpr hroom), if_neg hmap, gForming, groupKey, State.grpResult, hread']
  refine ⟨fun hx => if_pos hx, fun hx hholds => ?_⟩
  obtain ⟨honce, hhead⟩ := hholds
  rw [if_neg (not_not.mpr hx), if_neg (by simp [honce, hhead])]
  rfl

end Create

end GroupStarts

/-! ### DESTROY (R308, R334) -/

section GroupEnds

variable {s : State} {v : Word} {c p n : Nat}

theorem exec_groupDestroy (h : Taken s rGrpCmd) :
    exec (.groupDestroy v) s = .next ((s.writeUnder takesAll rGrpCmd (withOp v fGrpCmdGo fGrpCmdOp 3)).groupDestroy
      (withOp v fGrpCmdGo fGrpCmdOp 3)) := by
  refine congrArg Host.Outcome.next ((hostWrite_taken _ _ _ h).trans ?_)
  simp only [State.grpCmdWrite, getBits_withOp_op (go := fGrpCmdGo) (opf := fGrpCmdOp) (op := 3) (by decide) (by decide),
    getBits_withOp_go (go := fGrpCmdGo) (opf := fGrpCmdOp) 3 (by decide) (by decide) (by decide)]
  rfl

/-- A number of a context with nothing queued and nothing in flight (R308). -/
def GroupIdle (s : State) (c n : Nat) : Prop :=
  s.fld (fGrpGStateState n) ≠ 0 ∧ s.fld (fGrpGStatContext n) = c ∧ s.commOf n = [] ∧ lookupKey s.grp.inflight n = none
    ∧ s.fld (fGrpGQstateHead n) = s.fld (fGrpGQstateTail n)

section Destroy

variable (hv : getBits v fGrpCmdContext = c) (hn : getBits v fGrpCmdNumber = n) (ha : s.active c = true) (hp : s.partOf c = some p)
  (ho : s.isOpen p = true)

include hv hn ha hp ho

theorem groupDestroy_ends (h : GroupIdle s c n) : s.groupDestroy v = (s.setFld fGrpCmdResult 0).leaveGroup n := by
  subst hv hn
  obtain ⟨hstate, hctx, hcomm, hflight, hqueue⟩ := h
  simp only [State.groupDestroy, ha, hp, Option.any_some, ho, gFree, hstate, hctx, hcomm, hflight, hqueue, Bool.not_true, Bool.false_eq_true,
    or_self, if_false, ne_eq, not_true, Option.isSome_none]
  rfl

theorem groupDestroy_free (h : s.fld (fGrpGStateState n) = 0) : s.groupDestroy v = s.setFld fGrpCmdResult 6 := by
  subst hv hn
  simp only [State.groupDestroy, ha, hp, Option.any_some, ho, gFree, h]
  rfl

end Destroy

/-- A member that leaves tells its leader, and a leader of a formed group every other module (R308). -/
theorem leaveGroup_member (h : s.fld (fGrpGStateLeader n) = 0) :
    s.leaveGroup n = ((s.sendSetup (s.fld (fGrpGStateKey n) / 1024) (s.setupMsg .left (s.fld (fGrpGStateKey n)) 8)).dropTree
      (s.fld (fGrpGStateKey n))).freeGroup n 0 := by
  simp only [State.leaveGroup, h]
  rfl

theorem leaveGroup_leader (h : s.fld (fGrpGStateLeader n) = 1) (hs : s.fld (fGrpGStateState n) ≠ 1) :
    s.leaveGroup n = ((s.sendSetups (s.ledNodes n) (s.setupMsg .left (s.fld (fGrpGStateKey n)) 8)).dropTree
      (s.fld (fGrpGStateKey n))).freeGroup n 0 := by
  simp only [State.leaveGroup, h, if_true, gForming, hs, if_false]
  rfl

end GroupEnds

/-! ### The steps of a formation (R301–R304, R308) -/

section Setups

variable {s : State} {m : SetupMsg} {i : Nat} {f : Forming}

theorem exec_groupSetup_joined (h : m.step = .joined) :
    exec (.groupSetup m) s = .next (s.joinMet m.key.toNat m.sender.toNat (m.member.getD 0)) := by
  refine congrArg Host.Outcome.next ?_
  rw [h]

theorem exec_groupSetup_check (h : m.step = .check) : exec (.groupSetup m) s = .next ((s.reserve m).1.sendSetup (m.key.toNat / 1024)
    { m with step := .answer, sender := s.node, reason := Fin.ofNat 16 (s.reserve m).2 }) := by
  refine congrArg Host.Outcome.next ?_
  rw [h]

theorem exec_groupSetup_answer (h : m.step = .answer) : exec (.groupSetup m) s = .next (s.answerIn m.key.toNat m.sender.toNat m.reason) := by
  refine congrArg Host.Outcome.next ?_
  rw [h]

theorem exec_groupSetup_commit (h : m.step = .commit) : exec (.groupSetup m) s = .next (s.setupCommit m.key.toNat) := by
  refine congrArg Host.Outcome.next ?_
  rw [h]

theorem exec_groupSetup_fail (h : m.step = .fail) : exec (.groupSetup m) s = .next (s.setupFail m.key.toNat 1 8) := by
  refine congrArg Host.Outcome.next ?_
  rw [h]
  rfl

theorem exec_groupSetup_left (h : m.step = .left) : exec (.groupSetup m) s = .next (s.peerLeft m.key.toNat m.sender.toNat) := by
  refine congrArg Host.Outcome.next ?_
  rw [h]

section Leader

variable {key : Nat} (hi : s.memberFor key = some i) (hf : lookupKey s.grp.forming i = some f)

include hi hf

theorem joinMet_leader (hl : f.leader = true) (node ctx : Nat) :
    s.joinMet key node ctx = (notedForming s i { f with met := f.met ++ [node] }).tryForm i := by
  unfold State.joinMet
  rw [hi, Option.bind_some, hf]
  simp only [Option.map_some, hl, if_true]
  rfl

/-- The first failure ends the formation, and the last success commits it (R302). -/
theorem answerIn_leader {node : Nat} (hasked : f.asked.contains node = true) (reason : Nat) :
    s.answerIn key node reason =
      if reason ≠ 0 then s.formFail i reason
      else if f.asked.filter (· != node) = [] then (s.sendSetups (s.ledNodes i) (s.setupMsg .commit key 0)).setupCommit key
      else notedForming s i { f with asked := f.asked.filter (· != node) } := by
  unfold State.answerIn
  rw [hi, Option.bind_some, hf]
  simp only [Option.map_some, hasked, Bool.not_true, Bool.false_eq_true, if_false, List.isEmpty_iff]
  rfl

end Leader

theorem setupCommit_member {key : Nat} {x : Tree} (hx : s.treeOf key = some x) (hm : x.member = some i)
    (hf : lookupKey s.grp.forming i = some f) : s.setupCommit key = ({ s with grp := { s.grp with
        trees := s.grp.trees.map (fun (u : Tree) => if u.key = key then { u with committed := true } else u)
        forming := eraseKey s.grp.forming i } }).setFlds
      [(fGrpGStateState i, 2), (fGrpGStateReason i, 0), (fGrpGStatSeq i, 0), (fGrpGQcfgTimeout i, f.timeout)] := by
  simp only [State.setupCommit, hx, hm, hf, Option.map_some, Option.getD_some]
  rfl

theorem setupFail_forming {key a b : Nat} (hi : s.memberFor key = some i) (hs : s.fld (fGrpGStateState i) = 1) :
    s.setupFail key a b = (s.dropTree key).freeGroup i a := by
  unfold State.setupFail
  rw [hi]
  exact if_pos hs

theorem setupFail_ready {key a b : Nat} (hi : s.memberFor key = some i) (hs : s.fld (fGrpGStateState i) = 2) :
    s.setupFail key a b = (s.setFlds [(fGrpGStateState i, 3), (fGrpGStateReason i, b)]).pactsBroken i := by
  unfold State.setupFail
  rw [hi]
  simp only [gForming, gReady, hs]
  rfl

theorem peerLeft_member {key node : Nat} (hi : s.memberFor key = some i) (hl : s.fld (fGrpGStateLeader i) = 0) :
    s.peerLeft key node = s.setupFail key 1 8 := by
  unfold State.peerLeft
  rw [hi]
  simp only [hl, Nat.zero_ne_one, if_false, Option.isNone_some, Bool.false_eq_true, false_and, grNoMember, grPeerLeft]

/-! Building the tree (R302, R303). -/

section Tree

/-- The leader's own part of the tree, reserved. -/
def ownPart (s : State) (i : Nat) (f : Forming) (edges : List (Nat × Nat)) : State × Nat :=
  s.reserve (s.partOfTree i (s.fld (fGrpGStateKey i)) f edges s.node.toNat)

variable {edges : List (Nat × Nat)} (he : s.treeEdges f.views (s.fld (fGrpGStateKey i)) f.map = some edges)

include he

/-- A leader whose own part of the tree fails a check fails the formation; else it asks the other modules of the tree. -/
theorem formTree_fails (h : (ownPart s i f edges).2 ≠ 0) :
    s.formTree i f = (ownPart s i f edges).1.formFail i (ownPart s i f edges).2 := by
  simp only [State.formTree, he]
  exact if_pos h

theorem formTree_asks (h : (ownPart s i f edges).2 = 0) :
    s.formTree i f =
      let nodes := (edges.map Prod.fst).eraseDups
      let u := (ownPart s i f edges).1
      nodes.foldl (fun w x => w.sendSetup x (w.partOfTree i (s.fld (fGrpGStateKey i)) f edges x)) { u with grp := { u.grp with
        forming := insertKey u.grp.forming i { f with asked := nodes }, led := insertKey u.grp.led i nodes } } := by
  simp only [State.formTree, he]
  exact if_neg (not_not.mpr h)

end Tree

/-! Checks at the modules of the tree (R302, R304). -/

/-- A leaf's place in the tree, which needs no reduction context. -/
def leafPlace (s : State) (m : SetupMsg) (x i : Nat) : Tree := ⟨m.key.toNat, m.parent.map Fin.val, [], 0, s.partOf x, some i, false, 0⟩

section Reserves

variable {x : Ctx} (hm : m.member = some x)

include hm

theorem reserve_noMember (h : s.formingFor m.key.toNat x = none) : s.reserve m = (s, 1) := by
  simp only [State.reserve, hm, Option.bind_some, h]
  rfl

variable (hf : s.formingFor m.key.toNat x = some i)

include hf

theorem reserve_otherTag (h : s.jobTag x ≠ m.tag.toNat) : s.reserve m = (s, 2) := by
  have hne : (s.jobTag x != m.tag.toNat) = true := bne_iff_ne.mpr h
  simp only [State.reserve, hm, Option.bind_some, hf, Option.isNone_some, Bool.false_eq_true, and_false, if_false,
    Option.bind_eq_bind, Option.pure_def, Option.any_some, hne, if_true]
  rfl

variable (ht : s.jobTag x = m.tag.toNat) (hc : m.children = [])

include ht hc

theorem reserve_leaf_full (h : s.tableRoom (leafPlace s m x i) = false) : s.reserve m = (s, 3) := by
  have heq : (s.jobTag x != m.tag.toNat) = false := by simp [ht]
  unfold leafPlace at h
  simp only [State.reserve, hm, hc, Option.bind_some, hf, Option.isNone_some, Bool.false_eq_true, and_false, if_false,
    Option.bind_eq_bind, Option.pure_def, Option.any_some, heq, List.isEmpty_nil, Bool.not_true, List.map_nil, h]
  rfl

theorem reserve_leaf (hq : s.fld (fCtxQgroupsUse x) ≤ s.fld (fCtxQgroupsLimit x)) (h : s.tableRoom (leafPlace s m x i) = true) :
    s.reserve m = (({ s with grp := { s.grp with trees := s.grp.trees ++ [leafPlace s m x i] } }).setFlds
      [(fGrpGStateHub i, 0), (fGrpGStateRank i, m.rank.toNat), (fGrpGStateMembers i, m.members.toNat), (fGrpGStatDepth i, m.depth.val)], 0) := by
  have heq : (s.jobTag x != m.tag.toNat) = false := by simp [ht]
  have hquota : decide (s.fld (fCtxQgroupsUse x) > s.fld (fCtxQgroupsLimit x)) = false := decide_eq_false (Nat.not_lt.mpr hq)
  unfold leafPlace at h ⊢
  simp only [State.reserve, hm, hc, Option.bind_some, hf, Option.isNone_some, Bool.false_eq_true, and_false, if_false,
    Option.bind_eq_bind, Option.pure_def, Option.any_some, heq, List.isEmpty_nil, Bool.not_true, List.map_nil, h, hquota]
  rfl

end Reserves

/-! A forming time that runs out (R301, R302). -/

theorem exec_formTimeout_member {g : Grp} (hs : s.fld (fGrpGStateState g) = 1) (hl : s.fld (fGrpGStateLeader g) = 0) :
    exec (.formTimeout g) s = .next ((s.dropTree (s.fld (fGrpGStateKey g))).freeGroup g 7) :=
  congrArg Host.Outcome.next ((if_neg (not_not.mpr hs)).trans (if_neg (by simp [hl])))

theorem exec_formTimeout_leader {g : Grp} (hs : s.fld (fGrpGStateState g) = 1) (hl : s.fld (fGrpGStateLeader g) = 1) :
    exec (.formTimeout g) s = .next (s.formFail g 7) :=
  congrArg Host.Outcome.next ((if_neg (not_not.mpr hs)).trans (if_pos hl))

end Setups

/-! ### Commands that GRP.CMD takes -/

section TakenCommands

variable {s : State} {v : Word} {p : Nat}

/-- The write of GRP.CMD with an op. -/
abbrev grpCmdWritten (s : State) (v : Word) (op : Nat) : State := s.writeUnder takesAll rGrpCmd (withOp v fGrpCmdGo fGrpCmdOp op)

/-- What a command of an active context in an open partition finds in the state that its write left. -/
structure GrpCmdSees (s : State) (v : Word) (p op : Nat) : Prop where
  context : getBits (withOp v fGrpCmdGo fGrpCmdOp op) fGrpCmdContext = getBits v fGrpCmdContext
  number : getBits (withOp v fGrpCmdGo fGrpCmdOp op) fGrpCmdNumber = getBits v fGrpCmdNumber
  only : CmdOnly s (grpCmdWritten s v op)
  active : (grpCmdWritten s v op).active (getBits v fGrpCmdContext) = true
  part : (grpCmdWritten s v op).partOf (getBits v fGrpCmdContext) = some p
  isOpen : (grpCmdWritten s v op).isOpen p = true
  range : (grpCmdWritten s v op).groupRange p = s.groupRange p
  state : ∀ i, (grpCmdWritten s v op).fld (fGrpGStateState i) = s.fld (fGrpGStateState i)
  use : (grpCmdWritten s v op).fld (fCtxQgroupsUse (getBits v fGrpCmdContext)) = s.fld (fCtxQgroupsUse (getBits v fGrpCmdContext))
  limit : (grpCmdWritten s v op).fld (fCtxQgroupsLimit (getBits v fGrpCmdContext)) = s.fld (fCtxQgroupsLimit (getBits v fGrpCmdContext))

theorem grpCmdSees (ha : s.active (getBits v fGrpCmdContext) = true) (hp : s.partOf (getBits v fGrpCmdContext) = some p)
    (ho : s.isOpen p = true) (op : Nat) : GrpCmdSees s v p op := by
  obtain ⟨hact, hpart, hopen, hrange, hstate, huse, hlimit⟩ :=
    checks_writeUnder (takes := takesAll) (w := withOp v fGrpCmdGo fGrpCmdOp op) (getBits_lt v fGrpCmdContext) hp
  exact ⟨getBits_withOp op (by decide) (by decide) (by decide), getBits_withOp op (by decide) (by decide) (by decide), .writeUnder takesAll _,
    hact.trans ha, hpart, hopen.trans ho, hrange, hstate, huse, hlimit⟩

section Join

variable (hw : Taken s rGrpCmd) (k : GrpCmdSees s v p 2)

include k

theorem GrpCmdSees.freeGroup : freeGroup (grpCmdWritten s v 2) p = freeGroup s p := by
  simp only [Proofs.freeGroup, k.range, k.state]

include hw

theorem exec_groupJoin_forms {i : Nat} (hi : freeGroup s p = some i)
    (hroom : s.fld (fCtxQgroupsUse (getBits v fGrpCmdContext)) + 1 ≤ s.fld (fCtxQgroupsLimit (getBits v fGrpCmdContext))) :
    let c := getBits v fGrpCmdContext
    let key := (s.reg rGrpArg0).toNat % 2 ^ 22
    exec (.groupJoin v) s = .next ((notedForming (((((grpCmdWritten s v 2).setFld fGrpCmdResult 0).setFld fGrpCmdNumber i).setGroupUse c
        (s.fld (fCtxQgroupsUse c) + 1)).setFlds (formingFields i 0 0 key c)) i ⟨0, false, [], s.fld fGrpArg1Timeout, [], [], []⟩).sendSetup
      (key / 1024) { s.setupMsg .joined key 0 with member := some (Fin.ofNat 128 c) }) := by
  rw [exec_groupJoin hw]
  refine congrArg Host.Outcome.next ((groupJoin_forms k.context k.active k.part k.isOpen (k.freeGroup.trans hi) ?_).trans ?_)
  · rwa [k.use, k.limit]
  · rw [k.use, k.only.reg rGrpArg0 (by decide), k.only.fld (g := fGrpArg1Timeout) (by decide), k.only.setupMsg]

theorem exec_groupJoin_full (hi : freeGroup s p = none) :
    exec (.groupJoin v) s = .next ((grpCmdWritten s v 2).setFld fGrpCmdResult 3) := by
  rw [exec_groupJoin hw]
  exact congrArg Host.Outcome.next (groupJoin_full k.context k.active k.part k.isOpen (k.freeGroup.trans hi))

theorem exec_groupJoin_above {i : Nat} (hi : freeGroup s p = some i)
    (habove : s.fld (fCtxQgroupsLimit (getBits v fGrpCmdContext)) < s.fld (fCtxQgroupsUse (getBits v fGrpCmdContext)) + 1) :
    exec (.groupJoin v) s = .next ((grpCmdWritten s v 2).setFld fGrpCmdResult 4) := by
  rw [exec_groupJoin hw]
  refine congrArg Host.Outcome.next (groupJoin_above k.context k.active k.part k.isOpen (k.freeGroup.trans hi) ?_)
  rwa [k.use, k.limit]

end Join

section Create

variable {far : FarReply} {views : List RouterObs} (hw : Taken s rGrpCmd) (k : GrpCmdSees s v p 1)

include k

theorem GrpCmdSees.members : (grpCmdWritten s v 1).fld fGrpArg1Members = s.fld fGrpArg1Members := k.only.fld (by decide)

theorem GrpCmdSees.named (n : Nat) : CreateNamed (grpCmdWritten s v 1) p n ↔ CreateNamed s p n := by
  simp only [CreateNamed, k.range, k.members, k.only.fld (g := fGrpArg1FormMs) (by decide)]

include hw

theorem exec_groupCreate_unnamed (h : ¬CreateNamed s p (getBits v fGrpCmdNumber)) :
    exec (.groupCreate v far views) s = .next ((grpCmdWritten s v 1).setFld fGrpCmdResult 2) := by
  rw [exec_groupCreate hw]
  exact congrArg Host.Outcome.next (groupCreate_unnamed k.context k.number k.active k.part k.isOpen (mt (k.named _).mp h))

variable (hn : CreateNamed s p (getBits v fGrpCmdNumber))

include hn

theorem exec_groupCreate_used (hs : s.fld (fGrpGStateState (getBits v fGrpCmdNumber)) ≠ 0) :
    exec (.groupCreate v far views) s = .next ((grpCmdWritten s v 1).setFld fGrpCmdResult 3) := by
  rw [exec_groupCreate hw]
  refine congrArg Host.Outcome.next (groupCreate_used k.context k.number k.active k.part k.isOpen ((k.named _).mpr hn) ?_)
  rwa [k.state]

variable (hs : s.fld (fGrpGStateState (getBits v fGrpCmdNumber)) = 0)

include hs

theorem exec_groupCreate_above
    (habove : s.fld (fCtxQgroupsLimit (getBits v fGrpCmdContext)) < s.fld (fCtxQgroupsUse (getBits v fGrpCmdContext)) + 1) :
    exec (.groupCreate v far views) s = .next ((grpCmdWritten s v 1).setFld fGrpCmdResult 4) := by
  rw [exec_groupCreate hw]
  obtain ⟨hlo, hhi, hm, hm', hf, hf'⟩ := (k.named _).mpr hn
  refine congrArg Host.Outcome.next (groupCreate_above k.context k.active k.part k.isOpen ?_ ?_ hm hm' hf hf' ?_ ?_)
  · rwa [k.number]
  · rwa [k.number]
  · rwa [k.number, k.state]
  · rwa [k.use, k.limit]

theorem exec_groupCreate_read {u : State} {x : Nat} {b : List Byte}
    (hroom : s.fld (fCtxQgroupsUse (getBits v fGrpCmdContext)) + 1 ≤ s.fld (fCtxQgroupsLimit (getBits v fGrpCmdContext)))
    (hm : (s.gpaPieces (getBits v fGrpCmdContext) (s.reg rGrpArg0).toNat (4 * s.fld fGrpArg1Members) permRead).isSome = true)
    (hread : ((((grpCmdWritten s v 1).setFld fGrpCmdResult 0).setGroupUse (getBits v fGrpCmdContext)
        (s.fld (fCtxQgroupsUse (getBits v fGrpCmdContext)) + 1)).setFlds (formingFields (getBits v fGrpCmdNumber) 1 (s.fld fGrpArg1Members)
          (s.node.toNat * 1024 + getBits v fGrpCmdNumber) (getBits v fGrpCmdContext))).readRun (getBits v fGrpCmdContext) (s.reg rGrpArg0).toNat
      (4 * s.fld fGrpArg1Members) far = (u, x, b)) :
    let c := getBits v fGrpCmdContext
    let n := getBits v fGrpCmdNumber
    let members := s.fld fGrpArg1Members
    let own := s.node.toNat * 1024 + n
    (x ≠ 0 → exec (.groupCreate v far views) s = .next (u.freeGroup n 5))
    ∧ (x = 0 → MapHolds (mapEntries b members) members s.node.toNat c →
      exec (.groupCreate v far views) s = .next ((notedForming (withoutJoins u own) n
        ⟨members, true, mapEntries b members, s.fld fGrpArg1Timeout, views, joinsMet u own, []⟩).tryForm n)) := by
  have hall := groupCreate_read (far := far) (views := views) k.context k.number k.active k.part k.isOpen ((k.named _).mpr hn)
    ((k.state _).trans hs) (by rwa [k.use, k.limit]) (u := u) (x := x) (b := b)
  simp only [leaderForming, k.use, k.only.node, k.members, k.only.gpaPieces, k.only.reg rGrpArg0 (by decide),
    k.only.fld (g := fGrpArg1Timeout) (by decide)] at hall
  obtain ⟨hbad, hgood⟩ := hall hm hread
  rw [exec_groupCreate hw]
  exact ⟨fun hx => congrArg _ (hbad hx), fun hx hmap => congrArg _ (hgood hx hmap)⟩

end Create

section Destroy

variable (hw : Taken s rGrpCmd) (k : GrpCmdSees s v p 3)

include hw k

theorem exec_groupDestroy_free (hs : s.fld (fGrpGStateState (getBits v fGrpCmdNumber)) = 0) :
    exec (.groupDestroy v) s = .next ((grpCmdWritten s v 3).setFld fGrpCmdResult 6) := by
  rw [exec_groupDestroy hw]
  exact congrArg Host.Outcome.next (groupDestroy_free k.context k.number k.active k.part k.isOpen ((k.state _).trans hs))

variable (hidle : GroupIdle s (getBits v fGrpCmdContext) (getBits v fGrpCmdNumber))

include hidle

/-- The number ends in the state that the command's result left, which says of the group what the state before said. -/
theorem exec_groupDestroy_ends : exec (.groupDestroy v) s
    = .next (((grpCmdWritten s v 3).setFld fGrpCmdResult 0).leaveGroup (getBits v fGrpCmdNumber)) := by
  obtain ⟨hs, hctx, hcomm, hflight, hqueue⟩ := hidle
  obtain ⟨-, -, -, hctxOff, hheadOff, htailOff⟩ := groupFields_ne_cmd (getBits v fGrpCmdNumber)
  rw [exec_groupDestroy hw]
  refine congrArg Host.Outcome.next (groupDestroy_ends k.context k.number k.active k.part k.isOpen ⟨?_, ?_, ?_, ?_, ?_⟩)
  · rwa [k.state]
  · rwa [k.only.fld hctxOff]
  · rwa [k.only.commOf]
  · rwa [k.only.inflight]
  · rwa [k.only.fld hheadOff, k.only.fld htailOff]

theorem exec_groupDestroy_member (hl : s.fld (fGrpGStateLeader (getBits v fGrpCmdNumber)) = 0) :
    let n := getBits v fGrpCmdNumber
    let key := s.fld (fGrpGStateKey n)
    exec (.groupDestroy v) s
      = .next (((((grpCmdWritten s v 3).setFld fGrpCmdResult 0).sendSetup (key / 1024) (s.setupMsg .left key 8)).dropTree key).freeGroup n 0) := by
  obtain ⟨-, hleadOff, hkeyOff, -⟩ := groupFields_ne_cmd (getBits v fGrpCmdNumber)
  have hdone : CmdOnly s ((grpCmdWritten s v 3).setFld fGrpCmdResult 0) := k.only.setFld rfl 0
  rw [exec_groupDestroy_ends hw k hidle, leaveGroup_member ((hdone.fld hleadOff).trans hl), hdone.fld hkeyOff, hdone.setupMsg]

theorem exec_groupDestroy_leader (hl : s.fld (fGrpGStateLeader (getBits v fGrpCmdNumber)) = 1)
    (hs : s.fld (fGrpGStateState (getBits v fGrpCmdNumber)) ≠ 1) :
    let n := getBits v fGrpCmdNumber
    let key := s.fld (fGrpGStateKey n)
    exec (.groupDestroy v) s
      = .next (((((grpCmdWritten s v 3).setFld fGrpCmdResult 0).sendSetups (s.ledNodes n) (s.setupMsg .left key 8)).dropTree key).freeGroup n 0) := by
  obtain ⟨hstateOff, hleadOff, hkeyOff, -⟩ := groupFields_ne_cmd (getBits v fGrpCmdNumber)
  have hdone : CmdOnly s ((grpCmdWritten s v 3).setFld fGrpCmdResult 0) := k.only.setFld rfl 0
  rw [exec_groupDestroy_ends hw k hidle, leaveGroup_leader ((hdone.fld hleadOff).trans hl) (by rwa [hdone.fld hstateOff]), hdone.fld hkeyOff,
    hdone.setupMsg, hdone.ledNodes]

end Destroy

end TakenCommands

/-- Settles O41: each command by the checks that it passes, each setup step by what the module is to the group. -/
theorem groupsForm : Obligations.GroupsForm := by
  unfold Obligations.GroupsForm
  intro v far views m g s t c n key noted answer
  refine ⟨fun p hw ha hp ho => ?_, fun i f hm hi hf hl => ?_, fun i f edges he => ?_, fun i f hm hi hf hasked => ?_,
    fun x i f hm hx hmem hf => ?_, fun i hm hi hs => ?_, fun i hm hi hs hl => ?_, fun x i hm hx hf ht hq hc => ?_, fun x hm hx hf => ?_,
    fun x i hm hx hf ht => ?_, exec_formTimeout_member, exec_formTimeout_leader⟩
  · intro members use lowest formed room named own lead theirs free ended left
    have k (op : Nat) : GrpCmdSees s v p op := grpCmdSees ha hp ho op
    have hnamed : named = true ↔ CreateNamed s p n := by simp only [named, CreateNamed, decide_eq_true_eq, members]
    refine ⟨fun i hi hroom => exec_groupJoin_forms hw (k 2) hi (of_decide_eq_true hroom), exec_groupJoin_full hw (k 2),
      fun i hi hroom => exec_groupJoin_above hw (k 2) hi (Nat.lt_of_not_le (of_decide_eq_false hroom)),
      fun hn => exec_groupCreate_unnamed hw (k 1) (mt hnamed.mpr (Bool.eq_false_iff.mp hn)),
      fun hn => exec_groupCreate_used hw (k 1) (hnamed.mp hn),
      fun hn hs hroom => exec_groupCreate_above hw (k 1) (hnamed.mp hn) hs (Nat.lt_of_not_le (of_decide_eq_false hroom)),
      fun u x b hn hs hroom hm hread => ?_, exec_groupDestroy_member hw (k 3), exec_groupDestroy_leader hw (k 3),
      exec_groupDestroy_free hw (k 3)⟩
    obtain ⟨hbad, hgood⟩ :=
      exec_groupCreate_read (far := far) (views := views) hw (k 1) (hnamed.mp hn) hs (of_decide_eq_true hroom) hm hread
    refine ⟨hbad, fun hx honce hhead => ?_⟩
    intro met f w
    have hready : f.ready = true ↔ ∀ e ∈ (mapEntries b members).drop 1, e.1 ∈ met := ready_iff rfl rfl
    have hformed := hgood hx ⟨honce, hhead⟩
    rw [tryForm_noted] at hformed
    exact ⟨fun hall => hformed.trans (congrArg _ (if_pos (hready.mpr hall))),
      fun e he hunmet => hformed.trans (congrArg _ (if_neg fun hr => hunmet (hready.mp hr e he)))⟩
  · rw [exec_groupSetup_joined hm, joinMet_leader hi hf hl, tryForm_noted]
    rfl
  · exact ⟨formTree_asks he, formTree_fails he⟩
  · rw [exec_groupSetup_answer hm, answerIn_leader hi hf hasked]
    exact ⟨fun hbad => congrArg _ (if_pos hbad), fun hgood hmore => congrArg _ ((if_neg (not_not.mpr hgood)).trans (if_neg hmore)),
      fun hgood hlast => congrArg _ ((if_neg (not_not.mpr hgood)).trans (if_pos hlast))⟩
  · rw [exec_groupSetup_commit hm, setupCommit_member hx hmem hf]
  · rw [exec_groupSetup_fail hm, setupFail_forming hi hs]
  · rw [exec_groupSetup_left hm, peerLeft_member hi hl, setupFail_ready hi hs]
  · intro place
    rw [exec_groupSetup_check hm]
    refine ⟨fun hroom => ?_, fun hfull => ?_⟩
    · rw [reserve_leaf hx hf ht hc hq hroom]
      rfl
    · rw [reserve_leaf_full hx hf ht hc hfull]
  · rw [exec_groupSetup_check hm, reserve_noMember hx hf]
  · rw [exec_groupSetup_check hm, reserve_otherTag hx hf ht]

end Sys2Proof.Proofs
end

section
/-! SUPPORT. Collectives (R304–R327, R388): the start of a collective at a member, the check of a hop, a unit at a reduction context, at a forwarder
and on its way down, control of collectives, timeouts; the statement on them. -/

namespace Sys2Proof.Proofs

open Sys2Proof Sys2Proof.Machine

/-! ### The start of a collective (R308–R316) -/

section Starts

variable {s : State} {g : Nat} {far : FarReply} {hop here : DigestObs} {b : List Byte} {rest : List (List Byte)}

/-- A member's collective in flight, as its descriptor starts it. -/
def startedColl (s : State) (g : Nat) (d : CDesc) (own : List Int) : Coll :=
  ⟨d.tag, d.quiet, d.word, d.count, d.dst, d.done, s.fld (fGrpGStatSeq g), own, none⟩

/-- A collective that ended before it was started here: it is in flight for its end alone. -/
def startedEarly (s : State) (g : Nat) (b : List Byte) (rest : List (List Byte)) : State :=
  let s1 := ({ s with que := { s.que with comm := insertKey s.que.comm g rest } }).dropColl (s.fld (fGrpGStateKey g)) (s.fld (fGrpGStatSeq g))
  { s1 with grp := { s1.grp with
    inflight := insertKey s1.grp.inflight g (startedColl s g (CDesc.read b) []), early := eraseKey s1.grp.early g } }

variable (hq : s.commOf g = b :: rest) (hi : lookupKey s.grp.inflight g = none)

include hq hi

theorem collStart_broken (hs : s.fld (fGrpGStateState g) = 3) : s.collStart g far hop here
    = ({ s with que := { s.que with comm := insertKey s.que.comm g rest } } : State).collAbortEntry g (CDesc.read b) := by
  simp only [State.collStart, hq, hi, Option.isSome_none, Bool.false_eq_true, if_false, gBroken, hs, if_true]

variable (hw : (CDesc.read b).wait = none) (hs : s.fld (fGrpGStateState g) = 2)

include hw hs

theorem collStart_ended {e : CollMsg} (he : lookupKey s.grp.early g = some e) (hseq : e.seq = s.fld (fGrpGStatSeq g)) :
    s.collStart g far hop here = (startedEarly s g b rest).collEnd g e.status (if e.status = 6 then e.lowNode else 0) := by
  have hearly : (lookupKey s.grp.early g).filter (fun m => m.seq == s.fld (fGrpGStatSeq g)) = some e := by simp [he, hseq]
  simp only [State.collStart, hq, hi, Option.isSome_none, Bool.false_eq_true, if_false, gBroken, gReady, hs, hw, State.waitOver, hearly]
  rfl

/-- A leaf sends its contribution to its parent, and is in flight with the same values; the message says what it seals and digests. -/
theorem collStart_leaf (he : ∀ e, lookupKey s.grp.early g = some e → e.seq ≠ s.fld (fGrpGStatSeq g)) {x : Tree} {p : Nat}
    (hx : s.treeOf (s.fld (fGrpGStateKey g)) = some x) (hc : x.children = []) (hp : x.parent = some p) :
    ∃ (w : State) (o : CollMsg), s.collStart g far hop here = w.sendColl x .up p o
      ∧ lookupKey w.grp.inflight g = some (startedColl s g (CDesc.read b) o.values)
      ∧ o.key = x.key ∧ o.seq = s.fld (fGrpGStatSeq g) ∧ o.child = none ∧ o.lowRank = s.fld (fGrpGStateRank g) ∧ o.lowNode = s.node.toNat
      ∧ o.w = (CDesc.read b).word ∧ o.count = (CDesc.read b).count
      ∧ o.dseal = (if o.void then BitVec.allOnes 64 else dsealOf x.key (s.fld (fGrpGStatSeq g)) (CDesc.read b).word (CDesc.read b).count)
      ∧ o.digest = (if hasDigest (CDesc.read b).word then BitVec.ofNat 64 o.dataDigest else 0#64) := by
  have hearly : (lookupKey s.grp.early g).filter (fun m => m.seq == s.fld (fGrpGStatSeq g)) = none := by
    cases hl : lookupKey s.grp.early g with
    | none => rfl
    | some e => simp [he e hl]
  unfold State.collStart
  simp only [hq, hi, Option.isSome_none, Bool.false_eq_true, if_false, gBroken, gReady, hs, hw, State.waitOver, hearly, hx, hc, hp,
    List.isEmpty_nil, if_true]
  exact ⟨_, _, rfl, lookupKey_insertKey_same _ _ _, rfl, rfl, rfl, rfl, rfl, rfl, rfl, rfl, rfl⟩

end Starts

/-! ### The check of a hop (R317, R318, R388) -/

section Hops

variable {s : State} {x : Tree} {m : CollMsg} {hop : DigestObs}

/-- What a lane's faults leave of the lane, and of the faults where the lane is suspect or its checker is retired. -/
theorem laneFaults_spec (hub : Nat) :
    let o := s.laneFaults hub hop
    let lane := 2 + 4 * (hub - 1) + hop.lane % 4
    o.lane = hop.lane
      ∧ (s.grp.suspect.contains lane = true → o.first = [] ∧ o.second = [])
      ∧ (s.grp.checkers.contains lane = true → o.unit1 = 0#64 ∧ o.unit2 = 0#64)
      ∧ (s.grp.suspect.contains lane = false → s.grp.checkers.contains lane = false → o = hop) := by
  unfold State.laneFaults
  dsimp only
  cases hsus : s.grp.suspect.contains (2 + 4 * (hub - 1) + hop.lane.val % 4) <;>
    cases hchk : s.grp.checkers.contains (2 + 4 * (hub - 1) + hop.lane.val % 4) <;> simp

variable (hd : hasDigest m.w = true) (hst : m.status = 0)

include hd hst

/-- A first disagreement is recomputed; where that disagrees too, the next digest unit tells the checker from the data path. -/
theorem hopCheck_digest : s.hopCheck x m hop =
    let o := s.laneFaults x.router hop
    let again := m.damage o.second
    if digestHolds m m.digest o.first o.unit1 then (s, m.damage o.first, true)
    else if digestHolds m m.digest o.second o.unit2 then (s.log { code := 0x0501, kind := 8, unit := x.router - 1, action := 1 }, again, true)
    else if BitVec.ofNat 64 again.dataDigest = m.digest then (s.laneVerdict x.router o.lane true m, again, true)
    else (s.laneVerdict x.router o.lane false m, again, false) := by
  unfold State.hopCheck
  rw [if_neg (by simp [hd, hst])]

end Hops

/-! ### Units at a place in the tree (R304, R305, R321) -/

section Units

variable {s : State} {u : CollIn} {x : Tree} {hop here : DigestObs}

theorem treeOf_key {k : Nat} (h : s.treeOf k = some x) : x.key = k := by simpa using List.find?_some h

/-- A unit at the port of its tree's edge. -/
def atEdge (x : Tree) (u : CollIn) : CollIn := { u with port := Fin.ofNat 32 (x.edgeOn u.port) }

/-- A message that is whole is that of its last unit's key. -/
theorem unitIn_key {up : Bool} {m : CollMsg} (h : (s.unitIn up u).2 = some m) : m.key = unitKey u := by
  unfold State.unitIn at h
  dsimp only at h
  split at h
  · cases h
    simp [readMsg]
  · cases h

variable (hx : s.treeOf (unitKey u) = some x)

include hx

theorem treeUnit_late (f : Tree → CollIn → State) {abort : Bool} (hl : s.lateColl x (unitSeq u) = true) (ha : abort = false) :
    s.treeUnit u abort f = s.creditBack u := by
  simp only [State.treeUnit, hx, hl, ha]
  rfl

theorem treeUnit_taken (f : Tree → CollIn → State) {abort : Bool} (h : s.lateColl x (unitSeq u) = false ∨ abort = true) :
    s.treeUnit u abort f = f x (atEdge x u) := by
  have hpass : (s.lateColl x (unitSeq u) && !abort) = false := by rcases h with h | h <;> simp [h]
  simp only [State.treeUnit, hx, hpass]
  rfl

theorem exec_collUp_late (hl : s.lateColl x (unitSeq u) = true) : exec (.collUp u hop here) s = .next (s.creditBack u) :=
  congrArg Host.Outcome.next (treeUnit_late hx _ hl rfl)

theorem exec_collDown_late (hl : s.lateColl x (unitSeq u) = true) : exec (.collDown u hop here) s = .next (s.creditBack u) :=
  congrArg Host.Outcome.next (treeUnit_late hx _ hl rfl)

section InTime

variable (hl : s.lateColl x (unitSeq u) = false)

include hl

section Contexts

variable (hf : x.forwards = false)

include hf

theorem exec_collUp_part (h : ((s.creditBack (atEdge x u)).unitIn true (atEdge x u)).2 = none) :
    exec (.collUp u hop here) s = .next ((s.creditBack (atEdge x u)).unitIn true (atEdge x u)).1 := by
  refine congrArg Host.Outcome.next ((treeUnit_taken hx _ (.inl hl)).trans ((if_neg (by simp [hf])).trans ?_))
  simp only [h]

theorem exec_collUp_whole {m : CollMsg} (h : ((s.creditBack (atEdge x u)).unitIn true (atEdge x u)).2 = some m) :
    exec (.collUp u hop here) s = .next (((s.creditBack (atEdge x u)).unitIn true (atEdge x u)).1.upInput x m hop here) := by
  refine congrArg Host.Outcome.next ((treeUnit_taken hx _ (.inl hl)).trans ((if_neg (by simp [hf])).trans ?_))
  simp only [h]

theorem exec_collDown_part (h : ((s.creditBack (atEdge x u)).unitIn false (atEdge x u)).2 = none) :
    exec (.collDown u hop here) s = .next ((s.creditBack (atEdge x u)).unitIn false (atEdge x u)).1 := by
  refine congrArg Host.Outcome.next ((treeUnit_taken hx _ (.inl hl)).trans ((if_neg (by simp [hf])).trans ?_))
  simp only [h]

theorem exec_collDown_whole {m : CollMsg} (h : ((s.creditBack (atEdge x u)).unitIn false (atEdge x u)).2 = some m) :
    exec (.collDown u hop here) s = .next (((s.creditBack (atEdge x u)).unitIn false (atEdge x u)).1.downHere x m hop here) := by
  refine congrArg Host.Outcome.next ((treeUnit_taken hx _ (.inl hl)).trans ((if_neg (by simp [hf])).trans ?_))
  simp only [h]

end Contexts

theorem exec_collUp_forwarded (hf : x.forwards = true) : exec (.collUp u hop here) s = .next (s.forwardUnit x true (atEdge x u) hop) :=
  congrArg Host.Outcome.next ((treeUnit_taken hx _ (.inl hl)).trans (if_pos hf))

theorem exec_collDown_forwarded (hf : x.forwards = true) : exec (.collDown u hop here) s = .next (s.forwardUnit x false (atEdge x u) hop) :=
  congrArg Host.Outcome.next ((treeUnit_taken hx _ (.inl hl)).trans (if_pos hf))

end InTime

end Units

/-! ### Inputs of a reduction context (R304, R313, R315, R317) -/

section Inputs

variable {s : State} {x : Tree} {m : CollMsg} {hop here : DigestObs}

/-- What a context has gathered once an input has joined. -/
def withInput (s : State) (x : Tree) (m : CollMsg) : Gathered :=
  { s.gathered x.key m.seq with inputs := (s.gathered x.key m.seq).inputs ++ [m] }

/-- The check of what a context merges, as the hop hands it on. -/
def mergeCheck (s : State) (x : Tree) (m a : CollMsg) (l : List CollMsg) (hop : DigestObs) : State × CollMsg × Bool :=
  (s.setGathered { withInput s x m with inputs := [] }).hopCheck x { (l.foldl mergeTwo a) with child := none } hop

variable (hk : m.key = x.key)

include hk

theorem upInput_waits (h : (withInput s x m).inputs.length < x.expects) : s.upInput x m hop here = s.setGathered (withInput s x m) :=
  (if_neg (not_not.mpr hk)).trans (if_pos h)

variable (h : x.expects ≤ (withInput s x m).inputs.length)

include h

theorem upInput_mismatch {node : Nat} (ho : offender (withInput s x m).inputs = some node) : s.upInput x m hop here = s.mismatch x m node := by
  refine (if_neg (not_not.mpr hk)).trans ((if_neg (Nat.not_lt.mpr h)).trans ?_)
  have ho' : offender ((s.gathered x.key m.seq).inputs ++ [m]) = some node := ho
  simp only [ho']

variable (ho : offender (withInput s x m).inputs = none) {a : CollMsg} {l : List CollMsg} (hin : (withInput s x m).inputs = a :: l)

include ho hin

theorem upInput_up {p : Nat} (hp : x.parent = some p) : s.upInput x m hop here
    = (mergeCheck s x m a l hop).1.sendColl x .up p (if (mergeCheck s x m a l hop).2.2 then (mergeCheck s x m a l hop).2.1
      else { (mergeCheck s x m a l hop).2.1 with status := 0x0A }) := by
  refine (if_neg (not_not.mpr hk)).trans ((if_neg (Nat.not_lt.mpr h)).trans ?_)
  have ho' : offender ((s.gathered x.key m.seq).inputs ++ [m]) = none := ho
  have hin' : (s.gathered x.key m.seq).inputs ++ [m] = a :: l := hin
  simp only [ho']
  rw [hin', hp]
  rfl

theorem upInput_root (hp : x.parent = none) : s.upInput x m hop here
    = if (mergeCheck s x m a l hop).2.2 then (mergeCheck s x m a l hop).1.rootDown x (mergeCheck s x m a l hop).2.1 DigestObs.clean here
      else (mergeCheck s x m a l hop).1.statusDown x { (l.foldl mergeTwo a) with child := none } 0x0A 0 := by
  refine (if_neg (not_not.mpr hk)).trans ((if_neg (Nat.not_lt.mpr h)).trans ?_)
  have ho' : offender ((s.gathered x.key m.seq).inputs ++ [m]) = none := ho
  have hin' : (s.gathered x.key m.seq).inputs ++ [m] = a :: l := hin
  simp only [ho']
  rw [hin', hp]
  rfl

end Inputs

/-! ### Results on their way down (R313, R317–R319) -/

section Downs

variable {s : State} {x : Tree} {m : CollMsg} {hop here : DigestObs}

theorem downHere_failed (h : (s.hopCheck x m hop).2.2 = false) :
    s.downHere x m hop here = ((s.hopCheck x m hop).1.statusDown x m 0x0A 0).abortUp x m :=
  if_pos (by rw [h]; rfl)

/-- Without a member here, what holds goes to every child, and ends the sequence unless a joint verdict is due. -/
theorem downHere_memberless (h : (s.hopCheck x m hop).2.2 = true) (hm : x.member = none) :
    s.downHere x m hop here =
      if hasVerdict m.w = true ∧ m.status = 0 then (s.hopCheck x m hop).1.sendDown x .down (s.hopCheck x m hop).2.1
      else ((s.hopCheck x m hop).1.sendDown x .down (s.hopCheck x m hop).2.1).passed x m.seq := by
  unfold State.downHere
  simp only [h, Bool.not_true, Bool.false_eq_true, if_false, State.memberDown, hm, Bool.and_eq_true, beq_iff_eq]

end Downs

/-! ### Forwarders (R304, R305, R317, R318) -/

section Forwarders

variable {s : State} {x : Tree} {u : CollIn} {up : Bool} {hop : DigestObs} {q : Nat} (hq : x.across u.port = some q)

include hq

theorem forwardUnit_part (h : (s.unitIn up u).2 = none) : s.forwardUnit x up u hop = (s.unitIn up u).1.passUnit q u := by
  unfold State.forwardUnit
  simp only [hq, h]

variable {m : CollMsg} (h : (s.unitIn up u).2 = some m)

include h

theorem forwardUnit_failed (hck : ((s.unitIn up u).1.hopCheck x m hop).2.2 = false) : s.forwardUnit x up u hop
    = (if up then ((s.unitIn up u).1.hopCheck x m hop).1 else ((s.unitIn up u).1.hopCheck x m hop).1.statusDown x m 0x0A 0).abortUp x m := by
  unfold State.forwardUnit
  simp only [hq, h, hck, Bool.not_false, if_true]

theorem forwardUnit_whole (hck : ((s.unitIn up u).1.hopCheck x m hop).2.2 = true) : s.forwardUnit x up u hop
    = if up = true ∨ (hasVerdict m.w = true ∧ m.status = 0) then ((s.unitIn up u).1.hopCheck x m hop).1.passUnit q u
      else (((s.unitIn up u).1.hopCheck x m hop).1.passUnit q u).passed x m.seq := by
  unfold State.forwardUnit
  simp only [hq, h, hck, Bool.not_true, Bool.false_eq_true, if_false, Bool.or_eq_true, Bool.and_eq_true, beq_iff_eq]

end Forwarders

/-! ### Control (R313, R315, R318, R319) -/

section Control

theorem isAbort_iff (k : CollMsg) : isAbort k = true ↔ k.status = 0x0A ∧ hasVerdict k.w = false := by simp [isAbort]

section Commands

variable {s : State} {u : CollIn} {x : Tree}

/-- A control unit at a module's place in the tree. -/
def ctrlUnit (s : State) (x : Tree) (u : CollIn) : State :=
  let up := x.children.contains u.port.val
  let m := readCtrl up u
  if x.forwards then match x.across u.port with
    | some q =>
      let s1 := if isAbort m then s.dropColl x.key m.seq else s
      if up then s1.passUnit q u else (s1.passUnit q u).passed x m.seq
    | none => s
  else if up then (s.creditBack u).ctrlUp x m else (s.creditBack u).ctrlDown x m

theorem ctrlUnit_up (hf : x.forwards = false) (hup : x.children.contains u.port.val = true) :
    ctrlUnit s x u = (s.creditBack u).ctrlUp x (readCtrl true u) := by
  simp only [ctrlUnit, hf, hup, Bool.false_eq_true, if_false, if_true]

theorem ctrlUnit_down (hf : x.forwards = false) (hup : x.children.contains u.port.val = false) :
    ctrlUnit s x u = (s.creditBack u).ctrlDown x (readCtrl false u) := by
  simp only [ctrlUnit, hf, hup, Bool.false_eq_true, if_false]

theorem ctrlUnit_forwarded {q : Nat} (hf : x.forwards = true) (hq : x.across u.port = some q) :
    ctrlUnit s x u =
      let up := x.children.contains u.port.val
      let k := readCtrl up u
      let s1 := if k.status = 0x0A ∧ hasVerdict k.w = false then s.dropColl x.key k.seq else s
      if up then s1.passUnit q u else (s1.passUnit q u).passed x k.seq := by
  simp only [ctrlUnit, hf, hq, if_true, isAbort_iff]

variable (hx : s.treeOf (unitKey u) = some x) (hpact : u.express = true → unitMark u ≠ 0xB0)

include hx hpact

theorem exec_collCtrl_late (hl : s.lateColl x (unitSeq u) = true) (ha : isAbort (readCtrl true u) = false) :
    exec (.collCtrl u) s = .next (s.creditBack u) :=
  congrArg Host.Outcome.next ((if_neg (by simpa [pactMark] using hpact)).trans (treeUnit_late hx _ hl ha))

theorem exec_collCtrl_taken (h : s.lateColl x (unitSeq u) = false ∨ isAbort (readCtrl true u) = true) :
    exec (.collCtrl u) s = .next (ctrlUnit s x (atEdge x u)) :=
  congrArg Host.Outcome.next ((if_neg (by simpa [pactMark] using hpact)).trans (treeUnit_taken hx _ h))

end Commands

section Ups

variable {s : State} {x : Tree} {k : CollMsg}

theorem ctrlUp_mismatch (h : k.status = 6) : s.ctrlUp x k = s.mismatch x k k.lowNode := if_pos h

theorem ctrlUp_verdict (h : k.status ≠ 6) (hv : hasVerdict k.w = true) : s.ctrlUp x k = s.verdictAdd x k :=
  (if_neg h).trans (if_pos hv)

theorem ctrlUp_abort (h : k.status ≠ 6) (hv : hasVerdict k.w = false) {p : Nat} (hp : x.parent = some p) :
    s.ctrlUp x k = (s.dropColl x.key k.seq).sendColl x .ctl p (k.ended 0x0A 0) := by
  simp only [State.ctrlUp, h, hv, hp, if_false, Bool.false_eq_true]

theorem ctrlUp_abort_root (h : k.status ≠ 6) (hv : hasVerdict k.w = false) (hp : x.parent = none) :
    s.ctrlUp x k = ((s.dropColl x.key k.seq).sendDown x .ctl (k.ended 0x0A 0)).memberAbort x k := by
  simp only [State.ctrlUp, h, hv, hp, if_false, Bool.false_eq_true]

theorem memberAbort_flight {i : Nat} {e : Coll} (hm : x.member = some i) (he : lookupKey s.grp.inflight i = some e) :
    s.memberAbort x k = if e.seq = k.seq then s.collComplete i 0x0A 0 else s := by
  simp only [State.memberAbort, hm, he]

theorem memberAbort_early {i : Nat} (hm : x.member = some i) (he : lookupKey s.grp.inflight i = none) (hseq : k.seq = s.fld (fGrpGStatSeq i)) :
    s.memberAbort x k = { s with grp := { s.grp with early := insertKey s.grp.early i (k.ended 0x0A 0) } } := by
  simp only [State.memberAbort, hm, he, hseq, if_true]

theorem ctrlDown_memberless (hm : x.member = none) : s.ctrlDown x k = (s.sendDown x .ctl k).passed x k.seq := by
  simp only [State.ctrlDown, State.memberAbort, hm, ite_self]

/-- An abort, or the verdict that a member waits for, ends the member's collective. -/
theorem ctrlDown_member {i : Nat} {e : Coll} (hm : x.member = some i)
    (he : lookupKey ((s.sendDown x .ctl k).passed x k.seq).grp.inflight i = some e) (hseq : e.seq = k.seq)
    (h : e.verdict.isSome = true ∨ isAbort k = true) :
    s.ctrlDown x k = ((s.sendDown x .ctl k).passed x k.seq).collComplete i k.status 0 := by
  unfold State.ctrlDown
  dsimp only
  cases ha : isAbort k with
  | true => rw [if_pos rfl, memberAbort_flight hm he, if_pos hseq, ((isAbort_iff k).mp ha).1]
  | false =>
    obtain hv : e.verdict.isSome = true := h.resolve_right (by simp [ha])
    simp only [hm, he, Option.any_some, hseq, hv, beq_self_eq_true, Bool.and_self, if_true, Bool.false_eq_true, if_false]

end Ups

end Control

/-! ### Timeouts (R321) -/

section Timeouts

variable {s : State} {x : Tree} {key seq : Nat}

theorem exec_collectiveTimeout_member {g : Grp} {e : Coll} (he : lookupKey s.grp.inflight g = some e) :
    exec (.collectiveTimeout (.member g)) s = .next ((((s.dropColl (s.fld (fGrpGStateKey g)) e.seq).collComplete g 7 0).setFlds
      [(fGrpGStateState g, 3), (fGrpGStateReason g, 7)]).pactsBroken g) := by
  refine congrArg Host.Outcome.next ?_
  simp only [State.collTimeout, he]
  rfl

theorem exec_collectiveTimeout_transit {key : BitVec 22} {seq : BitVec 32} (hx : s.treeOf key.toNat = some x) :
    exec (.collectiveTimeout (.transit key seq)) s = .next (s.passed x seq.toNat) := by
  refine congrArg Host.Outcome.next ?_
  simp only [State.transitTimeout, hx]

theorem gathers_passed : (s.passed x seq).grp.gathers.all (fun h => !(h.key == x.key && h.seq == seq)) = true :=
  List.all_eq_true.mpr fun _ h => (List.mem_filter.mp h).2

theorem arriving_passed : (s.passed x seq).grp.arriving.all (fun h => !(h.key == x.key && h.seq == seq)) = true :=
  List.all_eq_true.mpr fun _ h => (List.mem_filter.mp h).2

/-- A tree that only passes here has the sequence behind it. -/
theorem treeOf_passed (hx : s.treeOf key = some x) (hm : x.member = none) :
    (s.passed x seq).treeOf key = some { x with next := max x.next (seq + 1) } := by
  obtain rfl := treeOf_key hx
  have hkeys : (fun u : Tree => u.key == x.key) ∘ (fun u : Tree =>
      if u.key = x.key ∧ u.member.isNone then { u with next := max u.next (seq + 1) } else u) = fun u => u.key == x.key := by
    funext u
    simp only [Function.comp_apply]
    split <;> rfl
  unfold State.treeOf at hx
  unfold State.treeOf State.passed
  dsimp only
  rw [List.find?_map, hkeys]
  show ((s.grp.trees.find? (fun u => u.key == x.key)).map _) = _
  rw [hx, Option.map_some, if_pos ⟨rfl, by rw [hm]; rfl⟩]

end Timeouts

/-- Settles O42: starts by what stands in the queue, units by the place in the tree and what has arrived, control by its direction. -/
theorem collectivesRun : Obligations.CollectivesRun := by
  unfold Obligations.CollectivesRun
  refine ⟨?_, ?_, ?_⟩
  · intro g far u hop here s start left
    refine ⟨fun b rest x p hstart hs he hx hc hp => ?_, fun b rest hq hi hs => congrArg _ (collStart_broken hq hi hs),
      fun b rest e hstart hs he hseq => ?_, fun x m hd hst => ?_, fun x hx hf => ?_, fun e he => exec_collectiveTimeout_member he,
      fun key seq x hx hm => ?_⟩
    · obtain ⟨hq, hi, hw⟩ := hstart
      obtain ⟨w, o, hrun, hflight, hkey, hseq, hchild, hrank, hnode, how, hcount, hseal, hdigest⟩ :=
        collStart_leaf (far := far) (hop := hop) (here := here) hq hi hw hs he hx hc hp
      exact ⟨w, o, _, congrArg Host.Outcome.next hrun, hflight, rfl, rfl, rfl, rfl, rfl, rfl, hkey, hseq, hchild, hrank, hnode, how, hcount,
        hseal, hdigest⟩
    · obtain ⟨hq, hi, hw⟩ := hstart
      exact congrArg Host.Outcome.next (collStart_ended hq hi hw hs he hseq)
    · intro hub o again
      have hck : s.hopCheck x m hop = _ := hopCheck_digest hd hst
      refine ⟨fun h1 => hck.trans (if_pos h1), fun h1 => ⟨fun h2 => ?_, fun h2 h3 => ?_, fun h2 h3 => ?_⟩, laneFaults_spec hub⟩
      · exact hck.trans ((if_neg (Bool.eq_false_iff.mp h1)).trans (if_pos h2))
      · exact hck.trans ((if_neg (Bool.eq_false_iff.mp h1)).trans ((if_neg (Bool.eq_false_iff.mp h2)).trans (if_pos h3)))
      · exact hck.trans ((if_neg (Bool.eq_false_iff.mp h1)).trans ((if_neg (Bool.eq_false_iff.mp h2)).trans (if_neg h3)))
    · intro v credit sc
      refine ⟨fun hl => ⟨exec_collUp_late hx hl, exec_collDown_late hx hl⟩, fun hl => ⟨exec_collUp_part hx hl hf, exec_collDown_part hx hl hf,
        fun m hm => ?_, fun m hm => ?_⟩⟩
      · intro got all after
        have hk : m.key = x.key := (unitIn_key hm).trans (treeOf_key hx).symm
        rw [exec_collUp_whole hx hl hf hm]
        refine ⟨fun hn => congrArg _ (upInput_waits hk hn), fun node hn ho => congrArg _ (upInput_mismatch hk hn ho), fun a l hn ho hin => ?_⟩
        intro merged ck
        refine ⟨fun p hp => congrArg _ (upInput_up hk hn ho hin hp), fun hp hck => ?_, fun hp hck => ?_⟩
        · exact congrArg _ ((upInput_root hk hn ho hin hp).trans (if_pos hck))
        · exact congrArg _ ((upInput_root hk hn ho hin hp).trans (if_neg (Bool.eq_false_iff.mp hck)))
      · intro ck on
        rw [exec_collDown_whole hx hl hf hm]
        refine ⟨rfl, fun hck => congrArg _ (downHere_failed hck), fun hck hmem hv hst => ?_, fun hck hmem hno => ?_⟩
        · exact congrArg _ ((downHere_memberless hck hmem).trans (if_pos ⟨hv, hst⟩))
        · refine congrArg _ ((downHere_memberless hck hmem).trans (if_neg fun h => ?_))
          rcases hno with hv | hst
          · exact Bool.eq_false_iff.mp hv h.1
          · exact hst h.2
    · refine ⟨_, exec_collectiveTimeout_transit hx, ?_, ?_, fun y hy => ?_⟩
      · rw [← treeOf_key hx]
        exact gathers_passed
      · rw [← treeOf_key hx]
        exact arriving_passed
      · obtain rfl : { x with next := max x.next (seq.toNat + 1) } = y := Option.some.inj ((treeOf_passed hx hm).symm.trans hy)
        simp only [State.lateColl, hm, decide_eq_true_eq]
        omega
  · intro u x s hx hf hpact v sc up k abort
    have habort : isAbort (readCtrl true u) = true ↔ abort := isAbort_iff _
    refine ⟨fun hl ha => exec_collCtrl_late hx hpact hl (Bool.eq_false_iff.mpr (mt habort.mp ha)), fun hin => ?_,
      fun i e m hm he => ?_, fun i m hm he hseq => memberAbort_early hm he hseq⟩
    · intro gone down
      have hrun := exec_collCtrl_taken hx hpact (hin.imp_right habort.mpr)
      have hup (h : up = true) : exec (.collCtrl u) s = .next (sc.ctrlUp x k) := by
        rw [hrun, show k = readCtrl true v from congrArg (readCtrl · v) h]
        exact congrArg _ (ctrlUnit_up hf h)
      have hdown (h : up = false) : exec (.collCtrl u) s = .next (sc.ctrlDown x k) := by
        rw [hrun, show k = readCtrl false v from congrArg (readCtrl · v) h]
        exact congrArg _ (ctrlUnit_down hf h)
      refine ⟨fun h h6 => (hup h).trans (congrArg _ (ctrlUp_mismatch h6)), fun h h6 hv => (hup h).trans (congrArg _ (ctrlUp_verdict h6 hv)),
        fun p h h6 hv hp => (hup h).trans (congrArg _ (ctrlUp_abort h6 hv hp)),
        fun h h6 hv hp => (hup h).trans (congrArg _ (ctrlUp_abort_root h6 hv hp)),
        fun h hm => (hdown h).trans (congrArg _ (ctrlDown_memberless hm)),
        fun i e h hm he hseq hends => (hdown h).trans (congrArg _ (ctrlDown_member hm he hseq (hends.imp_right (isAbort_iff k).mpr)))⟩
    · rw [memberAbort_flight hm he]
      exact ⟨fun h => if_pos h, fun h => if_neg h⟩
  · intro u x q hop here s hx hf v hq hl r r1
    refine ⟨fun h => ?_, fun h => ?_, fun m hm => ?_, fun m hm => ?_, fun hpact => ?_, fun t p m hp => ?_⟩
    · exact (exec_collUp_forwarded hx hl hf).trans (congrArg _ (forwardUnit_part hq h))
    · exact (exec_collDown_forwarded hx hl hf).trans (congrArg _ (forwardUnit_part hq h))
    · intro ck
      rw [exec_collUp_forwarded hx hl hf]
      exact ⟨fun hck => congrArg _ ((forwardUnit_whole hq hm hck).trans (if_pos (.inl rfl))),
        fun hck => congrArg _ (forwardUnit_failed hq hm hck)⟩
    · intro ck
      rw [exec_collDown_forwarded hx hl hf]
      refine ⟨fun hck hv hst => congrArg _ ((forwardUnit_whole hq hm hck).trans (if_pos (.inr ⟨hv, hst⟩))), fun hck hno => ?_,
        fun hck => congrArg _ (forwardUnit_failed hq hm hck)⟩
      refine congrArg _ ((forwardUnit_whole hq hm hck).trans (if_neg fun h => ?_))
      obtain ⟨hv, hst⟩ := h.resolve_left Bool.false_ne_true
      exact hno.elim (fun h => Bool.eq_false_iff.mp h hv) fun h => h hst
    · intro up k s1
      have hrun := (exec_collCtrl_taken hx hpact (.inl hl)).trans (congrArg _ (ctrlUnit_forwarded (u := v) hf hq))
      exact ⟨fun hup => hrun.trans (congrArg _ (if_pos hup)), fun hup => hrun.trans (congrArg _ (if_neg (Bool.eq_false_iff.mp hup)))⟩
    · simp only [State.abortUp, hp]

end Sys2Proof.Proofs
end

section
/-! SUPPORT. Feeds, rails and droop (R336–R348, R508): what a report leaves of the registers, how a feed is lost and comes back, what a rail's
sample starts and ends, and the statement on them. -/

namespace Sys2Proof.Proofs

open Sys2Proof Sys2Proof.Machine

/-! ### What a report leaves (R373–R380, R482) -/

/-- The registers that error records and warnings write: the counts and the ring of records, the management queue. -/
def reportRegs : List Nat := [rErrRingState, rErrCount, rMgtQueue]

section Reports

variable {s : State}

theorem pwr_of_runsAndBeyond {t : State} (h : runsAndBeyond t = runsAndBeyond s) : t.pwr = s.pwr := by
  simp only [runsAndBeyond, beyondTasks, Prod.mk.injEq] at h
  obtain ⟨-, -, -, -, -, -, -, -, hpwr, -⟩ := h
  exact hpwr

@[simp] theorem pwr_log (e : ErrArg) : (s.log e).pwr = s.pwr := pwr_of_runsAndBeyond (runsAndBeyond_log e)

section Registers

variable {g : Fld} (hg : g.off ∉ reportRegs)
include hg

theorem fld_setFld_report {f : Fld} (hf : f.off ∈ reportRegs) (v : Nat) : (s.setFld f v).fld g = s.fld g :=
  fld_setFld_off _ _ _ _ fun e => hg (e ▸ hf)

theorem fld_bump_report {f : Fld} (hf : f.off ∈ reportRegs) (n : Nat) : (s.bump f n).fld g = s.fld g := fld_setFld_report hg hf _

theorem fld_mgmtShow : s.mgmtShow.fld g = s.fld g := fld_setFld_report hg (by decide) _

theorem fld_mgmtFlush : s.mgmtFlush.fld g = s.fld g := by
  unfold State.mgmtFlush
  split
  · rfl
  · refine (fld_mgmtShow hg).trans (foldl_fst_keeps (fun t => t.fld g) (fun q it => ?_) s.mgmt.queue (s, []))
    split
    · rfl
    · dsimp only
      split <;> rfl

theorem fld_mgmtQueue (it : MgmtItem) : (s.mgmtQueue it).fld g = s.fld g := by
  unfold State.mgmtQueue
  refine (fld_mgmtFlush hg).trans ((fld_mgmtShow hg).trans ?_)
  split
  · rfl
  · split
    · exact fld_bump_report hg (by decide) _
    · split <;> rfl

omit hg in
theorem fld_event (code v : Nat) : (s.event code v).fld g = s.fld g := by
  unfold State.event
  dsimp only
  split <;> rfl

omit hg in
theorem fld_faultSince (before : State) : (s.faultSince before).fld g = s.fld g := by
  unfold State.faultSince
  split
  · rfl
  · exact fld_event _ _

theorem fld_errCount (cls n : Nat) : (s.errCount cls n).fld g = s.fld g := by
  unfold State.errCount
  split
  · exact fld_bump_report hg (by decide) _
  · exact fld_bump_report hg (by decide) _
  · exact fld_bump_report hg (by decide) _
  · exact fld_setFld_report hg (by decide) _

omit hg in
theorem fld_errFlash (r : ErrRec) : (s.errFlash r).fld g = s.fld g := by
  unfold State.errFlash
  split
  · rfl
  · exact fld_faultSince _

omit hg in
theorem fld_errIrq : s.errIrq.fld g = s.fld g := by
  unfold State.errIrq State.msix
  dsimp only
  split
  · split <;> rfl
  · rfl

theorem fld_errRing (r : ErrRec) : (s.errRing r).fld g = s.fld g := by
  unfold State.errRing
  split
  · rfl
  · dsimp only
    split
    · exact fld_errIrq.trans (fld_setFld_report hg (by decide) _)
    · exact fld_bump_report hg (by decide) _

theorem fld_report (r : ErrRec) : (s.report r).fld g = s.fld g :=
  (fld_mgmtQueue hg _).trans ((fld_errRing hg _).trans (fld_errFlash _))

theorem fld_log (e : ErrArg) : (s.log e).fld g = s.fld g := by
  have hcount : (s.errCount e.cls 1).fld g = s.fld g := fld_errCount hg _ _
  have hreport := (fld_report (s := s.errCount e.cls 1) hg ((s.errCount e.cls 1).mkRec e)).trans hcount
  unfold State.log
  dsimp only
  split
  · exact hcount
  · split <;> exact hreport

theorem fld_raise (code kind unit : Nat) (detail : List Byte) : (s.raise code kind unit detail).fld g = s.fld g := by
  have hsent : (s.sendWarning code 0 kind unit detail).fld g = s.fld g := (fld_mgmtQueue hg _).trans (fld_event _ _)
  unfold State.raise
  dsimp only
  split
  · rfl
  · split <;> exact hsent

end Registers

end Reports

/-! ### Mates and volts (R336, R508) -/

section Pins

variable {s : State} {f : Feed}

theorem mated_setMate (m : Bool) : (s.setMate f m).mated f = m := by
  cases f <;> (unfold State.setMate; dsimp only; split <;> rfl)

theorem mated_setMate_other (m : Bool) : (s.setMate f m).mated (feedOther f) = s.mated (feedOther f) := by
  cases f <;> (unfold State.setMate; dsimp only; split <;> rfl)

theorem mate_setMate (h : s.pins.vaux = true) (m : Bool) : (s.setMate f m).fld (feedMateF f) = ofBool m := by
  unfold State.setMate
  rw [if_pos h]
  exact fld_setFld_fits _ (by cases f <;> decide) (by cases f <;> exact ofBool_lt_two m)

theorem regs_setMate (h : s.pins.vaux = false) (m : Bool) : (s.setMate f m).regs = s.regs := by
  unfold State.setMate
  rw [if_neg (Bool.eq_false_iff.mp h)]
  cases f <;> rfl

theorem volts_setVolts (v : BitVec 10) : (s.setVolts f v.toNat).fld (feedVoltsF f) = v.toNat :=
  fld_setFld_fits _ (by cases f <;> decide) (by cases f <;> exact v.isLt)

variable {tenths : BitVec 10}

theorem exec_earlyBreakDeassert (h : s.pins.vaux = true) :
    exec (.earlyBreakDeassert f) s = .next (((s.setMate f false).setGone f true).feedInvalid f false) := congrArg _ (if_pos h)

theorem exec_earlyBreakDeassert_dark (h : s.pins.vaux = false) : exec (.earlyBreakDeassert f) s = .next (s.setMate f false) :=
  congrArg _ (if_neg (Bool.eq_false_iff.mp h))

theorem exec_feedVoltageFault_dark (h : s.pins.vaux = false) : exec (.feedVoltageFault f tenths) s = .next s :=
  congrArg _ (if_pos (by simp [h]))

theorem exec_feedValid_dark (h : s.pins.vaux = false) : exec (.feedValid f tenths) s = .next s := congrArg _ (if_pos (by simp [h]))

section Powered

variable (hv : s.pins.vaux = true)
include hv

theorem not_dark : ¬(!s.pins.vaux) = true := by simp [hv]

theorem exec_feedVoltageFault_out (h : tenths.toNat < 385 ∨ 615 < tenths.toNat) :
    exec (.feedVoltageFault f tenths) s = .next (((s.setVolts f tenths.toNat).setGone f true).feedInvalid f false) :=
  congrArg _ ((if_neg (not_dark hv)).trans (if_pos h))

theorem exec_feedVoltageFault_in (hlo : 385 ≤ tenths.toNat) (hhi : tenths.toNat ≤ 615) :
    exec (.feedVoltageFault f tenths) s = .next (s.setVolts f tenths.toNat) :=
  congrArg _ ((if_neg (not_dark hv)).trans (if_neg (by omega)))

theorem exec_feedValid (hlo : 400 ≤ tenths.toNat) (hhi : tenths.toNat ≤ 600) (hm : s.mated f = true) (hnew : s.feedValidAt f = none)
    (hst : s.fld (feedStateF f) ≠ fsFault) :
    let valid := ((s.setVolts f tenths.toNat).setFeedValid f (some s.time)).setFld (feedStateF f) (if s.drawing then fsPrecharge else fsOff)
    exec (.feedValid f tenths) s = .next ({ valid with pwr := { valid.pwr with holdFeeds := false } }).pwrShow := by
  refine congrArg _ ((if_neg (not_dark hv)).trans (if_neg ?_))
  simp only [hm, hnew, Bool.not_true, Option.isSome_none, Bool.false_eq_true, hst, false_and, or_false]
  omega

end Powered

end Pins

/-! ### A feed becomes invalid (R336, R339–R343) -/

section Loss

variable {s t : State} {f : Feed}

/-- The state once a feed's loss is noted: it is invalid, its stage OFF, and FEED_EVENT is logged. -/
def feedLost (s : State) (f : Feed) : State :=
  let off := (s.setFeedValid f none).setFlds [(feedStateF f, fsOff), (feedAmpsF f, 0)]
  ({ off with pwr := { off.pwr with charged := s.pwr.charged.filter (· != feedNum f) } }).log { code := 0x0601, kind := 10, unit := feedNum f }

theorem charged_setFeedValid (x : Option Nat) : (s.setFeedValid f x).pwr.charged = s.pwr.charged := by cases f <;> rfl

theorem feedInvalid_lost (hval : (s.feedValidAt f).isSome = true) (hst : s.fld (feedStateF f) ≠ fsFault) :
    s.feedInvalid f false = if s.drawing then (feedLost s f).takeOver f (s.fld (feedStateF f)) else feedLost s f := by
  simp only [State.feedInvalid, hval, Bool.not_true, Bool.false_eq_true, if_false, false_or, if_neg hst, setFlds_pwr, charged_setFeedValid,
    feedLost, State.feedEvent]

theorem feedInvalid_drawing (hval : (s.feedValidAt f).isSome = true) (hst : s.fld (feedStateF f) ≠ fsFault) (hd : s.drawing = true) :
    s.feedInvalid f false = (feedLost s f).takeOver f (s.fld (feedStateF f)) := (feedInvalid_lost hval hst).trans (if_pos hd)

theorem feedInvalid_idle (hval : (s.feedValidAt f).isSome = true) (hst : s.fld (feedStateF f) ≠ fsFault) (hd : s.drawing = false) :
    s.feedInvalid f false = feedLost s f := (feedInvalid_lost hval hst).trans (if_neg (Bool.eq_false_iff.mp hd))

/-- The other feed is as valid as it was. -/
theorem feedValidAt_feedLost : (feedLost s f).feedValidAt (feedOther f) = s.feedValidAt (feedOther f) := by
  cases f <;> simp [feedLost, State.feedValidAt, State.setFeedValid, feedOther]

theorem fld_setFeedValid (x : Option Nat) (g : Fld) : (s.setFeedValid f x).fld g = s.fld g := by cases f <;> rfl

/-- A feed's loss leaves the fields beside its own state and current. -/
theorem fld_feedLost {g : Fld} (hoff : g.off ∉ reportRegs) (hhi : g.hi < 64) (hst : Apart (feedStateF f) g) (hamps : Apart (feedAmpsF f) g) :
    (feedLost s f).fld g = s.fld g := by
  refine (fld_log hoff _).trans ((fld_withPwr _ g).trans ((fld_setFlds_apart _ hhi ?_).trans (fld_setFeedValid _ g)))
  simpa using ⟨hst, hamps⟩

theorem mode_feedLost : (feedLost s f).fld fPwrFeedMode = s.fld fPwrFeedMode :=
  fld_feedLost (by decide) (by decide) (by cases f <;> decide) (by cases f <;> decide)

theorem primary_feedLost : (feedLost s f).fld fPwrFeedPrimary = s.fld fPwrFeedPrimary :=
  fld_feedLost (by decide) (by decide) (by cases f <;> decide) (by cases f <;> decide)

theorem otherState_feedLost : (feedLost s f).fld (feedStateF (feedOther f)) = s.fld (feedStateF (feedOther f)) :=
  fld_feedLost (by cases f <;> decide) (by cases f <;> decide) (by cases f <;> decide) (by cases f <;> decide)

theorem feedNum_other : feedNum (feedOther f) ≠ feedNum f := by cases f <;> decide

/-! The load goes over (R339–R342). -/

variable {was : Nat}

theorem takeOver_none (hother : (t.feedValidAt (feedOther f)).isSome = false) : t.takeOver f was = t.powerLoss := by
  simp [State.takeOver, Option.not_isSome_iff_eq_none.mp (Bool.eq_false_iff.mp hother)]

section Carried

variable (hother : (t.feedValidAt (feedOther f)).isSome = true)
include hother

theorem other_valid : (t.feedValidAt (feedOther f)).isNone = false := by simpa [Option.isSome_iff_ne_none] using hother

theorem takeOver_share (hmode : t.fld fPwrFeedMode = 0) : t.takeOver f fsActive = t.setFld (feedStateF (feedOther f)) fsActive := by
  simp [State.takeOver, other_valid hother, bit_of_fld_zero hmode]

section Standby

variable (hmode : t.fld fPwrFeedMode = 1)
include hmode

theorem takeOver_secondary (hprim : t.fld fPwrFeedPrimary = feedNum (feedOther f)) : t.takeOver f was = t := by
  simp [State.takeOver, other_valid hother, bit_of_fld hmode, hprim, feedNum_other]

variable (hprim : t.fld fPwrFeedPrimary = feedNum f)
include hprim

theorem takeOver_active : t.takeOver f fsActive = t.switchTo (feedOther f) := by
  simp [State.takeOver, other_valid hother, bit_of_fld hmode, hprim]

theorem takeOver_cold (hwas : was ≠ fsActive) (hcold : t.fld (feedStateF (feedOther f)) = fsCold) :
    t.takeOver f was = t.setFlds [(fPwrFeedPrimary, feedNum (feedOther f)), (feedStateF (feedOther f), fsActive)] := by
  simp [State.takeOver, other_valid hother, bit_of_fld hmode, hprim, hwas, hcold]

theorem takeOver_uncharged (hwas : was ≠ fsActive) (hcold : t.fld (feedStateF (feedOther f)) ≠ fsCold) :
    t.takeOver f was = t.setFld fPwrFeedPrimary (feedNum (feedOther f)) := by
  simp [State.takeOver, other_valid hother, bit_of_fld hmode, hprim, hwas, hcold, State.setFlds]

end Standby

end Carried

theorem exec_stageFault (hoff : s.fld (feedStateF f) ≠ fsOff) (hfault : s.fld (feedStateF f) ≠ fsFault) :
    exec (.stageFault f) s = .next ((s.setGone f false).feedInvalid f true) := congrArg _ (if_neg (not_or.mpr ⟨hoff, hfault⟩))

theorem exec_powerLoss (h : s.drawing = true) : exec .powerLoss s = .next s.powerLoss := congrArg _ (if_pos h)

end Loss

/-! ### A feed comes back (R337, R340, R341) -/

section Return

variable {s : State} {f : Feed}

section Precharged

variable (hst : s.fld (feedStateF f) = fsPrecharge)
include hst

theorem exec_prechargeDone : exec (.prechargeDone f) s = .next (if s.bit fPwrFeedMode then
      (if s.fld fPwrFeedPrimary = feedNum f ∧ s.fld (feedStateF (feedOther f)) ≠ fsActive then s.setFld (feedStateF f) fsActive
        else s.setFld (feedStateF f) fsCold)
    else if !s.railsUp then s.setFld (feedStateF f) fsActive
    else { s with pwr := { s.pwr with charged := s.pwr.charged.filter (· != feedNum f) ++ [feedNum f] } }) :=
  congrArg _ (if_neg (not_not.mpr hst))

theorem exec_prechargeDone_primary (hmode : s.fld fPwrFeedMode = 1) (hprim : s.fld fPwrFeedPrimary = feedNum f)
    (hother : s.fld (feedStateF (feedOther f)) ≠ fsActive) : exec (.prechargeDone f) s = .next (s.setFld (feedStateF f) fsActive) :=
  (exec_prechargeDone hst).trans (congrArg _ ((if_pos (bit_of_fld hmode)).trans (if_pos ⟨hprim, hother⟩)))

theorem exec_prechargeDone_cold (hmode : s.fld fPwrFeedMode = 1) (hother : s.fld (feedStateF (feedOther f)) = fsActive) :
    exec (.prechargeDone f) s = .next (s.setFld (feedStateF f) fsCold) :=
  (exec_prechargeDone hst).trans (congrArg _ ((if_pos (bit_of_fld hmode)).trans (if_neg fun h => h.2 hother)))

theorem exec_prechargeDone_first (hmode : s.fld fPwrFeedMode = 0) (hup : s.railsUp = false) :
    exec (.prechargeDone f) s = .next (s.setFld (feedStateF f) fsActive) := by
  simp [exec_prechargeDone hst, bit_of_fld_zero hmode, hup]

theorem exec_prechargeDone_returning (hmode : s.fld fPwrFeedMode = 0) (hup : s.railsUp = true) : exec (.prechargeDone f) s =
    .next { s with pwr := { s.pwr with charged := s.pwr.charged.filter (· != feedNum f) ++ [feedNum f] } } := by
  simp [exec_prechargeDone hst, bit_of_fld_zero hmode, hup]

theorem exec_shareReturn (hmode : s.fld fPwrFeedMode = 0) (hup : s.railsUp = true) (hval : (s.feedValidAt f).isSome = true)
    (hch : s.pwr.charged.contains (feedNum f) = true) : exec (.shareReturn f) s =
    .next (({ s with pwr := { s.pwr with charged := s.pwr.charged.filter (· != feedNum f) } }).setFld (feedStateF f) fsActive) :=
  congrArg _ (if_pos ⟨hup, by simp [bit_of_fld_zero hmode], hst, hval, hch⟩)

end Precharged

theorem exec_shareReturn_uncharged (hch : s.pwr.charged.contains (feedNum f) = false) : exec (.shareReturn f) s = .next s :=
  congrArg _ (if_neg fun ⟨_, _, _, _, h⟩ => Bool.eq_false_iff.mp hch h)

theorem exec_revertTimer (hup : s.railsUp = true) (hmode : s.fld fPwrFeedMode = 1) (hprim : s.fld fPwrFeedPrimary = 1)
    (hcold : s.fld fPwrFeedAState = fsCold) (ha : s.pwr.validA.isSome = true) (hb : s.pwr.validB.isSome = true) :
    exec .revertTimer s = .next (((s.switchTo .A).setFld fPwrFeedBState fsCold).feedEvent .A) := by
  refine congrArg _ ((if_pos ⟨hup, bit_of_fld hmode, bit_of_fld hprim, hcold, ha⟩).trans ?_)
  rw [if_pos hb]

end Return

/-! ### Rails (R345–R347) -/

section Rails

variable {s : State} {r : Fin 13}

theorem exec_phaseLoss (h : s.fld (fPwrRailPhasesOk r) ≠ 0) : exec (.phaseLoss r) s = .next ((s.setFlds
    [(fPwrRailPhasesOk r, s.fld (fPwrRailPhasesOk r) - 1), (fPwrRailLimit r, (railFull r).1
      - (s.fld (fPwrRailPhases r) - (s.fld (fPwrRailPhasesOk r) - 1) - (railFull r).2.1) * (railFull r).2.2)]).log
    { code := 0x0602, kind := 9, unit := r }) := congrArg _ (if_neg h)

/-- A rail is the core rail of a die with a cluster in a droop stretch. -/
def RailDroops (s : State) (r : Fin 13) : Prop := r.val < 4 ∧ ∃ n ∈ s.pwr.droops, n / 8 = r.val

theorem railDroops_iff : (decide (r.val < 4) && s.pwr.droops.any (fun n => n / 8 == r.val)) = true ↔ RailDroops s r := by
  simp [RailDroops]

theorem exec_railFault (hd : s.drawing = true ∨ r.val = 12) (h : ¬RailDroops s r) : exec (.railFault r) s = .next (s.railFault r) := by
  rw [← railDroops_iff, Bool.not_eq_true] at h
  exact congrArg _ (if_pos ⟨hd, by rw [h]; rfl⟩)

theorem exec_railFault_droops (h : RailDroops s r) : exec (.railFault r) s = .next s := by
  rw [← railDroops_iff] at h
  exact congrArg _ (if_neg fun hc => by rw [h] at hc; exact absurd hc.2 Bool.false_ne_true)

end Rails

/-! ### Samples of a rail (R346) -/

section Samples

variable {s t : State} {o : RailObs} {new e : Nat}

/-- The averages show. -/
def railSeen (s : State) (o : RailObs) : State := s.setFlds [(fPwrRailAmps o.rail, min 2047 o.avg2us), (fPwrRailMv o.rail, o.mv.toNat)]

/-- The responses in force, by their bits. -/
def railNow (s : State) (o : RailObs) : Nat := (lookupKey s.pwr.rails o.rail).getD 0

/-- The 2 µs average has reached the limit. -/
def railOver (s : State) (o : RailObs) : Nat := ofBool (decide (s.fld (fPwrRailLimit o.rail) ≤ o.avg2us))

/-- The responses that the averages call for, by their bits: at the limit, at it for 2 µs, at 120% of it over 200 ns. -/
def railWant (s : State) (o : RailObs) : Nat :=
  railOver s o + 2 * railOver s o * ofBool (decide (2000 ≤ o.heldNs))
    + 4 * ofBool (decide (120 * s.fld (fPwrRailLimit o.rail) ≤ o.avg200ns * 100))

/-- The state once they are in force. -/
def railKept (s : State) (o : RailObs) : State := (railSeen s o).setRail o.rail (railNow s o ||| railWant s o)

theorem ofBool_and (a b : Bool) : ofBool (a && b) = ofBool a * ofBool b := by cases a <;> cases b <;> rfl

theorem exec_railSample : exec (.railSample o) s = .next (
    if railWant s o ≠ 0 then (railKept s o).railRespond o
      (if o.rail.val ≥ 11 then railWant s o else railWant s o - (railWant s o &&& railNow s o))
    else if o.avg2us * 100 < 90 * s.fld (fPwrRailLimit o.rail) ∧ o.below90Ns ≥ 10000 then (railSeen s o).setRail o.rail 0
    else railSeen s o) := by
  simp only [exec, execRailSample, ofBool_and, ← Nat.mul_assoc]
  rfl

theorem exec_railSample_over (h : railWant s o ≠ 0) : exec (.railSample o) s = .next ((railKept s o).railRespond o
    (if o.rail.val ≥ 11 then railWant s o else railWant s o - (railWant s o &&& railNow s o))) :=
  exec_railSample.trans (congrArg _ (if_pos h))

theorem exec_railSample_ends (h : railWant s o = 0) (hlow : o.avg2us * 100 < 90 * s.fld (fPwrRailLimit o.rail)) (hheld : 10000 ≤ o.below90Ns) :
    exec (.railSample o) s = .next ((railSeen s o).setRail o.rail 0) :=
  exec_railSample.trans (congrArg _ ((if_neg (not_not.mpr h)).trans (if_pos ⟨hlow, hheld⟩)))

theorem exec_railSample_lasts (h : railWant s o = 0) (hlast : 90 * s.fld (fPwrRailLimit o.rail) ≤ o.avg2us * 100 ∨ o.below90Ns < 10000) :
    exec (.railSample o) s = .next (railSeen s o) :=
  exec_railSample.trans (congrArg _ ((if_neg (not_not.mpr h)).trans (if_neg (by omega))))

/-- Responses, as three bits of which the second comes only with the first, are none or have the first or the third. -/
theorem responses_act : ∀ a b c : Bool, ofBool a + 2 * ofBool a * ofBool b + 4 * ofBool c ≠ 0 →
    (ofBool a + 2 * ofBool a * ofBool b + 4 * ofBool c) % 2 = 1 ∨ bitOf (ofBool a + 2 * ofBool a * ofBool b + 4 * ofBool c) 2 = true := by
  decide

theorem railWant_acts (h : railWant s o ≠ 0) : railWant s o % 2 = 1 ∨ bitOf (railWant s o) 2 = true := responses_act _ _ _ h

/-! What responses do, by the kind of rail. -/

theorem railRespond_die (h : o.rail.val < 8) : t.railRespond o new =
    (t.bump (fPwrDieStretches (o.rail.val % 4)) (ofBool (bitOf new 0) + ofBool (bitOf new 2))).bump (fPwrDieThrottles (o.rail.val % 4))
      (ofBool (bitOf new 1)) :=
  (if_neg (by omega)).trans ((if_neg (by omega)).trans (if_pos h))

theorem railRespond_none (hlo : 8 ≤ o.rail.val) (hhi : o.rail.val < 11) : t.railRespond o new = t :=
  (if_neg (by omega)).trans ((if_neg (by omega)).trans (if_neg (by omega)))

theorem railRespond_optics (h : o.rail.val = 11) (hnew : new % 2 = 1 ∨ bitOf new 2 = true) :
    t.railRespond o new = (t.hungry o).foldl State.engineOff t :=
  (if_neg (by omega)).trans ((if_pos h).trans (if_pos hnew))

theorem railRespond_standby (h : o.rail.val = 12) (hnew : new % 2 = 1 ∨ bitOf new 2 = true) : t.railRespond o new = t.railFault 12 :=
  (if_pos h).trans (if_pos hnew)

theorem hungry_none (h : ∀ e < 16, 20 < o.engines.getD e 0 → e ∈ t.lnk.off) : t.hungry o = [] := by
  refine List.filter_eq_nil_iff.mpr fun e he hc => ?_
  simp only [Bool.and_eq_true, decide_eq_true_eq, Bool.not_eq_true', List.contains_eq_mem, decide_eq_false_iff_not] at hc
  exact hc.2 (h e (List.mem_range.mp he) hc.1)

theorem hungry_one (he : e < 16) (hon : t.lnk.off.contains e = false) (hdraw : 20 < o.engines.getD e 0)
    (hrest : ∀ g < 16, g ≠ e → o.engines.getD g 0 ≤ 20) : t.hungry o = [e] := by
  have hsame : t.hungry o = (List.range 16).filter (· == e) := by
    refine List.filter_congr fun g hg => ?_
    by_cases hge : g = e
    · subst hge
      simp only [gt_iff_lt, decide_eq_true hdraw, hon, Bool.not_false, Bool.and_self, beq_self_eq_true]
    · have hsated := Nat.not_lt.mpr (hrest g (List.mem_range.mp hg) hge)
      simp only [gt_iff_lt, decide_eq_false hsated, Bool.false_and, beq_false_of_ne hge]
  rw [hsame, List.filter_beq, List.count_eq_one_of_mem List.nodup_range (List.mem_range.mpr he)]
  rfl

theorem lnk_railKept : (railKept s o).lnk = s.lnk := by simp only [railKept, railSeen, State.setRail, setFlds_lnk]

section Over

variable (h : railWant s o ≠ 0)
include h

theorem exec_railSample_die (hr : o.rail.val < 8) :
    let new := railWant s o - (railWant s o &&& railNow s o)
    exec (.railSample o) s = .next (((railKept s o).bump (fPwrDieStretches (o.rail.val % 4)) (ofBool (bitOf new 0) + ofBool (bitOf new 2))).bump
      (fPwrDieThrottles (o.rail.val % 4)) (ofBool (bitOf new 1))) := by
  rw [exec_railSample_over h, if_neg (by omega), railRespond_die hr]

theorem exec_railSample_none (hlo : 8 ≤ o.rail.val) (hhi : o.rail.val < 11) : exec (.railSample o) s = .next (railKept s o) := by
  rw [exec_railSample_over h, railRespond_none hlo hhi]

theorem exec_railSample_optics (hr : o.rail.val = 11) :
    exec (.railSample o) s = .next (((railKept s o).hungry o).foldl State.engineOff (railKept s o)) := by
  rw [exec_railSample_over h, if_pos (by omega), railRespond_optics hr (railWant_acts h)]

theorem exec_railSample_standby (hr : o.rail.val = 12) : exec (.railSample o) s = .next ((railKept s o).railFault 12) := by
  rw [exec_railSample_over h, if_pos (by omega), railRespond_standby hr (railWant_acts h)]

end Over

end Samples

theorem exec_droop {s : State} {n : Cluster} (h : s.pwr.droops.contains n.val = false) : exec (.droop n) s =
    .next (({ s with pwr := { s.pwr with droops := s.pwr.droops ++ [n.val] } }).bump (fPwrDieStretches (n.val / 8)) 1) :=
  congrArg _ (if_neg (Bool.eq_false_iff.mp h))

/-! ### The statement -/

/-- Settles O46: each clause by the lemma on its command. -/
theorem feedsAndRails : Obligations.FeedsAndRails := by
  intro f tenths r o n s
  refine ⟨?mates, rfl, exec_earlyBreakDeassert, ?dark, ?powered, exec_stageFault, ?lost, ?precharged, exec_revertTimer, exec_powerLoss,
    exec_phaseLoss, ⟨exec_railFault, exec_railFault_droops⟩, ?samples, exec_droop, rfl⟩
  case mates => exact fun m => ⟨mated_setMate m, mated_setMate_other m, fun h => mate_setMate h m, fun h => regs_setMate h m⟩
  case dark => exact fun h => ⟨exec_earlyBreakDeassert_dark h, exec_feedVoltageFault_dark h, exec_feedValid_dark h⟩
  case powered => exact fun h => ⟨volts_setVolts tenths, exec_feedVoltageFault_out h, exec_feedVoltageFault_in h, exec_feedValid h⟩
  case lost =>
    intro g off noted hval hst
    refine ⟨feedInvalid_idle hval hst, fun hd => ?_⟩
    have hlost := feedInvalid_drawing hval hst hd
    have hvalid := feedValidAt_feedLost (s := s) (f := f)
    refine ⟨fun hother => hlost.trans (takeOver_none (hvalid ▸ hother)), fun hother => ?_⟩
    have hcarried : ((feedLost s f).feedValidAt (feedOther f)).isSome = true := hvalid ▸ hother
    refine ⟨fun hmode hprim hact => ?_, fun hmode hprim hwas => ⟨fun hcold => ?_, fun hcold => ?_⟩, fun hmode hprim => ?_, fun hmode hact => ?_⟩
    · exact (hact ▸ hlost).trans (takeOver_active hcarried (mode_feedLost.trans hmode) (primary_feedLost.trans hprim))
    · exact hlost.trans (takeOver_cold hcarried (mode_feedLost.trans hmode) (primary_feedLost.trans hprim) hwas
        (otherState_feedLost.trans hcold))
    · exact hlost.trans (takeOver_uncharged hcarried (mode_feedLost.trans hmode) (primary_feedLost.trans hprim) hwas
        fun e => hcold (otherState_feedLost.symm.trans e))
    · exact hlost.trans (takeOver_secondary hcarried (mode_feedLost.trans hmode) (primary_feedLost.trans hprim))
    · exact (hact ▸ hlost).trans (takeOver_share hcarried (mode_feedLost.trans hmode))
  case precharged =>
    exact fun hst => ⟨exec_prechargeDone_primary hst, exec_prechargeDone_cold hst, exec_prechargeDone_first hst, fun hmode hup =>
      ⟨exec_prechargeDone_returning hst hmode hup, exec_shareReturn hst hmode hup, exec_shareReturn_uncharged⟩⟩
  case samples =>
    refine ⟨exec_railSample_die, exec_railSample_none, fun h hr hoff => ?_, fun e he h hr hon hdraw hrest => ?_, exec_railSample_standby,
      exec_railSample_ends, exec_railSample_lasts⟩
    · rw [← lnk_railKept (o := o)] at hoff
      exact (exec_railSample_optics h hr).trans (by rw [hungry_none hoff]; rfl)
    · rw [← lnk_railKept (o := o)] at hon
      exact (exec_railSample_optics h hr).trans (by rw [hungry_one he hon hdraw hrest]; rfl)

end Sys2Proof.Proofs
end

section
/-! SUPPORT. Cooling and the leak loop (R359–R367, R483): forecasts, diodes and junction limits, the coolant's flow and sensors, warnings, the
samples of the leak loop, and the statement on them. -/

namespace Sys2Proof.Proofs

open Sys2Proof Sys2Proof.Machine

/-! ### Forecasts (R359, R363) -/

section Forecasts

variable {s : State} {n : Cluster} {fore : BitVec 12} {sites : List Int}

/-- The forecast shows. -/
abbrev foreseen (s : State) (n : Cluster) (fore : BitVec 12) : State := s.setFld (fThmClForecast n) fore.toNat

theorem exec_thermalForecast_siteless (h : sites.length < 18) : exec (.thermalForecast n fore sites) s = .next (foreseen s n fore) :=
  congrArg _ (if_pos h)

variable (h : 18 ≤ sites.length)
include h

theorem exec_thermalForecast_even (hp : (foreseen s n fore).riddlePair n sites = none) :
    exec (.thermalForecast n fore sites) s = .next (foreseen s n fore) := by
  simp only [exec, execThermalForecast, if_neg (Nat.not_lt.mpr h), hp]

theorem exec_thermalForecast_asks {a b : Nat} (hp : (foreseen s n fore).riddlePair n sites = some (a, b)) :
    exec (.thermalForecast n fore sites) s = .next ((foreseen s n fore).riddleAsk n a b) := by
  simp only [exec, execThermalForecast, if_neg (Nat.not_lt.mpr h), hp]

end Forecasts

/-! ### Diodes and junction limits (R360, R364) -/

section Diodes

variable {s : State} {obs : List DiodeObs} {x : DiodeObs}

/-- The state once each diode is judged and each cluster's hottest point shows. -/
abbrev judged (s : State) (obs : List DiodeObs) : State := (obs.foldl State.diodeOne s).showHot obs

/-- The first plausible reading of 115 °C or more. -/
abbrev tripping (s : State) (obs : List DiodeObs) : Option DiodeObs := (s.plausible obs).find? (fun y => decide (y.reading ≥ deg 115))

theorem exec_diodeCheck_trips (h : tripping (judged s obs) obs = some x) (hh : (judged s obs).pwr.holdThermal = false) :
    exec (.diodeCheck obs) s = .next (({ judged s obs with pwr := { (judged s obs).pwr with holdThermal := true } }).fatalModule
      { code := 0x0604, kind := 11, unit := x.core } caFatal) := by
  simp only [exec, execDiodeCheck, h, hh, Bool.false_eq_true, if_false]

section Untripped

variable (h : tripping (judged s obs) obs = none)
include h

theorem exec_diodeCheck_throttles (hc : ((judged s obs).thermalHold obs).stepDone 3 = true) :
    exec (.diodeCheck obs) s = .next ((List.range 4).foldl State.throttleDie ((judged s obs).thermalHold obs)) := by
  simp only [exec, execDiodeCheck, h, hc, if_true]

theorem exec_diodeCheck_unclocked (hc : ((judged s obs).thermalHold obs).stepDone 3 = false) :
    exec (.diodeCheck obs) s = .next ((judged s obs).thermalHold obs) := by
  simp only [exec, execDiodeCheck, h, hc, Bool.false_eq_true, if_false]

end Untripped

/-- The tenth implausible reading in a row fails a diode. -/
theorem diodeOne_tenth (hw : s.diodeFailed x.core = false) (hi : s.implausible x = true) (hn : (lookupKey s.pwr.diodeRun x.core).getD 0 = 9) :
    s.diodeOne x = ({ s with pwr := { s.pwr with diodeRun := eraseKey s.pwr.diodeRun x.core } }).diodeFail x.core := by
  simp [State.diodeOne, hw, hi, hn]

end Diodes

/-! ### Coolant (R361, R366) -/

section Coolant

variable {s : State} {q : Nat} {tin tout : Int}

theorem exec_flowInference_measured (hq : 800 ≤ q) (hrise : 16 ≤ tout - tin) (hin : s.fld fThmCoolInletFailed = 0)
    (hout : s.fld fThmCoolOutletFailed = 0) : exec (.flowInference q tin tout) s =
    .next (s.setFlds [(fThmCoolFlow, min 255 (flowOf q (tout - tin))), (fThmCoolFlowState, flMeasured)]) := by
  have hworks : ¬(s.bit fThmCoolInletFailed = true ∨ s.bit fThmCoolOutletFailed = true) := by
    simp [bit_of_fld_zero hin, bit_of_fld_zero hout]
  refine congrArg _ ((if_pos ⟨hq, hrise⟩).trans ?_)
  rw [if_neg hworks]

theorem exec_flowInference_unknown (h : q < 800 ∨ tout - tin < 16) :
    exec (.flowInference q tin tout) s = .next (s.setFld fThmCoolFlowState flUnknown) :=
  congrArg _ (if_neg fun hc => h.elim (Nat.not_lt.mpr hc.1) (Int.not_lt.mpr hc.2))

/-- A sensor's failure is written in THM.COOL and THM.WARN; its record and its warning leave them. -/
theorem fld_coolantFail {f g : Fld} (hg : g.off ∉ reportRegs) (unit : Nat) : (s.coolantFail f unit).fld g =
    (s.setFlds [(f, 1), (fThmCoolFlowState, flEstimated), (fThmWarnCoolantSensor, 1)]).fld g := (fld_raise hg ..).trans (fld_log hg _)

theorem fld_coolantFail_other {f g : Fld} (hg : g.off ∉ reportRegs) (hhi : g.hi < 64) (hf : Apart f g) (hst : Apart fThmCoolFlowState g)
    (hw : g.off ≠ fThmWarnCoolantSensor.off) (unit : Nat) : (s.coolantFail f unit).fld g = s.fld g := by
  refine (fld_coolantFail hg unit).trans ((fld_setFld_off _ _ _ _ hw).trans ?_)
  exact (fld_setFld_bits _ _ _ _ hhi hst).trans (fld_setFld_bits _ _ _ _ hhi hf)

theorem fld_coolantFail_same {f : Fld} (hf : f.off ∉ reportRegs) (hhi : f.hi < 64) (hlo : f.lo ≤ f.hi) (hst : Apart fThmCoolFlowState f)
    (hw : f.off ≠ fThmWarnCoolantSensor.off) (unit : Nat) : (s.coolantFail f unit).fld f = 1 := by
  refine (fld_coolantFail hf unit).trans ((fld_setFld_off _ _ _ _ hw).trans ((fld_setFld_bits _ _ _ _ hhi hst).trans ?_))
  exact fld_setFld_fits _ hhi (Nat.one_lt_two_pow (show f.hi + 1 - f.lo ≠ 0 by omega))

variable {cool : CoolObs}

/-- The outlet reads more than 2 K below the inlet at 800 W or more. -/
abbrev outletBelow (s : State) (cool : CoolObs) (tin : Int) : Bool := decide (cool.outlet < tin - 32) && decide (800 ≤ s.fld fPwrInputPower)

/-- The coolant's temperatures show. -/
abbrev coolShown (s : State) (tin tout : Int) : State := s.setFlds [(fThmCoolInlet, showTemp tin), (fThmCoolOutlet, showTemp tout)]

/-- The inlet's sensor is judged, then the outlet's against it. -/
abbrev inletJudged (s : State) (cool : CoolObs) : State :=
  if coolBad cool.inlet cool.modelIn ∧ !s.bit fThmCoolInletFailed then s.coolantFail fThmCoolInletFailed 576 else s

abbrev inletTemp (s : State) (cool : CoolObs) : Int := if (inletJudged s cool).bit fThmCoolInletFailed then cool.modelIn else cool.inlet

abbrev outletJudged (s : State) (cool : CoolObs) : State :=
  if (coolBad cool.outlet cool.modelOut ∨ outletBelow s cool (inletTemp s cool)) ∧ !(inletJudged s cool).bit fThmCoolOutletFailed then
    (inletJudged s cool).coolantFail fThmCoolOutletFailed 577 else inletJudged s cool

theorem exec_coolantSensorCheck : exec (.coolantSensorCheck cool) s = .next (coolShown (outletJudged s cool) (inletTemp s cool)
    (if (outletJudged s cool).bit fThmCoolOutletFailed then cool.modelOut else cool.outlet)) := rfl

theorem inletJudged_good (h : coolBad cool.inlet cool.modelIn = false) : inletJudged s cool = s := by simp [inletJudged, h]

section Sensors

variable (hin : s.fld fThmCoolInletFailed = 0)
include hin

theorem inletJudged_bad (h : coolBad cool.inlet cool.modelIn = true) : inletJudged s cool = s.coolantFail fThmCoolInletFailed 576 := by
  simp [inletJudged, h, bit_of_fld_zero hin]

theorem inletTemp_good (h : coolBad cool.inlet cool.modelIn = false) : inletTemp s cool = cool.inlet := by
  simp [inletTemp, inletJudged_good h, bit_of_fld_zero hin]

theorem inletTemp_bad (h : coolBad cool.inlet cool.modelIn = true) : inletTemp s cool = cool.modelIn := by
  have hfailed : (s.coolantFail fThmCoolInletFailed 576).fld fThmCoolInletFailed = 1 :=
    fld_coolantFail_same (by decide) (by decide) (by decide) (by decide) (by decide) _
  simp [inletTemp, inletJudged_bad hin h, bit_of_fld hfailed]

variable (hout : s.fld fThmCoolOutletFailed = 0)
include hout

theorem outletBit_inletJudged : (inletJudged s cool).bit fThmCoolOutletFailed = false := by
  cases h : coolBad cool.inlet cool.modelIn with
  | false => rw [inletJudged_good h, bit_of_fld_zero hout]
  | true =>
    rw [inletJudged_bad hin h]
    exact bit_of_fld_zero ((fld_coolantFail_other (by decide) (by decide) (by decide) (by decide) (by decide) _).trans hout)

/-- An outlet's sensor that agrees with the model and with the inlet shows what it reads. -/
theorem exec_coolantSensorCheck_outlet_good (h : coolBad cool.outlet cool.modelOut = false) (hb : outletBelow s cool (inletTemp s cool) = false) :
    exec (.coolantSensorCheck cool) s = .next (coolShown (inletJudged s cool) (inletTemp s cool) cool.outlet) := by
  have hjudged : outletJudged s cool = inletJudged s cool := by simp only [outletJudged, h, hb, Bool.false_eq_true, or_self, false_and, if_false]
  rw [exec_coolantSensorCheck, hjudged, outletBit_inletJudged hin hout]
  rfl

/-- One that does not fails, and the model's estimate shows. -/
theorem exec_coolantSensorCheck_outlet_bad (h : coolBad cool.outlet cool.modelOut = true ∨ outletBelow s cool (inletTemp s cool) = true) :
    exec (.coolantSensorCheck cool) s =
      .next (coolShown ((inletJudged s cool).coolantFail fThmCoolOutletFailed 577) (inletTemp s cool) cool.modelOut) := by
  have hjudged : outletJudged s cool = (inletJudged s cool).coolantFail fThmCoolOutletFailed 577 :=
    if_pos ⟨h, by rw [outletBit_inletJudged hin hout]; rfl⟩
  have hfailed : ((inletJudged s cool).coolantFail fThmCoolOutletFailed 577).fld fThmCoolOutletFailed = 1 :=
    fld_coolantFail_same (by decide) (by decide) (by decide) (by decide) (by decide) _
  rw [exec_coolantSensorCheck, hjudged, if_pos (bit_of_fld hfailed)]

end Sensors

end Coolant

/-! ### Warnings (R362, R483) -/

section Warnings

variable {s : State} {w : CoolWarn} {code : Fin 16}

theorem exec_coolingWarning_holds (h : s.coolHolds w = true) : exec (.coolingWarning w) s =
    .next ((s.setFld (coolWarn w).2.2.2 1).raise (coolWarn w).1 (coolWarn w).2.1 (coolWarn w).2.2.1 []) := congrArg _ (if_pos h)

theorem exec_coolingWarning_ended (h : s.coolHolds w = false) : exec (.coolingWarning w) s =
    .next (s.clearWarning (coolWarn w).1 (coolWarn w).2.1 (coolWarn w).2.2.1) := congrArg _ (if_neg (Bool.eq_false_iff.mp h))

theorem coolHolds_thermalLimit : s.coolHolds .thermalLimit =
    (List.range 4).any (fun d => lookupKey s.pwr.terms d == some 4 && decide (s.fld (fPwrDieFsus d) < 1600)) := by
  simp only [State.coolHolds]

/-- The limits of an image govern from POWER on. -/
theorem coolHolds_unpowered (h : s.stepDone 2 = false) :
    s.coolHolds .inlet = false ∧ s.coolHolds .outlet = false ∧ s.coolHolds .flow = false := by
  cases hc : s.img.cfg <;> simp [State.coolHolds, hc, h]

theorem coolHolds_powered {c : Cuvee} (hc : s.img.cfg = some c) (h : s.stepDone 2 = true) :
    s.coolHolds .inlet = decide (16 * c.inletWarn < s.fld fThmCoolInlet)
      ∧ s.coolHolds .outlet = decide (16 * c.outletWarn < s.fld fThmCoolOutlet)
      ∧ s.coolHolds .flow = (s.fld fThmCoolFlowState != flUnknown && decide (s.fld fThmCoolFlow < c.flowWarn)) := by
  simp only [State.coolHolds, hc, h, Bool.true_and, gt_iff_lt, and_self]

theorem exec_warningRepeat (h : s.warned code.val = true) (hr : repeats code = true) :
    exec (.warningRepeat code) s = .next (s.sendWarning code 1 (warnUnit code).1 (warnUnit code).2 []) := congrArg _ (if_pos ⟨h, hr⟩)

theorem exec_warningRepeat_inactive (h : s.warned code.val = false) : exec (.warningRepeat code) s = .next s :=
  congrArg _ (if_neg fun hc => Bool.eq_false_iff.mp h hc.1)

end Warnings

/-! ### The leak loop (R367) -/

section Leak

variable {s : State} {loop : BitVec 16} {earth : List Nat} {x y z : Nat}

/-- The level of a sample of the loop. -/
abbrev leakSeen (loop : BitVec 16) (earth : List Nat) : Nat := leakLevel loop.toNat (earth.any (· ≤ 100))

/-- The state once a sample is noted beside the two before it. -/
abbrev leakNoted (s : State) (loop : BitVec 16) (earth : List Nat) (l : List Nat) : State :=
  ({ s with pwr := { s.pwr with leak := l } }).setFlds [(fThmLeakLoop, loop.toNat), (fThmLeakGround, ofBool (earth.any (· ≤ 100)))]

theorem exec_leakSample (h : s.pwr.leak = [x, y, z]) : exec (.leakSample loop earth) s = .next (
    if [y, z, leakSeen loop earth] = [leakSeen loop earth, leakSeen loop earth, leakSeen loop earth] then
      (leakNoted s loop earth [y, z, leakSeen loop earth]).leakTaken (leakSeen loop earth)
    else leakNoted s loop earth [y, z, leakSeen loop earth]) := by
  simp only [exec, execLeakSample, h]
  rfl

theorem exec_leakSample_mixed (h : s.pwr.leak = [x, y, z]) (hne : y ≠ leakSeen loop earth ∨ z ≠ leakSeen loop earth) :
    exec (.leakSample loop earth) s = .next (leakNoted s loop earth [y, z, leakSeen loop earth]) := by
  rw [exec_leakSample h, if_neg]
  rintro ⟨rfl, rfl⟩
  exact hne.elim (· rfl) (· rfl)

theorem exec_leakSample_third (h : s.pwr.leak = [x, leakSeen loop earth, leakSeen loop earth]) : exec (.leakSample loop earth) s =
    .next ((leakNoted s loop earth [leakSeen loop earth, leakSeen loop earth, leakSeen loop earth]).leakTaken (leakSeen loop earth)) := by
  rw [exec_leakSample h, if_pos rfl]

theorem exec_leakShutdown (h : s.pwr.leakDue = true) :
    exec .leakShutdown s = .next ({ s with pwr := { s.pwr with leakDue := false, holdLeak := true } }).pwrUpdate := congrArg _ (if_pos h)

end Leak

/-! ### The statement -/

/-- Settles O48: each clause by the lemma on its command. -/
theorem coolingRules : Obligations.CoolingRules := by
  intro n fore sites obs w code loop earth q tin tout cool s
  refine ⟨⟨exec_thermalForecast_siteless, exec_thermalForecast_even, fun _ _ h => exec_thermalForecast_asks h⟩,
    ⟨fun _ => exec_diodeCheck_trips, exec_diodeCheck_throttles, exec_diodeCheck_unclocked⟩, fun _ => diodeOne_tenth,
    exec_flowInference_measured, exec_flowInference_unknown, ?sensors, ⟨exec_coolingWarning_holds, exec_coolingWarning_ended⟩,
    coolHolds_thermalLimit, coolHolds_unpowered, fun _ => coolHolds_powered, exec_warningRepeat, exec_warningRepeat_inactive,
    ⟨fun _ _ _ => exec_leakSample_mixed, fun _ => exec_leakSample_third⟩, exec_leakShutdown⟩
  case sensors =>
    intro below seen hin hout
    refine ⟨fun hi ho hb => ?_, fun hi ho hb => ?_, fun hi h => ?_⟩
    · have hexec := exec_coolantSensorCheck_outlet_good hin hout ho (by rw [inletTemp_good hin hi]; exact hb)
      rwa [inletJudged_good hi, inletTemp_good hin hi] at hexec
    · have hexec := exec_coolantSensorCheck_outlet_good hin hout ho (by rw [inletTemp_bad hin hi]; exact hb)
      rwa [inletJudged_bad hin hi, inletTemp_bad hin hi] at hexec
    · have hexec := exec_coolantSensorCheck_outlet_bad hin hout (by rw [inletTemp_good hin hi]; exact h)
      rwa [inletJudged_good hi, inletTemp_good hin hi] at hexec

end Sys2Proof.Proofs
end

section
/-! SUPPORT. The queue and the run: what a step does, that every command's meaning ends in a state, and the statements on both. -/

namespace Sys2Proof.Proofs

open Sys2Proof Sys2Proof.Machine

theorem step_front {s : State} {c : Instr} {rest : List Instr} (h : s.pending = c :: rest) : step s = exec c { s with pending := rest } := by
  simp only [step, h]

theorem step_idle {s : State} (h : s.pending = []) : step s = .next { s with time := s.time + 1 } := by
  simp only [step, h]

/-- Settles O1: the two branches of `step`. -/
theorem frontCommandRuns : Obligations.FrontCommandRuns := ⟨fun _ _ _ => step_front, fun _ => step_idle⟩

theorem execCacheDropComplete_goesOn (s : State) : ∃ t, execCacheDropComplete s = .next t := by
  cases hd : s.fab.dropping with
  | none => exact ⟨s, by simp only [execCacheDropComplete, hd]⟩
  | some d =>
    by_cases hp : s.dropPending d = true
    · exact ⟨s, by simp only [execCacheDropComplete, hd, hp, if_true]⟩
    · exact ⟨_, exec_cacheDropComplete hd (Bool.not_eq_true _ ▸ hp)⟩

/-- Every meaning answers with a state (log entry 20): all but one are a `.next` by definition. -/
theorem exec_goesOn (c : Instr) (s : State) : ∃ t, exec c s = .next t := by
  cases c
  case cacheDropComplete => exact execCacheDropComplete_goesOn s
  all_goals exact ⟨_, rfl⟩

theorem step_goesOn (s : State) : ∃ t, step s = .next t := by
  cases h : s.pending with
  | nil => exact ⟨_, step_idle h⟩
  | cons c rest => exact step_front h ▸ exec_goesOn c _

/-- Settles O2: by induction on the run's length, as no step ends in a fault or a refusal. -/
theorem everyRunIsSafe : Obligations.EveryRunIsSafe := by
  intro k
  induction k with
  | zero => exact fun s => ⟨s, rfl⟩
  | succ k ih =>
    intro s
    obtain ⟨t, ht⟩ := step_goesOn s
    obtain ⟨u, hu⟩ := ih t
    exact ⟨u, by simpa [Host.Core.run, core, ht] using hu⟩

end Sys2Proof.Proofs
end

section
/-! SUPPORT. The error block: summaries of repeats, the error ring, records sent again, ERR.CTL and waves, copies of the lees, and the statement on them. -/

namespace Sys2Proof.Proofs

open Sys2Proof Sys2Proof.Machine

/-! ### Summaries (R378) -/

section Summaries

variable {code : BitVec 16} {kind : Byte} {unit : BitVec 16} {s : State} {w : Summary}

/-- Does a summary count repeats of this error? -/
abbrev countsRepeat (code : BitVec 16) (kind : Byte) (unit : BitVec 16) (w : Summary) : Bool :=
  w.record.code == code.toNat && w.record.kind == kind.toNat && w.record.unit == unit.toNat

theorem exec_summaryTimer_quiet (hw : s.err.window.find? (countsRepeat code kind unit) = some w) (hm : w.more = 0) :
    exec (.summaryTimer code kind unit) s = .next
      { s with err := { s.err with window := s.err.window.filter (fun x => !countsRepeat code kind unit x) } } := by
  simp only [exec, execSummaryTimer, hw, hm, if_true]

theorem exec_summaryTimer_repeats (hw : s.err.window.find? (countsRepeat code kind unit) = some w) (hm : w.more ≠ 0) :
    exec (.summaryTimer code kind unit) s = .next
      (({ s with err := { s.err with window := s.err.window.map (fun x => if countsRepeat code kind unit x then ⟨x.record, 0⟩ else x) } }).report
        { w.record with seq := s.err.seq, time := BitVec.ofNat 64 s.stampTime, timeLocked := s.bit fRteStateTimeLocked, summary := true
                        count := w.more }) := by
  simp only [exec, execSummaryTimer, hw, hm, if_false]

end Summaries

/-! ### The error ring (R170, R172, R379) -/

section ErrorRing

variable {v : Word} {s : State}

theorem errRingResult_fits (he : s.fld fErrRingCfgEnable = 0) (h4 : 4 ≤ getBits v fErrRingCfgLog2size) (h12 : getBits v fErrRingCfgLog2size ≤ 12)
    (hal : s.fld fErrRingBaseBase * 32 % (64 * 2 ^ getBits v fErrRingCfgLog2size) = 0) : s.errRingResult v = 0 := by
  have hsize : ¬(getBits v fErrRingCfgLog2size < 4 ∨ getBits v fErrRingCfgLog2size > 12) := by omega
  simp only [State.errRingResult, bit_of_fld_zero he, Bool.false_eq_true, if_false, if_neg hsize, hal, ne_eq, not_true]

theorem errRingResult_enabled (he : s.fld fErrRingCfgEnable = 1) : s.errRingResult v = 7 := by
  simp only [State.errRingResult, bit_of_fld he, if_true]

theorem getBits_ringEnable_size (n : Nat) : getBits (putBits v fErrRingCfgEnable n) fErrRingCfgLog2size = getBits v fErrRingCfgLog2size :=
  getBits_putBits_other _ _ _ _ (by decide) (by decide)

/-- The ring begins empty. -/
abbrev ringBegun (s : State) : State := { s with err := { s.err with ringCount := 0, ringFirst := false } }

theorem exec_errRingEnable (h : Taken s rErrRingCfg) : exec (.errRingEnable v) s = .next (
    let e := putBits v fErrRingCfgEnable 1
    if s.errRingResult e = 0 then
      ringBegun ((s.writeUnder takesAll rErrRingCfg e).setFlds [(fErrRingStateProducer, 0), (fErrRingStateHead, 0), (fErrRingStateResult, 0)])
    else s.setFld fErrRingStateResult (s.errRingResult e)) :=
  congrArg Host.Outcome.next ((hostWrite_taken _ _ _ h).trans (if_pos (getBits_putBits_one v (by decide) (by decide))))

theorem exec_errRingEnable_fits (h : Taken s rErrRingCfg) (he : s.fld fErrRingCfgEnable = 0) (h4 : 4 ≤ getBits v fErrRingCfgLog2size)
    (h12 : getBits v fErrRingCfgLog2size ≤ 12) (hal : s.fld fErrRingBaseBase * 32 % (64 * 2 ^ getBits v fErrRingCfgLog2size) = 0) :
    exec (.errRingEnable v) s = .next (ringBegun ((s.writeUnder takesAll rErrRingCfg (putBits v fErrRingCfgEnable 1)).setFlds
      [(fErrRingStateProducer, 0), (fErrRingStateHead, 0), (fErrRingStateResult, 0)])) := by
  rw [← getBits_ringEnable_size 1] at h4 h12 hal
  rw [exec_errRingEnable h, if_pos (errRingResult_fits he h4 h12 hal)]

theorem exec_errRingEnable_enabled (h : Taken s rErrRingCfg) (he : s.fld fErrRingCfgEnable = 1) :
    exec (.errRingEnable v) s = .next (s.setFld fErrRingStateResult 7) := by
  simp only [exec_errRingEnable h, errRingResult_enabled he, OfNat.ofNat_ne_zero, if_false]

theorem exec_errRingDisable (h : Taken s rErrRingCfg) (he : s.fld fErrRingCfgEnable = 1) :
    exec (.errRingDisable v) s = .next (s.setFlds [(fErrRingCfgEnable, 0), (fErrRingStateResult, 0)]) := by
  have hoff : getBits (putBits v fErrRingCfgEnable 0) fErrRingCfgEnable ≠ 1 := by
    rw [getBits_putBits_same _ _ _ (by decide)]
    decide
  exact congrArg Host.Outcome.next ((hostWrite_taken _ _ _ h).trans ((if_neg hoff).trans (if_pos (bit_of_fld he))))

/-- Does a head stand between the old one and the producer index? -/
abbrev headFits (s : State) (h : Nat) : Bool := decide ((h + 2 ^ 24 - s.fld fErrRingStateHead) % 2 ^ 24 ≤
  (s.fld fErrRingStateProducer + 2 ^ 24 - s.fld fErrRingStateHead) % 2 ^ 24)

theorem exec_errRingHeadWrite (h : Taken s rErrRingState) : exec (.errRingHeadWrite v) s = .next (
    if s.bit fErrRingCfgEnable && headFits s (getBits v fErrRingStateHead) then s.setFld fErrRingStateHead (getBits v fErrRingStateHead)
    else s.log { code := 0x0102, kind := 13, detail := leBytes 4 rErrRingState ++ leBytes 8 v.toNat }) := by
  refine congrArg Host.Outcome.next ((hostWrite_taken _ _ _ h).trans ?_)
  unfold State.errRingHeadWrite headFits
  cases s.bit fErrRingCfgEnable with
  | false => rfl
  | true =>
    by_cases hfit : (getBits v fErrRingStateHead + 2 ^ 24 - s.fld fErrRingStateHead) % 2 ^ 24 ≤
      (s.fld fErrRingStateProducer + 2 ^ 24 - s.fld fErrRingStateHead) % 2 ^ 24
    · rw [if_neg fun hc => hc.elim (by decide) (Nat.not_lt.mpr hfit), if_pos (by simpa using hfit)]
    · rw [if_pos (.inr (Nat.lt_of_not_le hfit)), if_neg (by simpa using hfit)]

end ErrorRing

/-! ### Records sent again (R380) -/

theorem exec_recordResend {s : State} (hl : s.fld fMgtLinkUp = 1) (ha : 2 ≤ s.fld fBringStateAux) : exec .recordResend s = .next
    ({ s with mgmt := { s.mgmt with queue := s.mgmt.queue.map (fun (it : MgmtItem) => if it.resend then { it with sent := none } else it) } }).mgmtFlush := by
  have hready : ¬((!s.bit fMgtLinkUp) = true ∨ s.fld fBringStateAux ≤ 1) := by
    simp only [bit_of_fld hl, Bool.not_true, Bool.false_eq_true, false_or]
    omega
  exact congrArg _ (if_neg hready)

/-! ### ERR.CTL and waves (R396–R400) -/

section Waves

variable {v : Word} {s : State} {p : Port} {origin : Node} {gen : BitVec 32} {dom code : BitVec 16} {hops : Byte}

theorem exec_errCtlWrite (h : Taken s rErrCtl) (hw : getBits v fErrCtlWave = 0) :
    exec (.errCtlWrite v) s = .next ((s.writeUnder takesAll rErrCtl v).setFld fErrCtlHostSet 1) :=
  congrArg Host.Outcome.next ((hostWrite_taken _ _ _ h).trans (if_neg fun hc => absurd (hw.symm.trans hc.1) (by decide)))

theorem exec_wave (h : Taken s rErrCtl) : exec (.wave v) s = .next (
    let w := (s.writeUnder takesAll rErrCtl (putBits v fErrCtlWave 1)).setFld fErrCtlHostSet 1
    if w.fld fErrCtlMode ≠ 0 then w.waveStart 0 else w) := by
  refine congrArg Host.Outcome.next ((hostWrite_taken _ _ _ h).trans ?_)
  simp only [State.errCtlWrite, getBits_putBits_one v (f := fErrCtlWave) (by decide) (by decide), true_and, modeService]

theorem exec_waveArrival_seen (hs : s.err.waves.contains (origin, gen.toNat) = true) :
    exec (.waveArrival p origin gen dom code hops) s = .next s :=
  congrArg _ (if_pos (.inr hs))

/-- A new wave is counted, noted and passed on. -/
abbrev wavePassed (s : State) (p : Port) (origin : Node) (gen : BitVec 32) (dom code : BitVec 16) (hops : Byte) : State :=
  ((s.bump fErrCtlWavesRx 1).noteWave origin gen.toNat).waveOut (some p.val) origin.toNat gen.toNat dom.toNat code.toNat
    ((hops.toNat + 1) % 256)

theorem exec_waveArrival_new (hp : s.portState p = 3) (hs : s.err.waves.contains (origin, gen.toNat) = false) :
    exec (.waveArrival p origin gen dom code hops) s = .next (
      if s.fld fErrCtlMode ≠ 0 ∧ s.fld fErrCtlDomain = dom.toNat then
        (wavePassed s p origin gen dom code hops).waveAct origin.toNat gen.toNat code.toNat
      else wavePassed s p origin gen dom code hops) :=
  congrArg _ (if_neg fun hc => hc.elim (· hp) (Bool.eq_false_iff.mp hs))

end Waves

/-! ### The lees (R395) -/

section Lees

variable {v : Word} {lines : List LineObs} {s : State} {l : Lees}

/-- The write of ERR.LEESCMD itself. -/
abbrev leesAsked (s : State) (v : Word) : State := s.writeUnder takesAll rErrLeescmd (putBits v fErrLeescmdGo 1)

theorem exec_leesCopy (h : Taken s rErrLeescmd) :
    exec (.leesCopy ⟨v, lines⟩) s = .next (s.leescmdWrite (putBits v fErrLeescmdGo 1) lines) :=
  congrArg Host.Outcome.next (hostWrite_taken _ _ _ h)

theorem getBits_leesGo : getBits (putBits v fErrLeescmdGo 1) fErrLeescmdGo = 1 := getBits_putBits_one v (by decide) (by decide)

theorem getBits_leesContext : getBits (putBits v fErrLeescmdGo 1) fErrLeescmdContext = getBits v fErrLeescmdContext :=
  getBits_putBits_other _ _ _ _ (by decide) (by decide)

theorem getBits_leesPartition : getBits (putBits v fErrLeescmdGo 1) fErrLeescmdPartition = getBits v fErrLeescmdPartition :=
  getBits_putBits_other _ _ _ _ (by decide) (by decide)

theorem leescmdWrite_inactive (ha : s.active (getBits v fErrLeescmdContext) = false) :
    s.leescmdWrite (putBits v fErrLeescmdGo 1) lines = (leesAsked s v).setFlds [(fErrLeescmdResult, 1), (fErrLeescmdBytes, 0)] := by
  simp only [State.leescmdWrite, getBits_leesGo, getBits_leesContext, ha, Nat.one_ne_zero, if_false, Bool.not_false, if_true]

theorem leescmdWrite_none (ha : s.active (getBits v fErrLeescmdContext) = true)
    (hl : s.err.lees.find? (fun l => l.part == getBits v fErrLeescmdPartition) = none) :
    s.leescmdWrite (putBits v fErrLeescmdGo 1) lines = (leesAsked s v).setFlds [(fErrLeescmdResult, 2), (fErrLeescmdBytes, 0)] := by
  simp only [State.leescmdWrite, getBits_leesGo, getBits_leesContext, getBits_leesPartition, ha, hl, Nat.one_ne_zero, if_false, Bool.not_true,
    Bool.false_eq_true]

/-- The records that a context may read: the header and its own. -/
abbrev leesSegs (l : Lees) (c : Nat) := l.recs.zipIdx.filter (fun r => r.2 == 0 || r.1.2.2 == some c)

/-- The bytes of the records that a context may read, up to 4 MiB. -/
abbrev leesData (s : State) (l : Lees) (v : Word) : List Byte :=
  ((leesSegs l (getBits v fErrLeescmdContext)).flatMap
    (fun r => s.mem.bytes (leesAt (getBits v fErrLeescmdPartition) + r.1.1) r.1.2.1)).take (2 ^ 22)

/-- Reading the lines of the records: the state after, the bytes read so far and the offsets of those that come poisoned. -/
abbrev leesRead (s : State) (l : Lees) (v : Word) (lines : List LineObs) : State × Nat × List Nat :=
  (leesSegs l (getBits v fErrLeescmdContext)).foldl (fun (acc : State × Nat × List Nat) r =>
    let a := leesAt (getBits v fErrLeescmdPartition) + r.1.1
    let x := acc.1.lineReads a r.1.2.1 lines
    (x.1, acc.2.1 + r.1.2.1, acc.2.2 ++ (lineOffsets a r.1.2.1 x.2).map (· + acc.2.1))) (leesAsked s v, 0, [])

theorem leescmdWrite_some (ha : s.active (getBits v fErrLeescmdContext) = true)
    (hl : s.err.lees.find? (fun l => l.part == getBits v fErrLeescmdPartition) = some l) :
    let c := getBits v fErrLeescmdContext
    let va := s.fld fErrLeesvaVa * 64
    let data := leesData s l v
    let met := leesRead s l v lines
    let w := (met.1.writeRun c va data FarReply.ok).1
    s.leescmdWrite (putBits v fErrLeescmdGo 1) lines =
      if (s.gpaPieces c va data.length permWrite).isSome then
        (w.markRun (w.reached none c va data.length) met.2.2).setFlds [(fErrLeescmdResult, 0), (fErrLeescmdBytes, data.length)]
      else (leesAsked s v).setFlds [(fErrLeescmdResult, 3), (fErrLeescmdBytes, 0)] := by
  simp only [State.leescmdWrite, getBits_leesGo, getBits_leesContext, getBits_leesPartition, ha, hl, Nat.one_ne_zero, if_false, Bool.not_true,
    Bool.false_eq_true]
  cases s.gpaPieces (getBits v fErrLeescmdContext) (s.fld fErrLeesvaVa * 64) (leesData s l v).length permWrite <;> rfl

end Lees

/-! ### The statement -/

/-- Settles O49: each clause by the lemma on its command. -/
theorem errorReports : Obligations.ErrorReports := by
  intro code kind unit v p origin gen dom hops lines s
  refine ⟨fun w hw => ⟨exec_summaryTimer_quiet hw, exec_summaryTimer_repeats hw⟩, fun h => ⟨fun he h4 h12 hal => ?enabled, fun he =>
    ⟨exec_errRingEnable_enabled h he, exec_errRingDisable h he⟩⟩, fun h => ⟨fun he hf => ?head, fun hf => ?bad⟩, exec_recordResend,
    exec_errCtlWrite, fun h => ⟨fun hm => ?wave, fun hm => ?service⟩, fun hp => ⟨exec_waveArrival_seen, fun hs => ⟨fun hm hd => ?acts, fun hm => ?idle,
    fun hd => ?other⟩⟩, fun h => ⟨fun ha => ?inactive, fun ha hl => ?missing, fun l ha hl => ⟨fun hg => ?unmapped, fun hg => ?copied⟩⟩⟩
  case enabled => exact ⟨_, exec_errRingEnable_fits h he h4 h12 hal, rfl, rfl, rfl⟩
  case head => rw [exec_errRingHeadWrite h, if_pos (by simp only [bit_of_fld he, Bool.true_and]; exact hf)]
  case bad => rw [exec_errRingHeadWrite h, if_neg (by simp only [headFits, hf, Bool.and_false, Bool.false_eq_true, not_false_eq_true])]
  case wave => exact (exec_wave h).trans (congrArg _ (if_pos hm))
  case service => exact (exec_wave h).trans (congrArg _ (if_neg fun hc => hc hm))
  case acts => exact (exec_waveArrival_new hp hs).trans (congrArg _ (if_pos ⟨hm, hd⟩))
  case idle => exact (exec_waveArrival_new hp hs).trans (congrArg _ (if_neg fun hc => hc.1 hm))
  case other => exact (exec_waveArrival_new hp hs).trans (congrArg _ (if_neg fun hc => hd hc.2))
  case inactive => exact (exec_leesCopy h).trans (congrArg _ (leescmdWrite_inactive ha))
  case missing => exact (exec_leesCopy h).trans (congrArg _ (leescmdWrite_none ha hl))
  case unmapped => exact (exec_leesCopy h).trans (congrArg _ ((leescmdWrite_some ha hl).trans (if_neg (Bool.eq_false_iff.mp hg))))
  case copied => exact (exec_leesCopy h).trans (congrArg _ ((leescmdWrite_some ha hl).trans (if_pos hg)))

end Sys2Proof.Proofs
end

section
/-! SUPPORT. The supervisor complex: lost cores, beats, votes, pairs and restores, and the statement on them. -/

namespace Sys2Proof.Proofs

open Sys2Proof Sys2Proof.Machine

variable {s : State} {i : Fin 3} {fails : List (Fin 3)}

/-! ### A core without heartbeats (R390) -/

theorem exec_heartbeatTimeout (hs : s.supUp = true) (hi : s.fld (supF i) = 0) : exec (.heartbeatTimeout i) s = .next (
    let t := s.supLose i
    if !(t.supIn supRunning).isEmpty then (t.supLostLog i).supShow
    else match t.supIn supSpare with
      | b :: _ => t.startRestore b i
      | [] => t.watchdog i) := by
  have hruns : ¬((!s.supUp) = true ∨ s.fld (supF i) = supSpare ∨ s.fld (supF i) = supLost) := by
    rw [hs, hi]
    decide
  exact congrArg _ (if_neg hruns)

theorem exec_heartbeatTimeout_others (hs : s.supUp = true) (hi : s.fld (supF i) = 0) (h0 : (s.supLose i).supIn 0 ≠ []) :
    exec (.heartbeatTimeout i) s = .next (((s.supLose i).supLostLog i).supShow) := by
  have hsome : ((s.supLose i).supIn supRunning).isEmpty = false := List.isEmpty_eq_false_iff.mpr h0
  rw [exec_heartbeatTimeout hs hi]
  simp only [hsome, Bool.not_false, if_true]

theorem exec_heartbeatTimeout_spare (hs : s.supUp = true) (hi : s.fld (supF i) = 0) (h0 : (s.supLose i).supIn 0 = []) {b : Nat} {l : List Nat}
    (h1 : (s.supLose i).supIn 1 = b :: l) : exec (.heartbeatTimeout i) s = .next ((s.supLose i).startRestore b i) := by
  rw [exec_heartbeatTimeout hs hi]
  simp only [supRunning, supSpare, h0, h1, List.isEmpty_nil, Bool.not_true, Bool.false_eq_true, if_false]

theorem exec_heartbeatTimeout_alone (hs : s.supUp = true) (hi : s.fld (supF i) = 0) (h0 : (s.supLose i).supIn 0 = [])
    (h1 : (s.supLose i).supIn 1 = []) : exec (.heartbeatTimeout i) s = .next ((s.supLose i).watchdog i) := by
  rw [exec_heartbeatTimeout hs hi]
  simp only [supRunning, supSpare, h0, h1, List.isEmpty_nil, Bool.not_true, Bool.false_eq_true, if_false]

/-! ### Beats (R465, R470, R471) -/

/-- A running core has beaten: the lowest of them carries an owner command on, and the core's SRAM holds what is so now. -/
abbrev beaten (s : State) (i : Nat) : State :=
  let b := if (s.supIn 0).headD 0 = i then s.ownerBeat else s
  ({ b with sup := { b.sup with beat := insertKey b.sup.beat i s.time } }).setSram i b.supImage

theorem exec_supHeartbeat (hs : s.supUp = true) (hi : s.fld (supF i) = 0) : exec (.supHeartbeat i) s = .next (
    if (beaten s i).checkpoints then { beaten s i with sup := { (beaten s i).sup with checkpoint := some (beaten s i).supImage } }
    else beaten s i) := by
  have hruns : ¬((!s.supUp) = true ∨ s.fld (supF i) ≠ supRunning) := by
    rw [hs, hi]
    decide
  exact congrArg _ (if_neg hruns)

theorem ownerBeat_none (h : s.sec.cmd = none) : s.ownerBeat = s := by simp only [State.ownerBeat, h]

theorem ownerBeat_begins {blob : List Byte} (h : s.sec.cmd = some ⟨blob, false⟩) :
    s.ownerBeat = { s with sec := { s.sec with cmd := some ⟨blob, true⟩ } } := by
  simp only [State.ownerBeat, h, Bool.false_eq_true, if_false]

theorem ownerBeat_ends {blob : List Byte} (h : s.sec.cmd = some ⟨blob, true⟩) :
    s.ownerBeat = (({ s with sec := { s.sec with cmd := none } }).setFld fSecCmdBusy 0).ownerCmd blob := by
  simp only [State.ownerBeat, h, if_true]

/-! ### Dissent (R468) -/

theorem exec_supDissent (hs : s.supUp = true) (hm : s.fld fSupStateMode = 0) (h3 : (s.supIn 0).length = 3) :
    let image := (lookupKey s.sup.sram (((s.supIn 0).filter (· != i.val)).headD 0)).getD s.supImage
    let t := (((s.setFld (supF i) 2).setSram i image).bump fSupStateDissents 1).log { code := 0x0701, kind := 12, unit := i }
    exec (.supDissent i) s = .next ({ t with sup := { t.sup with resync := t.sup.resync ++ [i.val] } }).supShow := by
  have hvotes : ¬((!s.supUp) = true ∨ s.bit fSupStateMode = true ∨ (s.supIn supRunning).length ≠ 3) := by
    simp only [hs, bit_of_fld_zero hm, supRunning, h3]
    decide
  exact congrArg _ (if_neg hvotes)

/-! ### A pair that disagrees (R469) -/

section Pair

variable {x y : Nat}

/-- Does a core's self-test fail? -/
abbrev failsTest (fails : List (Fin 3)) (n : Nat) : Bool := (fails.map Fin.val).contains n

/-- The cores that a disagreement loses: those whose self-test fails, or the higher-numbered. -/
abbrev pairLost (fails : List (Fin 3)) (pair : List Nat) : List Nat :=
  if (pair.filter (failsTest fails)).isEmpty then pair.drop 1 else pair.filter (failsTest fails)

/-- A pair that disagrees: `lost` are the cores that it loses. -/
theorem exec_duplexDisagree {lost : List Nat} (hs : s.supUp = true) (hp : s.supIn 0 = [x, y]) (hlost : pairLost fails [x, y] = lost) :
    exec (.duplexDisagree fails) s = .next (
      match (generalizing := false) [x, y].find? (fun i => !List.contains lost i), lost with
      | some a, b :: _ => (lost.foldl State.supLose s).startRestore a b
      | _, _ => (lost.foldl State.supLose s).watchdog (lost.headD 0)) := by
  subst hlost
  have hpair : ¬((!s.supUp) = true ∨ (s.supIn supRunning).length ≠ 2) := by
    simp [hs, supRunning, hp]
  refine congrArg Host.Outcome.next ((if_neg hpair).trans ?_)
  simp only [supRunning, hp] <;> rfl

theorem exec_duplexDisagree_first (hs : s.supUp = true) (hp : s.supIn 0 = [x, y]) (hne : x ≠ y) (hx : failsTest fails x = false) :
    exec (.duplexDisagree fails) s = .next ((s.supLose y).startRestore x y) := by
  have hlost : pairLost fails [x, y] = [y] := by
    cases hy : failsTest fails y <;> simp only [pairLost, List.filter_cons, hx, hy, List.filter_nil, List.isEmpty_nil, List.isEmpty_cons,
      Bool.false_eq_true, if_true, if_false, List.drop_succ_cons, List.drop_zero]
  have hkept : [x, y].find? (fun i => !List.contains [y] i) = some x := by simp [hne]
  simp only [exec_duplexDisagree hs hp hlost, hkept, List.foldl_cons, List.foldl_nil]

theorem exec_duplexDisagree_second (hs : s.supUp = true) (hp : s.supIn 0 = [x, y]) (hne : x ≠ y) (hx : failsTest fails x = true)
    (hy : failsTest fails y = false) : exec (.duplexDisagree fails) s = .next ((s.supLose x).startRestore y x) := by
  have hlost : pairLost fails [x, y] = [x] := by
    simp only [pairLost, List.filter_cons, hx, hy, List.filter_nil, List.isEmpty_cons, Bool.false_eq_true, if_true, if_false]
  have hkept : [x, y].find? (fun i => !List.contains [x] i) = some y := by simp [hne.symm]
  simp only [exec_duplexDisagree hs hp hlost, hkept, List.foldl_cons, List.foldl_nil]

theorem exec_duplexDisagree_both (hs : s.supUp = true) (hp : s.supIn 0 = [x, y]) (hx : failsTest fails x = true)
    (hy : failsTest fails y = true) : exec (.duplexDisagree fails) s = .next (((s.supLose x).supLose y).watchdog x) := by
  have hlost : pairLost fails [x, y] = [x, y] := by
    simp only [pairLost, List.filter_cons, hx, hy, List.filter_nil, List.isEmpty_cons, Bool.false_eq_true, if_true, if_false]
  have hkept : [x, y].find? (fun i => !List.contains [x, y] i) = none := by simp
  simp only [exec_duplexDisagree hs hp hlost, hkept, List.foldl_cons, List.foldl_nil, List.headD_cons]

end Pair

/-! ### Resynchronised and restored (R468–R470) -/

theorem exec_resyncDone (h : s.sup.resync.contains i.val = true) : exec (.resyncDone i) s = .next
    ((((({ s with sup := { s.sup with resync := s.sup.resync.filter (· != i.val) } }).setSram i s.supImage).setFld (supF i) 0).bump
      fSupStateRestores 1).supShow).serveHeld :=
  (congrArg Host.Outcome.next (if_pos h)).trans (congrArg (fun t : State => Host.Outcome.next t.serveHeld) (if_pos h))

theorem exec_restoreDone {lost : Nat} (h : s.sup.restoring = some (i.val, lost)) : exec (.restoreDone i) s = .next (
    let u := ({ s with sup := { s.sup with restoring := none } } : State).fromCheckpoint
    ((((u.setSram i u.supImage).setFld (supF i) 0).bump fSupStateRestores 1).supLostLog lost).supShow.serveHeld) := by
  simp only [exec, execRestoreDone, State.restored, h, if_true, ne_eq, not_true, if_false]
  rfl

theorem fromCheckpoint_mgmt {m : SupImage} (h : s.sup.checkpoint = some m) :
    s.fromCheckpoint.mgmt = { s.mgmt with sendCtr := max s.mgmt.sendCtr m.sendCtr } := by
  simp only [State.fromCheckpoint, h, Option.getD_some]

theorem fromCheckpoint_cmd {m : SupImage} {x : OwnerRun} (h : s.sup.checkpoint = some m) (hx : m.cmd = some x) :
    s.fromCheckpoint.sec.cmd = some { x with begun := false } := by
  simp only [State.fromCheckpoint, h, hx, Option.getD_some, Option.map_some]

/-! ### The statement -/

/-- Settles O52: each clause by the lemma on its command. -/
theorem supervisorCores : Obligations.SupervisorCores := by
  intro i fails s
  refine ⟨fun hs hi => ⟨exec_heartbeatTimeout_others hs hi, fun _ _ h0 h1 => exec_heartbeatTimeout_spare hs hi h0 h1,
    exec_heartbeatTimeout_alone hs hi, fun hw => ?whole, fun hw => ?short⟩, ownerBeat_none, fun _ => ownerBeat_begins, fun _ => ownerBeat_ends,
    exec_supDissent, fun x y hs hp hne => ⟨exec_duplexDisagree_first hs hp hne, exec_duplexDisagree_second hs hp hne,
    exec_duplexDisagree_both hs hp⟩, exec_resyncDone, fun _ => exec_restoreDone, fun _ h => ⟨fromCheckpoint_mgmt h, fun _ => fromCheckpoint_cmd h⟩⟩
  case whole =>
    exact (exec_supHeartbeat hs hi).trans (congrArg _ (if_neg fun hc => absurd (of_decide_eq_true hc) (Nat.not_lt.mpr hw)))
  case short => exact (exec_supHeartbeat hs hi).trans (congrArg _ (if_pos (decide_eq_true hw)))

end Sys2Proof.Proofs
end

section
/-! SUPPORT. The SPDM responder on either transport, IDE keys and streams, the entropy source, and the statement on them. -/

namespace Sys2Proof.Proofs

open Sys2Proof Sys2Proof.Machine

variable {t : SpdmPath} {s : State} {n : Nat}

/-! ### Messages in and out of their stage (R436) -/

theorem spdmAt_stage {stage : Nat} (hs : s.supUp = true) (h : (s.spdm t).stage = stage) (f : State → State) : s.spdmAt t stage f = f s := by
  simp only [State.spdmAt, hs, h, Bool.not_true, Bool.false_eq_true, if_false, ne_eq, not_true]

theorem spdmAt_other {stage : Nat} (hs : s.supUp = true) (h : (s.spdm t).stage ≠ stage) (f : State → State) :
    s.spdmAt t stage f = s.spdmError t 4 := by
  simp only [State.spdmAt, hs, h, Bool.not_true, Bool.false_eq_true, if_false, ne_eq, not_false_eq_true, if_true]

theorem exec_getVersion (hs : s.supUp = true) :
    exec (.getVersion t) s = .next ((s.setSpdm t { s.spdm t with stage := 1 }).spdmSay t 0x04 [0x13#8]) :=
  congrArg _ (if_neg (by simp only [hs, Bool.not_true, Bool.false_eq_true, not_false_eq_true]))

theorem exec_negotiateAlgorithms {ok : Bool} (hs : s.supUp = true) (h : (s.spdm t).stage = 2) : exec (.negotiateAlgorithms t ok) s = .next
    (if ok then (s.setSpdm t { s.spdm t with stage := 3 }).spdmSay t 0x63 spdmAlgos else s.spdmError t 1) :=
  congrArg Host.Outcome.next (spdmAt_stage hs h _)

/-! ### Certificates and measurements (R437) -/

section Connected

variable {off len : BitVec 16} {idx : Byte} {sign : Bool} {nonce share : List Byte}

theorem exec_getCertificate (hs : s.supUp = true) (h : (s.spdm t).stage = 3) (hoff : off.toNat < s.certChain.length) :
    exec (.getCertificate t 0#8 off len) s = .next (s.spdmSay t 0x02 ((s.certChain.drop off.toNat).take (min len.toNat (certMost t)))) :=
  congrArg Host.Outcome.next ((spdmAt_stage hs h _).trans (if_neg fun hc => hc.elim (· rfl) (Nat.not_le.mpr hoff)))

theorem exec_challenge (hs : s.supUp = true) (h : (s.spdm t).stage = 3) : exec (.challenge t 0#8 nonce) s = .next
    ((s.takeBytes 4).2.spdmSay t 0x03 (s.signed nonce (sha384 s.certChain ++ (s.takeBytes 4).1))) :=
  congrArg Host.Outcome.next ((spdmAt_stage hs h _).trans (if_neg (· rfl)))

/-- The measurement blocks that an index asks for. -/
abbrev measAsked (s : State) (idx : Byte) : List Byte :=
  if idx.toNat = 0 then [0x0B#8] else if idx.toNat = 0xFF then (List.range 11).flatMap (fun i => s.measBlock (i + 1)) else s.measBlock idx.toNat

theorem exec_getMeasurements (hs : s.supUp = true) (h : (s.spdm t).stage = 3) (hi : ¬(idx.toNat > 11 ∧ idx.toNat ≠ 0xFF)) :
    exec (.getMeasurements t idx sign nonce) s = .next (s.spdmSay t 0x60
      (if sign then measAsked s idx ++ s.aliasSign (nonce ++ measAsked s idx) else measAsked s idx)) :=
  congrArg Host.Outcome.next ((spdmAt_stage hs h _).trans (if_neg hi))

theorem exec_getMeasurements_bad (hs : s.supUp = true) (h : (s.spdm t).stage = 3) (h11 : 11 < idx.toNat) (hall : idx ≠ 0xFF#8) :
    exec (.getMeasurements t idx sign nonce) s = .next (s.spdmError t 1) :=
  congrArg Host.Outcome.next ((spdmAt_stage hs h _).trans (if_pos ⟨h11, fun hc => hall (BitVec.eq_of_toNat_eq hc)⟩))

/-! ### Sessions (R436, R481) -/

theorem exec_keyExchange (hs : s.supUp = true) (h : (s.spdm t).stage = 3) (hn : (s.spdm t).sessions.length < 4) :
    let x := s.spdm t
    let f := (s.setSpdm t { x with sessions := x.sessions ++ [⟨x.next, false, 0⟩], next := x.next + 1 }).takeBytes 16
    exec (.keyExchange t 0#8 share) s = .next (f.2.spdmSay t 0x64 (s.signed share (leBytes 2 x.next ++ f.1))) :=
  congrArg Host.Outcome.next ((spdmAt_stage hs h _).trans ((if_neg (· rfl)).trans (if_neg (Nat.not_le.mpr hn))))

theorem exec_keyExchange_full (hs : s.supUp = true) (h : (s.spdm t).stage = 3) (hn : 4 ≤ (s.spdm t).sessions.length) :
    exec (.keyExchange t 0#8 share) s = .next (s.spdmError t 0x0A) :=
  congrArg Host.Outcome.next ((spdmAt_stage hs h _).trans ((if_neg (· rfl)).trans (if_pos hn)))

end Connected

/-- The state that answers within session n. -/
abbrev inside (s : State) (n : Nat) : State := { s with sec := { s.sec with mgmt := { s.sec.mgmt with within := some n } } }

theorem within_congr {f g : State → State} (h : f (inside s n) = g (inside s n)) : s.within n f = s.within n g := by
  simp only [State.within, h]

theorem spdm_inside_sessions : ((inside s n).spdm t).sessions = (s.spdm t).sessions := by cases t <;> rfl

/-- FINISH of a session that waits for it. -/
theorem exec_spdmFinish {good : Bool} (hs : s.supUp = true) (h : (s.spdm t).stage = 3)
    (hn : (s.spdm t).sessions.any (fun p => p.id == n && !p.up) = true) : exec (.spdmFinish t n good) s = .next (s.within n (fun u =>
      if good then (u.setSpdm t ((u.spdm t).change n (fun p => { p with up := true }))).spdmSay t 0x65 []
      else (u.setSpdm t ((u.spdm t).drop n)).spdmError t 1)) := by
  refine congrArg Host.Outcome.next ((spdmAt_stage hs h _).trans (within_congr (if_neg ?_)))
  rw [spdm_inside_sessions, hn]
  decide

theorem inSession_up (hs : s.supUp = true) (h : (s.spdm t).up n = true) (f : State → State) : s.inSession t n f = s.within n f := by
  simp only [State.inSession, hs, h, Bool.not_true, Bool.false_eq_true, if_false, if_true]

theorem inSession_down (hs : s.supUp = true) (h : (s.spdm t).up n = false) (f : State → State) : s.inSession t n f = s.spdmError t 4 := by
  simp only [State.inSession, hs, h, Bool.not_true, Bool.false_eq_true, if_false]

theorem spdmSay_mgmt (code : Nat) (body : List Byte) : s.spdmSay .mgmt code body = (s.emit (.spdm .mgmt code (code == 0x7F) body)).answerMgmt 0x20
    (match s.sec.mgmt.within.bind s.sec.mgmt.session with
      | some y =>
        let c := Config.securedWrap y.id y.epoch ([0x13#8, BitVec.ofNat 8 code] ++ body)
        leBytes 4 y.id ++ leBytes 2 c.length ++ c
      | none => [0x13#8, BitVec.ofNat 8 code] ++ body) := by
  unfold State.spdmSay State.spdmWire
  cases s.sec.mgmt.within.bind s.sec.mgmt.session <;> rfl

/-! ### IDE (R438, R439) -/

theorem exec_ideStreamLoss (h : s.fld fSecIdeState = 2) : exec .ideStreamLoss s = .next (
    let u := (s.setFld fSecIdeState 3).log { code := 0x0904, kind := 13 }
    if s.flash.requireIde then u.setFld fZfHostwinOn 0 else u) :=
  congrArg _ (if_neg (· h))

/-! ### The statement -/

/-- Settles O53: a message in its stage or session by `spdmAt_stage` and `inSession_up`, out of it by their opposites. -/
theorem spdmAndHostLink : Obligations.SpdmAndHostLink := by
  intro t off len idx sign nonce share n s hs
  refine ⟨exec_getVersion hs, fun h => congrArg _ (spdmAt_stage hs h _),
    fun h => ⟨exec_negotiateAlgorithms (ok := true) hs h, exec_negotiateAlgorithms (ok := false) hs h⟩,
    fun h => congrArg _ (spdmAt_other hs h _),
    fun h => ⟨congrArg _ (spdmAt_other hs h _), congrArg _ (spdmAt_other hs h _), congrArg _ (spdmAt_other hs h _)⟩,
    fun h => ⟨congrArg _ (spdmAt_stage hs h _), exec_getCertificate hs h, exec_challenge hs h, ⟨fun hi => ?count, fun h0 h11 => ?one,
      fun hi => ?all, exec_getMeasurements_bad hs h⟩, exec_keyExchange hs h, exec_keyExchange_full hs h,
      fun hn => ⟨exec_spdmFinish (good := true) hs h hn, exec_spdmFinish (good := false) hs h hn⟩⟩,
    fun h => ⟨congrArg _ (inSession_up hs h _), congrArg _ (inSession_up hs h _), congrArg _ (inSession_up hs h _)⟩,
    fun h => ⟨congrArg _ (inSession_down hs h _), congrArg _ (inSession_down hs h _), congrArg _ (inSession_down hs h _)⟩,
    spdmSay_mgmt, fun h => congrArg _ (if_pos ⟨hs, h⟩), fun h => congrArg _ (if_neg fun hc => Bool.eq_false_iff.mp h hc.2),
    fun h => ⟨fun hi => (exec_ideStreamLoss h).trans (congrArg _ (if_pos hi)),
      fun hi => (exec_ideStreamLoss h).trans (congrArg _ (if_neg (Bool.eq_false_iff.mp hi)))⟩, rfl⟩
  case count =>
    subst hi
    exact exec_getMeasurements hs h (by decide)
  case one =>
    have hasked : measAsked s idx = s.measBlock idx.toNat := (if_neg (by omega)).trans (if_neg (by omega))
    rw [← hasked]
    exact exec_getMeasurements hs h (by omega)
  case all =>
    subst hi
    exact exec_getMeasurements hs h (by decide)

end Sys2Proof.Proofs
end

section
/-! SUPPORT. The service port: frames in and out of sequence, bundles and their banks, RUN and DEBUG, and the statement on them. -/

namespace Sys2Proof.Proofs

open Sys2Proof Sys2Proof.Machine

variable {f : SFrame} {s : State}

/-! ### Frames (R461, R508) -/

theorem svcFrame_first (hup : s.svcUp = true) (hstale : s.sec.svcStale = true) (g : State → State × Option Nat) :
    s.svcFrame f g = s.svcFirst := by
  simp only [State.svcFrame, hup, hstale, Bool.not_true, Bool.false_eq_true, if_false, if_true]

theorem exec_svcBadFrame_crc (hup : s.svcUp = true) (hfresh : s.sec.svcStale = false) (hcrc : svcCrcOk f = false) :
    exec (.svcBadFrame f) s = .next (s.svcNak 1) := by
  simp only [exec, execSvcBadFrame, hup, hfresh, hcrc, Bool.not_true, Bool.not_false, Bool.false_eq_true, if_false, if_true]

theorem exec_svcBadFrame_sequence (hup : s.svcUp = true) (hfresh : s.sec.svcStale = false) (hcrc : svcCrcOk f = true)
    (hseq : f.seq.toNat ≠ s.sec.svcSeq) : exec (.svcBadFrame f) s = .next (s.svcNak 2) := by
  simp only [exec, execSvcBadFrame, hup, hfresh, hcrc, hseq, Bool.not_true, Bool.false_eq_true, if_false, if_true, ne_eq, not_false_eq_true]

/-! ### Bundles (R457, R458) -/

section Bundles

variable {r : Receiving}

theorem exec_svcBegin (h : FrameTaken s f) (h5 : f.payload.length = 5) : exec (.svcBegin f) s = .next
    ((s.setReceiving (some ⟨field f.payload 0 4, bitOf (field f.payload 4 1) 0, []⟩)).acked s.sec.svcSeq) :=
  congrArg _ (svcFrame_acked h (if_neg (not_not.mpr h5)))

theorem exec_svcData_idle (h : FrameTaken s f) (hr : s.sec.receiving = none) : exec (.svcData f) s = .next (s.svcNak 3) :=
  congrArg _ (svcFrame_refused h (by simp only [hr]))

theorem exec_svcEnd_idle (h : FrameTaken s f) (hr : s.sec.receiving = none) : exec (.svcEnd f) s = .next (s.svcNak 3) :=
  congrArg _ (svcFrame_refused h (by simp only [hr]))

theorem exec_svcData (h : FrameTaken s f) (hr : s.sec.receiving = some r) (hl : r.data.length + f.payload.length ≤ r.length) :
    exec (.svcData f) s = .next ((s.setReceiving (some { r with data := r.data ++ f.payload })).acked s.sec.svcSeq) :=
  congrArg _ (svcFrame_acked h (by simp only [hr, gt_iff_lt, Nat.not_lt.mpr hl, if_false]))

theorem exec_svcEnd (h : FrameTaken s f) (hr : s.sec.receiving = some r) (hl : r.length ≤ r.data.length) :
    exec (.svcEnd f) s = .next ((s.bundleEnd r).acked s.sec.svcSeq) :=
  congrArg _ (svcFrame_acked h (by simp only [hr, Nat.not_lt.mpr hl, if_false]))

theorem bundleEnd_rejected (hc : s.bundleCheck r.length r.data ≠ 0) : s.bundleEnd r =
    (((s.setReceiving none).setFld fSecFwstateResult (s.bundleCheck r.length r.data)).log
      { code := 0x0905, detail := leBytes 4 (field r.data 4 4) ++ leBytes 1 (s.bundleCheck r.length r.data) }).svcStatus :=
  if_pos hc

/-- The bundle in progress ended with a result. -/
abbrev bundleTaken (s : State) (c : Nat) : State := (s.setReceiving none).setFld fSecFwstateResult c

theorem bundleEnd_rescue (hc : s.bundleCheck r.length r.data = 0) (ha : s.fld fBringStateAux = 3) : s.bundleEnd r =
    ({ bundleTaken s 0 with sec := { (bundleTaken s 0).sec with rescue := some (bundleBank r.data) } }).svcStatus :=
  (if_neg (not_not.mpr hc)).trans (if_pos ha)

theorem bundleEnd_written (hc : s.bundleCheck r.length r.data = 0) (ha : s.fld fBringStateAux = 2) : s.bundleEnd r =
    (({ s with sec := { s.sec with
      receiving := none
      writing := some ⟨bundleBank r.data, (r.data.length + 4095) / 4096, r.together, false⟩ } }).showSec).setFld fSecFwstateResult 0 :=
  (if_neg (not_not.mpr hc)).trans (if_neg (by omega))

/-- The bank is written, or its write failed. -/
abbrev bankStaged (s : State) (b : FwStaged) (ok : Bool) : State :=
  (({ s with sec := { s.sec with writing := none }, flash := s.flash.stage b ok }).showSec).fwSince s

theorem exec_bundleStaged {b : FwStaged} {ok : Bool} (h : s.sec.writing = some b) : exec (.bundleStaged ok) s = .next (
    let w := if ok then bankStaged s b ok else (bankStaged s b ok).log { code := 0x0705 }
    if w.svcUp then w.svcStatus else w) := by
  simp only [exec, execBundleStaged, h]

theorem exec_bundleStaged_up {b : FwStaged} {ok : Bool} (h : s.sec.writing = some b) :
    let w := if ok then bankStaged s b ok else (bankStaged s b ok).log { code := 0x0705 }
    (w.svcUp = true → exec (.bundleStaged ok) s = .next w.svcStatus) ∧ (w.svcUp = false → exec (.bundleStaged ok) s = .next w) :=
  ⟨fun hup => (exec_bundleStaged h).trans (congrArg _ (if_pos hup)),
    fun hup => (exec_bundleStaged h).trans (congrArg _ (if_neg (Bool.eq_false_iff.mp hup)))⟩

end Bundles

/-! ### RUN and DEBUG (R455, R464) -/

section Debug

variable {obs : HostObs}

theorem exec_svcRun {b : FwBank} (h : FrameTaken s f) (hb : s.sec.rescue = some b) (ha : s.fld fBringStateAux = 3) :
    exec (.svcRun f) s = .next (({ s with sec := { s.sec with rescue := none, running := b } } : State).auxOk.acked s.sec.svcSeq) :=
  congrArg _ (svcFrame_acked h (by simp only [hb, ha, ne_eq, not_true, if_false]; rfl))

theorem exec_svcDebug_locked (h : FrameTaken s f) (hd : s.flash.debug = false) : exec (.svcDebug f obs) s = .next (s.svcNak 4) :=
  congrArg _ (svcFrame_refused h (by simp only [hd, Bool.not_false, if_true]))

theorem exec_svcDebug_write (h : FrameTaken s f) (hd : s.flash.debug = true) (hl : f.payload.length = 17) (hk : field f.payload 0 1 = 2) :
    exec (.svcDebug f obs) s = .next
      (((s.bar0Write (field f.payload 1 8) (BitVec.ofNat 64 (field f.payload 9 8)) obs).svcSay 0x30 f.payload).acked s.sec.svcSeq) :=
  congrArg _ (svcFrame_acked h (by simp only [hd, hl, hk, Bool.not_true, Bool.false_eq_true, ne_eq, not_true, if_false]))

theorem exec_svcDebug_read (h : FrameTaken s f) (hd : s.flash.debug = true) (hl : f.payload.length = 17) (hk : field f.payload 0 1 = 1) :
    exec (.svcDebug f obs) s = .next (((s.debugRead (field f.payload 1 8)).1.svcSay 0x30
      (f.payload.take 9 ++ leBytes 8 (s.debugRead (field f.payload 1 8)).2.toNat)).acked s.sec.svcSeq) :=
  congrArg _ (svcFrame_acked h (by simp only [hd, hl, hk, Bool.not_true, Bool.false_eq_true, ne_eq, not_true, if_false]))

end Debug

/-! ### The statement -/

/-- Settles O55: a frame in sequence by its effect and `svcFrame_acked` or `svcFrame_refused`. -/
theorem servicePort : Obligations.ServicePort := by
  intro f obs ok s
  refine ⟨fun h => ⟨congrArg _ (svcFrame_acked h rfl), congrArg _ (svcFrame_acked h rfl), exec_svcBegin h,
    fun hr => ⟨exec_svcData_idle h hr, exec_svcEnd_idle h hr⟩, fun r hr => ⟨exec_svcData h hr, fun hl => ?ended⟩, fun _ => exec_svcRun h,
    exec_svcDebug_locked h, fun hd hl => ⟨exec_svcDebug_write h hd hl, exec_svcDebug_read h hd hl⟩⟩,
    fun hup hfresh => ⟨exec_svcBadFrame_crc hup hfresh, exec_svcBadFrame_sequence hup hfresh⟩,
    fun hup hstale => congrArg _ (svcFrame_first hup hstale _), ⟨rfl, rfl⟩, fun _ => exec_bundleStaged_up⟩
  case ended =>
    rw [exec_svcEnd h hr hl]
    refine ⟨fun hc => congrArg (fun t : State => Host.Outcome.next (t.acked s.sec.svcSeq)) (bundleEnd_rejected hc), fun hc ha => ?_, fun hc ha =>
      congrArg (fun t : State => Host.Outcome.next (t.acked s.sec.svcSeq)) (bundleEnd_written hc ha)⟩
    rw [bundleEnd_rescue hc ha, hc]

end Sys2Proof.Proofs
end

section
/-! SUPPORT. The management plane: records and their answers, telemetry, the management link, the side-band, and the statement on them. -/

namespace Sys2Proof.Proofs

open Sys2Proof Sys2Proof.Machine

variable {m : MRec} {s : State}

/-! ### Authenticated records (R475) -/

/-- A record is taken once: the floor of its sender now refuses it. -/
theorem authResult_raiseFloor (h : s.authResult m = 0) : (s.raiseFloor m).authResult m = 3 := by
  unfold State.authResult at h ⊢
  have hfloor : (s.raiseFloor m).floorOf m = some m.counter.toNat := lookupKey_insertKey_same _ _ _
  split at h
  · contradiction
  next hkey =>
  split at h
  · contradiction
  next htag =>
  split at h
  · contradiction
  next hmac =>
  split at h
  · contradiction
  next hsender =>
  have hknown : ¬(m.sender = 0#32 ∨ ((s.raiseFloor m).floorOf m).isNone = true ∧ (s.raiseFloor m).mgmt.floors.length ≥ 16) := by
    rintro (hz | hn)
    · exact hsender (.inl hz)
    · simp only [hfloor, Option.isNone_some, Bool.false_eq_true, false_and] at hn
  refine (if_neg hkey).trans ((if_neg htag).trans ((if_neg hmac).trans ((if_neg hknown).trans ?_)))
  rw [hfloor]
  exact if_pos (Nat.le_refl _)

/-- The state that answers the sender of a record. -/
abbrev askedBy (s : State) (m : MRec) : State := { s with mgmt := { s.mgmt with asker := beBytes 16 m.from_.toNat } }

theorem authResult_askedBy : (askedBy s m).authResult m = s.authResult m := rfl

theorem recRow_kind {kind : Nat} (h : Arrives s m kind) (hk : kind < 256) : m.kind.toNat = kind := by
  obtain ⟨-, -, -, hkind, -⟩ := h
  rw [hkind, BitVec.toNat_ofNat, Nat.mod_eq_of_lt hk]

/-! ### Orders (R478, R484, R485) -/

theorem ordered_badBody {ok : Bool} (ha : s.authResult m = 0) (hok : ok = false) (f : State → State) : s.ordered m ok f = s.reply m 5 := by
  simp only [State.ordered, ha, hok, rpDone, rpBadRecord, ne_eq, not_true, if_false, Bool.not_false, if_true]

theorem ordered_refused {ok : Bool} (ha : s.authResult m ≠ 0) (f : State → State) : s.ordered m ok f = s.reply m (s.authResult m) :=
  if_pos ha

theorem exec_powerOrder (h : Arrives s m 0x10) :
    exec (.powerOrder m) s = .next ((askedBy s m).ordered m (powerBodyOk m.body) (fun s => s.powerOrderDo m)) :=
  congrArg Host.Outcome.next ((recRow_arrives h).trans (by simp only [State.recDo, recRow_kind h (by decide)]))

theorem exec_resetOrder (h : Arrives s m 0x11) :
    exec (.resetOrder m) s = .next ((askedBy s m).ordered m (resetBodyOk m.body) (fun s => (s.reply m rpDone).warm caRack 0 1)) :=
  congrArg Host.Outcome.next ((recRow_arrives h).trans (by simp only [State.recDo, recRow_kind h (by decide)]))

theorem exec_config (h : Arrives s m 0x12) :
    exec (.config m) s = .next ((askedBy s m).ordered m (configBodyOk m.body) (fun s => (s.configDo m.body).reply m rpDone)) :=
  congrArg Host.Outcome.next ((recRow_arrives h).trans (by simp only [State.recDo, recRow_kind h (by decide)]))

theorem exec_query (h : Arrives s m 0x13) : exec (.query m) s = .next ((askedBy s m).ordered m
    (decide (m.body.length = 1 ∧ (field m.body 0 1 = 1 ∨ field m.body 0 1 = 2))) (fun s => s.queryDo m)) :=
  congrArg Host.Outcome.next ((recRow_arrives h).trans (by simp only [State.recDo, recRow_kind h (by decide)]))

theorem exec_query_telemetry (h : Arrives s m 0x13) (ha : s.authResult m = 0) (hb : m.body = [1#8]) : exec (.query m) s = .next
    ((((askedBy s m).raiseFloor m).answerMgmt 3 ((askedBy s m).raiseFloor m).telemetry).telReset) := by
  have hfield : field m.body 0 1 = 1 := hb ▸ rfl
  rw [exec_query h, ordered_accepted (authResult_askedBy.trans ha) (decide_eq_true ⟨hb ▸ rfl, .inl hfield⟩)]
  exact congrArg _ (if_pos hfield)

theorem exec_query_links (h : Arrives s m 0x13) (ha : s.authResult m = 0) (hb : m.body = [2#8]) : exec (.query m) s = .next
    (((askedBy s m).raiseFloor m).answerMgmt 5 ((askedBy s m).raiseFloor m).linksBody) := by
  have hfield : field m.body 0 1 = 2 := hb ▸ rfl
  rw [exec_query h, ordered_accepted (authResult_askedBy.trans ha) (decide_eq_true ⟨hb ▸ rfl, .inr hfield⟩)]
  exact congrArg _ (if_neg fun hc => absurd (hfield.symm.trans hc) (by decide))

/-! ### Records that need no authentication (R475, R481) -/

theorem openRec_senderless (hs : recSigned m = false) (hz : m.sender = 0#32) (f : State → State) : s.openRec m f = s.reply m 7 := by
  simp only [State.openRec, hs, hz, Bool.not_false, and_self, if_true, rpSenders]

theorem openRec_taken (ht : m.tag = keyTag deviceKey) (hs : recSigned m = false) (hz : m.sender ≠ 0#32) (f : State → State) :
    s.openRec m f = f s := by
  simp only [State.openRec, hs, hz, ht, and_false, ne_eq, not_true, Bool.false_eq_true, if_false]

theorem exec_mgmtSpdm (h : Arrives s m 0x20) : exec (.mgmtSpdm m) s = .next ((askedBy s m).openRec m (fun s => s.spdmMsg m.body)) :=
  congrArg Host.Outcome.next ((recRow_arrives h).trans (by simp only [State.recDo, recRow_kind h (by decide)]))

theorem exec_mgmtOwnerCmd (h : Arrives s m 0x21) :
    exec (.mgmtOwnerCmd m) s = .next ((askedBy s m).openRec m (fun s => s.ownerVia true m.body)) :=
  congrArg Host.Outcome.next ((recRow_arrives h).trans (by simp only [State.recDo, recRow_kind h (by decide)]))

theorem exec_nonce (h : Arrives s m 0x22) :
    exec (.nonce m) s = .next ((askedBy s m).openRec m (fun s => s.answerMgmt 0x22 (leBytes 8 (s.fld fSecNonceNonce)))) :=
  congrArg Host.Outcome.next ((recRow_arrives h).trans (by simp only [State.recDo, recRow_kind h (by decide)]))

theorem exec_reply (h : Arrives s m 0x7F) : exec (.reply m) s = .next (
    if (askedBy s m).authResult m = rpDone then ((askedBy s m).raiseFloor m).ackRecord (field m.body 0 8) else askedBy s m) :=
  congrArg Host.Outcome.next ((recRow_arrives h).trans (by simp only [State.recDo, recRow_kind h (by decide)]))

theorem exec_badRecord (hup : s.supUp = true) (hl : s.fld fMgtLinkUp = 1) (hf : recFormed m = false) :
    exec (.badRecord m) s = .next (s.bump fMgtQueueBad 1) :=
  congrArg _ (if_neg (by simp only [hup, bit_of_fld hl, hf, Bool.not_true, Bool.false_eq_true, or_self, not_false_eq_true]))

theorem exec_telemetryTimer (hup : s.supUp = true) :
    exec .telemetryTimer s = .next (s.mgmtQueue ⟨3, s.telemetry, false, false, none⟩).telReset :=
  congrArg _ (if_neg (by simp only [hup, Bool.not_true, Bool.false_eq_true, not_false_eq_true]))

/-! ### The management link (R473, R480) -/

theorem exec_mgmtLinkDown (hl : s.fld fMgtLinkUp = 1) : exec .mgmtLinkDown s = .next
    ((s.setFlds [(fMgtLinkUp, 0), (fMgtLinkGlobal, 0), (fMgtAddrhiAddr, 0), (fMgtAddrloAddr, 0)]).bump fMgtLinkDowns 1) :=
  congrArg _ (if_neg (by simp only [bit_of_fld hl, Bool.not_true, Bool.false_eq_true, not_false_eq_true]))

theorem exec_mgmtDownTimer_down (hl : s.fld fMgtLinkUp = 0) : exec .mgmtDownTimer s = .next (s.log { code := 0x0704, kind := 14 }) :=
  congrArg _ (if_neg (Bool.eq_false_iff.mp (bit_of_fld_zero hl)))

theorem exec_mgmtLinkUp {fec : Bool} {addr : Option (BitVec 128)} (hl : s.fld fMgtLinkUp = 0) (hv : s.pins.vaux = true) :
    let at_ : Nat := (addr.map BitVec.toNat).getD 0
    exec (.mgmtLinkUp fec addr) s = .next ((((s.setFlds [(fMgtLinkUp, 1), (fMgtLinkFec, ofBool fec), (fMgtLinkGlobal, ofBool addr.isSome),
      (fMgtAddrhiAddr, at_ / 2 ^ 64), (fMgtAddrloAddr, at_ % 2 ^ 64)]).log { code := 0x0704, kind := 14 }).reportDrops).mgmtFlush) :=
  congrArg _ (if_neg (by simp only [bit_of_fld_zero hl, hv, Bool.not_true, Bool.false_eq_true, or_self, not_false_eq_true]))

/-! ### The side-band (R487–R489) -/

section SideBand

variable {a7 : BitVec 7} {eid : Byte} {key : List Byte}

theorem exec_entdaa (hv : s.pins.vaux = true) : exec (.entdaa a7) s = .next (
    let d := s.setFld fMgtI3cDynAddr a7.toNat
    if s.mgmt.events.isEmpty ∨ a7 = 0#7 then d else d.emit .ibi) :=
  congrArg _ (if_pos hv)

theorem exec_entdaa_quiet (hv : s.pins.vaux = true) (h : s.mgmt.events = [] ∨ a7 = 0#7) :
    exec (.entdaa a7) s = .next (s.setFld fMgtI3cDynAddr a7.toNat) :=
  (exec_entdaa hv).trans (congrArg _ (if_pos (h.imp List.isEmpty_iff.mpr id)))

theorem exec_entdaa_events (hv : s.pins.vaux = true) (he : s.mgmt.events ≠ []) (ha : a7 ≠ 0#7) :
    exec (.entdaa a7) s = .next ((s.setFld fMgtI3cDynAddr a7.toNat).emit .ibi) :=
  (exec_entdaa hv).trans (congrArg _ (if_neg fun hc => hc.elim (fun h => he (List.isEmpty_iff.mp h)) ha))

theorem exec_pollForPlatformEventMessage (hup : s.supUp = true) {e : Nat × Nat} {l : List (Nat × Nat)} (h : s.mgmt.events = e :: l) :
    exec .pollForPlatformEventMessage s = .next
      (({ s with mgmt := { s.mgmt with events := l } } : State).emit (.i3c (0#8 :: (leBytes 2 e.1 ++ leBytes 1 e.2)))) := by
  simp only [exec, execPollForPlatformEventMessage, i3cSay_up hup, h]

theorem exec_pollForPlatformEventMessage_none (hup : s.supUp = true) (h : s.mgmt.events = []) :
    exec .pollForPlatformEventMessage s = .next (s.emit (.i3c [0#8])) := by
  simp only [exec, execPollForPlatformEventMessage, i3cSay_up hup, h]

theorem exec_setManagementKey (hup : s.supUp = true) (hk : key.length = 32) :
    let waiting : List MgmtItem := s.mgmt.queue.map (fun (it : MgmtItem) => { it with sent := none })
    let g : Mgmt := { s.mgmt with key := some key, sendCtr := 0, floors := [], queue := waiting }
    exec (.setManagementKey key) s = .next ((({ s with mgmt := g }).setFld fMgtLinkKey 1).emit (.i3c [0#8])) := by
  simp only [exec, execSetManagementKey, i3cSay_up hup, hk, ne_eq, not_true, if_false]

end SideBand

/-! ### The statement -/

/-- Settles O56: records by `recRow_arrives` and the lemma on their kind, the rest each by the lemma on its command. -/
theorem managementPlane : Obligations.ManagementPlane := by
  intro m fec addr v a7 eid x y on key s
  refine ⟨authResult_raiseFloor (s := askedBy s m), fun h => ⟨fun ha hb => ?power, fun ha hb => ?powerBad, fun ha => ?powerRefused⟩,
    fun h ha hb => ?reset, fun h ha hb => ?config, fun h ha => ⟨exec_query_telemetry h ha, exec_query_links h ha⟩,
    fun hs hz => ⟨fun h => ?spdmSender, fun h => ?ownerSender, fun h => ?nonceSender⟩,
    fun ht hs hz => ⟨fun h => ?spdm, fun h => ⟨_, rfl, ?owner⟩, fun h => ?nonce⟩,
    fun h => ⟨fun ha => (exec_reply h).trans (congrArg _ (if_pos ha)), fun ha => (exec_reply h).trans (congrArg _ (if_neg ha))⟩,
    exec_badRecord, exec_telemetryTimer, fun hl => ⟨exec_mgmtLinkDown hl, congrArg _ (if_pos (bit_of_fld hl))⟩,
    fun hl => ⟨exec_mgmtDownTimer_down hl, exec_mgmtLinkUp hl⟩,
    fun hv => ⟨exec_entdaa_quiet hv, exec_entdaa_events hv, congrArg _ (if_pos hv)⟩,
    fun hup => ⟨congrArg _ (i3cSay_up hup _), congrArg _ (i3cSay_up hup _), congrArg _ (i3cSay_up hup _),
      exec_pollForPlatformEventMessage_none hup, fun _ _ => exec_pollForPlatformEventMessage hup, exec_setManagementKey hup⟩,
    fun h => congrArg _ (hostWrite_taken _ _ _ h)⟩
  case power => exact (exec_powerOrder h).trans (congrArg _ (ordered_accepted (authResult_askedBy.trans ha) hb _))
  case powerBad => exact (exec_powerOrder h).trans (congrArg _ (ordered_badBody (authResult_askedBy.trans ha) hb _))
  case powerRefused => exact (exec_powerOrder h).trans (congrArg _ (ordered_refused (s := askedBy s m) ha _))
  case reset => exact (exec_resetOrder h).trans (congrArg _ (ordered_accepted (authResult_askedBy.trans ha) hb _))
  case config => exact (exec_config h).trans (congrArg _ (ordered_accepted (authResult_askedBy.trans ha) hb _))
  case spdmSender => exact (exec_mgmtSpdm h).trans (congrArg _ (openRec_senderless hs hz _))
  case ownerSender => exact (exec_mgmtOwnerCmd h).trans (congrArg _ (openRec_senderless hs hz _))
  case nonceSender => exact (exec_nonce h).trans (congrArg _ (openRec_senderless hs hz _))
  case spdm => exact (exec_mgmtSpdm h).trans (congrArg _ (openRec_taken ht hs hz _))
  case owner => exact (exec_mgmtOwnerCmd h).trans (congrArg _ (openRec_taken ht hs hz _))
  case nonce => exact (exec_nonce h).trans (congrArg _ (openRec_taken ht hs hz _))

end Sys2Proof.Proofs
end

section
/-! SUPPORT. Owner commands, the presence input and the seal loop: what a report of a corrected error leaves of flash, and the statement on them. -/

namespace Sys2Proof.Proofs

open Sys2Proof Sys2Proof.Machine

/-! ### Reports of corrected errors leave flash -/

section CorrectedReports

variable {s : State}

theorem flash_mgmtFlush : s.mgmtFlush.flash = s.flash := by
  unfold State.mgmtFlush
  split
  · rfl
  · refine foldl_fst_keeps State.flash (fun q it => ?_) s.mgmt.queue (s, [])
    split
    · rfl
    · dsimp only
      split <;> rfl

theorem flash_mgmtQueue (it : MgmtItem) : (s.mgmtQueue it).flash = s.flash := by
  unfold State.mgmtQueue
  refine flash_mgmtFlush.trans ?_
  dsimp only
  split
  · rfl
  · split
    · rfl
    · split <;> rfl

theorem flash_errIrq : s.errIrq.flash = s.flash := by
  unfold State.errIrq State.msix
  dsimp only
  split
  · split <;> rfl
  · rfl

/-- A record goes nowhere, into the error ring, or is counted lost. -/
theorem errRing_cases (r : ErrRec) :
    s.errRing r = s ∨ (∃ t : State, t.flash = s.flash ∧ s.errRing r = t.errIrq) ∨ s.errRing r = s.bump fErrRingStateLost 1 := by
  unfold State.errRing
  split
  · exact .inl rfl
  · dsimp only
    split
    · refine .inr (.inl ⟨_, ?_, rfl⟩)
      rfl
    · exact .inr (.inr rfl)

theorem flash_errRing (r : ErrRec) : (s.errRing r).flash = s.flash := by
  obtain h | ⟨t, ht, h⟩ | h := errRing_cases (s := s) r
  · rw [h]
  · rw [h, flash_errIrq, ht]
  · rw [h, bump_flash]

theorem flash_report_corrected {r : ErrRec} (hr : r.cls = 0) : (s.report r).flash = s.flash := by
  refine (flash_mgmtQueue _).trans ((flash_errRing _).trans ?_)
  simp only [State.errFlash, hr, if_true, emit_flash]

theorem flash_log_corrected {e : ErrArg} (he : e.cls = 0) : (s.log e).flash = s.flash := by
  have hcount : (s.errCount e.cls 1).flash = s.flash := by rw [he]; rfl
  have hreport := (flash_report_corrected (s := s.errCount e.cls 1) (r := (s.errCount e.cls 1).mkRec e) he).trans hcount
  unfold State.log
  dsimp only
  split
  · exact hcount
  · exact hreport

theorem sec_of_runsAndBeyond {t : State} (h : runsAndBeyond t = runsAndBeyond s) : t.sec = s.sec := by
  simp only [runsAndBeyond, beyondTasks, Prod.mk.injEq] at h
  obtain ⟨-, -, -, -, -, -, -, -, -, hsec, -⟩ := h
  exact hsec

theorem sec_log (e : ErrArg) : (s.log e).sec = s.sec := sec_of_runsAndBeyond (runsAndBeyond_log e)

end CorrectedReports

/-! ### The registers that follow flash, and the nonce (R451, R466) -/

section Shown

variable {s : State}

theorem showSec_flash : s.showSec.flash = s.flash := setFlds_flash _ _

theorem showSec_sec : s.showSec.sec = s.sec := setFlds_sec _ _

theorem fld_showSec_cmd {g : Fld} (hg : g.off = rSecCmd) : s.showSec.fld g = s.fld g :=
  fld_setFlds_off _ (hg ▸ of_decide_eq_true rfl)

theorem freshNonce_flash : s.freshNonce.flash = s.flash := rfl

theorem freshNonce_sec : s.freshNonce.sec = s.sec := rfl

theorem fld_freshNonce {g : Fld} (hg : g.off ≠ rSecNonce) : s.freshNonce.fld g = s.fld g := fld_setReg_off _ hg

theorem reg_freshNonce : s.freshNonce.reg rSecNonce = Config.freeWord s.free := reg_setReg_same _ _ _

end Shown

/-! ### A command and its result (R451–R454, R466) -/

section Commands

variable {s : State} {b : List Byte}

/-- A field of n bytes fits n bytes. -/
theorem field_lt (b : List Byte) (off n : Nat) : field b off n < 2 ^ (8 * n) := by
  refine (fromLe_lt _).trans_le (Nat.pow_le_pow_right (by decide) (Nat.mul_le_mul_left _ ?_))
  exact List.length_take_le _ _

theorem ownerCheck_lt (s : State) (b : List Byte) : s.ownerCheck b < 2 ^ 8 := by
  unfold State.ownerCheck
  dsimp only
  split_ifs <;> decide

/-- The effect of a command, or the record of its failure, with the presence window as it stands then. -/
def ownerDone (s : State) (b : List Byte) : State :=
  let s1 := if s.ownerCheck b = ocDone then s.ownerEffect b
    else s.log { code := 0x0907, detail := leBytes 1 (field b 4 1) ++ leBytes 1 (s.ownerCheck b) }
  if s.ownerCheck b = ocDone ∧ needsPresence (field b 4 1) then { s1 with sec := { s1.sec with window := none } } else s1

theorem ownerCmd_eq : s.ownerCmd b =
    ((((ownerDone s b).setFld fSecCmdOp (field b 4 1)).setFld fSecCmdResult (s.ownerCheck b)).showSec).freshNonce := rfl

theorem ownerCmd_op : (s.ownerCmd b).fld fSecCmdOp = field b 4 1 := by
  rw [ownerCmd_eq, fld_freshNonce (by decide), fld_showSec_cmd rfl, fld_setFld_bits _ _ _ _ (by decide) (by decide)]
  exact fld_setFld_fits _ (by decide) (field_lt b 4 1)

theorem ownerCmd_result : (s.ownerCmd b).fld fSecCmdResult = s.ownerCheck b := by
  rw [ownerCmd_eq, fld_freshNonce (by decide), fld_showSec_cmd rfl]
  exact fld_setFld_fits _ (by decide) (ownerCheck_lt s b)

theorem ownerCmd_flash : (s.ownerCmd b).flash = (ownerDone s b).flash := by
  rw [ownerCmd_eq, freshNonce_flash, showSec_flash, setFld_flash, setFld_flash]

theorem ownerCmd_window : (s.ownerCmd b).sec.window = (ownerDone s b).sec.window := by
  rw [ownerCmd_eq, freshNonce_sec, showSec_sec, setFld_sec, setFld_sec]

theorem ownerDone_failed (h : s.ownerCheck b ≠ 0) : ownerDone s b =
    s.log { code := 0x0907, detail := leBytes 1 (field b 4 1) ++ leBytes 1 (s.ownerCheck b) } :=
  (if_neg fun hc => h hc.1).trans (if_neg h)

/-- A command that fails a check leaves flash and the presence window. -/
theorem ownerCmd_failed (h : s.ownerCheck b ≠ 0) : (s.ownerCmd b).flash = s.flash ∧ (s.ownerCmd b).sec.window = s.sec.window := by
  rw [ownerCmd_flash, ownerCmd_window, ownerDone_failed h]
  exact ⟨flash_log_corrected rfl, congrArg Sec.window (sec_log _)⟩

theorem ownerDone_presence (h : s.ownerCheck b = 0) (hp : needsPresence (field b 4 1) = true) : ownerDone s b =
    { s.ownerEffect b with sec := { (s.ownerEffect b).sec with window := none } } := by
  simp only [ownerDone, h, hp, ocDone, and_self, if_true]

theorem ownerDone_remote (h : s.ownerCheck b = 0) (hp : needsPresence (field b 4 1) = false) : ownerDone s b = s.ownerEffect b := by
  simp only [ownerDone, h, hp, ocDone, Bool.false_eq_true, and_false, if_true, if_false]

/-- A command that needs presence: flash as its effect leaves it, and the window is closed. -/
theorem ownerCmd_presence {f : Flash} (h : s.ownerCheck b = 0) (hp : needsPresence (field b 4 1) = true) (hf : (s.ownerEffect b).flash = f) :
    (s.ownerCmd b).flash = f ∧ (s.ownerCmd b).sec.window = none := by
  rw [ownerCmd_flash, ownerCmd_window, ownerDone_presence h hp]
  exact ⟨hf, rfl⟩

/-- A command that needs none. -/
theorem ownerCmd_remote {f : Flash} (h : s.ownerCheck b = 0) (hp : needsPresence (field b 4 1) = false) (hf : (s.ownerEffect b).flash = f) :
    (s.ownerCmd b).flash = f ∧ (s.ownerCmd b).sec.window = (s.ownerEffect b).sec.window := by
  rw [ownerCmd_flash, ownerCmd_window, ownerDone_remote h hp]
  exact ⟨hf, rfl⟩

theorem recheckWindow_flash : s.recheckWindow.flash = s.flash := by
  unfold State.recheckWindow
  split <;> rfl

theorem ownerEffect_debugLock (hop : field b 4 1 = 3) :
    s.ownerEffect b = { s with flash := ({ s.flash with debugPending := some false } : Flash).wrote 6 [1] } := by
  simp only [State.ownerEffect, hop]

end Commands

/-! ### Through SEC.CMD or the management port (R451, R466, R481) -/

section Ways

variable {s : State} {b : List Byte}

theorem ownerVia_host (h : Taken s rSecCmd) : s.ownerVia false b = s.ownerOne (fun s => s.ownerCmd b) := by
  simp only [State.ownerVia, Bool.false_eq_true, if_false, hostWrite_taken _ _ _ h]

theorem ownerOne_idle (hc : s.sec.cmd = none) (f : State → State) : s.ownerOne f = f s := by
  simp only [State.ownerOne, hc, Option.isSome_none, Bool.false_eq_true, if_false]

theorem ownerOne_busy (hc : s.sec.cmd.isSome = true) (f : State → State) : s.ownerOne f = s.setFld fSecCmdResult 9 := if_pos hc

theorem ownerVia_port (hup : s.supUp = true) :
    s.ownerVia true b = (if s.sec.cmd = none then s.ownerCmd b else s.setFld fSecCmdResult 9).ownerAnswer := by
  have hvia : s.ownerVia true b = (s.ownerOne (fun s => s.ownerCmd b)).ownerAnswer := by
    simp only [State.ownerVia, hup, if_true, Bool.not_true, Bool.false_eq_true, if_false]
  rw [hvia]
  split
  next hc => rw [ownerOne_idle hc]
  next hc => rw [ownerOne_busy (Option.isSome_iff_ne_none.mpr hc)]

end Ways

/-! ### Presence and the seal loop (R453, R456, R465) -/

section Inputs

variable {s : State}

theorem exec_presencePress (hv : s.pins.vaux = true) (hp : s.sec.pressed = false) : exec .presencePress s = .next
    (({ s with sec := { s.sec with pressed := true, window := some (s.time + 60000000000) }
               pins := { s.pins with presence := true } }).setFld fSecStatePresence 1) :=
  congrArg _ (if_neg (by simp only [hv, hp, Bool.not_true, Bool.false_eq_true, or_self, not_false_eq_true]))

theorem exec_presencePress_unseen (h : s.sec.pressed = true ∨ s.pins.vaux = false) :
    exec .presencePress s = .next { s with pins := { s.pins with presence := true } } :=
  congrArg _ (if_pos (h.imp_right fun hv => by simp only [hv, Bool.not_false]))

theorem exec_presenceRelease (hv : s.pins.vaux = true) : exec .presenceRelease s = .next
    (({ s with sec := { s.sec with pressed := false }, pins := { s.pins with presence := false } }).setFld fSecStatePresence 0) :=
  congrArg _ (if_neg (by simp only [hv, Bool.not_true, Bool.false_eq_true, not_false_eq_true]))

theorem exec_presenceRelease_unseen (hv : s.pins.vaux = false) :
    exec .presenceRelease s = .next { s with pins := { s.pins with presence := false } } :=
  congrArg _ (if_pos (by simp only [hv, Bool.not_false]))

theorem exec_sealSample_closed (hv : s.pins.vaux = true) :
    exec (.sealSample false) s = .next (({ s with sec := { s.sec with openRun := 0 } }).setFld fSecStateSealClosed 1) :=
  congrArg _ (if_neg (by simp only [hv, Bool.not_true, Bool.false_eq_true, not_false_eq_true]))

theorem exec_sealSample_open (hv : s.pins.vaux = true) : exec (.sealSample true) s = .next (
    let u := ({ s with sec := { s.sec with openRun := s.sec.openRun + 1 } }).setFld fSecStateSealClosed 0
    if s.sec.openRun + 1 = 10 then u.ownerCut.zeroise else u) :=
  congrArg _ (if_neg (by simp only [hv, Bool.not_true, Bool.false_eq_true, not_false_eq_true]))

/-- A command that the open seal loop ends. -/
theorem ownerCut_eq {c : OwnerRun} (hc : s.sec.cmd = some c) : s.ownerCut =
    (((({ s with sec := { s.sec with cmd := none } }).log
      { code := 0x0907, detail := leBytes 1 (field c.blob 4 1) ++ leBytes 1 ocNeeds }).setFld
        fSecCmdBusy 0).setFld fSecCmdResult ocNeeds).freshNonce := by
  simp only [State.ownerCut, hc]
  rfl

theorem ownerCut_shown {c : OwnerRun} (hc : s.sec.cmd = some c) : ∃ n, s.ownerCut.reg rSecNonce = Config.freeWord n ∧ s.ownerCut.sec.cmd = none
    ∧ s.ownerCut.fld fSecCmdResult = 8 ∧ s.ownerCut.fld fSecCmdBusy = 0 := by
  rw [ownerCut_eq hc]
  refine ⟨_, reg_freshNonce, ?_, ?_, ?_⟩
  · rw [freshNonce_sec, setFld_sec, setFld_sec, sec_log]
  · rw [fld_freshNonce (by decide)]
    exact fld_setFld_fits _ (by decide) (by decide)
  · rw [fld_freshNonce (by decide), fld_setFld_bits _ _ _ _ (by decide) (by decide)]
    exact fld_setFld_fits _ (by decide) (by decide)

end Inputs

/-! ### The statement -/

/-- Settles O54: commands through `ownerCmd_failed`, `ownerCmd_presence` and `ownerCmd_remote`, inputs each by its lemma. -/
theorem ownerCommands : Obligations.OwnerCommands := by
  intro b s
  refine ⟨fun hc h => ?idle, fun hc h => ?busy, fun hup => ?port, ⟨ownerCmd_op, ownerCmd_result, _, reg_freshNonce⟩, fun hk => ?failed,
    fun hk => ⟨fun hop => ?enroll, fun hop => ?unlock, fun hop => ?lock, fun hop => ?rollback, fun hop => ?recover, fun hop => ?policy⟩,
    fun hv => ⟨exec_presencePress hv, fun hp => exec_presencePress_unseen (.inl hp), exec_presenceRelease hv, rfl, exec_sealSample_closed hv,
      fun hn => ?opens, fun hn => ?broken⟩,
    fun hv => ⟨exec_presencePress_unseen (.inr hv), exec_presenceRelease_unseen hv⟩, fun _ => ownerCut_shown⟩
  case idle =>
    have hvia : s.ownerVia false b = s.ownerCmd b := (ownerVia_host h).trans (ownerOne_idle hc _)
    exact ⟨congrArg _ hvia, congrArg _ hvia, congrArg _ hvia, congrArg _ hvia, congrArg _ hvia, congrArg _ hvia⟩
  case busy =>
    have hvia : s.ownerVia false b = s.setFld fSecCmdResult 9 := (ownerVia_host h).trans (ownerOne_busy hc _)
    exact ⟨congrArg _ hvia, congrArg _ hvia, congrArg _ hvia, congrArg _ hvia, congrArg _ hvia, congrArg _ hvia⟩
  case port =>
    have hvia := ownerVia_port (b := b) hup
    exact ⟨congrArg _ hvia, congrArg _ hvia, congrArg _ hvia, congrArg _ hvia, congrArg _ hvia, congrArg _ hvia⟩
  case failed =>
    obtain ⟨hflash, hwindow⟩ := ownerCmd_failed hk
    rw [hflash]
    exact ⟨rfl, rfl, rfl, rfl, rfl, rfl, rfl, rfl, rfl, hwindow⟩
  case enroll => exact ownerCmd_presence hk (congrArg needsPresence hop) (by simp only [State.ownerEffect, hop])
  case unlock => exact ownerCmd_presence hk (congrArg needsPresence hop) (by simp only [State.ownerEffect, hop])
  case lock =>
    have heffect := ownerEffect_debugLock (s := s) hop
    obtain ⟨hflash, hwindow⟩ := ownerCmd_remote hk (congrArg needsPresence hop) (congrArg State.flash heffect)
    exact ⟨hflash, by rw [hwindow, heffect]⟩
  case rollback => exact ownerCmd_presence hk (congrArg needsPresence hop) (by simp only [State.ownerEffect, hop])
  case recover => exact ownerCmd_presence hk (congrArg needsPresence hop) (by simp only [State.ownerEffect, hop])
  case policy => exact (ownerCmd_remote hk (congrArg needsPresence hop) (by simp only [State.ownerEffect, hop, recheckWindow_flash])).1
  case opens => exact (exec_sealSample_open hv).trans (congrArg _ (if_neg (by omega)))
  case broken => exact (exec_sealSample_open hv).trans (congrArg _ (if_pos (by omega)))

end Sys2Proof.Proofs
end

section
/-! SUPPORT. Cores under watch: stalls, hangs and the levels of reset, tasting, and moves of cores, and the statement on them. -/

namespace Sys2Proof.Proofs

open Sys2Proof Sys2Proof.Machine

variable {s : State}

/-! ### Stalls (R391) -/

section Stalls

variable {k : LCore} {r : Run}

/-- The record of a stalled core; its action is 11 where the task ends. -/
abbrev stallArg (s : State) (k : LCore) (r : Run) (action : Nat) : ErrArg :=
  { code := 0x0205, kind := 3, unit := s.physOf k, action := action, part := s.partOf r.task.ctx, ctx := some r.task.ctx
    detail := leBytes 4 r.task.id ++ leBytes 2 r.pc ++ leBytes 1 (s.waitReason k r) }

/-- A task that a timeout ends. -/
abbrev timedOut (r : Run) : Run := ({ r with timedOut := true } : Run).wind

theorem wind_timedOut : timedOut r = if r.issue.isSome then { r with timedOut := true } else { r with timedOut := true, chain := none, waiting := none } := rfl

theorem stalls_once (hlog : r.stallLogged = false) (his : r.issue = none) (hlim : s.fld fErrPmonLimit ≠ 0) :
    ¬(r.stallLogged = true ∨ r.issue.isSome = true ∨ s.fld fErrPmonLimit = 0) := by
  simp only [hlog, his, hlim, Option.isSome_none, Bool.false_eq_true, or_self, not_false_eq_true]

theorem exec_stall_noted (hr : s.runOf k = some r) (hlog : r.stallLogged = false) (his : r.issue = none) (hlim : s.fld fErrPmonLimit ≠ 0)
    (ha : s.fld fErrPmonAction = 0) : exec (.stall k) s = .next ((s.setRun k { r with stallLogged := true }).log (stallArg s k r 0)) := by
  simp only [exec, execStall, hr, stalls_once hlog his hlim, bit_of_fld_zero ha, Bool.false_eq_true, if_false]

theorem exec_stall_ends (hr : s.runOf k = some r) (hlog : r.stallLogged = false) (his : r.issue = none) (hlim : s.fld fErrPmonLimit ≠ 0)
    (ha : s.fld fErrPmonAction = 1) (hp : r.partner = none) :
    exec (.stall k) s = .next ((s.setRun k (timedOut { r with stallLogged := true })).log (stallArg s k r 11)) := by
  simp only [exec, execStall, hr, stalls_once hlog his hlim, bit_of_fld ha, hp, if_true, if_false]

theorem exec_stall_pair {j : Nat} (hr : s.runOf k = some r) (hlog : r.stallLogged = false) (his : r.issue = none)
    (hlim : s.fld fErrPmonLimit ≠ 0) (ha : s.fld fErrPmonAction = 1) (hp : r.partner = some j) : exec (.stall k) s = .next
    (((s.setRun k (timedOut { r with stallLogged := true })).log (stallArg s k r 11)).modRun j timedOut) := by
  simp only [exec, execStall, hr, stalls_once hlog his hlim, bit_of_fld ha, hp, if_true, if_false]

end Stalls

/-! ### Hangs (R392) -/

section Hangs

variable {k : LCore} {e : Option (Fin 4)} {r : Run}

/-- A hang is logged, its task ends, its reset starts and it counts against its core. -/
abbrev hung (s : State) (k : LCore) (e : Option (Fin 4)) (r : Run) : State :=
  let p := s.physOf k
  let logged := s.log { code := 0x0206, kind := if e.isSome then 4 else 3, unit := (e.map (fun x => p * 4 + x.val)).getD p, action := 6
                        part := s.partOf r.task.ctx, ctx := some r.task.ctx, detail := leBytes 4 r.task.id ++ leBytes 2 r.pc }
  let t := (logged.resetCore k).startReset ((e.map (fun x => RUnit.engine k x)).getD (.core k))
  t.setCoreLog p { t.coreLog p with hangs := t.recent (t.coreLog p).hangs }

/-- The hangs of a core within 24 hours, with this one. -/
abbrev hangsNow (s : State) (k : LCore) (e : Option (Fin 4)) (r : Run) : List Nat :=
  let p := s.physOf k
  let logged := s.log { code := 0x0206, kind := if e.isSome then 4 else 3, unit := (e.map (fun x => p * 4 + x.val)).getD p, action := 6
                        part := s.partOf r.task.ctx, ctx := some r.task.ctx, detail := leBytes 4 r.task.id ++ leBytes 2 r.pc }
  let t := (logged.resetCore k).startReset ((e.map (fun x => RUnit.engine k x)).getD (.core k))
  t.recent (t.coreLog p).hangs

theorem hang_eq (hr : s.runOf k = some r) (hc : s.coreResetting k = false) : s.hang k e =
    (if (hangsNow s k e r).length ≥ 2 then (hung s k e r).retire (s.physOf k) 4 else hung s k e r).refreshReady := by
  cases e <;> simp only [State.hang, hr, hc, Bool.false_eq_true, if_false] <;> rfl

theorem hang_first (hr : s.runOf k = some r) (hc : s.coreResetting k = false) (hl : (hangsNow s k e r).length < 2) :
    s.hang k e = (hung s k e r).refreshReady := by
  rw [hang_eq hr hc, if_neg (Nat.not_le.mpr hl)]

theorem hang_second (hr : s.runOf k = some r) (hc : s.coreResetting k = false) (hl : 2 ≤ (hangsNow s k e r).length) :
    s.hang k e = ((hung s k e r).retire (s.physOf k) 4).refreshReady := by
  rw [hang_eq hr hc, if_pos hl]

end Hangs

/-! ### Levels of reset (R412) -/

section Levels

variable {u : RUnit}

/-- A unit is in its reset no more. -/
abbrev outOfReset (s : State) (u : RUnit) : State :=
  { s with cores := { s.cores with resetting := s.cores.resetting.filter (fun v => v != u) } }

theorem exec_resetDeadline (h : s.cores.resetting.contains u = true) : exec (.resetDeadline u) s = .next (s.escalate u) :=
  congrArg _ (if_pos h)

theorem escalate_cluster {n : Cluster} {p : Nat} (hp : s.partOfCluster n = some p) : s.escalate (.cluster n) =
    (outOfReset s (.cluster n)).fatalDomain { code := 0x0207, kind := 2, unit := n, action := 7, part := some p } [p] rcEscalated := by
  simp only [State.escalate, hp]

theorem exec_resetReported_engine {j : LCore} {x : Fin 4} (h : s.cores.resetting.contains (.engine j x) = true) :
    exec (.resetReported (.engine j x) []) s = .next (outOfReset s (.engine j x)) :=
  congrArg _ (if_neg (by simp only [h, Bool.not_true, Bool.false_eq_true, not_false_eq_true]))

theorem exec_resetReported_domain {p : Sys2Proof.Part} {failed : List TasteFail} (h : s.cores.resetting.contains (.domain p) = true) :
    exec (.resetReported (.domain p) failed) s = .next (
      let t := outOfReset s (.domain p)
      (if t.bit (fRstPartHeld p) then t else t.reopen p failed).rstOver p) :=
  congrArg _ (if_neg (by simp only [h, Bool.not_true, Bool.false_eq_true, not_false_eq_true]))

theorem exec_resetReported_free {p : Sys2Proof.Part} {failed : List TasteFail} (h : s.cores.resetting.contains (.domain p) = true)
    (hh : s.fld (fRstPartHeld p) = 0) :
    exec (.resetReported (.domain p) failed) s = .next (((outOfReset s (.domain p)).reopen p failed).rstOver p) := by
  have hfree : (outOfReset s (.domain p)).bit (fRstPartHeld p) = false := bit_of_fld_zero hh
  simp only [exec_resetReported_domain h, hfree, Bool.false_eq_true, if_false]

theorem exec_resetReported_held {p : Sys2Proof.Part} {failed : List TasteFail} (h : s.cores.resetting.contains (.domain p) = true)
    (hh : s.fld (fRstPartHeld p) = 1) : exec (.resetReported (.domain p) failed) s = .next ((outOfReset s (.domain p)).rstOver p) := by
  have hheld : (outOfReset s (.domain p)).bit (fRstPartHeld p) = true := bit_of_fld hh
  simp only [exec_resetReported_domain h, hheld, if_true]

end Levels

/-! ### Tasting (R385, R386) -/

section Tasting

variable {n : Cluster} {item : Byte} {t : Tasting}

theorem exec_tastingStart {p : Nat} (ht : lookupKey s.cores.tasting n = none) (hp : s.tastePick n = some p) : exec (.tastingStart n) s = .next
    (({ s with cores := { s.cores with tasting := insertKey s.cores.tasting n ⟨p, false⟩ } }).setFlds
      [(fTstClRunning n, 1), (fTstClCore n, p % 18)]) := by
  simp only [exec, execTastingStart, ht, hp]

/-- The end of a test leaves the map of partitions. -/
theorem partOfCluster_tasteEnd (m : Nat) : (s.tasteEnd n).partOfCluster m = s.partOfCluster m := by
  have hoff (p : Nat) : (fCtxPartClusters p).off ≠ (fTstClRunning n).off ∨ 4 ≤ p := by
    simp only [fCtxPartClusters, fTstClRunning, rCtxPart, rTstCl]
    omega
  unfold State.partOfCluster
  refine List.find?_congr fun p hp => ?_
  have hfld : (s.tasteEnd n).fld (fCtxPartClusters p) = s.fld (fCtxPartClusters p) :=
    fld_setFld_off _ _ _ _ ((hoff p).resolve_right (Nat.not_le.mpr (List.mem_range.mp hp)))
  rw [hfld]

theorem exec_tastingResult_pass (ht : lookupKey s.cores.tasting n = some t) (ha : t.again = false) :
    exec (.tastingResult n true item) s = .next ((s.tasteEnd n).tastePass t.core).settle := by
  simp only [exec, execTastingResult, ht, ha, if_true, Bool.false_eq_true, if_false]

theorem exec_tastingResult_repeats (ht : lookupKey s.cores.tasting n = some t) (ha : t.again = false) : exec (.tastingResult n false item) s =
    .next { s with cores := { s.cores with tasting := insertKey s.cores.tasting n { t with again := true } } } := by
  simp only [exec, execTastingResult, ht, ha, Bool.false_eq_true, if_false]

theorem exec_tastingResult_fails (ht : lookupKey s.cores.tasting n = some t) (ha : t.again = true) :
    exec (.tastingResult n false item) s = .next (((s.tasteEnd n).dropPairs t.core).retire t.core 2) := by
  simp only [exec, execTastingResult, ht, ha, Bool.false_eq_true, if_false, if_true]

/-- A transient counts against its core. -/
abbrev transientNoted (s : State) (n : Cluster) (c : Nat) (item : Byte) : State :=
  let done := s.tasteEnd n
  ((done.log { code := 0x0201, kind := 3, unit := c, part := s.partOfCluster (c / 18), detail := [item] }).setCoreLog c
    { done.coreLog c with transients := done.recent (done.coreLog c).transients }).bump (fTstClTransients (c / 18)) 1

theorem exec_tastingResult_transient (ht : lookupKey s.cores.tasting n = some t) (ha : t.again = true) :
    exec (.tastingResult n true item) s = .next (
      if ((s.tasteEnd n).recent ((s.tasteEnd n).coreLog t.core).transients).length ≥ 2 then
        ((transientNoted s n t.core item).dropPairs t.core).retire t.core 2
      else (transientNoted s n t.core item).tastePass t.core).settle := by
  simp only [exec, execTastingResult, ht, ha, if_true, State.tasteTransient, partOfCluster_tasteEnd]

end Tasting

/-! ### Moves (R57–R60, R221, R384) -/

section Moves

variable {n : Cluster} {m : CoreMove} {b : Nat} {t : Tasting}

theorem exec_moveBegin_hard {h : Nat × Nat} (hh : s.cores.hardFaults.find? (fun q => q.1 / 18 == n.val) = some h) :
    exec (.moveBegin n) s = .next (s.hardRetire h) := by
  simp only [exec, execMoveBegin, hh]

/-- Is a spare being tasted? -/
abbrev tastes (s : State) (n b : Nat) : Bool :=
  match lookupKey s.cores.tasting n with
  | some t => t.core == b
  | none => false

/-- A move with a spare to take. -/
theorem exec_moveBegin (hh : s.cores.hardFaults.find? (fun q => q.1 / 18 == n.val) = none) (hm : lookupKey s.cores.moves n = some m)
    (hb : m.begun = false) (ht : m.to_ = some b ∧ s.coreState b = 1 ∨ m.to_ = none ∧ s.moveTarget n = some b) : exec (.moveBegin n) s = .next (
      if (s.runOf m.lcore).isSome ∨ s.coreResetting m.lcore ∨ (!m.retire ∧ tastes s n b) then s
      else
        let u := if tastes s n b then s.tasteEnd n else s
        ({ u with cores := { u.cores with
          moves := insertKey u.cores.moves n { m with to_ := some b, begun := true } } }).setCoreState b 3) := by
  obtain ⟨hto, hspare⟩ | ⟨hto, htarget⟩ := ht
  · simp only [exec, execMoveBegin, hh, hm, hb, hto, hspare, Bool.false_eq_true, if_false, if_true] <;> rfl
  · simp only [exec, execMoveBegin, hh, hm, hb, hto, htarget, Bool.false_eq_true, if_false] <;> rfl

theorem exec_moveBegin_none (hh : s.cores.hardFaults.find? (fun q => q.1 / 18 == n.val) = none) (hm : lookupKey s.cores.moves n = some m)
    (hb : m.begun = false) (hto : m.to_ = none) (ht : s.moveTarget n = none) : exec (.moveBegin n) s = .next (s.spareLost n).settle := by
  simp only [exec, execMoveBegin, hh, hm, hb, hto, ht, Bool.false_eq_true, if_false]

theorem spareLost_none (hm : lookupKey s.cores.moves n = some m) (hb : m.begun = false) (hs : s.sparesOf n = []) : s.spareLost n =
    let rest : State := { s with cores := { s.cores with moves := eraseKey s.cores.moves n } }
    if m.retire then rest.noSpare m.from_ else rest := by
  simp only [State.spareLost, hm, hb, hs, List.isEmpty_nil, Bool.not_true, Bool.false_eq_true, or_self, if_false]

theorem exec_moveCompleteMap {lines : List StoreLine} (hm : lookupKey s.cores.moves n = some m) (hto : m.to_ = some b) (hb : m.begun = true) :
    exec (.moveCompleteMap ⟨n, lines⟩) s = .next (((s.moveEnd n m b lines).retireNext n).settle) := by
  simp only [exec, execMoveCompleteMap, hm, hto, hb, Bool.not_true, Bool.false_eq_true, if_false]

end Moves

/-! ### The statement -/

/-- Settles O35: each clause by the lemma on its command. -/
theorem coresWatched : Obligations.CoresWatched := by
  refine ⟨fun k e u n s => ⟨fun r hr hlog his hlim => ⟨exec_stall_noted hr hlog his hlim, exec_stall_ends hr hlog his hlim,
      fun j => exec_stall_pair hr hlog his hlim⟩, fun r hr hc => ⟨fun hl => ⟨congrArg _ (hang_first hr hc hl), ?probe⟩,
      fun hl => congrArg _ (hang_second hr hc hl)⟩, rfl, fun hu => ⟨fun j x he => ?engine, fun p he hp => ?cluster, fun p he => ?domain,
      fun p failed he hh => ?free, fun p failed he hh => ?held⟩⟩,
    fun n item s => ⟨fun p => exec_tastingStart, fun t ht => ⟨exec_tastingResult_pass ht, exec_tastingResult_repeats ht,
      exec_tastingResult_fails ht, fun ha => ⟨fun hl => ?retires, fun hl => ?returns⟩⟩, rfl, fun h hh => exec_moveBegin_hard hh,
      fun m b hh hm hb hto hrun hreset => ⟨fun ht => ?begins, fun t ht hcore hret => ?abandons, fun t ht hcore hret => ?waits⟩,
      fun m hh hm hb hto htarget hs => ?lost, fun m b lines hm hto hb => exec_moveCompleteMap hm hto hb⟩⟩
  case probe =>
    intro he
    subst he
    exact congrArg Host.Outcome.next (hang_first hr hc hl)
  case engine =>
    subst he
    exact ⟨exec_resetDeadline hu, exec_resetReported_engine hu⟩
  case cluster =>
    subst he
    exact (exec_resetDeadline hu).trans (congrArg _ (escalate_cluster hp))
  case domain =>
    subst he
    exact exec_resetDeadline hu
  case free =>
    subst he
    exact exec_resetReported_free hu hh
  case held =>
    subst he
    exact exec_resetReported_held hu hh
  case retires => rw [exec_tastingResult_transient ht ha, if_pos hl, State.dropPairs]
  case returns => rw [exec_tastingResult_transient ht ha, if_neg (Nat.not_le.mpr hl)]
  case begins =>
    have htest : tastes s n b = false := by simp only [tastes, ht]
    rw [exec_moveBegin hh hm hb hto]
    simp only [hrun, hreset, htest, Option.isSome_none, Bool.false_eq_true, and_false, or_self, if_false]
  case abandons =>
    have htest : tastes s n b = true := by simp only [tastes, ht, hcore, BEq.rfl]
    rw [exec_moveBegin hh hm hb hto]
    simp only [hrun, hreset, htest, hret, Option.isSome_none, Bool.not_true, Bool.false_eq_true, false_and, or_self, if_false, if_true]
  case waits =>
    have htest : tastes s n b = true := by simp only [tastes, ht, hcore, BEq.rfl]
    rw [exec_moveBegin hh hm hb hto]
    exact congrArg _ (if_pos (.inr (.inr ⟨by rw [hret]; rfl, htest⟩)))
  case lost => rw [exec_moveBegin_none hh hm hb hto htarget, spareLost_none hm hb hs]

end Sys2Proof.Proofs
end

section
/-! SUPPORT. The bring-up steps: what a step that runs starts from, POWER, JOIN and DEFECTS, the end of a step, and the statement on them. -/

namespace Sys2Proof.Proofs

open Sys2Proof Sys2Proof.Machine

/-! ### The state that a step starts from (R420) -/

section Began

variable {s : State} {n : Nat}

theorem fld_began {g : Fld} (hctl : g.off ≠ rBringCtl) (hstate : g.off ≠ rBringState) : (s.began n).fld g = s.fld g := by
  have hrest : ∀ p ∈ [(fBringStateStep, n), (fBringStateBusy, 1)], g.off ≠ p.1.off := by
    simp only [List.mem_cons, List.not_mem_nil, or_false, forall_eq_or_imp, forall_eq]
    exact ⟨hstate, hstate⟩
  exact (fld_setFlds_off _ hrest).trans (fld_setFld_off _ _ _ _ hctl)

theorem img_began : (s.began n).img = s.img := rfl

theorem node_began : (s.began n).node = s.node := rfl

theorem portState_began (p : Nat) : (s.began n).portState p = s.portState p := by
  refine fld_began ?_ ?_ <;> simp only [fLnkPortStateState, rLnkPortState, rBringCtl, rBringState] <;> omega

theorem offSources_began : (s.began n).offSources = s.offSources := by
  have hpwr : (s.began n).pwr = s.pwr := rfl
  have hfld {g : Fld} (hctl : g.off ≠ rBringCtl) (hstate : g.off ≠ rBringState) := fld_began (s := s) (n := n) hctl hstate
  simp only [State.offSources, hpwr, hfld (g := fPwrRackOrder) (by decide) (by decide), hfld (g := fPwrRackNotice) (by decide) (by decide),
    hfld (g := fPwrHostOrder) (by decide) (by decide)]

end Began

/-! ### IMAGE (R14–R19, R44) -/

section Image

variable {s : State} {ok : Bool}

/-- Is the staging buffer the source of IMAGE? -/
abbrev fromStaging (s : State) : Bool := s.fld fCuveeCtlSource == 0

/-- The bytes that IMAGE judges. -/
abbrev imageSource (s : State) : Option (List Byte) := if fromStaging s then sourceBytes s.stagedBytes else s.flash.image

/-- What IMAGE finds of them. -/
abbrev imageVerdict (s : State) : Nat × Nat :=
  checkImage ⟨s.flash.owner, s.flash.floor, keyTag deviceKey⟩ (fromStaging s) (imageSource s)

/-- The verdict is kept for STEP_RESULT. -/
abbrev imageJudged (s : State) : State :=
  ({ s.began 1 with img := { (s.began 1).img with verify := none, result := some (imageVerdict s) } }).setFld fCuveeResultBusy 1

theorem exec_image (h : BringReady s 1) : exec (.image ok) s = .next (
    if (imageVerdict s).1 = rsnAccepted then
      ((imageJudged s).imageAccept ((imageSource s).getD []) (fromStaging s) ok).reports brDone
    else (imageJudged s).reports brImage) := by
  have hsource : (s.began 1).fld fCuveeCtlSource = s.fld fCuveeCtlSource := fld_began (by decide) (by decide)
  have hstep : (s.began 1).imageStep ok = if (imageVerdict s).1 = rsnAccepted then
      ((imageJudged s).imageAccept ((imageSource s).getD []) (fromStaging s) ok, brDone) else (imageJudged s, brImage) := by
    simp only [State.imageStep, hsource]
    rfl
  refine congrArg Host.Outcome.next ((startStep_ready h _ _).trans ?_)
  rw [hstep]
  split <;> rfl

end Image

/-! ### POWER (R337, R421) -/

section Power

variable {s : State}

/-- POWER lets a stage leave FAULT; its feed is valid again where it never left its range. -/
def unfaulted (f : Feed) (s : State) : State :=
  if s.fld (feedStateF f) = fsFault then
    (let s1 := s.setFld (feedStateF f) fsOff
     if !s.gone f ∧ s.mated f then s1.setFeedValid f (some s.time) else s1)
  else s

theorem powerStep_off {r : Option (Fin 13)} (h : s.offSources ≠ []) : s.powerStep r = (s, brHeldOff) := by
  have hoff : s.offSources.isEmpty = false := List.isEmpty_eq_false_iff.mpr h
  simp only [State.powerStep, hoff, Bool.not_false, if_true]

theorem powerStep_result {r : Option (Fin 13)} (h : s.offSources = []) : (s.powerStep r).2 =
    let t := unfaulted .B (unfaulted .A s)
    if t.pwr.validA.isNone ∧ t.pwr.validB.isNone then brNoFeed else if r.isSome then brRail else brDone := by
  have hoff : ¬(!s.offSources.isEmpty) = true := by simp only [h, List.isEmpty_nil, Bool.not_true, Bool.false_eq_true, not_false_eq_true]
  unfold State.powerStep
  rw [if_neg hoff]
  change (if (unfaulted .B (unfaulted .A s)).pwr.validA.isNone ∧ (unfaulted .B (unfaulted .A s)).pwr.validB.isNone then _ else _ : State × Nat).2 = _
  by_cases hnone : (unfaulted .B (unfaulted .A s)).pwr.validA.isNone = true ∧ (unfaulted .B (unfaulted .A s)).pwr.validB.isNone = true
  · rw [if_pos hnone, if_pos hnone]
  · rw [if_neg hnone, if_neg hnone]
    cases r <;> rfl

theorem unfaulted_working {f : Feed} (h : s.fld (feedStateF f) ≠ fsFault) : unfaulted f s = s := if_neg h

/-- A valid feed A stays so. -/
theorem unfaulted_validA (f : Feed) (h : s.pwr.validA.isSome = true) : (unfaulted f s).pwr.validA.isSome = true := by
  unfold unfaulted
  split
  · dsimp only
    split
    · cases f
      · rfl
      · exact h
    · exact h
  · exact h

theorem powerStep_noFeed {r : Option (Fin 13)} (h : s.offSources = []) (hA : s.pwr.validA = none) (hB : s.pwr.validB = none)
    (hfA : s.fld fPwrFeedAState ≠ fsFault) (hfB : s.fld fPwrFeedBState ≠ fsFault) : (s.powerStep r).2 = brNoFeed := by
  have hsame : unfaulted .B (unfaulted .A s) = s := by rw [unfaulted_working (f := .A) hfA, unfaulted_working (f := .B) hfB]
  rw [powerStep_result h]
  simp only [hsame, hA, hB, Option.isNone_none, and_self, if_true]

theorem powerStep_feedA {r : Option (Fin 13)} (h : s.offSources = []) (hA : s.pwr.validA.isSome = true) :
    (s.powerStep r).2 = if r.isSome then brRail else brDone := by
  have hvalid := unfaulted_validA .B (unfaulted_validA .A hA)
  rw [powerStep_result h]
  refine if_neg fun hc => ?_
  rw [Option.isNone_iff_eq_none.mp hc.1] at hvalid
  exact absurd hvalid (by decide)

theorem exec_power {r : Option (Fin 13)} (h : BringReady s 2) :
    exec (.power r) s = .next (((s.began 2).powerStep r).1.reports ((s.began 2).powerStep r).2) :=
  congrArg Host.Outcome.next (startStep_ready h _ _)

theorem exec_power_off {r : Option (Fin 13)} (h : BringReady s 2) (hoff : s.offSources ≠ []) :
    exec (.power r) s = .next ((s.began 2).reports brHeldOff) := by
  rw [exec_power h, powerStep_off fun hc => hoff (offSources_began.symm.trans hc)]

theorem power_noFeed {r : Option (Fin 13)} (h : s.offSources = []) (hA : s.pwr.validA = none) (hB : s.pwr.validB = none)
    (hfA : s.fld fPwrFeedAState ≠ fsFault) (hfB : s.fld fPwrFeedBState ≠ fsFault) : ((s.began 2).powerStep r).2 = brNoFeed := by
  have hfldA : (s.began 2).fld fPwrFeedAState = s.fld fPwrFeedAState := fld_began (by decide) (by decide)
  have hfldB : (s.began 2).fld fPwrFeedBState = s.fld fPwrFeedBState := fld_began (by decide) (by decide)
  exact powerStep_noFeed (offSources_began.trans h) hA hB (fun hc => hfA (hfldA.symm.trans hc)) (fun hc => hfB (hfldB.symm.trans hc))

theorem power_feedA {r : Option (Fin 13)} (h : s.offSources = []) (hA : s.pwr.validA.isSome = true) :
    ((s.began 2).powerStep r).2 = if r.isSome then brRail else brDone := powerStep_feedA (offSources_began.trans h) hA

end Power

/-! ### MEMSCREEN, SECURE (R42, R445) -/

section Screens

variable {s : State} {sc : ScreenObs} {c : Cuvee}

theorem exec_memscreen (h : BringReady s 5) (hc : s.img.cfg = some c) : exec (.memscreen sc) s = .next (
    let r := (s.began 5).screen (c.screensFull s.img.startC) sc
    (r.1.setSinceFull (if c.screensFull s.img.startC then some 0 else if s.img.startC ≥ 255 then s.flash.sinceFull else some (s.img.startC + 1))).reports
      (if r.2 then brDone else brStack)) := by
  refine congrArg Host.Outcome.next ((startStep_ready h _ _).trans ?_)
  simp only [img_began, hc] <;> rfl

theorem exec_memscreen_full (h : BringReady s 5) (hc : s.img.cfg = some c) (hfull : c.screensFull s.img.startC = true) :
    exec (.memscreen sc) s = .next ((((s.began 5).screen true sc).1.setSinceFull (some 0)).reports
      (if ((s.began 5).screen true sc).2 then brDone else brStack)) := by
  simpa only [hfull, if_true] using exec_memscreen (sc := sc) h hc

theorem exec_memscreen_short (h : BringReady s 5) (hc : s.img.cfg = some c) (hfull : c.screensFull s.img.startC = false)
    (hlt : s.img.startC < 255) : exec (.memscreen sc) s = .next ((((s.began 5).screen false sc).1.setSinceFull (some (s.img.startC + 1))).reports
      (if ((s.began 5).screen false sc).2 then brDone else brStack)) := by
  have hcount : ¬ s.img.startC ≥ 255 := Nat.not_le.mpr hlt
  simpa only [hfull, hcount, Bool.false_eq_true, if_false] using exec_memscreen (sc := sc) h hc

theorem exec_secure {rngOk keyOk : Bool} (h : BringReady s 9) : exec (.secure rngOk keyOk) s = .next (
    let t := (s.began 9).setFld fSecStateRngOk (ofBool rngOk)
    if !rngOk ∨ !keyOk then t.reports brSecure else ((List.range 32).foldl State.securePort t).reports brDone) := by
  refine congrArg Host.Outcome.next ((startStep_ready h _ _).trans ?_)
  by_cases hbad : (!rngOk) = true ∨ (!keyOk) = true
  · simp only [if_pos hbad]
  · simp only [if_neg hbad]

theorem exec_secure_begins (h : BringReady s 9) : exec (.secure true true) s =
    .next (((List.range 32).foldl State.securePort ((s.began 9).setFld fSecStateRngOk 1)).reports brDone) := by
  have hone : ofBool true = 1 := rfl
  simpa only [Bool.not_true, Bool.false_eq_true, or_self, if_false, hone] using exec_secure (rngOk := true) (keyOk := true) h

theorem exec_secure_refused {keyOk : Bool} (h : BringReady s 9) :
    exec (.secure false keyOk) s = .next (((s.began 9).setFld fSecStateRngOk 0).reports brSecure) := by
  have hzero : ofBool false = 0 := rfl
  simpa only [Bool.not_false, true_or, if_true, hzero] using exec_secure (rngOk := false) (keyOk := keyOk) h

theorem exec_links (h : BringReady s 7) : exec .links s = .next
    (((List.range 32).foldl (fun t p => if t.mayTrain p then t.startTraining p false else t) (s.began 7)).reports brDone) := by
  simp only [exec, execLinks, startStep_ready h]

theorem exec_cabling (h : BringReady s 8) :
    exec .cabling s = .next (((List.range 32).foldl State.checkCable (s.began 8)).reports brDone) := by
  simp only [exec, execCabling, startStep_ready h]

theorem exec_clocks {locked : Bool} (h : BringReady s 3) : exec (.clocks locked) s = .next (
    if locked then ((List.range 4).foldl (fun t d => t.setJob d (s.began 3).startFreq) (s.began 3)).reports brDone
    else (s.began 3).reports brClock) := by
  refine congrArg Host.Outcome.next ((startStep_ready h _ _).trans ?_)
  dsimp only
  split <;> rfl

end Screens

/-! ### JOIN (R328, R329, R331) -/

section Join

variable {s : State}

/-- What the routing of a join leaves: the image's side of the state, and the module's time. -/
def joinPart (s : State) := (s.img, s.rte.offset, s.rte.slew)

theorem joinPart_setFlds (l : List (Fld × Nat)) : joinPart (s.setFlds l) = joinPart s := setFlds_keeps joinPart (fun _ _ _ => rfl) l s

theorem joinPart_setGateways (pos : Nat) (works : List Bool) : joinPart (s.setGateways pos works) = joinPart s := by
  refine foldl_keeps joinPart (fun t a => ?_) _ s
  rfl

theorem joinPart_flood (but : Option Nat) (data : List Byte) : joinPart (s.flood but data) = joinPart s := by
  refine foldl_keeps joinPart (fun t a => ?_) _ s
  rfl

theorem joinPart_gen (g : Nat) : joinPart { s with rte := { s.rte with gen := g } } = joinPart s := rfl

theorem joinPart_floodOwn : joinPart s.floodOwn = joinPart s := (joinPart_flood _ _).trans ((joinPart_gen _).trans (joinPart_setGateways _ _))

theorem joinPart_routeChanged (old : RouteView) : joinPart (s.routeChanged old) = joinPart s := by
  unfold State.routeChanged
  split <;> rfl

theorem joinPart_showTunnels : joinPart s.showTunnels = joinPart s := by
  refine foldl_keeps joinPart (fun t a => ?_) _ s
  split
  · exact (apply_ite joinPart _ _ _).trans (ite_self (joinPart t))
  · rfl

theorem joinPart_portChanged (old : RouteView) (p : Nat) : joinPart (s.portChanged old p) = joinPart s := by
  refine joinPart_showTunnels.trans ((joinPart_routeChanged _).trans ?_)
  split
  · exact joinPart_floodOwn
  · rfl

theorem joinPart_moveEdge (a b : Nat) (keys : Nat → Bool) : joinPart (s.moveEdge a b keys) = joinPart s := by
  unfold State.moveEdge
  dsimp only
  split <;> rfl

theorem joinPart_admitPort (p : Nat) : joinPart (s.admitPort p) = joinPart s := by
  unfold State.admitPort
  split
  · exact (joinPart_moveEdge _ _ _).trans (joinPart_portChanged _ _)
  · rfl

theorem joinPart_joinEnd : joinPart s.joinEnd = joinPart s := by
  refine (foldl_keeps joinPart (fun _ _ => joinPart_admitPort _) _ _).trans ?_
  split
  · rfl
  · exact joinPart_floodOwn

/-- A choice of the source of time leaves time as it stands, with nothing to slew. -/
theorem chooseTime_holds (joined : List Node) (peers : List TimePeer) :
    joinPart (s.chooseTime joined peers) = (s.img, s.rte.offset, 0) := by
  unfold State.chooseTime
  dsimp only
  split
  · exact joinPart_setFlds _
  · split <;> exact joinPart_setFlds _

/-- The sealed ports admitted and the gateway map built. -/
def joinRouted (s : State) (o : JoinObs) : State :=
  let s1 := (o.gateways.take 7).zipIdx.foldl (fun s g => s.setReg (rRteGw g.2) g.1)
    (s.setFld fRtePortsRouted ((s.sealedPorts.map (2 ^ ·)).foldl (· + ·) 0))
  s1.setGateways (posOf s.node) s1.ownWorks

theorem joinPart_joinRouted (o : JoinObs) : joinPart (joinRouted s o) = joinPart s := by
  refine (joinPart_setGateways _ _).trans ((foldl_keeps joinPart (fun t a => ?_) _ _).trans ?_) <;> rfl

theorem exec_join_root {o : JoinObs} (h : BringReady s 10) (hr : s.isRoot o.joined = true) : exec (.join o) s =
    .next (((joinRouted (s.began 10) o).chooseTime o.joined o.peers).floodOwn.reports 0) := by
  have hroot : (s.began 10).isRoot o.joined = true := hr
  refine congrArg Host.Outcome.next ((startStep_ready h _ _).trans ?_)
  simp only [hroot, if_true]
  rfl

/-- Time is stepped to that of a neighbour. -/
abbrev steppedTo (t : State) (q : TimePeer) (now : Nat) : State := { t with rte := { t.rte with offset := (q.time.toNat : Int) - (now : Int) } }

theorem exec_join_upstream {o : JoinObs} {q : TimePeer} (h : BringReady s 10) (hr : s.isRoot o.joined = false)
    (hq : (s.began 10).pickUpstream (s.isMaster o.joined) o.peers = some q) : exec (.join o) s =
    .next ((steppedTo ((joinRouted (s.began 10) o).chooseTime o.joined o.peers) q s.time).floodOwn.reports 0) := by
  have hroot : (s.began 10).isRoot o.joined = false := hr
  have hpick : (s.began 10).pickUpstream ((s.began 10).isMaster o.joined) o.peers = some q := hq
  refine congrArg Host.Outcome.next ((startStep_ready h _ _).trans ?_)
  simp only [hroot, hpick, Bool.false_eq_true, if_false]
  rfl

theorem joinPart_time {t : State} {i : ImageState} {o w : Int} (h : joinPart t = (i, o, w)) : t.rte.offset = o ∧ t.rte.slew = w := by
  simp only [joinPart, Prod.mk.injEq] at h
  exact h.2

theorem joined_root {o : JoinObs} : let t := ((joinRouted (s.began 10) o).chooseTime o.joined o.peers).floodOwn
    t.rte.offset = s.rte.offset ∧ t.rte.slew = 0 := by
  obtain ⟨hoffset, -⟩ := joinPart_time (joinPart_joinRouted (s := s.began 10) o)
  obtain ⟨h, hslew⟩ := joinPart_time (joinPart_floodOwn.trans (chooseTime_holds (s := joinRouted (s.began 10) o) o.joined o.peers))
  exact ⟨h.trans hoffset, hslew⟩

theorem joined_upstream {o : JoinObs} (q : TimePeer) (now : Nat) :
    let t := (steppedTo ((joinRouted (s.began 10) o).chooseTime o.joined o.peers) q now).floodOwn
    t.rte.offset = (q.time.toNat : Int) - now ∧ t.rte.slew = 0 := by
  obtain ⟨-, hslew⟩ := joinPart_time (chooseTime_holds (s := joinRouted (s.began 10) o) o.joined o.peers)
  obtain ⟨h, hw⟩ := joinPart_time (joinPart_floodOwn (s := steppedTo ((joinRouted (s.began 10) o).chooseTime o.joined o.peers) q now))
  exact ⟨h, hw.trans hslew⟩

/-- The neighbours that may be the upstream. -/
theorem canSource_began {master : Bool} {x : TimePeer} : canSource (s.began 10) master x = true ↔
    s.portState x.port = stSealed ∧ (master = true ∨ x.port.val < 28) := by
  simp only [canSource, portState_began, Bool.and_eq_true, beq_iff_eq, Bool.or_eq_true, decide_eq_true_eq]

end Join

/-! ### DEFECTS (R55, R221, R423, R424) -/

section Defects

variable {s : State} {df : DefectObs} {c : Cuvee}

theorem event_cores (code v : Nat) : (s.event code v).cores = s.cores := by
  unfold State.event
  dsimp only
  split <;> rfl

theorem faultSince_cores (before : State) : (s.faultSince before).cores = s.cores := by
  unfold State.faultSince
  split
  · rfl
  · exact event_cores _ _

theorem img_of_runsAndBeyond {t : State} (h : runsAndBeyond t = runsAndBeyond s) : t.img = s.img ∧ t.grp = s.grp := by
  simp only [runsAndBeyond, beyondTasks, Prod.mk.injEq] at h
  obtain ⟨-, -, -, -, himg, hgrp, -⟩ := h
  exact ⟨himg, hgrp⟩

/-- Does DEFECTS leave a partition DOWN? -/
abbrev partUnfit (vs : List Verdict) (p : PartCfg) : Bool := (maskClusters p.clusters).any (fun n => !clusterFit vs n)

/-- The mask of the partitions that DEFECTS leaves DOWN. -/
abbrev unfitMask (vs : List Verdict) (c : Cuvee) : Nat :=
  (c.parts.zipIdx.map (fun p => if partUnfit vs p.1 then 2 ^ p.2 else 0)).foldl (· + ·) 0

/-- The map of cores as DEFECTS builds it. -/
abbrev mapBuilt (s : State) (vs : List Verdict) : State := (List.range 32).foldl (fun u n => u.buildMap vs n) (vs.foldl State.unionLog s)

/-- The partitions as DEFECTS shows them. -/
def partsShown (s : State) (vs : List Verdict) (c : Cuvee) : State :=
  c.parts.zipIdx.foldl (fun s p => (s.setFlds [(fCtxPartClusters p.2, p.1.clusters.toNat), (fCtxPartComposition p.2, p.1.composition)]).setFlds
    (if partUnfit vs p.1 then [(fCtxPartState p.2, pDown), (fCtxPartDownReason p.2, drDefects)] else [])) s

theorem partsShown_cores (vs : List Verdict) : (partsShown s vs c).cores = s.cores :=
  foldl_keeps State.cores (fun _ _ => (setFlds_cores _ _).trans (setFlds_cores _ _)) _ s

/-- What DEFECTS keeps of adders and lanes. -/
abbrev unitsNoted (s : State) (vs : List Verdict) : State :=
  { s with
    grp := { s.grp with suspect := (vs.filter (fun v => v.kind == 8 && !v.usable)).map (·.unit) }
    img := { s.img with lanesBad := (vs.filter (fun v => v.kind == 7 && !v.usable)).map (·.unit) } }

theorem unitsNoted_cores (vs : List Verdict) : (unitsNoted s vs).cores = s.cores := rfl

/-- What DEFECTS shows of them. -/
abbrev defectsShown (s : State) (vs : List Verdict) (c : Cuvee) : State :=
  (partsShown (mapBuilt s vs) vs c).setFlds [(fBringDefectsDown, unfitMask vs c),
    (fBringDefectsFuseOnly, (vs.filter (fun v => v.fused && !v.failed)).length),
    (fBringDefectsTestOnly, (vs.filter (fun v => v.failed && !v.fused)).length),
    (fBringDefectsUnusable, ((List.range 576).filter (fun p => !coreUsableIn vs p)).length)]

theorem exec_defects (h : BringReady s 6) (hc : s.img.cfg = some c) : let vs := (s.began 6).defectVerdicts df
    exec (.defects df) s = .next (((unitsNoted (defectsShown (s.began 6) vs c) vs).faultSince (s.began 6)).reports
      (if c.parts.all (partUnfit vs) then 10 else if unfitMask vs c ≠ 0 then 9 else 0)) := by
  have hcfg : (s.began 6).img.cfg = some c := hc
  refine congrArg Host.Outcome.next ((startStep_ready h _ _).trans ?_)
  simp only [hcfg] <;> rfl

theorem defects_cores (vs : List Verdict) :
    ((unitsNoted (defectsShown s vs c) vs).faultSince s).cores = (mapBuilt s vs).cores :=
  (faultSince_cores _).trans ((unitsNoted_cores vs).trans ((setFlds_cores _ _).trans (partsShown_cores vs)))

theorem defects_units (vs : List Verdict) :
    ((unitsNoted (defectsShown s vs c) vs).faultSince s).grp.suspect = (vs.filter (fun v => v.kind == 8 && !v.usable)).map (·.unit)
      ∧ ((unitsNoted (defectsShown s vs c) vs).faultSince s).img.lanesBad = (vs.filter (fun v => v.kind == 7 && !v.usable)).map (·.unit) := by
  obtain ⟨himg, hgrp⟩ := img_of_runsAndBeyond (runsAndBeyond_faultSince (s := unitsNoted (defectsShown s vs c) vs) s)
  rw [himg, hgrp]
  exact ⟨rfl, rfl⟩

end Defects

/-! ### Out of order, and the end of a step (R420, R421, R431) -/

section Ends

variable {s : State}

theorem exec_openStep_busy (h : Taken s rBringCtl) (hb : s.fld fBringStateBusy = 1) :
    exec .openStep s = .next ((s.setFld fBringCtlStep 11).setFld fBringStateResult 2) :=
  congrArg Host.Outcome.next ((hostWrite_taken _ _ _ h).trans (if_pos (bit_of_fld hb)))

theorem exec_openStep_early (h : Taken s rBringCtl) (hb : s.bit fBringStateBusy = false) (hd : s.stepDone 10 = false) :
    exec .openStep s = .next ((s.setFld fBringCtlStep 11).setFld fBringStateResult 1) := by
  have horder : (!s.auxDone) = true ∨ s.stepDone 11 = true ∨ 11 ≥ 2 ∧ (!s.stepDone (11 - 1)) = true :=
    .inr (.inr ⟨by decide, by simp only [Nat.reduceSub, hd, Bool.not_false]⟩)
  exact congrArg Host.Outcome.next ((hostWrite_taken _ _ _ h).trans ((if_neg (Bool.eq_false_iff.mp hb)).trans (if_pos horder)))

/-- Does a port still attest? -/
abbrev stillAttests (s : State) : Prop := ∃ p < 32, bitsOf (s.fld fSecPortsPorts) (2 * p + 1) (2 * p) = 3

theorem secureWaits_iff : s.secureWaits = true ↔
    s.fld fBringStateStep = 9 ∧ s.img.stepRes = 0 ∧ s.time < s.img.stepAt + 12 * 10 ^ 9 ∧ stillAttests s := by
  simp only [State.secureWaits, brDone, Bool.and_eq_true, beq_iff_eq, decide_eq_true_eq, List.any_eq_true, List.mem_range, and_assoc]

/-- The ended step shows its result and its time. -/
abbrev stepShown (s : State) (ms : Nat) : State :=
  s.setFlds [(fBringStateBusy, 0), (fBringStateResult, s.img.stepRes), (fBringTimeStepMs, ms)]

/-- A step that ended well is marked done, and its time counts. -/
abbrev stepCounted (s : State) (ms : Nat) : State :=
  let a := stepShown s ms
  (a.setFld fBringStateDone (a.fld fBringStateDone ||| 2 ^ (s.fld fBringStateStep - 1))).setFld fBringTimeTotalMs
    (a.fld fBringTimeTotalMs + ms)

/-- What the end of step n brings with it. -/
def stepClosed (s : State) (n : Nat) (ok : Bool) : State :=
  if ok ∧ n = 11 then s.opened else if ok ∧ n = 2 then s.powered else if n = 5 then s.screenEnd else if ok ∧ n = 10 then s.joinEnd else s

theorem opened_img : s.opened.img = s.img := by
  refine (img_of_runsAndBeyond (runsAndBeyond_faultSince _)).1.trans ?_
  split <;> rfl

theorem pwrShow_img : s.pwrShow.img = s.img := by
  refine (img_of_runsAndBeyond (runsAndBeyond_faultSince _)).1.trans ?_
  split
  · rfl
  · exact (img_of_runsAndBeyond (runsAndBeyond_event _ _)).1

/-- A stage that still precharges stands by, or carries the load. -/
def precharged (f : Fld) (cold : Bool) (s : State) : State := if s.fld f = 1 then s.setFld f (if cold then 2 else 3) else s

theorem precharged_img (f : Fld) (cold : Bool) : (precharged f cold s).img = s.img := by
  unfold precharged
  split <;> rfl

theorem powered_img : s.powered.img = s.img := by
  have hpowered : s.powered = (precharged fPwrFeedBState (s.bit fPwrFeedMode && !s.bit fPwrFeedPrimary)
    (precharged fPwrFeedAState (s.bit fPwrFeedMode && s.bit fPwrFeedPrimary) s)).pwrShow := rfl
  rw [hpowered, pwrShow_img, precharged_img, precharged_img]

theorem screenEnd_img : s.screenEnd.img = s.img := by
  refine (setFld_img _ _ _).trans (foldl_keeps State.img (fun t a => ?_) _ s)
  split <;> rfl

theorem stepClosed_img (n : Nat) (ok : Bool) : (stepClosed s n ok).img = s.img := by
  unfold stepClosed
  split
  · exact opened_img
  split
  · exact powered_img
  split
  · exact screenEnd_img
  split
  · exact congrArg Prod.fst joinPart_joinEnd
  · rfl

/-- Did the running step end well? -/
abbrev stepOk (s : State) : Bool := s.img.stepRes == brDone || s.img.stepRes == brPartDown

theorem exec_stepResult {ms : BitVec 32} (hb : s.bit fBringStateBusy = true) (hw : s.secureWaits = false) (hr : s.img.result = none) :
    exec (.stepResult ms) s = .next
      (stepClosed (if stepOk s then stepCounted s ms.toNat else stepShown s ms.toNat) (s.fld fBringStateStep) (stepOk s)) := by
  have hruns : ¬((!s.bit fBringStateBusy) = true ∨ s.secureWaits = true) := by
    simp only [hb, hw, Bool.not_true, Bool.false_eq_true, or_self, not_false_eq_true]
  have hnone : (stepClosed (if stepOk s then stepCounted s ms.toNat else stepShown s ms.toNat) (s.fld fBringStateStep) (stepOk s)).img.result
      = none := by
    rw [stepClosed_img, ← hr]
    split <;> rfl
  unfold stepClosed at hnone ⊢
  refine congrArg Host.Outcome.next ((if_neg hruns).trans ?_)
  dsimp only
  rw [hnone]

theorem exec_stepResult_waits {ms : BitVec 32} (hw : s.secureWaits = true) : exec (.stepResult ms) s = .next s := congrArg _ (if_pos (.inr hw))

theorem stepOk_of {r : Nat} (h : s.img.stepRes = r) : stepOk s = (r == brDone || r == brPartDown) := by rw [stepOk, h]

theorem stepOk_failed (h0 : s.img.stepRes ≠ 0) (h9 : s.img.stepRes ≠ 9) : stepOk s = false := by
  simp only [stepOk, brDone, brPartDown, Bool.or_eq_false_iff, beq_eq_false_iff_ne]
  exact ⟨h0, h9⟩

theorem secureWaits_other (h : s.fld fBringStateStep ≠ 9 ∨ s.img.stepRes ≠ 0) : s.secureWaits = false := by
  refine Bool.eq_false_iff.mpr fun hw => ?_
  obtain ⟨hstep, hres, -⟩ := secureWaits_iff.mp hw
  exact h.elim (· hstep) (· hres)

/-- A step that ended well. -/
theorem exec_stepResult_done {ms : BitVec 32} {t : State} (hb : s.bit fBringStateBusy = true) (hr : s.img.result = none)
    (hw : s.secureWaits = false) (hok : stepOk s = true) (ht : stepClosed (stepCounted s ms.toNat) (s.fld fBringStateStep) true = t) :
    exec (.stepResult ms) s = .next t := by
  rw [exec_stepResult hb hw hr, hok, if_pos rfl, ht]

/-- A step that failed. -/
theorem exec_stepResult_failed {ms : BitVec 32} {t : State} (hb : s.bit fBringStateBusy = true) (hr : s.img.result = none)
    (hw : s.secureWaits = false) (hok : stepOk s = false) (ht : stepClosed (stepShown s ms.toNat) (s.fld fBringStateStep) false = t) :
    exec (.stepResult ms) s = .next t := by
  rw [exec_stepResult hb hw hr, hok, if_neg Bool.false_ne_true, ht]

/-- The end of a step that brings nothing with it. -/
theorem stepClosed_plain {n : Nat} (h11 : n ≠ 11) (h2 : n ≠ 2) (h5 : n ≠ 5) (h10 : n ≠ 10) (ok : Bool) : stepClosed s n ok = s := by
  simp only [stepClosed, h11, h2, h5, h10, and_false, if_false]

theorem stepClosed_open {n : Nat} (h : n = 11) : stepClosed s n true = s.opened := if_pos ⟨rfl, h⟩

theorem stepClosed_power {n : Nat} (h : n = 2) : stepClosed s n true = s.powered := by
  simp only [stepClosed, h, Nat.reduceEqDiff, and_false, and_true, if_false, if_true]

theorem stepClosed_screen {n : Nat} (h : n = 5) : stepClosed s n true = s.screenEnd := by
  simp only [stepClosed, h, Nat.reduceEqDiff, and_false, if_false, if_true]

theorem stepClosed_join {n : Nat} (h : n = 10) : stepClosed s n true = s.joinEnd := by
  simp only [stepClosed, h, Nat.reduceEqDiff, and_false, and_true, if_false, if_true]

theorem stepClosed_failed {n : Nat} : stepClosed s n false = if n = 5 then s.screenEnd else s := by
  simp only [stepClosed, Bool.false_eq_true, false_and, if_false]

end Ends

/-! ### The statement -/

/-- Settles O29: each step by its lemma from the state it starts from, each end by what `stepClosed` brings with it. -/
theorem bringUpSteps : Obligations.BringUpSteps := by
  constructor
  case left =>
    intro s ok key rail tr sc df jn
    refine ⟨fun h => ⟨fun hr => (exec_image h).trans (congrArg _ (if_neg hr)), fun hr => (exec_image h).trans (congrArg _ (if_pos hr))⟩,
      fun h => ⟨exec_power_off h, exec_power h, power_noFeed, fun hoff hA =>
        ⟨power_feedA hoff hA, power_feedA hoff hA⟩, exec_power h⟩,
      fun h => ⟨exec_clocks (locked := true) h, exec_clocks (locked := false) h⟩, fun h => congrArg _ (startStep_ready h _ _),
      fun _ => exec_memscreen_full, fun _ => exec_memscreen_short,
      exec_links, exec_cabling, fun h => ⟨exec_secure_begins h, exec_secure_refused h⟩,
      fun h hroot => ?root, fun h hlower hnear => ?upstream, fun c h hc => congrArg _ (startStep_ready h _ _), fun c h hc =>
        ⟨_, exec_defects h hc, defects_cores _, defects_units _⟩,
      exec_openStep_busy, exec_openStep_early⟩
    case root =>
      have hisRoot : s.isRoot jn.joined = true := List.all_eq_true.mpr fun n hn => decide_eq_true (hroot n hn)
      exact ⟨_, exec_join_root h hisRoot, joined_root⟩
    case upstream =>
      obtain ⟨n, hn, hlt⟩ := hlower
      have hnotRoot : s.isRoot jn.joined = false :=
        Bool.eq_false_iff.mpr fun hc => absurd (of_decide_eq_true (List.all_eq_true.mp hc n hn)) (Nat.not_le.mpr hlt)
      obtain ⟨x, hx, hcan⟩ := hnear
      cases hq : (s.began 10).pickUpstream (s.isMaster jn.joined) jn.peers with
      | none =>
        have hno := List.all_eq_true.mp ((pickUpstream_none_iff _).mp hq) x hx
        rw [canSource_began (master := s.isMaster jn.joined) |>.mpr hcan] at hno
        exact absurd hno (by decide)
      | some q =>
        obtain ⟨hmem, hqcan, hbest⟩ := pickUpstream_some hq
        exact ⟨_, q, exec_join_upstream h hnotRoot hq, ⟨hmem, canSource_began.mp hqcan⟩,
          fun y hy => hbest y hy.1 (canSource_began.mpr hy.2), joined_upstream q s.time⟩
  case right =>
    intro s ms hb hr
    refine ⟨fun h9 h0 ht hat => exec_stepResult_waits (secureWaits_iff.mpr ⟨h9, h0, ht, hat⟩),
      fun h0 h9 h5 => ?failed, fun h0 h9 h5 => ?screenFailed, fun h0 h2 h5 h10 h11 hw => ?plain, fun h0 h5 => ?screened, fun h0 h10 => ?joined,
      fun h0 h2 => ?powered, fun h9 h6 => ?partDown, fun h0 h11 => ?opened⟩
    case failed => exact exec_stepResult_failed hb hr (secureWaits_other (.inr h0)) (stepOk_failed h0 h9) (stepClosed_failed.trans (if_neg h5))
    case screenFailed =>
      exact exec_stepResult_failed hb hr (secureWaits_other (.inr h0)) (stepOk_failed h0 h9) (stepClosed_failed.trans (if_pos h5))
    case plain =>
      have hwaits : s.secureWaits = false := by
        refine Bool.eq_false_iff.mpr fun hc => ?_
        obtain ⟨h9, -, ht, hat⟩ := secureWaits_iff.mp hc
        exact (hw h9).elim (Nat.not_le.mpr ht) (· hat)
      exact exec_stepResult_done hb hr hwaits (stepOk_of h0) (stepClosed_plain h11 h2 h5 h10 true)
    case screened => exact exec_stepResult_done hb hr (secureWaits_other (.inl (by omega))) (stepOk_of h0) (stepClosed_screen h5)
    case joined => exact exec_stepResult_done hb hr (secureWaits_other (.inl (by omega))) (stepOk_of h0) (stepClosed_join h10)
    case powered => exact exec_stepResult_done hb hr (secureWaits_other (.inl (by omega))) (stepOk_of h0) (stepClosed_power h2)
    case partDown =>
      exact exec_stepResult_done hb hr (secureWaits_other (.inl (by omega))) (stepOk_of h9) (stepClosed_plain (by omega) (by omega) (by omega) (by omega) true)
    case opened => exact exec_stepResult_done hb hr (secureWaits_other (.inl (by omega))) (stepOk_of h0) (stepClosed_open h11)

end Sys2Proof.Proofs
end

section
/-! SUPPORT. Attestation and link keys: a port's record after a change, the messages in order, the switch of keys, rekeys, and the statement on them. -/

namespace Sys2Proof.Proofs

open Sys2Proof Sys2Proof.Machine

variable {s : State}

/-! ### A port's record -/

section Records

variable {p : Nat}

theorem att_modAtt (f : Attest → Attest) : ((s.modAtt p f).portSt p).att = f (s.portSt p).att := by
  rw [State.modAtt, portSt_modPort]

theorem att_noteTheirs (code : Nat) (params : List Byte) : ((s.noteTheirs p code params).portSt p).att =
    { (s.portSt p).att with theirs := (s.portSt p).att.theirs ++ [(ctlFlit code params).bytes] } := att_modAtt _

theorem attesting_iff : s.attesting p = true ↔ s.portState p = 2 ∧ (s.portSt p).att.begun = true := by
  simp only [State.attesting, stPlain, Bool.and_eq_true, beq_iff_eq]

end Records

variable {p : Port} {half : Fin 2} {bytes : List Byte}

/-! ### HELLO (R441, R445) -/

section Hello

variable {node : Node} {port : Port}

/-- A HELLO joins the transcript. -/
abbrev helloNoted (s : State) (p : Port) (bytes : List Byte) (node : Node) (port : Port) : State :=
  (s.modAtt p (fun a => { a with helloIn := true, since := some (a.since.getD s.time) })).noteTheirs p 0x10 (helloParams bytes node.toNat port)

/-- The node and port that IDENT showed. -/
abbrev sameAsSeen (s : State) (p : Port) (node : Node) (port : Port) : Prop :=
  node.toNat = s.fld (fLnkPortCableSeenNode p) ∧ port.val = s.fld (fLnkPortCableSeenPort p)

theorem helloNoted_att : ((helloNoted s p bytes node port).portSt p).att.begun = (s.portSt p).att.begun := by
  rw [att_noteTheirs, att_modAtt]

theorem exec_hello_refused (h : (s.portSt p).att.refused = true) : exec (.hello p bytes node port) s = .next s := congrArg _ (if_pos (.inr (.inr h)))

theorem hello_taken (hp : s.portState p = 2) (hin : (s.portSt p).att.helloIn = false) (hr : (s.portSt p).att.refused = false) :
    ¬(s.portState p ≠ stPlain ∨ (s.portSt p).att.helloIn = true ∨ (s.portSt p).att.refused = true) := by
  simp only [hp, hin, hr, stPlain, ne_eq, not_true, Bool.false_eq_true, or_self, not_false_eq_true]

theorem sameAsSeen_ok (h : sameAsSeen s p node port) :
    ¬(node.toNat ≠ s.fld (fLnkPortCableSeenNode p) ∨ port.val ≠ s.fld (fLnkPortCableSeenPort p)) :=
  fun hc => hc.elim (· h.1) (· h.2)

theorem exec_hello_answers (hp : s.portState p = 2) (hin : (s.portSt p).att.helloIn = false) (hr : (s.portSt p).att.refused = false)
    (hs : sameAsSeen s p node port) (hb : (s.portSt p).att.begun = true) :
    exec (.hello p bytes node port) s = .next ((helloNoted s p bytes node port).sendCert p) :=
  congrArg Host.Outcome.next ((if_neg (hello_taken hp hin hr)).trans ((if_neg (sameAsSeen_ok hs)).trans
    (if_pos ((attesting_iff (s := helloNoted s p bytes node port)).mpr ⟨hp, helloNoted_att.trans hb⟩))))

theorem exec_hello_early (hp : s.portState p = 2) (hin : (s.portSt p).att.helloIn = false) (hr : (s.portSt p).att.refused = false)
    (hs : sameAsSeen s p node port) (hb : (s.portSt p).att.begun = false) (hd : s.stepDone 9 = false) :
    exec (.hello p bytes node port) s = .next (helloNoted s p bytes node port) := by
  have hidle : ¬(helloNoted s p bytes node port).attesting p = true := fun hc =>
    Bool.false_ne_true (hb.symm.trans (helloNoted_att.symm.trans (attesting_iff.mp hc).2))
  exact congrArg Host.Outcome.next ((if_neg (hello_taken hp hin hr)).trans ((if_neg (sameAsSeen_ok hs)).trans
    ((if_neg hidle).trans (if_neg (Bool.eq_false_iff.mp hd)))))

theorem exec_hello_stranger (hp : s.portState p = 2) (hin : (s.portSt p).att.helloIn = false) (hr : (s.portSt p).att.refused = false)
    (hs : ¬sameAsSeen s p node port) : exec (.hello p bytes node port) s = .next ((helloNoted s p bytes node port).sendRefuse p 5) :=
  congrArg Host.Outcome.next ((if_neg (hello_taken hp hin hr)).trans (if_pos (Decidable.not_and_iff_or_not.mp hs)))

end Hello

/-! ### CERT (R440–R442) -/

section Cert

variable {off : BitVec 16}

/-- The certificates with one more fragment. -/
abbrev certGrown (s : State) (p : Port) (off : BitVec 16) (bytes : List Byte) : List Byte :=
  let c := (s.portSt p).att.peerCert
  c.take off.toNat ++ List.replicate (off.toNat - c.length) 0#8 ++ bytes.take 56 ++ c.drop (off.toNat + (bytes.take 56).length)

/-- A CERT joins the transcript. -/
abbrev certNoted (s : State) (p : Port) (off : BitVec 16) (bytes : List Byte) : State :=
  (s.modAtt p (fun a => { a with peerCert := certGrown s p off bytes })).noteTheirs p 0x11 (certParams off.toNat bytes)

theorem exec_cert (ha : s.attesting p = true) (hin : (s.portSt p).att.helloIn = true) (hc : (s.portSt p).att.certOk = false) :
    exec (.cert p off bytes) s = .next (
      let b := certGrown s p off bytes
      let t := certNoted s p off bytes
      if !certWhole b then t
      else if s.certReason b ≠ 0 then t.sendRefuse p (s.certReason b)
      else
        let f := (t.modAtt p (fun a => { a with certOk := true })).takeScalar
        (f.2.modAtt p (fun a => { a with secret := f.1 })).sendHalves p 0x12 (publicKey f.1)) :=
  congrArg _ (if_neg (by simp only [ha, hin, hc, Bool.not_true, Bool.false_eq_true, or_self, not_false_eq_true]))

theorem exec_cert_part (ha : s.attesting p = true) (hin : (s.portSt p).att.helloIn = true) (hc : (s.portSt p).att.certOk = false)
    (hw : certWhole (certGrown s p off bytes) = false) : exec (.cert p off bytes) s = .next (certNoted s p off bytes) :=
  (exec_cert ha hin hc).trans (congrArg _ (if_pos (by rw [hw]; rfl)))

theorem certWhole_goes {b : List Byte} (hw : certWhole b = true) : ¬(!certWhole b) = true := by
  rw [hw]
  decide

theorem exec_cert_refused (ha : s.attesting p = true) (hin : (s.portSt p).att.helloIn = true) (hc : (s.portSt p).att.certOk = false)
    (hw : certWhole (certGrown s p off bytes) = true) (hr : s.certReason (certGrown s p off bytes) ≠ 0) : exec (.cert p off bytes) s =
    .next ((certNoted s p off bytes).sendRefuse p (s.certReason (certGrown s p off bytes))) :=
  (exec_cert ha hin hc).trans (congrArg _ ((if_neg (certWhole_goes hw)).trans (if_pos hr)))

theorem exec_cert_accepted (ha : s.attesting p = true) (hin : (s.portSt p).att.helloIn = true) (hc : (s.portSt p).att.certOk = false)
    (hw : certWhole (certGrown s p off bytes) = true) (hr : s.certReason (certGrown s p off bytes) = 0) : exec (.cert p off bytes) s = .next (
      let f := ((certNoted s p off bytes).modAtt p (fun a => { a with certOk := true })).takeScalar
      (f.2.modAtt p (fun a => { a with secret := f.1 })).sendHalves p 0x12 (publicKey f.1)) :=
  (exec_cert ha hin hc).trans (congrArg _ ((if_neg (certWhole_goes hw)).trans (if_neg (not_not.mpr hr))))

theorem takeScalar_bounds : 1 ≤ s.takeScalar.1 ∧ s.takeScalar.1 < p384n := by
  have hmod : fromLe (s.takeBytes 6).1 % (p384n - 1) < p384n - 1 := Nat.mod_lt _ (by decide)
  have heq : s.takeScalar.1 = 1 + fromLe (s.takeBytes 6).1 % (p384n - 1) := rfl
  generalize fromLe (s.takeBytes 6).1 % (p384n - 1) = r at hmod heq
  generalize p384n = n at hmod
  omega

/-! The checks of certificates, in their order (R441, R442). -/

variable {c : List Byte}

theorem certReason_chain (h : Config.certChainOk Config.deviceCaKeyHash c = false) : s.certReason c = 1 := if_pos (by rw [h]; rfl)

theorem certReason_chained (h : Config.certChainOk Config.deviceCaKeyHash c = true) : s.certReason c =
    if field (Config.certMeasure8 c) 6 1 ≠ 0 ∨ field (Config.certMeasure8 c) 7 1 ≠ 0 then 2
    else if field (Config.certMeasure8 c) 0 2 < s.flash.svnFloor then 3
    else if (Config.certOwner c).toNat ≠ s.fld fSecOwnerKeyId then 4
    else 0 := if_neg (by rw [h]; decide)

theorem certReason_locked (h : Config.certChainOk Config.deviceCaKeyHash c = true) (h6 : field (Config.certMeasure8 c) 6 1 = 0)
    (h7 : field (Config.certMeasure8 c) 7 1 = 0) : s.certReason c =
    if field (Config.certMeasure8 c) 0 2 < s.flash.svnFloor then 3
    else if (Config.certOwner c).toNat ≠ s.fld fSecOwnerKeyId then 4
    else 0 :=
  (certReason_chained h).trans (if_neg fun hc => hc.elim (· h6) (· h7))

theorem certReason_new (h : Config.certChainOk Config.deviceCaKeyHash c = true) (h6 : field (Config.certMeasure8 c) 6 1 = 0)
    (h7 : field (Config.certMeasure8 c) 7 1 = 0) (hv : s.flash.svnFloor ≤ field (Config.certMeasure8 c) 0 2) :
    s.certReason c = if (Config.certOwner c).toNat ≠ s.fld fSecOwnerKeyId then 4 else 0 :=
  (certReason_locked h h6 h7).trans (if_neg (Nat.not_lt.mpr hv))

end Cert

/-! ### SHARE, PROOF, FINISH (R441–R443) -/

section Halves

/-- A SHARE joins the transcript. -/
abbrev shareNoted (s : State) (p : Port) (half : Fin 2) (bytes : List Byte) : State :=
  (s.modAtt p (fun b => { b with shares := (s.portSt p).att.shares ||| 2 ^ half.val, shareIn := insertKey (s.portSt p).att.shareIn half bytes })).noteTheirs
    p 0x12 (halfParams half bytes)

theorem exec_share (ha : s.attesting p = true) (hc : (s.portSt p).att.certOk = true) (h3 : (s.portSt p).att.shares ≠ 3) :
    exec (.share p half bytes) s = .next (
      if (s.portSt p).att.shares ||| 2 ^ half.val ≠ 3 then shareNoted s p half bytes
      else ((shareNoted s p half bytes).firstKeys p).sendHalves p 0x13
        (((shareNoted s p half bytes).firstKeys p).aliasSign (((shareNoted s p half bytes).firstKeys p).transcript p 0x12))) :=
  congrArg _ (if_neg (by simp only [ha, hc, h3, Bool.not_true, Bool.false_eq_true, or_self, not_false_eq_true]))

/-- A PROOF joins the transcript. -/
abbrev proofNoted (s : State) (p : Port) (half : Fin 2) (bytes : List Byte) : State :=
  (s.modAtt p (fun b => { b with proofs := (s.portSt p).att.proofs ||| 2 ^ half.val, proofIn := insertKey (s.portSt p).att.proofIn half bytes })).noteTheirs
    p 0x13 (halfParams half bytes)

theorem proofNoted_in : ((proofNoted s p half bytes).portSt p).att.proofIn = insertKey (s.portSt p).att.proofIn half.val bytes := by
  rw [att_noteTheirs, att_modAtt]

/-- Does the peer's signature over the transcript verify? -/
abbrev proofHolds (s : State) (p : Port) (half : Fin 2) (bytes : List Byte) : Bool :=
  ecdsaOk (Config.certAliasKey (s.portSt p).att.peerCert) ((proofNoted s p half bytes).transcript p 0x12)
    (joinHalves (insertKey (s.portSt p).att.proofIn half.val bytes))

theorem exec_proof (ha : s.attesting p = true) (hs : (s.portSt p).att.shares = 3) (h3 : (s.portSt p).att.proofs ≠ 3) :
    exec (.proof p half bytes) s = .next (
      if (s.portSt p).att.proofs ||| 2 ^ half.val ≠ 3 then proofNoted s p half bytes
      else if !proofHolds s p half bytes then (proofNoted s p half bytes).sendRefuse p 6
      else ((proofNoted s p half bytes).modAtt p (fun a => { a with finishOut := true })).sendAttest p 0x14
        (finishParams (hmac384 (s.portSt p).att.finKey ((proofNoted s p half bytes).transcript p 0x13)))) := by
  rw [proofHolds, ← proofNoted_in]
  exact congrArg _ (if_neg (by simp only [ha, hs, h3, Bool.not_true, Bool.false_eq_true, ne_eq, not_true, or_self, not_false_eq_true]))

theorem exec_finish (ha : s.attesting p = true) (hout : (s.portSt p).att.finishOut = true) (hin : (s.portSt p).att.finishIn = false) :
    exec (.finish p bytes) s = .next (
      if bytes ≠ hmac384 (s.portSt p).att.finKey (s.transcript p 0x13) then s.sendRefuse p 6
      else (s.modAtt p (fun a => { a with finishIn := true })).sendKeySwitch p false) :=
  congrArg _ (if_neg (by simp only [ha, hout, hin, Bool.not_true, Bool.false_eq_true, or_self, not_false_eq_true]))

end Halves

/-! ### KEY_SWITCH (R443, R444) -/

section Switch

theorem awaitsSwitch_iff {rekey : Bool} : s.awaitsSwitch p rekey = true ↔
    (rekey = true ∧ s.portState p = 3 ∧ (s.portSt p).rxNext ≠ [])
      ∨ (rekey = false ∧ s.attesting p = true ∧ (s.portSt p).att.finishOut = true ∧ (s.portSt p).att.finishIn = true) := by
  cases rekey
  · simp [State.awaitsSwitch, and_assoc]
  · simp [State.awaitsSwitch, stSealed]

theorem exec_keySwitchAck {n : Nat} {seq : BitVec 14} {rekey : Bool} (ht : (s.portSt p).att.txNamed = some n) (hn : n % 2 ^ 14 = seq.toNat) :
    exec (.keySwitchAck p seq rekey) s = .next (s.modAtt p (fun a => { a with acked := true })) :=
  congrArg _ (if_pos (by rw [ht, Option.map_some, hn]))

/-- The state once one direction has taken its next key. -/
abbrev keyTaken (s : State) (p : Port) (tx : Bool) : State := s.modPort p (fun x => x.switchKey tx)

/-- A rekey is over. -/
abbrev rekeyOver (s : State) (p : Port) : State := s.modAtt p (fun a => { a with rekey := false, rekeyShares := 0, rekeyIn := [] })

theorem keyTaken_att (tx : Bool) : ((keyTaken s p tx).portSt p).att = ((s.portSt p).switchKey tx).att := by rw [portSt_modPort]

/-- Neither direction has a key left to take. -/
abbrev bothTaken (x : PortSt) : Prop := x.att.txNamed = none ∧ x.att.rxNamed = none

theorem exec_keySwitchBlock_early {tx : Bool} (h : (s.portSt p).keyReached tx = false) : exec (.keySwitchBlock p tx) s = .next s :=
  congrArg _ (if_pos (.inr (by rw [h]; rfl)))

theorem exec_keySwitchBlock {tx : Bool} (hup : s.portUp p = true) (h : (s.portSt p).keyReached tx = true) :
    exec (.keySwitchBlock p tx) s = .next (
      let x := (s.portSt p).switchKey tx
      let u := if bothTaken x then rekeyOver (keyTaken s p tx) p else keyTaken s p tx
      if s.portState p = 2 ∧ x.att.txSealed = true ∧ x.att.rxSealed = true then
        (((u.modAtt p (fun a => { a with begun := false })).setSecPort p 1).setPortState p 3 0).admitPort p
      else u) := by
  have hgoes : ¬((!s.portUp p) = true ∨ (!(s.portSt p).keyReached tx) = true) := by
    simp only [hup, h, Bool.not_true, Bool.false_eq_true, or_self, not_false_eq_true]
  refine congrArg Host.Outcome.next ((if_neg hgoes).trans ?_)
  dsimp only
  rw [keyTaken_att]
  by_cases hb : bothTaken ((s.portSt p).switchKey tx)
  · simp only [if_pos hb]
    rfl
  · simp only [if_neg hb]
    rfl

/-- The other direction still has a key to take. -/
theorem exec_keySwitchBlock_first {tx : Bool} (hup : s.portUp p = true) (h : (s.portSt p).keyReached tx = true)
    (hother : ¬bothTaken ((s.portSt p).switchKey tx))
    (hsealed : ¬(s.portState p = 2 ∧ ((s.portSt p).switchKey tx).att.txSealed = true ∧ ((s.portSt p).switchKey tx).att.rxSealed = true)) :
    exec (.keySwitchBlock p tx) s = .next (keyTaken s p tx) := by
  rw [exec_keySwitchBlock hup h]
  simp only [if_neg hother, if_neg hsealed]

/-- Both directions have taken theirs, on a port in service or one that is not sealed both ways. -/
theorem exec_keySwitchBlock_rekeyed {tx : Bool} (hup : s.portUp p = true) (h : (s.portSt p).keyReached tx = true)
    (hboth : bothTaken ((s.portSt p).switchKey tx))
    (hsealed : ¬(s.portState p = 2 ∧ ((s.portSt p).switchKey tx).att.txSealed = true ∧ ((s.portSt p).switchKey tx).att.rxSealed = true)) :
    exec (.keySwitchBlock p tx) s = .next (rekeyOver (keyTaken s p tx) p) := by
  rw [exec_keySwitchBlock hup h]
  simp only [if_pos hboth, if_neg hsealed]

/-- With both directions sealed the port is UP_SEALED. -/
theorem exec_keySwitchBlock_sealed {tx : Bool} (hup : s.portUp p = true) (h : (s.portSt p).keyReached tx = true)
    (hboth : bothTaken ((s.portSt p).switchKey tx))
    (hsealed : s.portState p = 2 ∧ ((s.portSt p).switchKey tx).att.txSealed = true ∧ ((s.portSt p).switchKey tx).att.rxSealed = true) :
    exec (.keySwitchBlock p tx) s = .next
      (((((rekeyOver (keyTaken s p tx) p).modAtt p (fun a => { a with begun := false })).setSecPort p 1).setPortState p 3 0).admitPort p) := by
  rw [exec_keySwitchBlock hup h]
  simp only [if_pos hboth, if_pos hsealed]

theorem keyReached_tx {n : Nat} (h : (s.portSt p).att.txNamed = some n) : (s.portSt p).keyReached true = decide (n ≤ (s.portSt p).txCtr) := by
  simp only [PortSt.keyReached, h, if_true, Option.any_some]

theorem keyReached_rx {n : Nat} (h : (s.portSt p).att.rxNamed = some n) : (s.portSt p).keyReached false = decide (n ≤ (s.portSt p).rxCtr) := by
  simp only [PortSt.keyReached, h, Bool.false_eq_true, if_false, Option.any_some]

/-- The receiving direction under its next key from block n on. -/
theorem keyTaken_rx {n : Nat} (h : (s.portSt p).att.rxNamed = some n) : keyTaken s p false = s.modPort p (fun x => { x with
    rxOld := x.rxKey, rxKey := x.rxNext, rxNext := [], rxFrom := n, att := { x.att with rxNamed := none, rxSealed := true } }) :=
  modPort_congr (by simp only [PortSt.switchKey, h, Bool.false_eq_true, if_false, Option.getD_some])

theorem notReached {n ctr : Nat} {b : Bool} (h : b = decide (n ≤ ctr)) (hn : ctr < n) : b = false :=
  h.trans (decide_eq_false (Nat.not_le.mpr hn))

theorem reached {n ctr : Nat} {b : Bool} (h : b = decide (n ≤ ctr)) (hn : n ≤ ctr) : b = true := h.trans (decide_eq_true hn)

/-- A port in service, or one whose other direction is not sealed, stays as it is. -/
theorem notSealedNow {st : Nat} {mine other : Bool} (h : st = 3 ∨ other = false) : ¬(st = 2 ∧ mine = true ∧ other = true) := by
  rintro ⟨h2, -, ho⟩
  exact h.elim (fun h3 => absurd (h2.symm.trans h3) (by decide)) (fun hf => Bool.false_ne_true (hf.symm.trans ho))

theorem keySwitchBlock_tx {n : Nat} (hup : s.portUp p = true) (hn : (s.portSt p).att.txNamed = some n) :
    ((s.portSt p).txCtr < n → exec (.keySwitchBlock p true) s = .next s)
    ∧ (n ≤ (s.portSt p).txCtr → (s.portSt p).att.rxNamed.isSome = true → s.portState p = 3 ∨ (s.portSt p).att.rxSealed = false →
      exec (.keySwitchBlock p true) s = .next (keyTaken s p true))
    ∧ (n ≤ (s.portSt p).txCtr → (s.portSt p).att.rxNamed = none → s.portState p = 3 ∨ (s.portSt p).att.rxSealed = false →
      exec (.keySwitchBlock p true) s = .next (rekeyOver (keyTaken s p true) p))
    ∧ (n ≤ (s.portSt p).txCtr → (s.portSt p).att.rxNamed = none → s.portState p = 2 → (s.portSt p).att.rxSealed = true →
      exec (.keySwitchBlock p true) s = .next
        (((((rekeyOver (keyTaken s p true) p).modAtt p (fun a => { a with begun := false })).setSecPort p 1).setPortState p 3 0).admitPort p)) := by
  refine ⟨fun hc => exec_keySwitchBlock_early (notReached (keyReached_tx hn) hc), fun hc hrx hs => ?_, fun hc hrx hs => ?_, fun hc hrx h2 hs => ?_⟩
  · exact exec_keySwitchBlock_first hup (reached (keyReached_tx hn) hc) (fun hb => Option.isSome_iff_ne_none.mp hrx hb.2) (notSealedNow hs)
  · exact exec_keySwitchBlock_rekeyed hup (reached (keyReached_tx hn) hc) ⟨rfl, hrx⟩ (notSealedNow hs)
  · exact exec_keySwitchBlock_sealed hup (reached (keyReached_tx hn) hc) ⟨rfl, hrx⟩ ⟨h2, rfl, hs⟩

theorem keySwitchBlock_rx {n : Nat} (hup : s.portUp p = true) (hn : (s.portSt p).att.rxNamed = some n) {t : State}
    (ht : keyTaken s p false = t) :
    ((s.portSt p).rxCtr < n → exec (.keySwitchBlock p false) s = .next s)
    ∧ (n ≤ (s.portSt p).rxCtr → (s.portSt p).att.txNamed.isSome = true → s.portState p = 3 ∨ (s.portSt p).att.txSealed = false →
      exec (.keySwitchBlock p false) s = .next t)
    ∧ (n ≤ (s.portSt p).rxCtr → (s.portSt p).att.txNamed = none → s.portState p = 2 → (s.portSt p).att.txSealed = true →
      exec (.keySwitchBlock p false) s = .next
        (((((rekeyOver t p).modAtt p (fun a => { a with begun := false })).setSecPort p 1).setPortState p 3 0).admitPort p)) := by
  subst ht
  refine ⟨fun hc => exec_keySwitchBlock_early (notReached (keyReached_rx hn) hc), fun hc htx hs => ?_, fun hc htx h2 hs => ?_⟩
  · exact exec_keySwitchBlock_first hup (reached (keyReached_rx hn) hc) (fun hb => Option.isSome_iff_ne_none.mp htx hb.1)
      (fun h => notSealedNow hs ⟨h.1, h.2.2, h.2.1⟩)
  · exact exec_keySwitchBlock_sealed hup (reached (keyReached_rx hn) hc) ⟨htx, rfl⟩ ⟨h2, hs, rfl⟩

end Switch

/-! ### Rekeys (R444) -/

section Rekeys

/-- A half of the peer's fresh share is kept. -/
abbrev rekeyNoted (s : State) (p : Port) (half : Fin 2) (bytes : List Byte) : State :=
  s.modAtt p (fun b => { b with
    rekeyShares := (s.portSt p).att.rekeyShares ||| 2 ^ half.val, rekeyIn := insertKey (s.portSt p).att.rekeyIn half bytes })

theorem exec_rekey_spent (hp : s.portState p = 3) (hk : s.keySpent p = true) : exec (.rekey p half bytes) s = .next (s.keyStop p) :=
  congrArg Host.Outcome.next ((if_neg (not_not.mpr hp)).trans (if_pos hk))

theorem exec_rekeyDue_spent (hp : s.portState p = 3) (hk : s.keySpent p = true) : exec (.rekeyDue p) s = .next (s.keyStop p) :=
  congrArg Host.Outcome.next ((if_neg (not_not.mpr hp)).trans (if_pos hk))

theorem exec_rekeyRetry_spent (hp : s.portState p = 3) (hk : s.keySpent p = true) : exec (.rekeyRetry p) s = .next (s.keyStop p) :=
  congrArg Host.Outcome.next ((if_neg (not_not.mpr hp)).trans (if_pos hk))

theorem exec_rekey (hp : s.portState p = 3) (hk : s.keySpent p = false) : exec (.rekey p half bytes) s = .next (
    if (s.portSt p).att.rekeyShares = 3 ∨ (s.lowerNode p ∧ !(s.portSt p).att.rekey) then s
    else if (s.portSt p).att.rekeyShares ||| 2 ^ half.val ≠ 3 then rekeyNoted s p half bytes
    else ((if s.lowerNode p then rekeyNoted s p half bytes else (rekeyNoted s p half bytes).sendRekey p).nextKeys p).sendKeySwitch p true) :=
  congrArg Host.Outcome.next ((if_neg (not_not.mpr hp)).trans (if_neg (Bool.eq_false_iff.mp hk)))

theorem exec_rekey_unasked (hp : s.portState p = 3) (hk : s.keySpent p = false) (hl : s.lowerNode p = true)
    (hr : (s.portSt p).att.rekey = false) : exec (.rekey p half bytes) s = .next s :=
  (exec_rekey hp hk).trans (congrArg _ (if_pos (.inr ⟨hl, by rw [hr]; rfl⟩)))

/-- Does a rekey take a share: from the lower node, or the answer to one of its own? -/
theorem rekey_taken (h3 : (s.portSt p).att.rekeyShares ≠ 3) (h : s.lowerNode p = false ∨ (s.portSt p).att.rekey = true) :
    ¬((s.portSt p).att.rekeyShares = 3 ∨ (s.lowerNode p = true ∧ (!(s.portSt p).att.rekey) = true)) := by
  rintro (hc | ⟨hl, hr⟩)
  · exact h3 hc
  · obtain hn | hn := h
    · exact Bool.false_ne_true (hn.symm.trans hl)
    · rw [hn] at hr
      exact Bool.false_ne_true hr

theorem exec_rekey_taken (hp : s.portState p = 3) (hk : s.keySpent p = false) (h3 : (s.portSt p).att.rekeyShares ≠ 3)
    (h : s.lowerNode p = false ∨ (s.portSt p).att.rekey = true) : exec (.rekey p half bytes) s = .next (
    if (s.portSt p).att.rekeyShares ||| 2 ^ half.val ≠ 3 then rekeyNoted s p half bytes
    else ((if s.lowerNode p then rekeyNoted s p half bytes else (rekeyNoted s p half bytes).sendRekey p).nextKeys p).sendKeySwitch p true) :=
  (exec_rekey hp hk).trans (congrArg _ (if_neg (rekey_taken h3 h)))

theorem exec_rekey_agreed (hp : s.portState p = 3) (hk : s.keySpent p = false) (h3 : (s.portSt p).att.rekeyShares ≠ 3)
    (hl : s.lowerNode p = true) (hr : (s.portSt p).att.rekey = true) (hn : (s.portSt p).att.rekeyShares ||| 2 ^ half.val = 3) :
    exec (.rekey p half bytes) s = .next (((rekeyNoted s p half bytes).nextKeys p).sendKeySwitch p true) := by
  rw [exec_rekey_taken hp hk h3 (.inr hr), if_neg (not_not.mpr hn), if_pos hl]

theorem exec_rekey_answers (hp : s.portState p = 3) (hk : s.keySpent p = false) (h3 : (s.portSt p).att.rekeyShares ≠ 3)
    (hl : s.lowerNode p = false) (hn : (s.portSt p).att.rekeyShares ||| 2 ^ half.val = 3) :
    exec (.rekey p half bytes) s = .next ((((rekeyNoted s p half bytes).sendRekey p).nextKeys p).sendKeySwitch p true) := by
  rw [exec_rekey_taken hp hk h3 (.inl hl), if_neg (not_not.mpr hn), if_neg (Bool.eq_false_iff.mp hl)]

theorem exec_rekeyDue (hp : s.portState p = 3) (hk : s.keySpent p = false) : exec (.rekeyDue p) s = .next (
    if s.lowerNode p ∧ !(s.portSt p).att.rekey then (s.modAtt p (fun a => { a with rekeyShares := 0, rekeyIn := [] })).sendRekey p else s) :=
  congrArg Host.Outcome.next ((if_neg (not_not.mpr hp)).trans (if_neg (Bool.eq_false_iff.mp hk)))

theorem exec_rekeyRetry (hp : s.portState p = 3) (hk : s.keySpent p = false) : exec (.rekeyRetry p) s = .next (
    if s.lowerNode p ∧ (s.portSt p).att.rekey ∧ (s.portSt p).att.rekeyShares ≠ 3 then
      (s.sendCtl p 0x1A (halfParams 0 (publicKey (s.portSt p).att.rekeySecret))).sendCtl p 0x1A
        (halfParams 1 ((publicKey (s.portSt p).att.rekeySecret).drop 48))
    else s) :=
  congrArg Host.Outcome.next ((if_neg (not_not.mpr hp)).trans (if_neg (Bool.eq_false_iff.mp hk)))

end Rekeys

/-! ### The statement -/

/-- Settles O45: each message by the lemma on it, in its turn or out of it. -/
theorem linksAttest : Obligations.LinksAttest := by
  intro p half bytes s
  refine ⟨fun node port _ => exec_hello_refused, fun node port hp hin hr => ⟨exec_hello_answers hp hin hr, exec_hello_early hp hin hr,
      exec_hello_stranger hp hin hr⟩,
    fun ha => ⟨fun off hin hc => ⟨exec_cert_part ha hin hc, exec_cert_refused ha hin hc, fun hw hr => ?accepted⟩, fun c => ?reasons,
      fun hc h3 => ⟨fun hn => ?half, fun hn => ?shares⟩, fun hs h3 => ⟨fun hn => ?proofHalf, fun hn hok => ?proofBad, fun hn hok => ?proofGood⟩,
      fun hout hin => ⟨fun hm => ?macGood, fun hm => ?macBad⟩, fun hin => congrArg _ (if_pos ⟨ha, hin⟩),
      fun hin => congrArg _ (if_neg fun hc => Bool.eq_false_iff.mp hin hc.2)⟩,
    fun _ hp => congrArg _ (if_pos hp), fun _ _ hw => congrArg _ (if_pos (by rw [hw]; rfl)), fun _ => awaitsSwitch_iff,
    fun _ _ hw => congrArg _ (if_neg (by rw [hw]; decide)), fun _ _ _ => exec_keySwitchAck,
    fun hup => ⟨fun n hn => keySwitchBlock_tx hup hn, fun n hn => keySwitchBlock_rx hup hn (keyTaken_rx hn)⟩,
    fun hp => ⟨fun hk => ⟨exec_rekey_spent hp hk, exec_rekeyDue_spent hp hk, exec_rekeyRetry_spent hp hk⟩,
      fun hk h3 => ⟨exec_rekey_unasked hp hk, fun h hn => (exec_rekey_taken hp hk h3 h).trans (congrArg _ (if_pos hn)), exec_rekey_agreed hp hk h3,
        exec_rekey_answers hp hk h3⟩, fun hk hl hr => ?due, fun hk hl hr h3 => ?retry, fun hk h => ?answered, fun hk hl => ?higher⟩⟩
  case accepted =>
    obtain ⟨hlow, hhigh⟩ := takeScalar_bounds (s := (certNoted s p off bytes).modAtt p (fun a => { a with certOk := true }))
    exact ⟨hlow, hhigh, exec_cert_accepted ha hin hc hw hr⟩
  case reasons =>
    exact ⟨certReason_chain, fun hc => ⟨fun h => (certReason_chained hc).trans (if_pos h), fun h6 h7 =>
      ⟨fun hv => (certReason_locked hc h6 h7).trans (if_pos hv), fun hv => ⟨fun ho => (certReason_new hc h6 h7 hv).trans (if_pos ho),
        fun ho => (certReason_new hc h6 h7 hv).trans (if_neg (not_not.mpr ho))⟩⟩⟩⟩
  case half => exact (exec_share ha hc h3).trans (congrArg _ (if_pos hn))
  case shares => exact (exec_share ha hc h3).trans (congrArg _ (if_neg (not_not.mpr hn)))
  case proofHalf => exact (exec_proof ha hs h3).trans (congrArg _ (if_pos hn))
  case proofBad =>
    have hbad : (!proofHolds s p half bytes) = true := congrArg not hok
    exact (exec_proof ha hs h3).trans (congrArg _ ((if_neg (not_not.mpr hn)).trans (if_pos hbad)))
  case proofGood =>
    have hgood : ¬(!proofHolds s p half bytes) = true := fun hc => Bool.false_ne_true ((congrArg not hok).symm.trans hc)
    exact (exec_proof ha hs h3).trans (congrArg _ ((if_neg (not_not.mpr hn)).trans (if_neg hgood)))
  case macGood => exact (exec_finish ha hout hin).trans (congrArg _ (if_neg (not_not.mpr hm)))
  case macBad => exact (exec_finish ha hout hin).trans (congrArg _ (if_pos hm))
  case due => exact (exec_rekeyDue hp hk).trans (congrArg _ (if_pos ⟨hl, congrArg not hr⟩))
  case retry => exact (exec_rekeyRetry hp hk).trans (congrArg _ (if_pos ⟨hl, hr, h3⟩))
  case answered =>
    refine (exec_rekeyRetry hp hk).trans (congrArg _ (if_neg fun hc => ?_))
    exact h.elim (fun h3 => hc.2.2 h3) (fun hl => Bool.eq_false_iff.mp hl hc.1)
  case higher => exact (exec_rekeyDue hp hk).trans (congrArg _ (if_neg fun hc => Bool.eq_false_iff.mp hl hc.1))

end Sys2Proof.Proofs
end

section
/-! SUPPORT. Resets and starts: what ending the work in flight leaves, what a warm reset starts with, the banks that the auxiliary stage
tries, RST.CTL, and the statement on them. -/

namespace Sys2Proof.Proofs

open Sys2Proof Sys2Proof.Machine

variable {s : State}

/-! ### Work in flight ends before a reset (R248, R400, R407) -/

section Isolation

/-- Flash, and the commands that wait. -/
def flashPending (s : State) := (s.flash, s.pending)

theorem flashPending_logged {e : ErrArg} (he : e.cls = 0) : flashPending (s.log e) = flashPending s := by
  have hpending : (s.log e).pending = s.pending := by
    have h := runsAndBeyond_log (s := s) e
    simp only [runsAndBeyond, beyondTasks, Prod.mk.injEq] at h
    obtain ⟨-, -, -, -, -, -, -, -, -, -, -, -, -, hp, -⟩ := h
    exact hp
  simp only [flashPending, flash_log_corrected he, hpending]

theorem flashPending_cacheRun (u : Option Nat) (ctx va n : Nat) : flashPending (s.cacheRun u ctx va n) = flashPending s := by
  unfold State.cacheRun
  split
  · rfl
  · refine foldl_keeps flashPending (fun t p => ?_) _ _
    unfold State.cacheNote
    split <;> rfl

theorem flashPending_activate (a n : Nat) : flashPending (s.activate a n) = flashPending s := by
  unfold State.activate
  split
  · rfl
  · refine foldl_keeps flashPending (fun t r => ?_) _ _
    unfold State.activateRow
    dsimp only
    split <;> rfl

theorem flashPending_homeWrite (src : Node) (ctx tag a : Nat) (d : List Byte) :
    flashPending (s.homeWrite src ctx tag a d).1 = flashPending s := by
  unfold State.homeWrite
  split
  · exact flashPending_activate a d.length
  · exact flashPending_logged rfl

theorem flashPending_writeRunVia (u : Option Nat) (ctx va : Nat) (d : List Byte) (far : FarReply) :
    flashPending (s.writeRunVia u ctx va d far).1 = flashPending s := by
  unfold State.writeRunVia
  split
  · rfl
  · refine (foldl_fst_keeps flashPending (fun q p => ?_) _ _).trans (flashPending_cacheRun u ctx va d.length)
    dsimp only
    split
    · exact flashPending_homeWrite ..
    · rfl

theorem flashPending_markLine (line : Nat) : flashPending (s.markLine line) = flashPending s := by
  unfold State.markLine State.dueRow
  dsimp only
  split
  · rfl
  · split
    · split <;> rfl
    · rfl

theorem flashPending_forget (a n : Nat) : flashPending (s.forget a n) = flashPending s := rfl

theorem flashPending_undefineRunVia (u : Option Nat) (ctx va n : Nat) (marks : List Nat) :
    flashPending (s.undefineRunVia u ctx va n marks) = flashPending s :=
  (foldl_keeps flashPending (fun _ _ => foldl_keeps flashPending (fun _ _ => flashPending_markLine _) _ _) _ _).trans
    (foldl_keeps flashPending (fun _ _ => flashPending_forget _ _) _ _)

theorem flashPending_copyRecord (c : Copy) (status parts : Nat) : flashPending (s.copyRecord c status parts) = flashPending s := rfl

theorem flashPending_copyFinish (i : Nat) (c : Copy) (recordOk : Bool) (sink : FarReply) :
    flashPending (s.copyFinish i c recordOk sink) = flashPending s := by
  unfold State.copyFinish
  dsimp only
  split
  · rfl
  · split
    · refine (flashPending_copyRecord _ _ _).trans ?_
      split
      · exact flashPending_writeRunVia ..
      · rfl
    · rfl

theorem flashPending_endCopies (status : Nat) : flashPending (s.endCopies status) = flashPending s := by
  refine (foldl_keeps flashPending (fun t c => ?_) _ _).trans rfl
  refine (flashPending_copyFinish ..).trans ?_
  exact foldl_keeps flashPending (fun _ _ => flashPending_undefineRunVia ..) _ _

theorem flashPending_collLost (n status : Nat) : flashPending (s.collLost n status) = flashPending s := by
  unfold State.collLost
  split
  · split
    · rfl
    · split
      · exact flashPending_undefineRunVia ..
      · rfl
  · rfl

theorem flashPending_collEnd (n status offender : Nat) : flashPending (s.collEnd n status offender) = flashPending s := by
  unfold State.collEnd
  split <;> rfl

theorem flashPending_endCollectives (status : Nat) : flashPending (s.endCollectives status) = flashPending s :=
  foldl_keeps flashPending (fun _ _ => (flashPending_collEnd ..).trans (flashPending_collLost ..)) s.grp.inflight s

theorem flashPending_flushSince (before : State) : flashPending (s.flushSince before) = flashPending s := by
  refine foldl_keeps flashPending (fun t w => ?_) _ _
  dsimp only
  split <;> rfl

theorem flashPending_isolate (cause : Nat) : flashPending (s.isolate cause) = flashPending s := by
  have hended : flashPending ((s.endCollectives 0x0A).endCopies 0x09) = flashPending s :=
    (flashPending_endCopies _).trans (flashPending_endCollectives _)
  unfold State.isolate
  dsimp only
  split
  · rfl
  · split
    · exact hended
    · exact (flashPending_flushSince _).trans hended

end Isolation

/-! ### A warm reset (R405–R408) -/

section Starts

/-- What the statement says of a warm reset: the number of starts, the commands that wait, the management key, the cores, memory and the
queues. -/
def startPart (s : State) := (s.flash.boot, s.pending, s.mgmt.key, s.cores, s.mem, s.que)

theorem startPart_setFld (f : Fld) (v : Nat) : startPart (s.setFld f v) = startPart s := rfl

theorem startPart_setFlds (l : List (Fld × Nat)) : startPart (s.setFlds l) = startPart s := by
  simp only [startPart, setFlds_flash, setFlds_pending, setFlds_mgmt, setFlds_cores, setFlds_mem, setFlds_que]

theorem startPart_event (code v : Nat) : startPart (s.event code v) = startPart s := by
  unfold State.event
  dsimp only
  split <;> rfl

theorem startPart_faultSince (before : State) : startPart (s.faultSince before) = startPart s := by
  unfold State.faultSince
  split
  · rfl
  · exact startPart_event _ _

theorem startPart_pwrShow : startPart s.pwrShow = startPart s := by
  have hshown (l : List (Fld × Nat)) (c : Prop) [Decidable c] (code v : Nat) :
      startPart (if c then s.setFlds l else (s.setFlds l).event code v) = startPart s := by
    split
    · exact startPart_setFlds l
    · exact (startPart_event _ _).trans (startPart_setFlds l)
  exact (startPart_faultSince _).trans (hshown _ _ _ _)

theorem startPart_loadFlash : startPart s.loadFlash = startPart s := by
  unfold State.loadFlash
  dsimp only
  exact (startPart_setFlds _).trans ((startPart_setFlds _).trans (startPart_setFlds _))

theorem startPart_freshNonce : startPart s.freshNonce = startPart s := rfl

theorem atReset_boot (f : Flash) : f.atReset.boot = f.boot := by
  unfold Flash.atReset
  dsimp only
  split <;> split <;> rfl

theorem flashCut_boot : s.flashCut.boot = s.flash.boot := by
  unfold State.flashCut
  split <;> rfl

/-- A start has everything at reset, but counts itself and leaves the commands that wait. -/
theorem startPart_restart (cause code aux : Nat) : startPart (s.restart cause code aux)
    = (s.flash.boot + 1, s.pending, State.reset.mgmt.key, State.reset.cores, State.reset.mem, State.reset.que) := by
  have hkept := flashPending_isolate (s := s) cause
  simp only [flashPending, Prod.mk.injEq] at hkept
  obtain ⟨hflash, hpending⟩ := hkept
  unfold State.restart
  dsimp only
  rw [startPart_freshNonce, startPart_setFlds, startPart_loadFlash]
  generalize s.isolate cause = t at hflash hpending ⊢
  have hboot : t.flashCut.atReset.boot = s.flash.boot := by rw [atReset_boot, flashCut_boot, hflash]
  simp only [startPart, Flash.wrote, hboot, hpending]

/-- A warm reset is a start that keeps the management key. -/
theorem startPart_warm (cause code aux : Nat) : startPart (s.warm cause code aux)
    = (s.flash.boot + 1, s.pending, s.mgmt.key, State.reset.cores, State.reset.mem, State.reset.que) := by
  have hstart := startPart_restart (s := s) cause code (if s.pins.perst then 0 else aux)
  unfold State.warm
  generalize s.restart cause code (if s.pins.perst then 0 else aux) = s0 at hstart ⊢
  simp only [startPart, Prod.mk.injEq] at hstart
  obtain ⟨hboot, hpending, -, hcores, hmem, hque⟩ := hstart
  refine startPart_pwrShow.trans ((startPart_setFld _ _).trans ((startPart_setFlds _).trans ?_))
  dsimp only
  split <;> simp only [startPart, hboot, hpending, hcores, hmem, hque]

/-! A cold reset (R405, R419, R456): a start without VAUX's domain, and a seal loop that is open then zeroises. -/

theorem exec_coldReset_closed : exec (.coldReset true) s = .next
    (({ s.restart caCold 0 (if s.pins.perst then 0 else 1) with
      pins := { s.pins with vaux := true, held := none }
      sec := { (s.restart caCold 0 (if s.pins.perst then 0 else 1)).sec with pressed := s.pins.presence } } : State).setFld
        fSecStateSealClosed 1) := rfl

theorem exec_coldReset_open : exec (.coldReset false) s = .next
    ((({ s.restart caCold 0 (if s.pins.perst then 0 else 1) with
      pins := { s.pins with vaux := true, held := none }
      sec := { (s.restart caCold 0 (if s.pins.perst then 0 else 1)).sec with pressed := s.pins.presence } } : State).setFld
        fSecStateSealClosed 0).zeroise) := rfl

/-! The resets of PCIe without VAUX (R508), the end of PERST_N (R419), and VAUX that is lost (R405). -/

theorem exec_perstAssert_dark (hv : s.pins.vaux = false) :
    exec .perstAssert s = .next { s with pins := { s.pins with perst := true } } :=
  congrArg Host.Outcome.next (if_neg (Bool.eq_false_iff.mp hv))

theorem exec_hotReset_dark (hv : s.pins.vaux = false) : exec .hotReset s = .next s :=
  congrArg Host.Outcome.next (if_neg (Bool.eq_false_iff.mp hv))

theorem exec_flr_dark (hv : s.pins.vaux = false) : exec .flr s = .next s :=
  congrArg Host.Outcome.next (if_neg (Bool.eq_false_iff.mp hv))

theorem exec_perstDeassert (hv : s.pins.vaux = true) (hp : s.pins.perst = true) (ha : s.fld fBringStateAux = 0) :
    exec .perstDeassert s = .next (({ s with pins := { s.pins with perst := false } } : State).setFld fBringStateAux 1) :=
  congrArg Host.Outcome.next (if_pos ⟨hp, hv, ha⟩)

theorem exec_vauxLoss (hv : s.pins.vaux = true) (hA : s.pwr.validA = none) (hB : s.pwr.validB = none) (hr : s.railsUp = false) :
    exec .vauxLoss s = .next { State.reset with
      flash := s.flashCut, pins := { s.pins with vaux := false, held := none }, free := s.free, out := s.out, pending := s.pending } := by
  simp only [exec, execVauxLoss, hv, hA, hB, hr, Bool.not_true, Option.isSome_none, Bool.false_eq_true, or_self, if_false]

end Starts

/-! ### The auxiliary stage (R419, R462, R463) -/

section Banks

variable {firstOk otherOk : Bool}

theorem exec_auxDone (b o c : Bool) (ha : s.fld fBringStateAux < 2) (hp : s.pins.perst = false) (hv : s.pins.vaux = true) :
    exec (.auxDone b o c []) s = .next (s.loadFlash.bootBanks (b && c) o) := by
  refine congrArg Host.Outcome.next (if_neg ?_)
  simp only [hp, hv, Bool.not_true, Bool.false_eq_true, or_false]
  omega

theorem loadFlash_flash : s.loadFlash.flash = s.flash := by
  unfold State.loadFlash
  dsimp only
  rw [showSec_flash, setFlds_flash, setFlds_flash]

/-- No bundle activates: the active bank is good. -/
theorem bootBanks_active (h : s.activates = none) (hg : s.flash.bankOk s.flash.active firstOk = true) :
    s.bootBanks firstOk otherOk = (s.runs (s.flash.bank s.flash.active)).auxOk := by
  simp only [State.bootBanks, h, hg, if_true]

/-- It is not, but the other is. -/
theorem bootBanks_other (h : s.activates = none) (hg : s.flash.bankOk s.flash.active firstOk = false)
    (ho : s.flash.bankOk (1 - s.flash.active) otherOk = true) : s.bootBanks firstOk otherOk =
      (((s.setFld fSecFwstateFallback 1).fwFallback (1 - s.flash.active) (s.flash.bank (1 - s.flash.active)).vintage).runs
        (s.flash.bank (1 - s.flash.active))).auxOk := by
  simp only [State.bootBanks, h, hg, ho, Bool.false_eq_true, if_false, if_true]

/-- Neither is. -/
theorem bootBanks_neither (h : s.activates = none) (hg : s.flash.bankOk s.flash.active firstOk = false)
    (ho : s.flash.bankOk (1 - s.flash.active) otherOk = false) : s.bootBanks firstOk otherOk = s.auxFail := by
  simp only [State.bootBanks, h, hg, ho, Bool.false_eq_true, if_false]

/-- A bundle activates, and its bank is good: it becomes the active one. -/
theorem bootBanks_staged {w : FwStaged} (h : s.activates = some w) (hg : s.flash.bankOk (1 - s.flash.active) firstOk = true) :
    s.bootBanks firstOk otherOk = (({ s with flash := ({ s.flash with
      active := 1 - s.flash.active, staged := none, svnFloor := max s.flash.svnFloor w.bank.svn } : Flash).wrote 6 [1] }).runs
        (s.flash.bank (1 - s.flash.active))).auxOk := by
  simp only [State.bootBanks, h, hg, if_true]

/-- The state after a bundle was to activate and its bank failed. -/
def stagedFailed (s : State) (w : FwStaged) : State :=
  ({ s with flash := ({ s.flash with staged := some { w with failed := true } } : Flash).wrote 6 [1] }).fwFallback
    (1 - s.flash.active) w.bank.vintage

/-- Its bank is not good: the active one boots as before. -/
theorem bootBanks_kept {w : FwStaged} (h : s.activates = some w) (hg : s.flash.bankOk (1 - s.flash.active) firstOk = false)
    (ho : s.flash.bankOk s.flash.active otherOk = true) : s.bootBanks firstOk otherOk =
      ((stagedFailed s w).runs (s.flash.bank s.flash.active)).auxOk := by
  simp only [State.bootBanks, h, hg, ho, Bool.false_eq_true, if_false, if_true, stagedFailed]

theorem bootBanks_lost {w : FwStaged} (h : s.activates = some w) (hg : s.flash.bankOk (1 - s.flash.active) firstOk = false)
    (ho : s.flash.bankOk s.flash.active otherOk = false) : s.bootBanks firstOk otherOk = (stagedFailed s w).auxFail := by
  simp only [State.bootBanks, h, hg, ho, Bool.false_eq_true, if_false, stagedFailed]

end Banks

/-! ### RST.CTL (R410, R411, R432) -/

section Requests

variable {v : Word} {silent : List LCore} {failed : List TasteFail}

theorem rstCtl_go (op : Nat) : getBits (withOp v fRstCtlGo fRstCtlOp op) fRstCtlGo = 1 :=
  getBits_withOp_go op (by decide) (by decide) (by decide)

theorem rstCtl_op {op : Nat} (h : op < 8) : getBits (withOp v fRstCtlGo fRstCtlOp op) fRstCtlOp = op :=
  getBits_withOp_op (by decide) h

theorem rstCtl_parts (op : Nat) : getBits (withOp v fRstCtlGo fRstCtlOp op) fRstCtlParts = getBits v fRstCtlParts :=
  getBits_withOp op (by decide) (by decide) (by decide)

theorem rstCtl_hold (op : Nat) : getBits (withOp v fRstCtlGo fRstCtlOp op) fRstCtlHold = getBits v fRstCtlHold :=
  getBits_withOp op (by decide) (by decide) (by decide)

/-- While a request runs another is refused. -/
theorem rstCtlWrite_busy (op : Nat) (hb : s.fld fRstCtlBusy = 1) : s.rstCtlWrite (withOp v fRstCtlGo fRstCtlOp op) silent failed =
    (s.writeUnder takesAll rRstCtl (withOp v fRstCtlGo fRstCtlOp op)).setFld fRstCtlResult 3 := by
  simp only [State.rstCtlWrite, rstCtl_go, bit_of_fld hb, Nat.one_ne_zero, if_false, if_true]

/-- The partitions that a request names. -/
def rstParts (v : Word) : List Nat := maskParts (getBits v fRstCtlParts)

/-- DOMAIN: the resets of the partitions that it names. -/
def rstDomains (s : State) (v : Word) (silent : List LCore) : State :=
  (rstParts v).foldl (fun u p => u.domainReset p rcHost 0 0 (getBits v fRstCtlHold == 1) (some (silent.map Fin.val)))
    (s.writeUnder takesAll rRstCtl (withOp v fRstCtlGo fRstCtlOp 1))

theorem rstCtlWrite_domain (hb : s.bit fRstCtlBusy = false) : s.rstCtlWrite (withOp v fRstCtlGo fRstCtlOp 1) silent failed =
    if (rstParts v).any (fun p => s.fld (fCtxPartState p) == 0 || s.fld (fCtxPartState p) == 3) then
      (s.writeUnder takesAll rRstCtl (withOp v fRstCtlGo fRstCtlOp 1)).setFld fRstCtlResult 1
    else ((rstDomains s v silent).setFld fRstCtlResult 0).rstAwait
      ((rstParts v).filter (fun p => (rstDomains s v silent).cores.resetting.contains (.domain (partFin p)))) := by
  simp only [State.rstCtlWrite, rstCtl_go, rstCtl_op (op := 1) (by decide), rstCtl_parts, rstCtl_hold, hb, Nat.one_ne_zero,
    Bool.false_eq_true, if_false, rstDomains, rstParts, pClosed, pDown] <;> rfl

/-- RELEASE: a partition that was held is so no longer, and opens again where no reset of it runs. -/
def rstReleased (s : State) (v : Word) (failed : List TasteFail) : State :=
  (rstParts v).foldl (fun u p =>
      let w := u.setFld (fRstPartHeld p) 0
      if w.cores.resetting.contains (.domain (partFin p)) then w else w.reopen p failed)
    (s.writeUnder takesAll rRstCtl (withOp v fRstCtlGo fRstCtlOp 2))

theorem rstCtlWrite_release (hb : s.bit fRstCtlBusy = false) : s.rstCtlWrite (withOp v fRstCtlGo fRstCtlOp 2) silent failed =
    if (rstParts v).all (fun p => s.bit (fRstPartHeld p)) then (rstReleased s v failed).setFld fRstCtlResult 0
    else (s.writeUnder takesAll rRstCtl (withOp v fRstCtlGo fRstCtlOp 2)).setFld fRstCtlResult 2 := by
  have hheld : (rstParts v).any (fun p => !s.bit (fRstPartHeld p)) = !(rstParts v).all (fun p => s.bit (fRstPartHeld p)) :=
    List.not_all_eq_any_not.symm
  simp only [rstParts] at hheld
  split
  · next hall =>
    simp only [rstParts] at hall
    simp only [State.rstCtlWrite, rstCtl_go, rstCtl_op (op := 2) (by decide), rstCtl_parts, hb, Nat.one_ne_zero, hheld, hall, Bool.not_true,
      Bool.false_eq_true, if_false, rstReleased, rstParts]
  · next hall =>
    simp only [rstParts, Bool.not_eq_true] at hall
    simp only [State.rstCtlWrite, rstCtl_go, rstCtl_op (op := 2) (by decide), rstCtl_parts, hb, Nat.one_ne_zero, hheld, hall, Bool.not_false,
      Bool.false_eq_true, if_false, if_true]

theorem exec_domain (h : Taken s rRstCtl) :
    exec (.domain v silent) s = .next (s.rstCtlWrite (withOp v fRstCtlGo fRstCtlOp 1) silent []) :=
  congrArg Host.Outcome.next (hostWrite_taken _ _ _ h)

theorem exec_release (h : Taken s rRstCtl) :
    exec (.release v failed) s = .next (s.rstCtlWrite (withOp v fRstCtlGo fRstCtlOp 2) [] failed) :=
  congrArg Host.Outcome.next (hostWrite_taken _ _ _ h)

theorem exec_module_write (h : Taken s rRstCtl) :
    exec (.module v) s = .next (s.rstCtlWrite (withOp v fRstCtlGo fRstCtlOp 3) [] []) :=
  congrArg Host.Outcome.next (hostWrite_taken _ _ _ h)

end Requests

/-- Settles O50: each reset by the outcome of its guards, a warm one by the part that a start fills, the auxiliary stage by the bank that it
tries first, and RST.CTL by its operation. -/
theorem resetsStart : Obligations.ResetsStart := by
  unfold Obligations.ResetsStart
  intro v silent failed b c s
  dsimp only
  refine ⟨⟨exec_coldReset_closed, exec_coldReset_open⟩, fun hv => ⟨exec_perstAssert hv, exec_hotReset hv, exec_flr hv⟩,
    fun hv => ⟨exec_perstAssert_dark hv, exec_hotReset_dark hv, exec_flr_dark hv⟩, exec_perstDeassert, fun cause code aux => ?warm,
    fun ha hp hv => ⟨fun hn => ?own, fun w hw => ?bundle⟩, exec_vauxLoss, fun h => ⟨fun hb => ?busy, fun hb => ?idle⟩⟩
  case warm =>
    have h := startPart_warm (s := s) cause code aux
    simp only [startPart, Prod.mk.injEq] at h
    exact h
  case own =>
    have hflash := loadFlash_flash (s := s)
    refine ⟨fun hg o => ?_, fun hg => ⟨fun o ho => ?_, fun o ho => ?_⟩⟩ <;> rw [← hflash] at *
    · exact (exec_auxDone b o c ha hp hv).trans (congrArg _ (bootBanks_active hn hg))
    · exact (exec_auxDone b o c ha hp hv).trans (congrArg _ (bootBanks_other hn hg ho))
    · exact (exec_auxDone b o c ha hp hv).trans (congrArg _ (bootBanks_neither hn hg ho))
  case bundle =>
    have hflash := loadFlash_flash (s := s)
    refine ⟨fun hg o => ?_, fun hg => ⟨fun o ho => ?_, fun o ho => ?_⟩⟩ <;> rw [← hflash] at *
    · exact (exec_auxDone b o c ha hp hv).trans (congrArg _ (bootBanks_staged hw hg))
    · exact (exec_auxDone b o c ha hp hv).trans (congrArg _ (bootBanks_kept hw hg ho))
    · exact (exec_auxDone b o c ha hp hv).trans (congrArg _ (bootBanks_lost hw hg ho))
  case busy =>
    exact ⟨(exec_domain h).trans (congrArg _ (rstCtlWrite_busy 1 hb)), (exec_release h).trans (congrArg _ (rstCtlWrite_busy 2 hb)),
      (exec_module_write h).trans (congrArg _ (rstCtlWrite_busy 3 hb))⟩
  case idle =>
    have hbusy : s.bit fRstCtlBusy = false := by simp [State.bit, hb]
    have hdomain := (exec_domain (v := v) (silent := silent) h).trans (congrArg _ (rstCtlWrite_domain hbusy))
    have hrelease := (exec_release (v := v) (failed := failed) h).trans (congrArg _ (rstCtlWrite_release hbusy))
    exact ⟨fun hc => hdomain.trans (congrArg _ (if_pos hc)), fun hc => hdomain.trans (congrArg _ (if_neg (Bool.eq_false_iff.mp hc))),
      fun hr => hrelease.trans (congrArg _ (if_neg (Bool.eq_false_iff.mp hr))), fun hr => hrelease.trans (congrArg _ (if_pos hr)),
      exec_module h hb⟩

end Sys2Proof.Proofs
end
